-- ==== Sys2Proof/Word.lean ====
section
/-!
DEFINITION. The words, identifiers and the sparse map of the XF128 model.
Bit vectors stand for what the manual treats as bits (R5 to R7); counts and times are Nat or Int.
-/

namespace Sys2Proof

abbrev Byte := BitVec 8
abbrev Word32 := BitVec 32
abbrev Word64 := BitVec 64

/-- Ring id, 0 to 262,143 (R80). -/
abbrev RingId := BitVec 18
/-- Function F0 to F255 (R110). -/
abbrev FnId := BitVec 8
/-- Tag, 0 to 65,535 (R113). -/
abbrev TagId := BitVec 16
/-- Channel CHN[0] to CHN[127] (R9). -/
abbrev ChnId := BitVec 7
/-- Burin BUR[0] to BUR[63] (R9). -/
abbrev BurId := BitVec 6
/-- Rail group and PHY group G0 to G7 (R9). -/
abbrev GroupId := BitVec 3
/-- Die number, channel * 32 + volume * 4 + LUN (R170). -/
abbrev DieId := BitVec 12
/-- Actuator and DSP instance, 0 or 1 (R14). -/
abbrev ActId := BitVec 1
/-- Interrupt target, 0 to 7 (R360). -/
abbrev TgtId := BitVec 3
/-- Fabric port FAB[0] to FAB[3] (R18). -/
abbrev PortId := BitVec 2

/-- One of the 65 engines (R195). -/
inductive Engine where
  | bur (b : BurId)
  | graver
  deriving DecidableEq, Repr

/-- Engine number as NOTE.SEL and GLB.CS_VIEW count it: 0 to 63 Burins, 64 the Graver. -/
def Engine.num : Engine → Nat
  | .bur b => b.toNat
  | .graver => 64

/-- A sparse map from Nat keys: what is not listed reads as a default of the key. Canonical form: keys strictly
rising, no entry equal to its default. -/
abbrev SMap (α : Type) := List (Nat × α)

namespace SMap

/-- Read of one key. -/
def get {α : Type} (d : Nat → α) : SMap α → Nat → α
  | [], k => d k
  | (j, v) :: r, k => if j = k then v else get d r k

/-- The map without a key. -/
def erase {α : Type} (k : Nat) : SMap α → SMap α
  | [] => []
  | (j, v) :: r => if j = k then erase k r else (j, v) :: erase k r

/-- Insertion before the first larger key. -/
def insert {α : Type} (k : Nat) (v : α) : SMap α → SMap α
  | [] => [(k, v)]
  | (j, w) :: r => if k < j then (k, v) :: (j, w) :: r else (j, w) :: insert k v r

/-- Write of one key, keeping the canonical form: a value equal to the default is not listed. -/
def put {α : Type} [DecidableEq α] (d : Nat → α) (m : SMap α) (k : Nat) (v : α) : SMap α :=
  if v = d k then erase k m else insert k v (erase k m)

/-- The keys rise strictly from above a bound. -/
def sortedFrom {α : Type} : Nat → SMap α → Bool
  | _, [] => true
  | b, (j, _) :: r => decide (b ≤ j) && sortedFrom (j + 1) r

/-- The canonical form. -/
def wf {α : Type} [DecidableEq α] (d : Nat → α) (m : SMap α) : Bool :=
  sortedFrom 0 m && m.all fun e => !decide (e.2 = d e.1)

end SMap

/-- Serial comparison of frame numbers (R8): A is later than B. -/
def frameLater (a b : Word32) : Bool :=
  let d := (a - b).toNat
  decide (1 ≤ d) && decide (d ≤ 2147483647)

/-- A difference of exactly 2^31: neither frame is later (R8). -/
def frameUndecidable (a b : Word32) : Bool := decide ((a - b).toNat = 2147483648)

/-- Time stamp or deadline: 32-bit frame and 16-bit fraction (R132). -/
structure Stamp where
  frame : Word32
  frac : BitVec 16
  deriving DecidableEq, Repr

/-- Rounded-up division. -/
def ceilDiv (a b : Nat) : Nat := (a + b - 1) / b

/-- Saturation of a count. -/
def satTo (limit n : Nat) : Nat := if n ≤ limit then n else limit

/-- Signed clamp. -/
def clampInt (x lo hi : Int) : Int := if x < lo then lo else if hi < x then hi else x

/-- A one-bit flag as a number. -/
def bit (b : Bool) : Nat := if b then 1 else 0

end Sys2Proof
end

