-- ==== Sys2Proof/Syntax.lean ====
section
/-!
DEFINITION. The commands of the XF128: one constructor per row of spec/opcode_table.json. The operands are what the
outside gives a command: the fields of a register write, the payload of a fabric return, a pin or pad value, or which
ring, tag, die, channel or engine the command is about.
-/

namespace Sys2Proof

/-- The outbound fabric streams whose credits the interconnect returns (02 Table 2.6). -/
inductive FabStream where
  | rq | wq | wd
  deriving DecidableEq, Repr

/-- The registers whose writes collect a raw command (09 R224). -/
inductive RawReg where
  | cmd | addr | data
  deriving DecidableEq, Repr

/-- What has flipped in a word since the last cc when the scrubber reads it (17 R393, R394): nothing, a bit that is
corrected, or a byte or granule beyond correction. -/
inductive ScrubFind where
  | clean
  | corrected (byte : BitVec 6) (bit : BitVec 3)
  | uncorrectable
  deriving DecidableEq, Repr

/-- One register page with a header (03 Table 3.1). -/
inductive Page where
  | glb | tmb | rif | ops | sch | dpt | ecc | lvl
  | dsp (a : ActId)
  | pwr | map | irq
  | irqt (t : TgtId)
  | note | rst | mem | sec | peer | grv
  | bur (b : BurId)
  | chn (c : ChnId)
  deriving DecidableEq, Repr

/-- A command of the block. Each docstring gives its row's rule. -/
inductive Instr where
  /-- POR (R377). -/
  | por
  /-- SYS_RESET (R378). -/
  | sysReset
  /-- SW_WARM (R378). -/
  | swWarm
  /-- SW_COLD (R378). -/
  | swCold
  /-- FRAME_WATCHDOG (R143). -/
  | frameWatchdog
  /-- MEM_UE (R394). -/
  | memUe (cls : BitVec 3) (addr : BitVec 24)
  /-- FUSE_PAR (R379). -/
  | fusePar (latched : Byte)
  /-- RESET_RELEASE (R382). -/
  | resetRelease (boot : BitVec 2) (clk : BitVec 2) (peer : BitVec 2) (fuses : Byte)
  /-- DOMAIN_RELEASE (R382). -/
  | domainRelease
  /-- CREDIT_RETURN (R31). -/
  | creditReturn (p : PortId) (stream : FabStream)
  /-- FAB_IDLE (R39). -/
  | fabIdle (p : PortId)
  /-- POLL_DUE (R101). -/
  | pollDue (r : RingId)
  /-- POLL_DATA (R102). -/
  | pollData (p : PortId) (tkt : BitVec 9) (beats : List (BitVec 512)) (stat : BitVec 2)
  /-- ENTRY_UNIT_DATA (R104). -/
  | entryUnitData (p : PortId) (tkt : BitVec 9) (beats : List (BitVec 512)) (stat : BitVec 2)
  /-- PREFETCH_DATA (R105). -/
  | prefetchData (p : PortId) (tkt : BitVec 9) (beats : List (BitVec 512)) (stat : BitVec 2)
  /-- CONTEXT_DATA (R84). -/
  | contextData (p : PortId) (tkt : BitVec 9) (beats : List (BitVec 512)) (stat : BitVec 2)
  /-- CONTEXT_WRITEBACK_RESPONSE (R83). -/
  | contextWritebackResponse (p : PortId) (tkt : BitVec 9) (stat : BitVec 2)
  /-- HEAD_REREAD (R90). -/
  | headReread (r : RingId)
  /-- HEAD_DATA (R90). -/
  | headData (p : PortId) (tkt : BitVec 9) (beats : List (BitVec 512)) (stat : BitVec 2)
  /-- POLL_DEMAND_UPDATE (R103). -/
  | pollDemandUpdate
  /-- ACTIVATE (R86). -/
  | activate (r : RingId)
  /-- FN_RESET (R111). -/
  | fnReset (f : FnId)
  /-- FN_RESET_DONE (R111). -/
  | fnResetDone (f : FnId)
  /-- INVAL_HOLD (R107). -/
  | invalHold (count : BitVec 15) (first : BitVec 15)
  /-- INVAL_RELEASE (R107). -/
  | invalRelease (count : BitVec 15) (first : BitVec 15)
  /-- READ (R116). -/
  | read (r : RingId)
  /-- READ_MP (R116). -/
  | readMp (r : RingId)
  /-- PROGRAM (R116). -/
  | program (r : RingId)
  /-- ERASE (R350). -/
  | erase (r : RingId)
  /-- DESTAGE (R288). -/
  | destage (r : RingId)
  /-- STAGE (R298). -/
  | stage (r : RingId)
  /-- COPY (R237). -/
  | copy (r : RingId)
  /-- FENCE (R123). -/
  | fence (r : RingId)
  /-- NOP (R115). -/
  | nop (r : RingId)
  /-- CENSUS (R339). -/
  | census (r : RingId)
  /-- CALIBRATE (R264). -/
  | calibrate (r : RingId)
  /-- FEATURE_GET (R92). -/
  | featureGet (r : RingId)
  /-- FEATURE_SET (R167). -/
  | featureSet (r : RingId)
  /-- RAW (R93). -/
  | raw (r : RingId)
  /-- FENCE_COMMIT (R123). -/
  | fenceCommit (t : TagId)
  /-- EXPIRY (R119). -/
  | expiry (t : TagId)
  /-- COMPLETION_WRITE (R98). -/
  | completionWrite (r : RingId)
  /-- COMPLETION_WRITE_RESPONSE (R98). -/
  | completionWriteResponse (p : PortId) (tkt : BitVec 9) (stat : BitVec 2)
  /-- DATA_WRITE_RESPONSE (R17). -/
  | dataWriteResponse (p : PortId) (tkt : BitVec 9) (stat : BitVec 2)
  /-- PROGRAM_DATA (R237). -/
  | programData (p : PortId) (tkt : BitVec 9) (beats : List (BitVec 512)) (stat : BitVec 2)
  /-- EARLY_POP (R129). -/
  | earlyPop
  /-- TAG_SEL (R114). -/
  | tagSel (t : TagId)
  /-- FRAME_TICK (R11). -/
  | frameTick
  /-- PLAN_PUBLISH (R150). -/
  | planPublish (c : ChnId)
  /-- PLAN_OVERRUN (R141). -/
  | planOverrun
  /-- CHECKPOINT_MISS (R142). -/
  | checkpointMiss (b : BurId)
  /-- PLAN_ADOPT (R213). -/
  | planAdopt (c : ChnId)
  /-- PLAN_SEL (R165). -/
  | planSel (c : ChnId)
  /-- DIE_SEL (R165). -/
  | dieSel (d : DieId)
  /-- WEDGE_TICK (R135). -/
  | wedgeTick
  /-- SERVO_SAMPLE (R44). -/
  | servoSample (a : ActId) (pos : BitVec 44)
  /-- SAMPLE_WAIT_EXPIRY (R135). -/
  | sampleWaitExpiry
  /-- MISS (R137). -/
  | miss
  /-- HOLD_EXPIRED (R139). -/
  | holdExpired
  /-- ACQUIRE_TIMEOUT (R139). -/
  | acquireTimeout
  /-- FRAME_WRITE (R144). -/
  | frameWrite (frame : Word32)
  /-- START_GRANT (R307). -/
  | startGrant (d : DieId)
  /-- RESUME (R158). -/
  | resume (d : DieId)
  /-- DATA_IN_RESTART (R149). -/
  | dataInRestart (d : DieId)
  /-- PLANNED_TRANSFER_START (R154). -/
  | plannedTransferStart (c : ChnId)
  /-- LATE_FILL (R155). -/
  | lateFill (c : ChnId)
  /-- SUSPEND_LATE (R160). -/
  | suspendLate (d : DieId)
  /-- STATUS_POLL (R171). -/
  | statusPoll (d : DieId)
  /-- DIE_TIMEOUT (R173). -/
  | dieTimeout (d : DieId)
  /-- LADDER_RETEST (R274). -/
  | ladderRetest (t : TagId)
  /-- JOB_PRESENT (R203). -/
  | jobPresent (e : Engine) (k : Bool)
  /-- CONT (R198). -/
  | contWord (e : Engine) (k : Bool)
  /-- JUMP (R198). -/
  | jumpWord (e : Engine) (k : Bool)
  /-- DISPATCH (R205). -/
  | dispatchWord (e : Engine) (k : Bool)
  /-- CALL (R198). -/
  | callWord (e : Engine) (k : Bool)
  /-- RETURN (R212). -/
  | returnWord (e : Engine) (k : Bool)
  /-- BRT (R198). -/
  | brtWord (e : Engine) (k : Bool)
  /-- BRF (R198). -/
  | brfWord (e : Engine) (k : Bool)
  /-- HALT (R198). -/
  | haltWord (e : Engine) (k : Bool)
  /-- WAIT_TIMER_EXPIRY (R200). -/
  | waitTimerExpiry (e : Engine) (k : Bool)
  /-- BUS_ACTION_END (R199). -/
  | busActionEnd (c : ChnId) (data : List Byte)
  /-- CODEWORD_RECEIVED (R239). -/
  | codewordReceived (c : ChnId) (bytes : List Byte)
  /-- HARD_CORRECTION_END (R241). -/
  | hardCorrectionEnd (c : ChnId) (flips : List Nat)
  /-- SOFT_DECODE_START (R245). -/
  | softDecodeStart (u : BitVec 5)
  /-- SOFT_DECODE_END (R245). -/
  | softDecodeEnd (u : BitVec 5) (flips : List Nat)
  /-- STAGING_REGRANT (R249). -/
  | stagingRegrant
  /-- CONTENTION (R189). -/
  | contention (c : ChnId) (pads : BitVec 17)
  /-- EARLY_CONTENTION_RETEST (R190). -/
  | earlyContentionRetest (c : ChnId) (pads : BitVec 17)
  /-- ZQ_UPDATE (R175). -/
  | zqUpdate (g : GroupId)
  /-- RETRAIN (R177). -/
  | retrain (c : ChnId)
  /-- RETRAIN_NOW (R177). -/
  | retrainNow (c : ChnId)
  /-- TRAIN_SEL (R193). -/
  | trainSel (c : ChnId) (vol : BitVec 3)
  /-- OWN_CMD_CLAIM (R187). -/
  | ownCmdClaim (c : ChnId)
  /-- OWN_CMD_RELEASE (R187). -/
  | ownCmdRelease (c : ChnId)
  /-- OWN_CMD_FORCE_CLAIM (R187). -/
  | ownCmdForceClaim (c : ChnId)
  /-- CLAIM (R187). -/
  | claim (msg : Word64)
  /-- GRANT (R187). -/
  | grant (msg : Word64)
  /-- RELEASE (R187). -/
  | release (msg : Word64)
  /-- HEARTBEAT_INFO (R186). -/
  | heartbeatInfo (msg : Word64)
  /-- TAKEOVER_NOTICE (R187). -/
  | takeoverNotice (msg : Word64)
  /-- MSG_ERROR (R183). -/
  | msgError (msg : Word64) (stop : Bool)
  /-- MESSAGE_SEND (R184). -/
  | messageSend
  /-- HEARTBEAT_INFO_SEND (R186). -/
  | heartbeatInfoSend
  /-- HEARTBEAT (R185). -/
  | heartbeat
  /-- PEER_HB_EDGE (R185). -/
  | peerHbEdge
  /-- PEER_LOST (R53). -/
  | peerLost
  /-- CLAIM_TIMEOUT (R187). -/
  | claimTimeout (c : ChnId)
  /-- BACKOFF_END (R191). -/
  | backoffEnd (c : ChnId)
  /-- RELEASE_COMPLETE (R187). -/
  | releaseComplete (c : ChnId)
  /-- TAKEOVER_END (R188). -/
  | takeoverEnd (c : ChnId)
  /-- DISP_SEL (R226). -/
  | dispSel (e : Engine) (idx : Byte)
  /-- LOAD_START (R217). -/
  | loadStart
  /-- LOAD_DATA (R217). -/
  | loadData (p : PortId) (tkt : BitVec 9) (beats : List (BitVec 512)) (stat : BitVec 2)
  /-- LOAD_VERIFY_END (R218). -/
  | loadVerifyEnd
  /-- BOOT_FETCH_TIMEOUT (R222). -/
  | bootFetchTimeout
  /-- ROLL_ADV (R220). -/
  | rollAdv (target : BitVec 7)
  /-- FUSE_BURN (R220). -/
  | fuseBurn
  /-- UNLOCK (R223). -/
  | unlock (key : BitVec 16)
  /-- RAW_START (R224). -/
  | rawStart (reg : RawReg) (data : Word64)
  /-- RAW_WAIT_TIMEOUT (R225). -/
  | rawWaitTimeout
  /-- LEVEL_LOAD (R259). -/
  | levelLoad (block : BitVec 14) (d : DieId)
  /-- FACTORY_LOCK_SET (R260). -/
  | factoryLockSet
  /-- TEMP_SAMPLE (R261). -/
  | tempSample (d : DieId)
  /-- TEMP_SEL (R280). -/
  | tempSel (d : DieId)
  /-- DESTAGE_RESOLVE (R289). -/
  | destageResolve (t : TagId)
  /-- WEDGE_DECISION (R287). -/
  | wedgeDecision (a : ActId)
  /-- FMT_TX_BEAT (R295). -/
  | fmtTxBeat (a : ActId)
  /-- FMT_RX_SECTOR (R298). -/
  | fmtRxSector (a : ActId) (bytes : List Byte) (bad : Bool)
  /-- FIREFLY_PULSE (R46). -/
  | fireflyPulse (a : ActId)
  /-- ISENSE_STROBE (R311). -/
  | isenseStrobe (g : GroupId) (code : BitVec 12)
  /-- RAIL_CMD_ON (R316). -/
  | railCmdOn (g : GroupId)
  /-- RAIL_CMD_OFF (R317). -/
  | railCmdOff (g : GroupId)
  /-- RAIL_PGOOD_RISE (R316). -/
  | railPgoodRise (g : GroupId)
  /-- RAIL_PGOOD_FALL (R316). -/
  | railPgoodFall (g : GroupId)
  /-- RAIL_TIMEOUT (R316). -/
  | railTimeout (g : GroupId)
  /-- RAIL_UP (R316). -/
  | railUp (g : GroupId)
  /-- STATE_CMD_RUN (R322). -/
  | stateCmdRun
  /-- STATE_CMD_DOZE (R321). -/
  | stateCmdDoze
  /-- STATE_CMD_RETAIN (R323). -/
  | stateCmdRetain
  /-- STATE_CMD_CICADA (R323). -/
  | stateCmdCicada
  /-- WAKING_END (R322). -/
  | wakingEnd
  /-- ENTERING_END (R323). -/
  | enteringEnd
  /-- WAKE_REQ (R325). -/
  | wakeReq (boot : BitVec 2) (clk : BitVec 2) (peer : BitVec 2) (fuses : Byte)
  /-- WAKE_TIMER (R325). -/
  | wakeTimer (boot : BitVec 2) (clk : BitVec 2) (peer : BitVec 2) (fuses : Byte)
  /-- PFAIL_WARN (R327). -/
  | pfailWarn
  /-- DRAIN_LIMIT (R327). -/
  | drainLimit
  /-- LW_LIMIT (R327). -/
  | lwLimit
  /-- MAP_LOAD (R347). -/
  | mapLoad
  /-- MAP_INIT (R347). -/
  | mapInit
  /-- MAP_WRITE (R349). -/
  | mapWrite
  /-- MAP_RESOLVE (R348). -/
  | mapResolve (arg : BitVec 2)
  /-- MAP_RECOVER (R355). -/
  | mapRecover (arg : BitVec 2)
  /-- JRNL_INIT (R353). -/
  | jrnlInit
  /-- COPIES_RESOLVED (R346). -/
  | copiesResolved
  /-- COPIES_WRITTEN (R349). -/
  | copiesWritten
  /-- RECOVER_DONE (R357). -/
  | recoverDone
  /-- MARK_ADD_GROWN (R342). -/
  | markAddGrown (d : DieId) (plane : BitVec 2) (block : BitVec 14)
  /-- MARK_ADD_FACTORY (R342). -/
  | markAddFactory (d : DieId) (plane : BitVec 2) (block : BitVec 14)
  /-- MARK_REMOVE (R342). -/
  | markRemove (d : DieId) (plane : BitVec 2) (block : BitVec 14)
  /-- ROSTER_WRITE (R336). -/
  | rosterWrite (value : Word64)
  /-- JRNL_BATCH_CLOSE (R350). -/
  | jrnlBatchClose
  /-- JRNL_CONFIRM_DUE (R351). -/
  | jrnlConfirmDue
  /-- JRNL_PAGE_DONE (R350). -/
  | jrnlPageDone
  /-- CLAIM_READ (R364). -/
  | claimRead (t : TgtId)
  /-- COMPLETE (R365). -/
  | complete (t : TgtId) (id : BitVec 11)
  /-- UNWIND (R367). -/
  | unwind (t : TgtId)
  /-- STICKY_CLEAR (R367). -/
  | stickyClear (t : TgtId)
  /-- FATAL_FORCE (R368). -/
  | fatalForce
  /-- FATAL_CLEAR (R368). -/
  | fatalClear
  /-- NOTE_READ (R374). -/
  | noteRead
  /-- NOTE_MARK (R375). -/
  | noteMark
  /-- NOTE_REWIND (R375). -/
  | noteRewind
  /-- NOTE_RELEASE (R375). -/
  | noteRelease
  /-- LOG_CLEAR (R395). -/
  | logClear
  /-- LOG_LOST_CLEAR (R396). -/
  | logLostClear
  /-- CE_TOTAL_CLEAR (R399). -/
  | ceTotalClear
  /-- LOG_PARITY_FAIL (R396). -/
  | logParityFail (entry : BitVec 4)
  /-- SCRUB_START (R397). -/
  | scrubStart (count : BitVec 24)
  /-- SCRUB_READ (R397). -/
  | scrubRead (found : ScrubFind)
  /-- REMAP_CMD (R398). -/
  | remapCmd (cls : BitVec 3) (index : BitVec 24)
  /-- CTRL_ENABLE (R66). -/
  | ctrlEnable (page : Page) (enable : Bool)
  /-- L1_RESET (R71). -/
  | l1Reset (page : Page)
  /-- ERROR_CLEAR (R68). -/
  | errorClear (page : Page)
  /-- EVT_PEND_CLEAR (R67). -/
  | evtPendClear (page : Page) (bits : Word32)
  /-- PAGE_LOCK (R70). -/
  | pageLock (page : Page)
  /-- WINDOW_WRITE (R78). -/
  | windowWrite (addr : BitVec 24) (data : Word64) (strb : Byte)
  /-- REGISTER_WRITE (R63). -/
  | registerWrite (addr : BitVec 24) (data : Word64) (strb : Byte)
  /-- NON_REFERENCE_WEDGE_TICK (R286). -/
  | nonReferenceWedgeTick
  deriving DecidableEq, Repr

end Sys2Proof
end

