-- ==== Sys2Proof/Decode.lean ====
section
/-!
DEFINITION. The table gives its rows no bits: the commands of this block reach it over ports, not as words, so no word
spells one.
-/

namespace Sys2Proof

/-- No row of spec/opcode_table.json carries bits, so no word spells a command. -/
def decodeTableWord (_nbits _w : Nat) : Option Instr := none

end Sys2Proof
end

