-- ==== Sys2Proof/Config.lean ====
section
/-!
DEFINITION. What the part's maker or the integrator fixes and the spec leaves open: constants without a value, so that
no proof can lean on one. The clock rates of the reference build (00 Table 0.1) have values.
-/

namespace Sys2Proof

/-- Flipped bits in a protected unit of an internal memory: its class, its word, the unit within the word (a byte, or 0
for a granule), and whether they are beyond correction; the bit that a correction repairs, and the data bits flipped (17
R390, R391). -/
structure Upset where
  cls : Nat
  idx : Nat
  unit : Nat
  beyond : Bool
  bit_ : Nat
  mask : BitVec 8
  deriving DecidableEq, Repr

end Sys2Proof

namespace Sys2Proof.Config

/-- cc in a microsecond: cclk of the reference build, 1.5 GHz (00 Table 0.1). DESIGN CHOICE, log entry 2. -/
def ccPerUs : Nat := 1500

/-- Free values: the n-th value that the spec leaves open, of width 64 (log entry 3). -/
opaque freeValue : Nat → BitVec 64

/-- ROM microwords: engine kind (true for the Graver) and word address (09 R214; the contents are not in the spec). -/
opaque romWord : Bool → Nat → BitVec 128

/-- ROM dispatch tables: engine kind and dispatch index (09 R204). -/
opaque romEntry : Bool → Nat → BitVec 12

/-- GLB.CAPS[31:16], EVT_COUNT and CNT_COUNT, which no chapter states (03 R66). -/
opaque glbCaps : BitVec 32

/-- The three row address cycles of LUN, plane, block and page, whose layout the die's maker fixes (08 R171). -/
opaque rowAddr : Nat → Nat → Nat → Nat → BitVec 24

/-- P1 to P4 that bring-up sets for a BUS_CFG.MODE and DIV at FA_IFACE, and for a PAD_CFG.ODT at FA_ODT (08 R176): their
encodings are the die's. -/
opaque ifaceParam : Nat → Nat → BitVec 32
opaque odtParam : Nat → BitVec 32

/-- CHN[c].FTRIM as fused (08). -/
opaque ftrim : Nat → BitVec 24

/-- Rollback fuses blown at manufacture (09 R220). -/
opaque rollbackFuses : BitVec 7

/-- In the map cache the roster words stand before the words of the working map, or after them (17 Table 17.1). -/
opaque rosterFirst : Bool

/-- The granule of staging in which an id's n-th granule of 32 bytes stands, and the word of the ring-context cache that
a ring takes: where DPT and RIF place them (17 Table 17.1). -/
opaque granuleAt : Nat → Nat → Nat
opaque cacheWord : Nat → Nat

/-- The upset of a cc, if it brings one: the environment's (17 R391; log entry 149). -/
opaque upset : Nat → Option Upset

/-- Fused hash of the signing key (09 R218). -/
opaque keyHash : BitVec 256

/-- SHA-256 of a byte string (09 R218). -/
opaque sha256 : List Byte → BitVec 256

/-- Ed25519 verification: public key, message, signature (09 R218). -/
opaque ed25519 : List Byte → List Byte → List Byte → Bool

/-- AES-256-GCM opening with the part's key: nonce, additional data, ciphertext, tag; none where the tag fails
(09 R216, R218). -/
opaque gcmOpen : List Byte → List Byte → List Byte → List Byte → Option (List Byte)


end Sys2Proof.Config
end

