-- ==== Sys2Proof/Machine/RegTable.lean ====
section
/-!
DEFINITION. The register pages and their plain registers: bases (03 Tables 3.1, 3.2), and for each register its
offset, width, reset value and writable fields, as the register tables of 03 to 17 give them.
-/

namespace Sys2Proof.Machine

/-- A register, or cnt registers `step` bytes apart: page offset, width, reset value, RW fields, RW-L fields. -/
structure RegDesc where
  off : Nat
  step : Nat
  cnt : Nat
  wide : Bool
  reset : Nat
  rw : Nat
  rwl : Nat
  deriving DecidableEq, Repr

/-- A field with reserved encodings (03 R65): page offset, lowest bit, width, and the ranges that are not reserved. -/
structure FieldRange where
  off : Nat
  lo : Nat
  width : Nat
  ok : List (Nat × Nat)
  deriving DecidableEq, Repr

/-- Page number, address bits [23:12], of a page (03 Tables 3.1 and 3.2). -/
def pageNum : Page → Nat
  | .glb => 0
  | .tmb => 1
  | .rif => 2
  | .ops => 3
  | .sch => 4
  | .dpt => 5
  | .ecc => 6
  | .lvl => 7
  | .dsp a => 8 + a.toNat
  | .pwr => 10
  | .map => 11
  | .irq => 12
  | .irqt t => 13 + t.toNat
  | .note => 21
  | .rst => 22
  | .mem => 23
  | .sec => 24
  | .peer => 25
  | .grv => 26
  | .bur b => 32 + b.toNat
  | .chn c => 128 + c.toNat

/-- The page at a page number; none where Table 3.1 says unassigned or a window lies there. -/
def pageAt (n : Nat) : Option Page :=
  if n = 0 then some .glb else if n = 1 then some .tmb else if n = 2 then some .rif else if n = 3 then some .ops
  else if n = 4 then some .sch else if n = 5 then some .dpt else if n = 6 then some .ecc else if n = 7 then some .lvl
  else if n < 10 then some (.dsp (BitVec.ofNat 1 (n - 8)))
  else if n = 10 then some .pwr else if n = 11 then some .map else if n = 12 then some .irq
  else if n < 21 then some (.irqt (BitVec.ofNat 3 (n - 13)))
  else if n = 21 then some .note else if n = 22 then some .rst else if n = 23 then some .mem
  else if n = 24 then some .sec else if n = 25 then some .peer else if n = 26 then some .grv
  else if 32 ≤ n ∧ n < 96 then some (.bur (BitVec.ofNat 6 (n - 32)))
  else if 128 ≤ n ∧ n < 256 then some (.chn (BitVec.ofNat 7 (n - 128)))
  else none

/-- Kind code (03 Table 3.2). -/
def pageKind : Page → Nat
  | .glb => 1
  | .tmb => 2
  | .rif => 3
  | .ops => 4
  | .sch => 5
  | .dpt => 6
  | .ecc => 7
  | .lvl => 8
  | .dsp _ => 9
  | .pwr => 10
  | .map => 11
  | .irq => 12
  | .irqt _ => 13
  | .note => 14
  | .rst => 15
  | .mem => 16
  | .sec => 17
  | .peer => 18
  | .grv => 19
  | .bur _ => 20
  | .chn _ => 21

/-- Instance number (03 Table 3.2). -/
def pageInst : Page → Nat
  | .dsp a => a.toNat
  | .irqt t => t.toNat
  | .bur b => b.toNat
  | .chn c => c.toNat
  | _ => 0

/-- GLB.IDENT: page offset. -/
abbrev oGlbIdent : Nat := 0x040
/-- GLB.STRAP: page offset. -/
abbrev oGlbStrap : Nat := 0x044
/-- GLB.CS_VIEW: page offset. -/
abbrev oGlbCsView : Nat := 0x048
/-- RIF.CTX_BASE: page offset. -/
abbrev oRifCtxBase : Nat := 0x040
/-- RIF.POLL_BUDGET: page offset. -/
abbrev oRifPollBudget : Nat := 0x048
/-- RIF.IDLE_CAP: page offset. -/
abbrev oRifIdleCap : Nat := 0x04C
/-- RIF.POLL_DEMAND: page offset. -/
abbrev oRifPollDemand : Nat := 0x050
/-- RIF.POLL_STRETCH: page offset. -/
abbrev oRifPollStretch : Nat := 0x054
/-- RIF.ACTIVATE: page offset. -/
abbrev oRifActivate : Nat := 0x058
/-- RIF.ACT_RESULT: page offset. -/
abbrev oRifActResult : Nat := 0x05C
/-- RIF.FN_RESET: page offset. -/
abbrev oRifFnReset : Nat := 0x060
/-- RIF.FN_SEL: page offset. -/
abbrev oRifFnSel : Nat := 0x064
/-- RIF.FN_CTRL: page offset. -/
abbrev oRifFnCtrl : Nat := 0x068
/-- RIF.FN_OPS: page offset. -/
abbrev oRifFnOps : Nat := 0x06C
/-- RIF.FN_CHAN: page offset. -/
abbrev oRifFnChan : Nat := 0x070
/-- RIF.INVAL_RING: page offset. -/
abbrev oRifInvalRing : Nat := 0x080
/-- RIF.INVAL_RANGE: page offset. -/
abbrev oRifInvalRange : Nat := 0x084
/-- RIF.INVAL_STAT: page offset. -/
abbrev oRifInvalStat : Nat := 0x088
/-- RIF.EXPRESS_COUNT: page offset. -/
abbrev oRifExpressCount : Nat := 0x08C
/-- RIF.FN_BUSY: page offset. -/
abbrev oRifFnBusy : Nat := 0x090
/-- OPS.HORIZON: page offset. -/
abbrev oOpsHorizon : Nat := 0x040
/-- OPS.EST_MARGIN: page offset. -/
abbrev oOpsEstMargin : Nat := 0x044
/-- OPS.TAGS_FREE: page offset. -/
abbrev oOpsTagsFree : Nat := 0x048
/-- OPS.TAGS_LOW: page offset. -/
abbrev oOpsTagsLow : Nat := 0x04C
/-- OPS.TAG_SEL: page offset. -/
abbrev oOpsTagSel : Nat := 0x050
/-- OPS.TAG_INFO0: page offset. -/
abbrev oOpsTagInfo0 : Nat := 0x054
/-- OPS.TAG_INFO1: page offset. -/
abbrev oOpsTagInfo1 : Nat := 0x058
/-- OPS.TAG_INFO2: page offset. -/
abbrev oOpsTagInfo2 : Nat := 0x05C
/-- OPS.TAG_INFO3: page offset. -/
abbrev oOpsTagInfo3 : Nat := 0x060
/-- OPS.LAST_REFUSE0: page offset. -/
abbrev oOpsLastRefuse0 : Nat := 0x064
/-- OPS.LAST_REFUSE1: page offset. -/
abbrev oOpsLastRefuse1 : Nat := 0x068
/-- OPS.FNA_SEL: page offset. -/
abbrev oOpsFnaSel : Nat := 0x06C
/-- OPS.FNA_THRESH: page offset. -/
abbrev oOpsFnaThresh : Nat := 0x070
/-- OPS.FNA_HIT: page offset. -/
abbrev oOpsFnaHit : Nat := 0x074
/-- OPS.FNA_CNT: page offset. -/
abbrev oOpsFnaCnt : Nat := 0x080
/-- OPS.EARLY_LOG: page offset. -/
abbrev oOpsEarlyLog : Nat := 0x0A0
/-- OPS.EARLY_POP: page offset. -/
abbrev oOpsEarlyPop : Nat := 0x0A8
/-- OPS.EARLY_COUNT: page offset. -/
abbrev oOpsEarlyCount : Nat := 0x0AC
/-- TMB.FRAME: page offset. -/
abbrev oTmbFrame : Nat := 0x040
/-- TMB.PHASE: page offset. -/
abbrev oTmbPhase : Nat := 0x044
/-- TMB.PERIOD_EST: page offset. -/
abbrev oTmbPeriodEst : Nat := 0x048
/-- TMB.FRAME_LEN: page offset. -/
abbrev oTmbFrameLen : Nat := 0x04C
/-- TMB.INTEG: page offset. -/
abbrev oTmbInteg : Nat := 0x050
/-- TMB.PRESET: page offset. -/
abbrev oTmbPreset : Nat := 0x054
/-- TMB.SYN_PERIOD: page offset. -/
abbrev oTmbSynPeriod : Nat := 0x058
/-- TMB.PERIOD_MIN: page offset. -/
abbrev oTmbPeriodMin : Nat := 0x05C
/-- TMB.PERIOD_MAX: page offset. -/
abbrev oTmbPeriodMax : Nat := 0x060
/-- TMB.LOOP: page offset. -/
abbrev oTmbLoop : Nat := 0x064
/-- TMB.CONFIG: page offset. -/
abbrev oTmbConfig : Nat := 0x068
/-- TMB.HOLD: page offset. -/
abbrev oTmbHold : Nat := 0x06C
/-- TMB.TRK_STAT: page offset. -/
abbrev oTmbTrkStat : Nat := 0x070
/-- TMB.WEDGE: page offset. -/
abbrev oTmbWedge : Nat := 0x074
/-- TMB.LAST_POS: page offset. -/
abbrev oTmbLastPos : Nat := 0x078
/-- TMB.TICK_STAMP: page offset. -/
abbrev oTmbTickStamp : Nat := 0x080
/-- TMB.CKPT_STAT: page offset. -/
abbrev oTmbCkptStat : Nat := 0x088
/-- TMB.CKPT_MISS: page offset. -/
abbrev oTmbCkptMiss : Nat := 0x090
/-- SCH.PLAN_WINDOW: page offset. -/
abbrev oSchPlanWindow : Nat := 0x040
/-- SCH.PLAN_GAP: page offset. -/
abbrev oSchPlanGap : Nat := 0x044
/-- SCH.STREAM_RES: page offset. -/
abbrev oSchStreamRes : Nat := 0x048
/-- SCH.NONE_AGE: page offset. -/
abbrev oSchNoneAge : Nat := 0x04C
/-- SCH.ERASE_SUSP: page offset. -/
abbrev oSchEraseSusp : Nat := 0x050
/-- SCH.PROG_SUSP: page offset. -/
abbrev oSchProgSusp : Nat := 0x054
/-- SCH.PLAN_SEL: page offset. -/
abbrev oSchPlanSel : Nat := 0x058
/-- SCH.PLAN_INFO: page offset. -/
abbrev oSchPlanInfo : Nat := 0x05C
/-- SCH.DIE_SEL: page offset. -/
abbrev oSchDieSel : Nat := 0x060
/-- SCH.DIE_INFO: page offset. -/
abbrev oSchDieInfo : Nat := 0x064
/-- SCH.DIE_QDEPTH: page offset. -/
abbrev oSchDieQdepth : Nat := 0x068
/-- SCH.STARVE_INFO: page offset. -/
abbrev oSchStarveInfo : Nat := 0x070
/-- SCH.PLAN_ENT: page offset. -/
abbrev oSchPlanEnt : Nat := 0x080
/-- CHN.BUS_CFG: page offset. -/
abbrev oChnBusCfg : Nat := 0x040
/-- CHN.TIMING0: page offset. -/
abbrev oChnTiming0 : Nat := 0x044
/-- CHN.TIMING1: page offset. -/
abbrev oChnTiming1 : Nat := 0x048
/-- CHN.PAD_CFG: page offset. -/
abbrev oChnPadCfg : Nat := 0x04C
/-- CHN.FTRIM: page offset. -/
abbrev oChnFtrim : Nat := 0x050
/-- CHN.UTRIM: page offset. -/
abbrev oChnUtrim : Nat := 0x054
/-- CHN.TRAIN_SEL: page offset. -/
abbrev oChnTrainSel : Nat := 0x058
/-- CHN.TRAIN_RES: page offset. -/
abbrev oChnTrainRes : Nat := 0x05C
/-- CHN.RETRAIN: page offset. -/
abbrev oChnRetrain : Nat := 0x060
/-- CHN.OWN_STAT: page offset. -/
abbrev oChnOwnStat : Nat := 0x064
/-- CHN.OWN_CMD: page offset. -/
abbrev oChnOwnCmd : Nat := 0x068
/-- CHN.CONT_CFG: page offset. -/
abbrev oChnContCfg : Nat := 0x06C
/-- CHN.CONT_LAST: page offset. -/
abbrev oChnContLast : Nat := 0x070
/-- PEER.CFG: page offset. -/
abbrev oPeerCfg : Nat := 0x040
/-- PEER.LINK: page offset. -/
abbrev oPeerLink : Nat := 0x044
/-- PEER.SHARED: page offset. -/
abbrev oPeerShared : Nat := 0x050
/-- PEER.YIELD: page offset. -/
abbrev oPeerYield : Nat := 0x060
/-- PEER.LAST_RX: page offset. -/
abbrev oPeerLastRx : Nat := 0x070
/-- PEER.LAST_TX: page offset. -/
abbrev oPeerLastTx : Nat := 0x078
/-- BUR.THR_STAT: page offset. -/
abbrev oBurThrStat : Nat := 0x040
/-- BUR.THR_JOB: page offset. -/
abbrev oBurThrJob : Nat := 0x048
/-- BUR.FAULT: page offset. -/
abbrev oBurFault : Nat := 0x050
/-- BUR.DISP_SEL: page offset. -/
abbrev oBurDispSel : Nat := 0x054
/-- BUR.DISP_VAL: page offset. -/
abbrev oBurDispVal : Nat := 0x058
/-- BUR.FLAGS: page offset. -/
abbrev oBurFlags : Nat := 0x05C
/-- BUR.LOOP_CNT: page offset. -/
abbrev oBurLoopCnt : Nat := 0x060
/-- BUR.LAST_STATUS: page offset. -/
abbrev oBurLastStatus : Nat := 0x064
/-- BUR.CMDQ: page offset. -/
abbrev oBurCmdq : Nat := 0x068
/-- SEC.LOAD_ADDR: page offset. -/
abbrev oSecLoadAddr : Nat := 0x040
/-- SEC.LOAD_START: page offset. -/
abbrev oSecLoadStart : Nat := 0x048
/-- SEC.LOAD_STAT: page offset. -/
abbrev oSecLoadStat : Nat := 0x04C
/-- SEC.ROLLBACK: page offset. -/
abbrev oSecRollback : Nat := 0x050
/-- SEC.ROLL_ADV: page offset. -/
abbrev oSecRollAdv : Nat := 0x054
/-- SEC.KEY_HASH: page offset. -/
abbrev oSecKeyHash : Nat := 0x058
/-- SEC.UNLOCK: page offset. -/
abbrev oSecUnlock : Nat := 0x05C
/-- SEC.RAW_CMD: page offset. -/
abbrev oSecRawCmd : Nat := 0x060
/-- SEC.RAW_ADDR: page offset. -/
abbrev oSecRawAddr : Nat := 0x068
/-- SEC.RAW_DATA: page offset. -/
abbrev oSecRawData : Nat := 0x070
/-- SEC.RAW_STAT: page offset. -/
abbrev oSecRawStat : Nat := 0x078
/-- DPT.OCC: page offset. -/
abbrev oDptOcc : Nat := 0x040
/-- DPT.OCC_READ: page offset. -/
abbrev oDptOccRead : Nat := 0x044
/-- DPT.OCC_EARLY: page offset. -/
abbrev oDptOccEarly : Nat := 0x048
/-- DPT.READ_RES: page offset. -/
abbrev oDptReadRes : Nat := 0x04C
/-- DPT.EARLY_MAX: page offset. -/
abbrev oDptEarlyMax : Nat := 0x050
/-- DPT.LOW_MARK: page offset. -/
abbrev oDptLowMark : Nat := 0x054
/-- DPT.PEAK: page offset. -/
abbrev oDptPeak : Nat := 0x058
/-- DPT.SEED_ALT: page offset. -/
abbrev oDptSeedAlt : Nat := 0x05C
/-- DPT.SEED_CFG: page offset. -/
abbrev oDptSeedCfg : Nat := 0x060
/-- DPT.SEED_OVR: page offset. -/
abbrev oDptSeedOvr : Nat := 0x080
/-- ECC.HARD_ITER: page offset. -/
abbrev oEccHardIter : Nat := 0x040
/-- ECC.ERASED_THR: page offset. -/
abbrev oEccErasedThr : Nat := 0x044
/-- ECC.SOFT_EN: page offset. -/
abbrev oEccSoftEn : Nat := 0x048
/-- ECC.SOFT_STAT: page offset. -/
abbrev oEccSoftStat : Nat := 0x04C
/-- ECC.SOFT_WAIT: page offset. -/
abbrev oEccSoftWait : Nat := 0x050
/-- ECC.SAT_MARK: page offset. -/
abbrev oEccSatMark : Nat := 0x054
/-- ECC.LLR2: page offset. -/
abbrev oEccLlr2 : Nat := 0x058
/-- ECC.LLR3_LO: page offset. -/
abbrev oEccLlr3Lo : Nat := 0x05C
/-- ECC.LLR3_HI: page offset. -/
abbrev oEccLlr3Hi : Nat := 0x060
/-- ECC.SOFT_TIME: page offset. -/
abbrev oEccSoftTime : Nat := 0x064
/-- LVL.FACTORY_LOCK: page offset. -/
abbrev oLvlFactoryLock : Nat := 0x040
/-- LVL.LOAD_CTRL: page offset. -/
abbrev oLvlLoadCtrl : Nat := 0x044
/-- LVL.LOAD_STAT: page offset. -/
abbrev oLvlLoadStat : Nat := 0x048
/-- LVL.TEMP_BANDS: page offset. -/
abbrev oLvlTempBands : Nat := 0x04C
/-- LVL.TEMP_CFG: page offset. -/
abbrev oLvlTempCfg : Nat := 0x050
/-- LVL.TEMP_SEL: page offset. -/
abbrev oLvlTempSel : Nat := 0x054
/-- LVL.TEMP_INFO: page offset. -/
abbrev oLvlTempInfo : Nat := 0x058
/-- LVL.CAL_CFG: page offset. -/
abbrev oLvlCalCfg : Nat := 0x05C
/-- LVL.CAL_LAST: page offset. -/
abbrev oLvlCalLast : Nat := 0x060
/-- LVL.LADDER_CFG: page offset. -/
abbrev oLvlLadderCfg : Nat := 0x064
/-- LVL.NOISE_CFG: page offset. -/
abbrev oLvlNoiseCfg : Nat := 0x068
/-- LVL.NOISE_STAT: page offset. -/
abbrev oLvlNoiseStat : Nat := 0x06C
/-- LVL.LAST_ECHO: page offset. -/
abbrev oLvlLastEcho : Nat := 0x070
/-- LVL.PT_LEVELS: page offset. -/
abbrev oLvlPtLevels : Nat := 0x080
/-- LVL.ALT_SET: page offset. -/
abbrev oLvlAltSet : Nat := 0x0C0
/-- DSP.CONFIG: page offset. -/
abbrev oDspConfig : Nat := 0x040
/-- DSP.SYNC: page offset. -/
abbrev oDspSync : Nat := 0x044
/-- DSP.SLOTS: page offset. -/
abbrev oDspSlots : Nat := 0x048
/-- DSP.SCHED: page offset. -/
abbrev oDspSched : Nat := 0x04C
/-- DSP.ARMED: page offset. -/
abbrev oDspArmed : Nat := 0x050
/-- DSP.LAST_TRACK: page offset. -/
abbrev oDspLastTrack : Nat := 0x054
/-- DSP.LAST_POS: page offset. -/
abbrev oDspLastPos : Nat := 0x058
/-- DSP.HOLD_INFO: page offset. -/
abbrev oDspHoldInfo : Nat := 0x060
/-- DSP.RX_STAT: page offset. -/
abbrev oDspRxStat : Nat := 0x068
/-- PWR.GLOBAL_BUDGET: page offset. -/
abbrev oPwrGlobalBudget : Nat := 0x040
/-- PWR.GLOBAL_LOAD: page offset. -/
abbrev oPwrGlobalLoad : Nat := 0x044
/-- PWR.STAGGER: page offset. -/
abbrev oPwrStagger : Nat := 0x048
/-- PWR.HOLD_STEP: page offset. -/
abbrev oPwrHoldStep : Nat := 0x04C
/-- PWR.TELE_CFG: page offset. -/
abbrev oPwrTeleCfg : Nat := 0x050
/-- PWR.RAIL_CMD: page offset. -/
abbrev oPwrRailCmd : Nat := 0x054
/-- PWR.RAIL_CFG: page offset. -/
abbrev oPwrRailCfg : Nat := 0x058
/-- PWR.PSTATE: page offset. -/
abbrev oPwrPstate : Nat := 0x05C
/-- PWR.STATE_CMD: page offset. -/
abbrev oPwrStateCmd : Nat := 0x060
/-- PWR.PM_CFG: page offset. -/
abbrev oPwrPmCfg : Nat := 0x064
/-- PWR.WAKE_CFG: page offset. -/
abbrev oPwrWakeCfg : Nat := 0x068
/-- PWR.WAKE_STAT: page offset. -/
abbrev oPwrWakeStat : Nat := 0x070
/-- PWR.PF_CFG: page offset. -/
abbrev oPwrPfCfg : Nat := 0x078
/-- PWR.PF_STAT: page offset. -/
abbrev oPwrPfStat : Nat := 0x07C
/-- PWR.BUDGET: page offset. -/
abbrev oPwrBudget : Nat := 0x080
/-- PWR.GAIN: page offset. -/
abbrev oPwrGain : Nat := 0x0A0
/-- PWR.GROUP_STAT: page offset. -/
abbrev oPwrGroupStat : Nat := 0x0C0
/-- PWR.GROUP_LOAD: page offset. -/
abbrev oPwrGroupLoad : Nat := 0x0E0
/-- PWR.GROUP_MODEL: page offset. -/
abbrev oPwrGroupModel : Nat := 0x100
/-- MAP.MAP_CMD: page offset. -/
abbrev oMapMapCmd : Nat := 0x040
/-- MAP.MAP_STAT: page offset. -/
abbrev oMapMapStat : Nat := 0x044
/-- MAP.GEN: page offset. -/
abbrev oMapGen : Nat := 0x048
/-- MAP.ENTRIES: page offset. -/
abbrev oMapEntries : Nat := 0x04C
/-- MAP.COPY_LOC: page offset. -/
abbrev oMapCopyLoc : Nat := 0x050
/-- MAP.CFG: page offset. -/
abbrev oMapCfg : Nat := 0x05C
/-- MAP.JRNL_LOC: page offset. -/
abbrev oMapJrnlLoc : Nat := 0x060
/-- MAP.JRNL_CFG: page offset. -/
abbrev oMapJrnlCfg : Nat := 0x070
/-- MAP.JRNL_STAT: page offset. -/
abbrev oMapJrnlStat : Nat := 0x074
/-- MAP.JRNL_SEQ: page offset. -/
abbrev oMapJrnlSeq : Nat := 0x078
/-- MAP.RECOV_CFG: page offset. -/
abbrev oMapRecovCfg : Nat := 0x07C
/-- MAP.IMG_BASE: page offset. -/
abbrev oMapImgBase : Nat := 0x080
/-- MAP.EC_BASE: page offset. -/
abbrev oMapEcBase : Nat := 0x088
/-- MAP.REPORT_ADDR: page offset. -/
abbrev oMapReportAddr : Nat := 0x090
/-- MAP.RECOV_STAT: page offset. -/
abbrev oMapRecovStat : Nat := 0x098
/-- MAP.ROSTER_SEL: page offset. -/
abbrev oMapRosterSel : Nat := 0x0A0
/-- MAP.CENSUS_STAT: page offset. -/
abbrev oMapCensusStat : Nat := 0x0A4
/-- MAP.ROSTER_ENT: page offset. -/
abbrev oMapRosterEnt : Nat := 0x0A8
/-- MAP.MARK_CMD: page offset. -/
abbrev oMapMarkCmd : Nat := 0x0B0
/-- IRQ.SRC_SEL: page offset. -/
abbrev oIrqSrcSel : Nat := 0x040
/-- IRQ.SRC_CFG: page offset. -/
abbrev oIrqSrcCfg : Nat := 0x044
/-- IRQ.SRC_STAT: page offset. -/
abbrev oIrqSrcStat : Nat := 0x048
/-- IRQ.FATAL: page offset. -/
abbrev oIrqFatal : Nat := 0x04C
/-- IRQ.PEND: page offset. -/
abbrev oIrqPend : Nat := 0x080
/-- IRQ.FN_TGT: page offset. -/
abbrev oIrqFnTgt : Nat := 0x100
/-- IRQT.THRESHOLD: page offset. -/
abbrev oIrqtThreshold : Nat := 0x040
/-- IRQT.CLAIM: page offset. -/
abbrev oIrqtClaim : Nat := 0x044
/-- IRQT.COMPLETE: page offset. -/
abbrev oIrqtComplete : Nat := 0x048
/-- IRQT.RUNNING: page offset. -/
abbrev oIrqtRunning : Nat := 0x04C
/-- IRQT.STACK_SEL: page offset. -/
abbrev oIrqtStackSel : Nat := 0x050
/-- IRQT.STACK_ENT: page offset. -/
abbrev oIrqtStackEnt : Nat := 0x054
/-- IRQT.NEST: page offset. -/
abbrev oIrqtNest : Nat := 0x058
/-- IRQT.PSRC_SEL: page offset. -/
abbrev oIrqtPsrcSel : Nat := 0x05C
/-- IRQT.PSRC_CFG: page offset. -/
abbrev oIrqtPsrcCfg : Nat := 0x060
/-- IRQT.PPEND: page offset. -/
abbrev oIrqtPpend : Nat := 0x068
/-- NOTE.SEL: page offset. -/
abbrev oNoteSel : Nat := 0x040
/-- NOTE.CFG: page offset. -/
abbrev oNoteCfg : Nat := 0x044
/-- NOTE.READ: page offset. -/
abbrev oNoteRead : Nat := 0x048
/-- NOTE.CMD: page offset. -/
abbrev oNoteCmd : Nat := 0x050
/-- NOTE.STAT: page offset. -/
abbrev oNoteStat : Nat := 0x054
/-- NOTE.AVAIL: page offset. -/
abbrev oNoteAvail : Nat := 0x060
/-- RST.CAUSE: page offset. -/
abbrev oRstCause : Nat := 0x040
/-- RST.WDOG_INFO: page offset. -/
abbrev oRstWdogInfo : Nat := 0x044
/-- RST.UE_INFO: page offset. -/
abbrev oRstUeInfo : Nat := 0x048
/-- RST.FUSE_MAP: page offset. -/
abbrev oRstFuseMap : Nat := 0x04C
/-- RST.SW_RESET: page offset. -/
abbrev oRstSwReset : Nat := 0x050
/-- RST.RELEASE: page offset. -/
abbrev oRstRelease : Nat := 0x054
/-- RST.RMEM_SEL: page offset. -/
abbrev oRstRmemSel : Nat := 0x058
/-- RST.RMEM_DATA: page offset. -/
abbrev oRstRmemData : Nat := 0x060
/-- RST.BKP: page offset. -/
abbrev oRstBkp : Nat := 0x080
/-- MEM.LOG_SEL: page offset. -/
abbrev oMemLogSel : Nat := 0x040
/-- MEM.LOG_ENT: page offset. -/
abbrev oMemLogEnt : Nat := 0x048
/-- MEM.LOG_CTRL: page offset. -/
abbrev oMemLogCtrl : Nat := 0x050
/-- MEM.BKP_CLR: page offset. -/
abbrev oMemBkpClr : Nat := 0x054
/-- MEM.SCRUB_CFG: page offset. -/
abbrev oMemScrubCfg : Nat := 0x058
/-- MEM.SCRUB_CNT: page offset. -/
abbrev oMemScrubCnt : Nat := 0x05C
/-- MEM.SCRUB_SUM0: page offset. -/
abbrev oMemScrubSum0 : Nat := 0x060
/-- MEM.SCRUB_SUM1: page offset. -/
abbrev oMemScrubSum1 : Nat := 0x068
/-- MEM.REMAP_SEL: page offset. -/
abbrev oMemRemapSel : Nat := 0x070
/-- MEM.REMAP_ENT: page offset. -/
abbrev oMemRemapEnt : Nat := 0x074
/-- MEM.REMAP_CMD: page offset. -/
abbrev oMemRemapCmd : Nat := 0x078
/-- MEM.REMAP_CFG: page offset. -/
abbrev oMemRemapCfg : Nat := 0x07C

/-- GLB (03). -/
def glbRegs : List RegDesc := [
  ⟨0x040, 4, 1, false, 0xA5C0128, 0x0, 0x0⟩,
  ⟨0x044, 4, 1, false, 0x0, 0x0, 0x0⟩,
  ⟨0x048, 4, 1, false, 0x0, 0x7F, 0x0⟩]

/-- RIF (04). -/
def rifRegs : List RegDesc := [
  ⟨0x040, 8, 1, true, 0x0, 0x0, 0xFFFFFFFFFFFFF000⟩,
  ⟨0x048, 4, 1, false, 0x180, 0x3FF, 0x0⟩,
  ⟨0x04C, 4, 1, false, 0x18, 0x1F, 0x0⟩,
  ⟨0x050, 4, 1, false, 0x0, 0x0, 0x0⟩,
  ⟨0x054, 4, 1, false, 0x100, 0x0, 0x0⟩,
  ⟨0x058, 4, 1, false, 0x0, 0x0, 0x0⟩,
  ⟨0x05C, 4, 1, false, 0x0, 0x0, 0x0⟩,
  ⟨0x060, 4, 1, false, 0x0, 0x0, 0x0⟩,
  ⟨0x064, 4, 1, false, 0x0, 0xFF, 0x0⟩,
  ⟨0x068, 4, 1, false, 0x0, 0x0, 0x1⟩,
  ⟨0x06C, 4, 1, false, 0x0, 0x0, 0xF03FF⟩,
  ⟨0x070, 4, 4, false, 0x0, 0x0, 0xFFFFFFFF⟩,
  ⟨0x080, 4, 1, false, 0x0, 0x3FFFF, 0x0⟩,
  ⟨0x084, 4, 1, false, 0x0, 0x7FFF7FFF, 0x0⟩,
  ⟨0x088, 4, 1, false, 0x0, 0x0, 0x0⟩,
  ⟨0x08C, 4, 1, false, 0x0, 0x0, 0x0⟩,
  ⟨0x090, 4, 8, false, 0x0, 0x0, 0x0⟩]

/-- OPS (05). -/
def opsRegs : List RegDesc := [
  ⟨0x040, 4, 1, false, 0x400000, 0x0, 0x7FFFFFFF⟩,
  ⟨0x044, 4, 1, false, 0x100, 0x0, 0xFFFF⟩,
  ⟨0x048, 4, 1, false, 0x10000, 0x0, 0x0⟩,
  ⟨0x04C, 4, 1, false, 0x10000, 0x0, 0x0⟩,
  ⟨0x050, 4, 1, false, 0x0, 0xFFFF, 0x0⟩,
  ⟨0x054, 4, 1, false, 0x0, 0x0, 0x0⟩,
  ⟨0x058, 4, 1, false, 0x0, 0x0, 0x0⟩,
  ⟨0x05C, 4, 1, false, 0x0, 0x0, 0x0⟩,
  ⟨0x060, 4, 1, false, 0x0, 0x0, 0x0⟩,
  ⟨0x064, 4, 1, false, 0x0, 0x0, 0x0⟩,
  ⟨0x068, 4, 1, false, 0x0, 0x0, 0x0⟩,
  ⟨0x06C, 4, 1, false, 0x0, 0xFF, 0x0⟩,
  ⟨0x070, 4, 1, false, 0x0, 0xFFFF, 0x0⟩,
  ⟨0x074, 4, 1, false, 0x0, 0x0, 0x0⟩,
  ⟨0x080, 4, 8, false, 0x0, 0xFFFFFFFF, 0x0⟩,
  ⟨0x0A0, 8, 1, true, 0x0, 0x0, 0x0⟩,
  ⟨0x0A8, 4, 1, false, 0x0, 0x0, 0x0⟩,
  ⟨0x0AC, 4, 1, false, 0x0, 0x0, 0x0⟩]

/-- TMB (06). -/
def tmbRegs : List RegDesc := [
  ⟨0x040, 4, 1, false, 0x0, 0xFFFFFFFF, 0x0⟩,
  ⟨0x044, 4, 1, false, 0x0, 0x0, 0x0⟩,
  ⟨0x048, 4, 1, false, 0x5F5E, 0x0, 0x0⟩,
  ⟨0x04C, 4, 1, false, 0x5F5E, 0x0, 0x0⟩,
  ⟨0x050, 4, 1, false, 0x5F5E00, 0x0, 0x0⟩,
  ⟨0x054, 4, 1, false, 0x5F5E, 0x0, 0x0⟩,
  ⟨0x058, 4, 1, false, 0x5F5E, 0x0, 0x1FFFF⟩,
  ⟨0x05C, 4, 1, false, 0xFA0, 0x0, 0x1FFFF⟩,
  ⟨0x060, 4, 1, false, 0x10000, 0x0, 0x1FFFF⟩,
  ⟨0x064, 4, 1, false, 0x5010100, 0x0, 0xF0F1FFF⟩,
  ⟨0x068, 4, 1, false, 0x200, 0x0, 0x11FFF⟩,
  ⟨0x06C, 4, 1, false, 0x17700200, 0x0, 0xFFFFFFFF⟩,
  ⟨0x070, 4, 1, false, 0x0, 0x0, 0x0⟩,
  ⟨0x074, 4, 1, false, 0x0, 0x0, 0x0⟩,
  ⟨0x078, 8, 1, true, 0x0, 0x0, 0x0⟩,
  ⟨0x080, 8, 1, true, 0x0, 0x0, 0x0⟩,
  ⟨0x088, 4, 1, false, 0x0, 0x0, 0x0⟩,
  ⟨0x090, 8, 1, true, 0x0, 0x0, 0x0⟩]

/-- SCH (07). -/
def schRegs : List RegDesc := [
  ⟨0x040, 4, 1, false, 0x200, 0x0, 0xFFF⟩,
  ⟨0x044, 4, 1, false, 0x100, 0x0, 0xFFF⟩,
  ⟨0x048, 4, 1, false, 0x0, 0x0, 0x7FFF⟩,
  ⟨0x04C, 4, 1, false, 0x40, 0x0, 0xFFFF⟩,
  ⟨0x050, 4, 1, false, 0x0, 0xFFFFFFFF, 0x0⟩,
  ⟨0x054, 4, 1, false, 0x0, 0xFFFFFFFF, 0x0⟩,
  ⟨0x058, 4, 1, false, 0x0, 0x7F, 0x0⟩,
  ⟨0x05C, 4, 1, false, 0x0, 0x0, 0x0⟩,
  ⟨0x060, 4, 1, false, 0x0, 0xFFF, 0x0⟩,
  ⟨0x064, 4, 1, false, 0x0, 0x0, 0x0⟩,
  ⟨0x068, 4, 1, false, 0x0, 0x0, 0x0⟩,
  ⟨0x070, 8, 1, true, 0x0, 0x0, 0x0⟩,
  ⟨0x080, 8, 16, true, 0x0, 0x0, 0x0⟩]

/-- CHN (08). -/
def chnRegs : List RegDesc := [
  ⟨0x040, 4, 1, false, 0x1, 0x0, 0x33⟩,
  ⟨0x044, 4, 1, false, 0x30200C10, 0x0, 0xFFFFFFFF⟩,
  ⟨0x048, 4, 1, false, 0x10181888, 0x0, 0xFFFFFFFF⟩,
  ⟨0x04C, 4, 1, false, 0x32, 0x0, 0x77⟩,
  ⟨0x050, 4, 1, false, 0x0, 0x0, 0x0⟩,
  ⟨0x054, 4, 1, false, 0x0, 0xFFFFFF, 0x0⟩,
  ⟨0x058, 4, 1, false, 0x0, 0x7, 0x0⟩,
  ⟨0x05C, 4, 1, false, 0x0, 0x0, 0x0⟩,
  ⟨0x060, 4, 1, false, 0xC1000, 0xFFFFFF, 0x0⟩,
  ⟨0x064, 4, 1, false, 0x0, 0x0, 0x0⟩,
  ⟨0x068, 4, 1, false, 0x0, 0x0, 0x0⟩,
  ⟨0x06C, 4, 1, false, 0x4, 0x0, 0xF⟩,
  ⟨0x070, 4, 1, false, 0x0, 0x0, 0x0⟩]

/-- PEER (08). -/
def peerRegs : List RegDesc := [
  ⟨0x040, 4, 1, false, 0x400064, 0x0, 0xFFFFFF⟩,
  ⟨0x044, 4, 1, false, 0x0, 0x0, 0x0⟩,
  ⟨0x050, 4, 4, false, 0x0, 0x0, 0xFFFFFFFF⟩,
  ⟨0x060, 4, 4, false, 0x0, 0xFFFFFFFF, 0x0⟩,
  ⟨0x070, 8, 1, true, 0x0, 0x0, 0x0⟩,
  ⟨0x078, 8, 1, true, 0x0, 0x0, 0x0⟩]

/-- BUR (09). -/
def burRegs : List RegDesc := [
  ⟨0x040, 4, 2, false, 0x0, 0x0, 0x0⟩,
  ⟨0x048, 4, 2, false, 0x0, 0x0, 0x0⟩,
  ⟨0x050, 4, 1, false, 0x0, 0x0, 0x0⟩,
  ⟨0x054, 4, 1, false, 0x0, 0xFF, 0x0⟩,
  ⟨0x058, 4, 1, false, 0x0, 0x0, 0x0⟩,
  ⟨0x05C, 4, 1, false, 0x0, 0x0, 0x0⟩,
  ⟨0x060, 4, 1, false, 0x0, 0x0, 0x0⟩,
  ⟨0x064, 4, 1, false, 0x0, 0x0, 0x0⟩,
  ⟨0x068, 4, 1, false, 0x0, 0x0, 0x0⟩]

/-- SEC (09). -/
def secRegs : List RegDesc := [
  ⟨0x040, 8, 1, true, 0x0, 0x0, 0xFFFFFFFFFFFFFFC0⟩,
  ⟨0x048, 4, 1, false, 0x0, 0x0, 0x0⟩,
  ⟨0x04C, 4, 1, false, 0x0, 0x0, 0x0⟩,
  ⟨0x050, 4, 1, false, 0x0, 0x0, 0x0⟩,
  ⟨0x054, 4, 1, false, 0x0, 0x0, 0x0⟩,
  ⟨0x058, 4, 1, false, 0x0, 0x0, 0x0⟩,
  ⟨0x05C, 4, 1, false, 0x0, 0x0, 0x0⟩,
  ⟨0x060, 4, 1, false, 0x0, 0xFFFFFFC0, 0x0⟩,
  ⟨0x068, 8, 1, true, 0x0, 0xFFFFFFFFFFFFF, 0x0⟩,
  ⟨0x070, 8, 1, true, 0x0, 0xFFFFFFFFFFFFFFFF, 0x0⟩,
  ⟨0x078, 4, 1, false, 0x0, 0x0, 0x0⟩]

/-- DPT (10). -/
def dptRegs : List RegDesc := [
  ⟨0x040, 4, 1, false, 0x0, 0x0, 0x0⟩,
  ⟨0x044, 4, 1, false, 0x0, 0x0, 0x0⟩,
  ⟨0x048, 4, 1, false, 0x0, 0x0, 0x0⟩,
  ⟨0x04C, 4, 1, false, 0x4880, 0x0, 0xFFFFF⟩,
  ⟨0x050, 4, 1, false, 0x40000, 0x0, 0xFFFFF⟩,
  ⟨0x054, 4, 1, false, 0x8000, 0xFFFFF, 0x0⟩,
  ⟨0x058, 4, 1, false, 0x0, 0x0, 0x0⟩,
  ⟨0x05C, 4, 1, false, 0x5A17C3E9, 0x0, 0xFFFFFFFF⟩,
  ⟨0x060, 4, 1, false, 0x0, 0x0, 0x1⟩,
  ⟨0x080, 4, 128, false, 0x0, 0x0, 0xFFFFFFFF⟩]

/-- ECC (10). -/
def eccRegs : List RegDesc := [
  ⟨0x040, 4, 1, false, 0x8, 0x0, 0xF⟩,
  ⟨0x044, 4, 1, false, 0x10, 0x0, 0x1FFF⟩,
  ⟨0x048, 4, 1, false, 0xFFFFFFFF, 0xFFFFFFFF, 0x0⟩,
  ⟨0x04C, 4, 1, false, 0x0, 0x0, 0x0⟩,
  ⟨0x050, 4, 1, false, 0x0, 0x0, 0x0⟩,
  ⟨0x054, 4, 1, false, 0x5F5E, 0xFFFFFF, 0x0⟩,
  ⟨0x058, 4, 1, false, 0xE8FA0618, 0x0, 0xFFFFFFFF⟩,
  ⟨0x05C, 4, 1, false, 0xFB050E1C, 0x0, 0xFFFFFFFF⟩,
  ⟨0x060, 4, 1, false, 0xE4F2, 0x0, 0xFFFF⟩,
  ⟨0x064, 4, 1, false, 0xF6C70, 0x0, 0x0⟩]

/-- LVL (11). -/
def lvlRegs : List RegDesc := [
  ⟨0x040, 4, 1, false, 0x0, 0x0, 0x0⟩,
  ⟨0x044, 4, 1, false, 0x0, 0x3FFFFFF, 0x0⟩,
  ⟨0x048, 4, 1, false, 0x0, 0x0, 0x0⟩,
  ⟨0x04C, 4, 1, false, 0x341280F, 0x0, 0xFFFFFFFF⟩,
  ⟨0x050, 4, 1, false, 0x2000140, 0xFFFF03FF, 0x0⟩,
  ⟨0x054, 4, 1, false, 0x0, 0xFFF, 0x0⟩,
  ⟨0x058, 4, 1, false, 0x0, 0x0, 0x0⟩,
  ⟨0x05C, 4, 1, false, 0x80781004, 0x0, 0x80FFFF0F⟩,
  ⟨0x060, 4, 1, false, 0x0, 0x0, 0x0⟩,
  ⟨0x064, 4, 1, false, 0x1000080, 0x0, 0xFFFFFFFF⟩,
  ⟨0x068, 4, 1, false, 0x1000480C, 0xFFFFFFFF, 0x0⟩,
  ⟨0x06C, 4, 1, false, 0x0, 0x0, 0x0⟩,
  ⟨0x070, 8, 1, true, 0x0, 0x0, 0x0⟩,
  ⟨0x080, 4, 16, false, 0x0, 0x0, 0x7FFF⟩,
  ⟨0x0C0, 4, 8, false, 0x0, 0x0, 0xFFFFFFFF⟩]

/-- DSP (12). -/
def dspRegs : List RegDesc := [
  ⟨0x040, 4, 1, false, 0x2, 0x10000, 0xFF⟩,
  ⟨0x044, 4, 1, false, 0x0, 0x0, 0x0⟩,
  ⟨0x048, 4, 1, false, 0x0, 0x0, 0x0⟩,
  ⟨0x04C, 4, 1, false, 0x1000, 0x0, 0x0⟩,
  ⟨0x050, 4, 1, false, 0x0, 0x0, 0x0⟩,
  ⟨0x054, 4, 1, false, 0x0, 0x0, 0x0⟩,
  ⟨0x058, 8, 1, true, 0x0, 0x0, 0x0⟩,
  ⟨0x060, 8, 1, true, 0x0, 0x0, 0x0⟩,
  ⟨0x068, 4, 1, false, 0x0, 0x0, 0x0⟩]

/-- PWR (13). -/
def pwrRegs : List RegDesc := [
  ⟨0x040, 4, 1, false, 0xFFFF, 0x0, 0xFFFF⟩,
  ⟨0x044, 4, 1, false, 0x0, 0x0, 0x0⟩,
  ⟨0x048, 4, 1, false, 0x4, 0x0, 0xF⟩,
  ⟨0x04C, 4, 1, false, 0xAFC8, 0x0, 0xFFFFFF⟩,
  ⟨0x050, 4, 1, false, 0x10080019, 0x0, 0xFFFF00FF⟩,
  ⟨0x054, 4, 1, false, 0x0, 0x0, 0x0⟩,
  ⟨0x058, 4, 1, false, 0x3E82710, 0x0, 0xFFFFFFFF⟩,
  ⟨0x05C, 4, 1, false, 0x0, 0x0, 0x0⟩,
  ⟨0x060, 4, 1, false, 0x0, 0x0, 0x0⟩,
  ⟨0x064, 4, 1, false, 0x1, 0x1, 0x0⟩,
  ⟨0x068, 8, 1, true, 0x4000000000000000, 0xC0000000FFFFFFFF, 0x0⟩,
  ⟨0x070, 8, 1, true, 0x0, 0x0, 0x0⟩,
  ⟨0x078, 4, 1, false, 0x12C, 0x0, 0xFFFF⟩,
  ⟨0x07C, 4, 1, false, 0x15E, 0x0, 0x0⟩,
  ⟨0x080, 4, 8, false, 0xFFFF, 0x0, 0xFFFFFFFF⟩,
  ⟨0x0A0, 4, 8, false, 0x100, 0x0, 0xFFFF⟩,
  ⟨0x0C0, 4, 8, false, 0x0, 0x0, 0x0⟩,
  ⟨0x0E0, 4, 8, false, 0x0, 0x0, 0x0⟩,
  ⟨0x100, 4, 8, false, 0x0, 0x0, 0x0⟩]

/-- MAP (14). -/
def mapRegs : List RegDesc := [
  ⟨0x040, 4, 1, false, 0x0, 0x0, 0x0⟩,
  ⟨0x044, 4, 1, false, 0x0, 0x0, 0x0⟩,
  ⟨0x048, 4, 1, false, 0x0, 0xFFFFFFFF, 0x0⟩,
  ⟨0x04C, 4, 1, false, 0x0, 0x0, 0x0⟩,
  ⟨0x050, 4, 3, false, 0x0, 0x0, 0xFFFC3FFF⟩,
  ⟨0x05C, 4, 1, false, 0x80000000, 0x0, 0x8000001F⟩,
  ⟨0x060, 4, 4, false, 0x0, 0x0, 0xFFFC3FFF⟩,
  ⟨0x070, 4, 1, false, 0xC80004, 0x0, 0xFFFF0007⟩,
  ⟨0x074, 4, 1, false, 0x0, 0x0, 0x0⟩,
  ⟨0x078, 4, 1, false, 0x0, 0x0, 0x0⟩,
  ⟨0x07C, 4, 1, false, 0x280000F0, 0x0, 0x7F0000FF⟩,
  ⟨0x080, 8, 1, true, 0x0, 0x0, 0xFFFFFFFFFFF00000⟩,
  ⟨0x088, 8, 1, true, 0x0, 0x0, 0xFFFFFFFFFFFFF000⟩,
  ⟨0x090, 8, 1, true, 0x0, 0x0, 0xFFFFFFFFFFFFFFC0⟩,
  ⟨0x098, 8, 1, true, 0x0, 0x0, 0x0⟩,
  ⟨0x0A0, 4, 1, false, 0x0, 0xFFF, 0x0⟩,
  ⟨0x0A4, 4, 1, false, 0x0, 0x0, 0x0⟩,
  ⟨0x0A8, 8, 1, true, 0x0, 0x88F00000FFFFFFFF, 0x0⟩,
  ⟨0x0B0, 4, 1, false, 0x0, 0x0, 0x0⟩]

/-- IRQ (15). -/
def irqRegs : List RegDesc := [
  ⟨0x040, 4, 1, false, 0x0, 0x7FF, 0x0⟩,
  ⟨0x044, 4, 1, false, 0x0, 0x80FF000F, 0x0⟩,
  ⟨0x048, 4, 1, false, 0x0, 0x0, 0x0⟩,
  ⟨0x04C, 4, 1, false, 0x0, 0x0, 0x0⟩,
  ⟨0x080, 4, 32, false, 0x0, 0x0, 0x0⟩,
  ⟨0x100, 4, 32, false, 0x0, 0x77777777, 0x0⟩]

/-- IRQT (15). -/
def irqtRegs : List RegDesc := [
  ⟨0x040, 4, 1, false, 0x0, 0xF, 0x0⟩,
  ⟨0x044, 4, 1, false, 0x0, 0x0, 0x0⟩,
  ⟨0x048, 4, 1, false, 0x0, 0x0, 0x0⟩,
  ⟨0x04C, 4, 1, false, 0x0, 0x0, 0x0⟩,
  ⟨0x050, 4, 1, false, 0x0, 0xF, 0x0⟩,
  ⟨0x054, 4, 1, false, 0x0, 0x0, 0x0⟩,
  ⟨0x058, 4, 1, false, 0x0, 0x0, 0x0⟩,
  ⟨0x05C, 4, 1, false, 0x0, 0x3F, 0x0⟩,
  ⟨0x060, 4, 1, false, 0x0, 0xF, 0x0⟩,
  ⟨0x068, 4, 2, false, 0x0, 0x0, 0x0⟩]

/-- NOTE (15). -/
def noteRegs : List RegDesc := [
  ⟨0x040, 4, 1, false, 0x7F, 0x7F, 0x0⟩,
  ⟨0x044, 4, 1, false, 0x1, 0x1, 0x0⟩,
  ⟨0x048, 8, 1, true, 0x0, 0x0, 0x0⟩,
  ⟨0x050, 4, 1, false, 0x0, 0x0, 0x0⟩,
  ⟨0x054, 4, 1, false, 0x0, 0x0, 0x0⟩,
  ⟨0x060, 4, 3, false, 0x0, 0x0, 0x0⟩]

/-- RST (16). -/
def rstRegs : List RegDesc := [
  ⟨0x040, 4, 1, false, 0x0, 0x0, 0x0⟩,
  ⟨0x044, 4, 1, false, 0x0, 0x0, 0x0⟩,
  ⟨0x048, 4, 1, false, 0x0, 0x0, 0x0⟩,
  ⟨0x04C, 4, 1, false, 0x0, 0x0, 0x0⟩,
  ⟨0x050, 4, 1, false, 0x0, 0x0, 0x0⟩,
  ⟨0x054, 4, 1, false, 0x1, 0x0, 0x0⟩,
  ⟨0x058, 4, 1, false, 0x0, 0x1FFF, 0x0⟩,
  ⟨0x060, 8, 1, true, 0x0, 0xFFFFFFFFFFFFFFFF, 0x0⟩,
  ⟨0x080, 4, 16, false, 0x0, 0xFFFFFFFF, 0x0⟩]

/-- MEM (17). -/
def memRegs : List RegDesc := [
  ⟨0x040, 4, 1, false, 0x0, 0xF, 0x0⟩,
  ⟨0x048, 8, 1, true, 0x0, 0x0, 0x0⟩,
  ⟨0x050, 4, 1, false, 0x0, 0x0, 0x0⟩,
  ⟨0x054, 4, 1, false, 0x0, 0x0, 0x0⟩,
  ⟨0x058, 4, 1, false, 0x0, 0x70FFFFFF, 0x0⟩,
  ⟨0x05C, 4, 1, false, 0x0, 0xFFFFFF, 0x0⟩,
  ⟨0x060, 8, 1, true, 0x0, 0x0, 0x0⟩,
  ⟨0x068, 4, 1, false, 0x0, 0x0, 0x0⟩,
  ⟨0x070, 4, 1, false, 0x0, 0x3F, 0x0⟩,
  ⟨0x074, 4, 1, false, 0x0, 0x0, 0x0⟩,
  ⟨0x078, 4, 1, false, 0x0, 0x0, 0x0⟩,
  ⟨0x07C, 4, 1, false, 0x1, 0x1, 0x0⟩]

/-- GLB. -/
def glbRanges : List FieldRange := [
  ⟨0x048, 0, 7, [(0, 64)]⟩]

/-- RIF. -/
def rifRanges : List FieldRange := [
  ⟨0x048, 0, 10, [(1, 512)]⟩,
  ⟨0x04C, 0, 5, [(10, 24)]⟩]

/-- OPS. -/
def opsRanges : List FieldRange := [
  ⟨0x040, 0, 31, [(1, 2147483647)]⟩]

/-- TMB. -/
def tmbRanges : List FieldRange := [
  ⟨0x058, 0, 17, [(4000, 65536)]⟩,
  ⟨0x05C, 0, 17, [(4000, 65536)]⟩,
  ⟨0x060, 0, 17, [(4000, 65536)]⟩,
  ⟨0x064, 24, 4, [(2, 15)]⟩,
  ⟨0x064, 16, 4, [(0, 7)]⟩,
  ⟨0x064, 0, 13, [(16, 4096)]⟩,
  ⟨0x068, 0, 13, [(2, 4096)]⟩,
  ⟨0x06C, 16, 16, [(1, 65535)]⟩,
  ⟨0x06C, 0, 16, [(1, 65535)]⟩]

/-- SCH. -/
def schRanges : List FieldRange := [
  ⟨0x040, 0, 12, [(64, 2048)]⟩,
  ⟨0x048, 0, 15, [(0, 16384)]⟩,
  ⟨0x04C, 0, 16, [(1, 65535)]⟩]

/-- CHN. -/
def chnRanges : List FieldRange := [
  ⟨0x044, 24, 8, [(1, 255)]⟩,
  ⟨0x044, 16, 8, [(1, 255)]⟩,
  ⟨0x044, 8, 8, [(1, 255)]⟩,
  ⟨0x044, 0, 8, [(1, 255)]⟩,
  ⟨0x048, 24, 8, [(1, 255)]⟩,
  ⟨0x048, 16, 8, [(1, 255)]⟩,
  ⟨0x048, 8, 8, [(1, 255)]⟩,
  ⟨0x048, 4, 4, [(1, 15)]⟩,
  ⟨0x048, 0, 4, [(1, 15)]⟩,
  ⟨0x04C, 4, 3, [(0, 4)]⟩,
  ⟨0x04C, 0, 3, [(1, 3)]⟩,
  ⟨0x06C, 0, 4, [(1, 15)]⟩]

/-- PEER. -/
def peerRanges : List FieldRange := [
  ⟨0x040, 0, 16, [(1, 65535)]⟩]

/-- DPT. -/
def dptRanges : List FieldRange := [
  ⟨0x04C, 0, 20, [(0, 131072)]⟩,
  ⟨0x050, 0, 20, [(1, 524288)]⟩]

/-- ECC. -/
def eccRanges : List FieldRange := [
  ⟨0x040, 0, 4, [(1, 15)]⟩,
  ⟨0x044, 0, 13, [(0, 4096)]⟩,
  ⟨0x058, 24, 8, [(0, 127), (129, 255)]⟩,
  ⟨0x058, 16, 8, [(0, 127), (129, 255)]⟩,
  ⟨0x058, 8, 8, [(0, 127), (129, 255)]⟩,
  ⟨0x058, 0, 8, [(0, 127), (129, 255)]⟩,
  ⟨0x05C, 24, 8, [(0, 127), (129, 255)]⟩,
  ⟨0x05C, 16, 8, [(0, 127), (129, 255)]⟩,
  ⟨0x05C, 8, 8, [(0, 127), (129, 255)]⟩,
  ⟨0x05C, 0, 8, [(0, 127), (129, 255)]⟩,
  ⟨0x060, 8, 8, [(0, 127), (129, 255)]⟩,
  ⟨0x060, 0, 8, [(0, 127), (129, 255)]⟩]

/-- LVL. -/
def lvlRanges : List FieldRange := [
  ⟨0x04C, 24, 8, [(0, 15)]⟩,
  ⟨0x050, 16, 16, [(1, 65535)]⟩,
  ⟨0x05C, 8, 8, [(1, 255)]⟩,
  ⟨0x05C, 0, 4, [(1, 15)]⟩,
  ⟨0x064, 16, 16, [(16, 65535)]⟩,
  ⟨0x068, 16, 16, [(1, 65535)]⟩,
  ⟨0x068, 8, 4, [(3, 15)]⟩,
  ⟨0x068, 0, 8, [(1, 255)]⟩]

/-- DSP. -/
def dspRanges : List FieldRange := [
  ⟨0x040, 0, 8, [(1, 64)]⟩]

/-- PWR. -/
def pwrRanges : List FieldRange := [
  ⟨0x048, 0, 4, [(1, 15)]⟩,
  ⟨0x050, 24, 8, [(1, 255)]⟩,
  ⟨0x050, 16, 8, [(1, 255)]⟩,
  ⟨0x058, 0, 16, [(1, 65535)]⟩,
  ⟨0x078, 0, 16, [(1, 65535)]⟩]

/-- MAP. -/
def mapRanges : List FieldRange := [
  ⟨0x070, 16, 16, [(1, 65535)]⟩,
  ⟨0x070, 0, 3, [(1, 4)]⟩,
  ⟨0x07C, 24, 7, [(1, 99)]⟩]

/-- NOTE. -/
def noteRanges : List FieldRange := [
  ⟨0x040, 0, 7, [(0, 64), (127, 127)]⟩]

/-- MEM. -/
def memRanges : List FieldRange := [
  ⟨0x05C, 0, 24, [(1, 16777215)]⟩]

/-- The registers of a page beside its header. GRV has those of BUR (09 R226). -/
def pageRegs : Page → List RegDesc
  | .glb => glbRegs
  | .tmb => tmbRegs
  | .rif => rifRegs
  | .ops => opsRegs
  | .sch => schRegs
  | .dpt => dptRegs
  | .ecc => eccRegs
  | .lvl => lvlRegs
  | .dsp _ => dspRegs
  | .pwr => pwrRegs
  | .map => mapRegs
  | .irq => irqRegs
  | .irqt _ => irqtRegs
  | .note => noteRegs
  | .rst => rstRegs
  | .mem => memRegs
  | .sec => secRegs
  | .peer => peerRegs
  | .grv => burRegs
  | .bur _ => burRegs
  | .chn _ => chnRegs

/-- The fields with reserved encodings of a page. -/
def pageRanges : Page → List FieldRange
  | .glb => glbRanges
  | .tmb => tmbRanges
  | .rif => rifRanges
  | .ops => opsRanges
  | .sch => schRanges
  | .dpt => dptRanges
  | .ecc => eccRanges
  | .lvl => lvlRanges
  | .dsp _ => dspRanges
  | .pwr => pwrRanges
  | .map => mapRanges
  | .irq => []
  | .irqt _ => []
  | .note => noteRanges
  | .rst => []
  | .mem => memRanges
  | .sec => []
  | .peer => peerRanges
  | .grv => []
  | .bur _ => []
  | .chn _ => chnRanges

/-- Whether a register covers a page offset. -/
def regCovers (d : RegDesc) (off : Nat) : Bool :=
  decide (d.off ≤ off) && decide (off < d.off + d.step * d.cnt) && decide ((off - d.off) % d.step = 0)

/-- The register at an offset of a page; none where the offset is reserved (03 R61) or the upper half of a 64-bit
register. -/
def regAt (p : Page) (off : Nat) : Option RegDesc := (pageRegs p).find? fun d => regCovers d off

/-- Reset value of the plain register at an offset of a page: that of its table, or per index for LVL.PT_LEVELS
(11 Table 11.6) and LVL.ALT_SET (11). -/
def regResetOf (p : Page) (off : Nat) : Nat :=
  match p with
  | .lvl =>
    if off = 0x80 then 0x0001 else if off = 0x90 then 0x0002 else if off = 0x94 then 0x0005
    else if off = 0xA0 then 0x0011 else if off = 0xA4 then 0x002A else if off = 0xA8 then 0x0044
    else if off = 0xB0 then 0x5555 else if off = 0xB4 then 0x2222 else if off = 0xB8 then 0x0808
    else if off = 0xBC then 0x0080
    else if off = 0xC0 then 0xFCFCFCFC else if off = 0xC4 then 0x04040404 else if off = 0xC8 then 0xF8F8F8F8
    else if off = 0xCC then 0x08080808
    else match regAt p off with
      | some d => d.reset
      | none => 0
  | p =>
    match regAt p off with
    | some d => d.reset
    | none => 0

/-- Reset value of the plain register at a byte address. -/
def regReset (a : Nat) : Word64 :=
  match pageAt (a / 4096) with
  | some p => BitVec.ofNat 64 (regResetOf p (a % 4096))
  | none => 0

/-- Byte address of a page offset (03 R62). -/
def pageAddr (p : Page) (off : Nat) : Nat := pageNum p * 4096 + off

end Sys2Proof.Machine
end

