-- ==== Sys2Proof/Machine/State.lean ====
section
/-!
DEFINITION. The whole state of the XF128 block as plain data, and the machine right after reset. Each field's
docstring names the file of spec/ (by its number) and the rule that gives it.
-/

namespace Sys2Proof.Machine

/-- Why a command stops the machine. No command of this model faults: every row has an effect or, where its
condition does not hold, changes nothing. -/
inductive Fault where
  /-- Raised by no meaning; safe. It keeps the type inhabited for Host.Outcome. -/
  | none
  deriving DecidableEq, Repr

/-- Why a command is refused. -/
inductive Refusal where
  /-- Raised by an arm of exec whose meaning is not written yet; safe. -/
  | notModelled (mnemonic : String)
  deriving DecidableEq, Repr

/-- What the block itself has done to one page in one cc (the model's own): a software write of that cc does not undo
it (03 R67, R68, R74). -/
structure Now where
  /-- The cc; what the other fields hold counts in that cc alone. -/
  cc : Nat := 0
  /-- 03 R66: events raised. -/
  evts : Word32 := 0
  /-- 03 R68: errors raised, and the lowest of their codes with its ERR_INFO. -/
  errs : Nat := 0
  code : BitVec 16 := 0
  info : Word32 := 0
  /-- 03 R74: counters that have counted. -/
  cnts : List Nat := []
  /-- 03 R74: counters that CNT_VAL has set, each with its value before. -/
  sets : List (Nat × Nat) := []
  /-- 03 R74: bits that the block has set in registers software clears: offset * 64 + bit. -/
  bits : List Nat := []
  deriving DecidableEq, Repr

/-- Header of one register page (03 R66), the fields that writes and hardware change. -/
structure Hdr where
  /-- 03 R66: CTRL.ENABLE. -/
  enable : Bool := false
  /-- 03 R66, R69: CTRL.FREEZE. -/
  freeze : Bool := false
  /-- 03 R66: EVT_MASK. -/
  evtMask : Word32 := 0
  /-- 03 R66, R67: EVT_PEND, latched bits. -/
  evtPend : Word32 := 0
  /-- 03 R66, R68: ERR_CODE.CODE; STATUS.ERROR is 1 exactly while it is not 0. -/
  errCode : BitVec 16 := 0
  /-- 03 R66, R68: ERR_CODE.MORE. -/
  more : Byte := 0
  /-- 03 R66, R68: ERR_INFO. -/
  errInfo : Word32 := 0
  /-- 03 R66, R68: ERR_FRAME. -/
  errFrame : Word32 := 0
  /-- 03 R68: cc of the first error, for two errors of one cc (the model's own). -/
  errCc : Nat := 0
  /-- 03 R66: CNT_SEL.INDEX. -/
  cntSel : BitVec 7 := 0
  /-- 03 R66: SCRATCH. -/
  scratch : Word32 := 0
  /-- 03 R66, R70: LOCK.LOCKED. -/
  locked : Bool := false
  /-- 03 R69: the page's counters by index; one not listed is 0. -/
  cnt : SMap Nat := []
  /-- 03 R67, R68, R74: what the block has done in this cc (the model's own). -/
  now : Now := {}
  deriving DecidableEq, Repr

/-- The CSR port (02 R40 to R42) and the per-page holding latches (03 R75). -/
structure CsrPort where
  /-- 02 R42: data of the last response. -/
  rspData : Word64 := 0
  /-- 02 R42: csr_rsp_err of the last response. -/
  rspErr : Bool := false
  /-- 03 R75: write-holding latch by page: register address and lower word. -/
  wLatch : SMap (Option (Nat × Word32)) := []
  /-- 03 R75: read-holding latch by page: register address and upper word. -/
  rLatch : SMap (Option (Nat × Word32)) := []
  deriving DecidableEq, Repr

/-- What an outstanding fabric read is for. -/
inductive ReadFor where
  /-- Poll of the unit at INDEX of a ring (04 R101). -/
  | poll (r : Nat) (gen : Nat)
  /-- Follow-on units of a multi-unit entry: the first unit of this request (04 R104). -/
  | units (r : Nat) (gen : Nat) (first : Nat)
  /-- Prefetch: the first unit of this request (04 R105). -/
  | prefetch (r : Nat) (gen : Nat) (first : Nat)
  /-- Whole context (04 R84); act marks the context read of an activation (04 R86). -/
  | context (r : Nat) (act : Bool)
  /-- Word 14 of a completion ring (04 R90). -/
  | head (r : Nat)
  /-- Program data of a tag: the order in which OPS took it, its channel, and the first byte's offset in its buffer
  (10 R237). -/
  | program (t : Nat) (order : Nat) (chan : Nat) (off : Nat)
  /-- Patch image read: byte offset (09 R217). -/
  | load (off : Nat)
  /-- The word of an erase count, of the tag whose erase advances it, or of none (14 R358). -/
  | eraseCount (t : Option Nat)
  deriving DecidableEq, Repr

/-- What an outstanding fabric write is for. -/
inductive WriteFor where
  /-- Words 8 and 9 of a context (04 R83): the ring's activation it belongs to, the units it shows consumed, and the
  cause of the RING_ERROR that waits for its response. -/
  | writeback (r : Nat) (life : Nat) (shows : Nat) (report : Option Nat)
  /-- A completion at a unit of a completion ring (04 R98). -/
  | completion (r : Nat) (unit : Nat)
  /-- User data or metadata of a codeword of a tag (01 R17, 10 R242). -/
  | data (t : Nat) (plane : Nat) (idx : Nat)
  /-- The report of a CENSUS or the feature bytes of a FEATURE_GET (14 R339, 04 R92). -/
  | report (t : Nat)
  /-- A map image, erase-count or recovery report write of MAP (14). -/
  | map
  deriving DecidableEq, Repr

/-- A fabric read that waits or is outstanding (02 R33, R34). -/
structure RdReq where
  /-- First byte wanted; the request's beats cover it and the len - 1 bytes that follow (rqFlitOf gives rq_addr). -/
  addr : Nat
  len : Nat
  /-- rq_kind of Table 2.7. -/
  kind : Nat
  purpose : ReadFor
  deriving DecidableEq, Repr

/-- A fabric write that waits or is outstanding (02 R33, R36): the bytes from addr on. -/
structure WrReq where
  addr : Nat
  bytes : List Byte
  /-- wq_kind of Table 2.7. -/
  kind : Nat
  purpose : WriteFor
  deriving DecidableEq, Repr

/-- A request flit (02 Table 2.6). -/
structure Flit where
  tkt : Nat
  addr : Nat
  /-- Beats of 64 B, 1 to 63; 0 means 64. -/
  cnt : BitVec 6
  kind : Nat
  deriving DecidableEq, Repr

/-- One fabric master port FAB[p] (02 R31 to R39). -/
structure FabPort where
  /-- 02 R39: fab_live[p]. -/
  live : Bool := false
  /-- 02 R39: fab_idle[p] has been seen high since fab_live[p] rose. -/
  begun : Bool := false
  /-- 02 R31: unspent RQ credits, at most 63. -/
  rq : Nat := 0
  /-- 02 R31: unspent WQ credits. -/
  wq : Nat := 0
  /-- 02 R31: unspent WD credits. -/
  wd : Nat := 0
  /-- Read requests not yet put, first in, first out. -/
  rdWait : List RdReq := []
  /-- Write requests not yet put, first in, first out. -/
  wrWait : List WrReq := []
  /-- 02 R34: outstanding reads by ticket, 0 to 255. -/
  reads : SMap (Option RdReq) := []
  /-- 02 R34: outstanding writes by ticket, 256 to 383. -/
  writes : SMap (Option WrReq) := []
  /-- 02 R36: writes whose WD flits are not all put: ticket and flits left, in WQ order. -/
  wdLeft : List (Nat × Nat) := []
  /-- 02 Table 2.6: the RQ flit put last: rq_tkt, rq_addr, rq_cnt, rq_kind. -/
  rqFlit : Option Flit := none
  /-- 02 Table 2.6: the WQ flit put last: wq_tkt, wq_addr, wq_cnt, wq_kind. -/
  wqFlit : Option Flit := none
  deriving DecidableEq, Repr

/-- Port and pad levels the block sees or drives (02 Tables 2.1 to 2.3). -/
structure Pins where
  /-- 02 R29, Table 2.5: strap_boot as sampled (GLB.STRAP.BOOT). -/
  strapBoot : BitVec 2 := 0
  /-- 02 R29: strap_clk as sampled (GLB.STRAP.CLK). -/
  strapClk : BitVec 2 := 0
  /-- 02 R29: strap_peer as sampled (GLB.STRAP.PEER). -/
  strapPeer : BitVec 2 := 0
  /-- 02 R49: pfail_warn. -/
  pfailWarn : Bool := false
  /-- 02 R49: pfail_done. -/
  pfailDone : Bool := false
  /-- 02 R49 (the model's own): pfail_done has risen since pfail_warn did, so pfail_warn may have fallen (assumption
  117). -/
  pfailFell : Bool := false
  /-- 02 R48: rail_en[7:0]. -/
  railEn : BitVec 8 := 0
  /-- 02 Table 2.2: rail_pgood[7:0]. -/
  railPgood : BitVec 8 := 0
  /-- 02 R46: ff_pulse[1:0]. -/
  ffPulse : BitVec 2 := 0
  /-- 02 Table 2.1: fab_idle[3:0]. -/
  fabIdle : BitVec 4 := 0
  deriving DecidableEq, Repr

/-! ### RIF (04) -/

/-- Ring states (04 R85, Table 4.1 STATE). -/
inductive RingState where
  | idle | active | error | fnResetting
  deriving DecidableEq, Repr

/-- An entry read from a submission ring: its ring, first unit, LEN + 1 units of eight words each (04 Tables 4.4, 4.5,
4.8). -/
structure Entry where
  ring : Nat
  unit : Nat
  words : List Word32
  deriving DecidableEq, Repr

/-- A due completion (04 Table 4.9, R95, R96). -/
structure Cpl where
  /-- 04 R96: a batch completion. -/
  batch : Bool
  status : Nat
  count : Nat
  cookie : Word32
  frame : Word32
  tag : Nat
  rung : Nat
  maxbits : Nat
  /-- Tags released by its write response (04 R97). -/
  covers : List Nat
  /-- Submission ring whose written-back INDEX must show the entries consumed (04 R83). -/
  ring : Nat
  /-- Units of that ring that must be shown consumed. -/
  need : Nat
  deriving DecidableEq, Repr

/-- One member of a completion batch (04 R94). done holds its outcome once it has committed. -/
structure Member where
  tag : Nat
  /-- Units consumed on the ring once this entry was consumed. -/
  seq : Nat
  cookie : Word32
  done : Option (Nat × Word32 × Nat × Nat)
  deriving DecidableEq, Repr

/-- A batch of a submission ring (04 R94), oldest member first. -/
structure Batch where
  closed : Bool := false
  members : List Member := []
  deriving DecidableEq, Repr

/-- One ring: its context of Table 4.1 as the block holds it, and the poller's and batch state. -/
structure Ring where
  /-- 04 R85: STATE. -/
  state : RingState := .idle
  /-- 04 Table 4.1 word 0: KIND, true for a completion ring. -/
  cq : Bool := false
  /-- word 0: EXPRESS. -/
  express : Bool := false
  /-- word 0: SIZE. -/
  size : Nat := 0
  /-- word 0: FUNCTION. -/
  fn : Nat := 0
  /-- words 1 and 2: BASE. -/
  base : Nat := 0
  /-- word 3: BATCH_MAX. -/
  batchMax : Nat := 0
  /-- word 3: CQ_ID. -/
  cqId : Nat := 0
  /-- word 3: VECTOR of a completion ring. -/
  vector : Nat := 0
  /-- word 4: PF_DEPTH. -/
  pfDepth : Nat := 0
  /-- word 4: INTERVAL_E. -/
  intervalE : Nat := 0
  /-- word 8: CUR_E. -/
  curE : Nat := 0
  /-- word 8: PHASE. -/
  phase : Bool := false
  /-- word 8: INDEX. -/
  index : Nat := 0
  /-- word 9: ERR_CAUSE. -/
  errCause : Nat := 0
  /-- word 9: ERR_INDEX. -/
  errIndex : Nat := 0
  /-- word 14: HEAD as last read. -/
  head : BitVec 16 := 0
  /-- 04 R84: the context is in the cache. -/
  cached : Bool := false
  /-- 04 R84: order of the last use. -/
  lastUse : Nat := 0
  /-- 04 R83: word 8 or 9 has changed since the last write-back. -/
  dirty : Bool := false
  /-- 04 R84: a whole-context read is outstanding. -/
  ctxRead : Bool := false
  /-- 04 R101: next due time in cc; none while nothing is to be polled. -/
  due : Option Nat := none
  /-- 04 R101: a poll read is outstanding. -/
  polling : Bool := false
  /-- 04 R104: first unit of an entry whose follow-on units are being read. -/
  partialUnit : Option (List Word32) := none
  /-- 04 R104: follow-on units received so far. -/
  got : SMap (List Word32) := []
  /-- 04 R88, R106: the entry at INDEX handed to OPS and not yet taken. -/
  offer : Option Entry := none
  /-- 04 R105: prefetched units held, by unit. -/
  prefetched : SMap (List Word32) := []
  /-- 04 R105: a prefetch read is outstanding, with its number of units still awaited and the units got. -/
  pfAwait : Nat := 0
  /-- 04 R105: units of the outstanding prefetch received. -/
  pfGot : SMap (List Word32) := []
  /-- 04 R88: units consumed since activation. -/
  consumed : Nat := 0
  /-- 04 R83: units shown consumed by the last write-back whose response has come. -/
  shown : Nat := 0
  /-- Activations of this ring so far (the model's own): write-backs of an earlier one show nothing of this one. -/
  life : Nat := 0
  /-- 04 R83: write-backs without response, oldest first: the activation and the consumed units that each shows. -/
  wbOut : List (Nat × Nat) := []
  /-- 04 Table 4.12: in FN_RESETTING, the ring was in ERROR or a fabric error has struck it since. -/
  wasErr : Bool := false
  /-- 04 R84, R87: the read of follow-on units of the entry at INDEX waits for the context or for CTRL.ENABLE. -/
  fetchHeld : Bool := false
  /-- 04 R84, R87: a prefetch from this unit on waits likewise. -/
  pfHeld : Option Nat := none
  /-- 04 R106, 12 R288: the offered entry has been counted as held for want of a tag; of sector records. -/
  tagWait : Bool := false
  recWait : Bool := false
  /-- 04 R109: a write-back of this ring failed. -/
  wbFailed : Bool := false
  /-- Reads of earlier generations are dropped when they return (04 R107, R108, R111). -/
  gen : Nat := 0
  /-- 04 R109: completions that were lost: the tags of each. -/
  lost : List (List Nat) := []
  /-- 04 R94: batches, oldest first; at most the last is open. -/
  batches : List Batch := []
  /-- 04 R98: completions due on this completion ring, oldest first. -/
  cplDue : List Cpl := []
  /-- 04 R98: completions written and without response, oldest first, with the unit of each. -/
  cplOut : List (Nat × Cpl) := []
  /-- 04 R90: due time of the next HEAD read of a full completion ring. -/
  headDue : Option Nat := none
  /-- 04 R90: a HEAD read is outstanding. -/
  headRead : Bool := false
  deriving DecidableEq, Repr

/-- Permissions of one function (04 R110). -/
structure FnPerm where
  /-- FN_CTRL.ENABLE. -/
  enable : Bool := false
  /-- FN_OPS as its register lays it out. -/
  ops : BitVec 20 := 0
  /-- FN_CHAN[0..3], bit c for CHN[c]. -/
  chan : BitVec 128 := 0
  /-- 04 R111: FN_BUSY bit. -/
  busy : Bool := false
  deriving DecidableEq, Repr

/-- RIF state beside its plain registers. -/
structure Rif where
  /-- 04 R80: the rings by id. -/
  rings : SMap Ring := []
  /-- 04 R110: the functions by number. -/
  fns : SMap FnPerm := []
  /-- 04 R84: use counter of the context cache. -/
  useSeq : Nat := 0
  /-- 04 R86: ACT_RESULT.PENDING. -/
  actPending : Bool := false
  /-- 04 R86: ACT_RESULT.RING. -/
  actRing : Nat := 0
  /-- 04 R86: ACT_RESULT.RESULT. -/
  actResult : Nat := 0
  /-- 04 R103: POLL_DEMAND. -/
  demand : Nat := 0
  /-- 04 R103: POLL_STRETCH. -/
  stretch : Nat := 256
  /-- 04 R103: cc of the next recomputation of D. -/
  demandDue : Nat := 0
  /-- 04 R101: earliest cc of the next poll read. -/
  nextPoll : Nat := 0
  /-- 04 R107: the hold in place: ring, first unit, units. -/
  hold : Option (Nat × Nat × Nat) := none
  /-- 04 R107: INVAL_STAT, PHASE and INDEX. -/
  invalStat : Nat := 0
  deriving DecidableEq, Repr

/-! ### OPS (05) -/

/-- Tag states (05 Table 5.1). -/
inductive TagState where
  | free | fenced | queued | issued | pairWait | committed
  deriving DecidableEq, Repr

/-- A codeword of a read-type tag: plane and index on its page (10 R239). -/
structure CwId where
  plane : Nat
  idx : Nat
  deriving DecidableEq, Repr

/-- One row of the operation table (05 R114). -/
structure TagRow where
  /-- 05 R115: STATE. -/
  state : TagState := .free
  /-- The entry the tag stands for. -/
  entry : Entry := ⟨0, 0, []⟩
  /-- 04 R110: owning function. -/
  fn : Nat := 0
  /-- 05 R113: order in which OPS took it. -/
  order : Nat := 0
  /-- 07 R146: ordering key. -/
  key : Stamp := ⟨0, 0⟩
  /-- 04 R110: the function's permissions allowed the entry when OPS took it. -/
  allowed : Bool := false
  /-- 14 R342: cc in which OPS took it. -/
  takenAt : Nat := 0
  /-- 05 R124: the page that waits for room to be served from a staged copy. -/
  pageWait : Option Nat := none
  /-- 05 R117: slack recorded at admission, fraction units. -/
  slack : Int := 0
  /-- 05 R116: refused at admission. -/
  refused : Bool := false
  /-- 05 R125: status once committed. -/
  status : Nat := 0
  /-- 05 R19, R20: cc of the commitment point and the rank of the event that decided it. -/
  commitCc : Nat := 0
  commitRank : Nat := 0
  /-- 04 Table 4.9: FRAME of the commitment point. -/
  commitFrame : Word32 := 0
  /-- 11 R272: rung in use and highest rung reached. -/
  rung : Nat := 0
  maxRung : Nat := 0
  /-- 11 R258: band of the running rung. -/
  band : Nat := 0
  /-- 11 R270: attempt or sense of the running rung. -/
  attempt : Nat := 0
  /-- 04 Table 4.9: most bits corrected in one codeword. -/
  maxbits : Nat := 0
  /-- 05 R119: in the expiry comparator. -/
  armed : Bool := false
  /-- 05 R119: taken into FENCED with a deadline that fails check 6; it enters no comparator while FENCED. -/
  unwatched : Bool := false
  /-- 05 R120, 12 R291: the deadline has been withdrawn. -/
  withdrawn : Bool := false
  /-- 05 R120: the confirm cycle that starts its array operation has been issued. -/
  confirmed : Bool := false
  /-- 11 R274: held by the ladder unit; next retest in cc. -/
  ladderHeld : Option Nat := none
  /-- 05 R18, R17: fabric data writes issued and without response. -/
  wrOut : Nat := 0
  /-- 10 R239: codewords of its pages not yet forwarded, in order. -/
  todo : List CwId := []
  /-- 10 R237: bytes of program data still to arrive from the buffer or the formatter. -/
  dataLeft : Nat := 0
  /-- 10 R237: fetch of program data requested from DPT and not granted yet. -/
  fetchWait : Bool := false
  /-- 10 R249: granules of staging held. -/
  granules : Nat := 0
  /-- 05 R126: planes whose paired program has still to pass, while in PAIR_WAIT. -/
  pairLeft : Nat := 0
  deriving DecidableEq, Repr

/-- A record of OPS.EARLY_LOG (05 R127). -/
structure EarlyRec where
  status : Nat
  fn : Nat
  paddr : Nat
  deriving DecidableEq, Repr

/-- OPS state beside its plain registers. -/
structure Ops where
  /-- 05 R114: rows by tag; a row not listed is FREE. Keys from 65,536 are OK_EARLY programs without a tag (05 R127).
  -/
  tags : SMap TagRow := []
  /-- 05 R114: tags never given out since reset begin here. -/
  fresh : Nat := 0
  /-- 05 R114: freed tags, longest free first. -/
  freed : List Nat := []
  /-- 05 R126: pages whose program has passed since the last erase of their block, on dies whose profile has PAIR_RULE 1:
  die, plane, block, page. -/
  passed : List (Nat × Nat × Nat × Nat) := []
  /-- 05 R113: entries taken since reset, the order number of the next. -/
  taken : Nat := 0
  /-- 01 R19, R20: tags committed and complete in this cc, in order; their completions fall due with the next (the
  model's own). -/
  doneNow : List Nat := []
  /-- 01 R20: tags that an abort of this cc has committed, in order; their work ends with the cc (the model's own). -/
  abortNow : List Nat := []
  /-- 05 R129: TAGS_LOW.LOW. -/
  low : Nat := 65536
  /-- 05 R128: per-function counters by function * 8 + k. -/
  fna : SMap Nat := []
  /-- 05 R127: EARLY_LOG, oldest first, at most 16. -/
  earlyLog : List EarlyRec := []
  /-- 05 R127: key given to the next OK_EARLY program that leaves its tag. -/
  earlyNext : Nat := 65536
  deriving DecidableEq, Repr

/-! ### TMB (06) -/

/-- Tracker states (06 R139). -/
inductive TrkState where
  | off | freerun | acquire | locked | hold | reverse
  deriving DecidableEq, Repr

/-- A tick that waits for its sample (06 R135). -/
structure PendTick where
  /-- Pad time in cc. -/
  tau : Nat
  /-- cc in which the tick reached TMB. -/
  at_ : Nat
  /-- Its own frame. -/
  own : Word32
  /-- Phase error. -/
  err : Int
  /-- Interval since the previous tick since OFF, REVERSE or a change of actuator. -/
  interval : Option Nat
  /-- 06 Table 6.1 row 1: outside WINDOW of a frame start, or a second tick for it. -/
  stray : Bool
  deriving DecidableEq, Repr

/-- TMB state beside its plain registers. -/
structure Tmb where
  /-- 06 R139: TRK_STAT.STATE. -/
  state : TrkState := .off
  /-- 06 R130: TMB.FRAME. -/
  frame : Word32 := 0
  /-- 06 R130: TMB.PHASE. -/
  phase : Nat := 0
  /-- 06 R131: PERIOD_EST. -/
  periodEst : Nat := 24414
  /-- 06 R138: FRAME_LEN. -/
  frameLen : Nat := 24414
  /-- 06 TICK_STAMP: FRAME_LEN of the frame before. -/
  prevLen : Nat := 24414
  /-- 06 R138: INTEG in 1/256 cc. -/
  integ : Nat := 0x5F5E00
  /-- 06 R138: PRESET. -/
  preset : Nat := 24414
  /-- 06 R138: length set in advance for the next frame by an early tick. -/
  nextLen : Option Nat := none
  /-- 06 R138: p of a decision in the running frame, the next PERIOD_EST. -/
  nextEst : Option Nat := none
  /-- 06 R135: changes of FRAME_LEN in the last cc: when, and the length before. -/
  lenLog : List (Nat × Nat) := []
  /-- 06 R139: ACQ_COUNT. -/
  acqCount : Nat := 0
  /-- 06: TRK_STAT.RUN, consecutive wedges not GOOD. -/
  run : Nat := 0
  /-- 06: TRK_STAT.LAST_ERR. -/
  lastErr : Int := 0
  /-- 06 R139: WEDGE.VALID. -/
  wedgeValid : Bool := false
  /-- 06 R139: WEDGE.INDEX. -/
  wedgeIndex : Nat := 0
  /-- 06: LAST_POS. -/
  lastPos : BitVec 44 := 0
  /-- 06: TICK_STAMP.FRAME. -/
  stampFrame : Word32 := 0
  /-- 06: TICK_STAMP.PHASE. -/
  stampPhase : Nat := 0
  /-- 06 R135: pad time of the previous tick. -/
  prevTick : Option Nat := none
  /-- 06 R135: the tick waiting for its sample. -/
  pend : Option PendTick := none
  /-- 06 R136: index of the last usable sample. -/
  lastUsable : Option Nat := none
  /-- 06 R136: ticks not STRAY and MISS frames since that sample's tick. -/
  sinceUsable : Nat := 0
  /-- 06 R136: MISS frames since the last tick. -/
  missSince : Nat := 0
  /-- 06 R136: frame whose start has taken a tick, the last such. -/
  takenFor : Option Word32 := none
  /-- 06 R137: frame starts not judged for MISS yet: frame and start cc, oldest first. -/
  starts : List (Word32 × Nat) := []
  /-- 06 R139: consecutive MISS. -/
  missRun : Nat := 0
  /-- 06 R139: consecutive BACKWARD ticks. -/
  backRun : Nat := 0
  /-- 06 R139: consecutive ticks with step 1 in REVERSE. -/
  fwdRun : Nat := 0
  /-- 06 R139: consecutive frames begun without a GOOD tick in ACQUIRE or HOLD. -/
  idleFrames : Nat := 0
  /-- 06 R139: in HOLD, the previous tick not taken: pad time and its usable index. -/
  holdPrev : Option (Nat × Nat) := none
  /-- 06: CKPT_STAT.PLAN_LAST. -/
  planLast : Bool := false
  /-- 06 R143: the frame for which the planner was judged last. -/
  planAt : Word32 := 0
  /-- 06: CKPT_STAT.PLAN_PREV. -/
  planPrev : Bool := false
  /-- 06: CKPT_STAT.UNPUB. -/
  unpub : Nat := 0
  /-- 06: CKPT_MISS, bit b for BUR[b]. -/
  ckptMiss : BitVec 64 := 0
  /-- 06 R143: Burins that missed the frame before the one of CKPT_MISS. -/
  ckptPrev : BitVec 64 := 0
  /-- 06 R142: Burins not yet judged for the frame just ended. -/
  ckptOwed : BitVec 64 := 0
  /-- 06 R142: adoption of this frame's plan: bit c for CHN[c]. -/
  adopted : BitVec 128 := 0
  /-- 06 R141: the planner's checkpoint of the current frame has been judged. -/
  planJudged : Bool := false
  deriving DecidableEq, Repr

/-! ### SCH (07) -/

/-- Die states (07 Table 7.2). -/
inductive DieState where
  | idle | busy | program | erase | suspReq | suspending | suspended
  deriving DecidableEq, Repr

/-- Kinds of die operation. -/
inductive DieOpKind where
  /-- An array sense of a read-type opcode (07 R157). -/
  | sense
  /-- A program of one program unit. -/
  | program
  | erase
  /-- FEATURE_GET and FEATURE_SET of an entry (08 R167). -/
  | featGet | featSet
  /-- A FEATURE_GET at FA_TEMP (11 R261). -/
  | tempGet
  /-- A read of a census, map, journal, factory-table or boot job of the Graver. -/
  | jobRead
  /-- A program or erase of a Graver job (map copies, journal). -/
  | jobProgram | jobErase
  deriving DecidableEq, Repr

/-- A die operation that waits in the queues of a die (07 R145, R146). -/
structure QItem where
  /-- Tag, or key of an OK_EARLY program (05 R127), or 1,000,000 and upward for a Graver job. -/
  id : Nat
  kind : DieOpKind
  /-- Planes whose queues it is in. -/
  planes : Nat
  block : Nat
  page : Nat
  slc : Bool
  /-- 11: rung and attempt of a sense. -/
  rung : Nat
  attempt : Nat
  /-- 07 R146: 0 STREAM, 1 STRICT and EARLY_ACK, 2 NONE. -/
  cls : Nat
  key : Stamp
  order : Nat
  /-- 11 R273: the sense of a rung that fits, which runs in the same Burin job. -/
  goes : Bool := false
  deriving DecidableEq, Repr

/-- A die operation that runs or is suspended. -/
structure DieOp where
  kind : DieOpKind
  /-- Tags served; several when senses are merged (07 R148). -/
  ids : List Nat
  planes : Nat
  block : Nat
  page : Nat
  slc : Bool
  rung : Nat
  attempt : Nat
  key : Stamp
  /-- True once its command cycles have ended and the array works. -/
  inArray : Bool
  /-- cc of the array start or of the last resume. -/
  since : Nat
  /-- 07 R160: array time run before that, cc. -/
  ran : Nat
  /-- 08 R171: cc of the next status poll. -/
  pollAt : Nat
  /-- 05 R119: abandoned by expiry; its result is dropped. -/
  dropped : Bool
  /-- 11 R256: its levels have still to be set on the die. -/
  needLevels : Bool := false
  deriving DecidableEq, Repr

/-- One die as SCH sees it. -/
structure Die where
  /-- 07 Table 7.2: DIE_INFO.STATE. -/
  state : DieState := .idle
  /-- 07: DIE_INFO.SUSP_KIND, true for an erase. -/
  suspErase : Bool := false
  /-- 07 R159: suspends of the running program or erase, saturating at 2^24 - 1. -/
  suspCount : Nat := 0
  /-- 07 R159: the threshold has been reported for it. -/
  threshRaised : Bool := false
  /-- 07 R147: the operation that runs on the die. -/
  run : Option DieOp := none
  /-- 07 R158: the program or erase that is suspended. -/
  held : Option DieOp := none
  /-- cc of the suspend command while SUSPENDING; SUSPEND_LATE has been latched. -/
  suspSince : Nat := 0
  suspLate : Bool := false
  /-- 07 R149: a program whose data-in runs on the die, and the pages moved. -/
  dataIn : Option (DieOp × Nat) := none
  /-- 07 R149: a program whose data-in was abandoned. -/
  abandoned : Option DieOp := none
  /-- 07 R145: the operations queued, in order of entry; plane queues are those that name the plane. -/
  queue : List QItem := []
  /-- 13 R307: the start gate holds the die's start; cc since when. -/
  startWait : Option Nat := none
  /-- 07 R157: the operation whose start it holds. -/
  heldItem : Option QItem := none
  /-- 14 R335, 08 R173: a reset of the LUN is wanted; cc since when (07 R155). -/
  resetWanted : Bool := false
  resetAt : Nat := 0
  /-- 09 R210: the SUSPEND request against the die's operation has been taken. -/
  suspTaken : Bool := false
  deriving DecidableEq, Repr

/-- A bus transfer that is a candidate, planned or running (07 R150, R152). -/
structure Xfer where
  id : Nat
  /-- volume * 4 + LUN. -/
  die : Nat
  plane : Nat
  /-- PLAN_ENT.KIND: 0 data-out, 1 data-in, 2 stream data-out. -/
  kind : Nat
  /-- Codewords of a data-out still to leave the pads. -/
  cws : List Nat := []
  /-- Page of a data-in among those of its program, in the order of 04 R92. -/
  page : Nat := 0
  /-- Length in cc. -/
  len : Nat
  /-- 10 R241: the correction stage has deferred it. -/
  stageWait : Bool := false
  /-- 07 R152: a plan has placed it; it is no candidate of a later plan. -/
  placed : Bool := false
  /-- cc in which its data is, or is expected to be, ready. -/
  ready : Nat
  cls : Nat
  key : Stamp
  order : Nat
  deriving DecidableEq, Repr

/-- One entry of a frame plan (07 R150). -/
structure PlanEnt where
  x : Xfer
  start : Nat
  /-- The transfer has started or its time has been released (07 R154). -/
  past : Bool := false
  deriving DecidableEq, Repr

/-- The plan in force on a channel. -/
structure Plan where
  frame : Word32
  /-- 06 R141: the channel runs on this plan although a later one was discarded. -/
  carried : Bool := false
  /-- cc of its publication; the channel's thread has adopted it (09 R213). -/
  since : Nat := 0
  adopted : Bool := false
  entries : List PlanEnt := []
  deriving DecidableEq, Repr

/-- SCH state beside its plain registers. -/
structure Sch where
  /-- Dies by number (08 R170). -/
  dies : SMap Die := []
  /-- 07 R152: candidate transfers by channel, oldest first. -/
  cands : SMap (List Xfer) := []
  /-- 07 R150: plan in force by channel. -/
  plans : SMap (Option Plan) := []
  /-- 07 R150: channels to be planned in this frame and not published yet. -/
  toPlan : List Nat := []
  /-- 07 R150: channels planned at the last tick. -/
  planned : List Nat := []
  /-- 07 R159: STARVE_INFO. -/
  starve : Word64 := 0
  deriving DecidableEq, Repr

/-! ### CHN and PEER (08) -/

/-- Ownership states (08 Table 8.8). -/
inductive Own where
  | foreign | claiming | owned | releasing | backoff | takeover | halted
  deriving DecidableEq, Repr

/-- What the decode of a codeword gave (10 Table 10.3). -/
inductive CwOut where
  /-- Not judged yet. -/
  | none
  | erased | clean | echoBad | miscorrect | corrected | failed
  deriving DecidableEq, Repr

/-- One cycle, or one data phase, on the pads of a channel (08 R167, 09 Table 9.5). -/
inductive PadCycle where
  /-- A command cycle: its opcode. -/
  | cmd (op : Byte)
  /-- An address cycle. -/
  | addr (a : Byte)
  /-- A data byte to the die. -/
  | din (b : Byte)
  /-- A number of data bytes to the die: a page of data-in (Chan.lastIn). -/
  | page (n : Nat)
  /-- A number of bytes from the die. -/
  | dout (n : Nat)
  /-- DQ turnaround, to write or to read. -/
  | turn (write : Bool)
  /-- CE_N driven low: 0 none, 1 CE_N[0], 2 CE_N[1]. -/
  | ce (low : Nat)
  deriving DecidableEq, Repr

/-- A bus action on a channel. -/
inductive BusAct where
  /-- SET FEATURES at FA_LEVEL before a sense of the die (11 R256). -/
  | levelSet (die : Nat)
  /-- ZQ calibration long of a volume (08 R176 step 2). -/
  | zqLong (vol : Nat)
  /-- Command, address and confirm cycles that start the array operation of the die (07 R151). -/
  | arrayStart (die : Nat)
  /-- Status poll 78h (08 R171). -/
  | statusPoll (die : Nat)
  /-- Suspend and resume commands (07 R157, R158). -/
  | suspendCmd (die : Nat)
  | resumeCmd (die : Nat)
  /-- A data-out or data-in (07 R150). -/
  | transfer (x : Xfer)
  /-- Reset LUN FAh (08 R173). -/
  | resetLun (die : Nat)
  /-- Bring-up step 1 of a volume position behind its reset: read ID and parameter page (08 R176). -/
  | bringUp (vol : Nat)
  /-- Its volume appointment and SET FEATURES, unless it is silent (08 R176). -/
  | setUp (vol : Nat)
  /-- Read and write training with ZQ (08 R176, R177). -/
  | train (vol : Nat)
  /-- Reset-all-targets of one volume (08 R188 step 2). -/
  | resetTargets (vol : Nat)
  /-- Read ID of one die position for a census (14 R337). -/
  | readId (die : Nat)
  /-- Feature cycles of an entry or a temperature sample (08 R167, 11 R261). -/
  | feature (die : Nat)
  /-- A raw command (09 R224). -/
  | raw (die : Nat)
  deriving DecidableEq, Repr

/-- Training results of one volume (08 R176, TRAIN_RES). -/
structure Train where
  valid : Bool := false
  rd : Byte := 0
  wr : Byte := 0
  eye : Byte := 0
  deriving DecidableEq, Repr

/-- Steps of a takeover (08 R188). -/
inductive TakeStep where
  /-- Reset-all-targets: volumes left. -/
  | resets (vols : List Nat)
  /-- Bring-up step 1: volume positions left. -/
  | bring (vols : List Nat)
  /-- ZQ calibration long: volumes left. -/
  | zq (vols : List Nat)
  /-- Training: volumes left. -/
  | training (vols : List Nat)
  /-- The census. -/
  | census
  deriving DecidableEq, Repr

/-- Why a channel is RELEASING (08 Table 8.8). -/
inductive RelKind where
  /-- OWN_CMD RELEASE; by a CLAIM that YIELD allows; forced by a CLAIM; forced by a HEARTBEAT_INFO; by CTRL.ENABLE 0.
  -/
  | command | yielded (seq : Nat) | forcedClaim (seq : Nat) | forcedInfo
  deriving DecidableEq, Repr

/-- One channel CHN[c] beside its plain registers. -/
structure Chan where
  /-- 08 R187: OWN_STAT.STATE. -/
  own : Own := .foreign
  /-- 08 R187: OWN_STAT.DIRTY. -/
  dirty : Bool := true
  /-- 08 R182: the PEER.SHARED bit as last taken at a rise of CTRL.ENABLE. -/
  shared : Bool := false
  /-- 08 R192: COLL_RUN. -/
  collRun : Nat := 0
  /-- 08 R191: CONT_LAST. -/
  contLast : Word32 := 0
  /-- 08 R190: contention latched during blanking, its pads. -/
  early : Option (BitVec 17) := none
  /-- 08 R187: the pads are driven. -/
  driven : Bool := false
  /-- Why it is RELEASING. -/
  rel : Option RelKind := none
  /-- cc at which the current CLAIMING or BACKOFF began. -/
  ownSince : Nat := 0
  /-- 08 R188: step of the takeover; it was entered through PEER_LOST. -/
  take : Option TakeStep := none
  takeLost : Bool := false
  /-- 08 R176: training results by volume. -/
  train : SMap Train := []
  /-- 08 R176: volumes appointed, bit v. -/
  appointed : BitVec 8 := 0
  /-- 08 R176: volumes trained since the last L2 or L3 reset, bit v. -/
  trained : BitVec 8 := 0
  /-- 08 R177: volumes still to be retrained. -/
  retrain : List Nat := []
  /-- cc in which that retrain was asked for (07 R155). -/
  retrainAt : Nat := 0
  /-- 08 R177: frames until the next retrain. -/
  retrainCount : Nat := 0
  /-- 08 R176: volumes whose ZQ calibration long has been issued since the last L2 or L3 reset, bit v. -/
  zqDone : BitVec 8 := 0
  /-- 08 R176, R188: dies of a volume just reset that have not shown ready; cc of its reset and of the next poll. -/
  poll : Option (List Nat) := none
  pollSince : Nat := 0
  pollAt : Nat := 0
  /-- 08 R176: the position whose ID has been read and whose set-up is to come. -/
  setUp : Option Nat := none
  /-- 08 R175: new codes wait for a bus gap; cc since which the bus is free. -/
  zqPend : Bool := false
  freeAt : Nat := 0
  /-- 08 R190: cc of the last turnaround of DQ, DQS or RE at the begin or the end of an action, and of those inside it. -/
  turnAt : Option Nat := none
  turns : List Nat := []
  /-- 08 R167, 09 R199: cycles of the action begun last, as they leave on the pads. -/
  cycles : List PadCycle := []
  /-- 09 R199: the oldest action of the command FIFO is on the pads. -/
  onFifo : Bool := false
  /-- 09 Table 9.5: the CE_N lines that the last CE action of a word drives low; an E1h of a word awaits its volume
  address. -/
  ceWord : Nat := 0
  selPend : Bool := false
  /-- 10 R243: DP bits of the word whose data action is on the pads; none while no word has issued one. -/
  dp : Option Nat := none
  /-- 10 R239: last outcome of the codeword at plane * 4 + index, with the tag or job it was read for. -/
  outs : SMap (Nat × CwOut) := []
  /-- The bus action in progress and the cc in which it began. -/
  act : Option (BusAct × Nat) := none
  /-- 07 R156: volume selected last. -/
  volume : Option Nat := none
  /-- 07 R152: cc in which the bus becomes free of the transfer in progress. -/
  busyTo : Nat := 0
  /-- 08 R178: UTRIM as taken at the last ZQ update; with FTRIM it gives the codes in use. -/
  codes : BitVec 24 := 0
  /-- 14 R337: die positions of the running census still to be read, and the tag that asked for it. -/
  census : Option (List Nat × Option Nat) := none
  /-- 11 R278: a stranger check has been asked for. -/
  strangerCheck : Bool := false
  /-- The codewords of the last page of a data-in, as its bytes left on the pads (10 R229, R233). -/
  lastIn : List Byte := []
  /-- cc since which CTRL.ENABLE = 0 waits for array operations to end before the pads are released. -/
  disabling : Bool := false
  deriving DecidableEq, Repr

/-- PEER state beside its plain registers (08 R183 to R186). -/
structure Peer where
  /-- 08 R184: outgoing messages, oldest first, at most 16. -/
  txq : List Word64 := []
  /-- 08 R184: messages that wait because the queue is full. -/
  txWait : List Word64 := []
  /-- 08 R184: messages queued in one cc, and that cc. -/
  fresh : List Word64 := []
  freshAt : Nat := 0
  /-- 08 R183: CLAIM count, SEQ of the next CLAIM. -/
  seq : Nat := 0
  /-- 08 R185: LINK.LOST. -/
  lost : Bool := false
  /-- 08 R185: cc of the last edge on PEER_HB_IN; none before the first. -/
  lastEdge : Option Nat := none
  /-- 08 R185: regular edges in a row. -/
  edges : Nat := 0
  /-- 02 R24, R25, 08 R185: PEER_TX and PEER_HB_OUT are driven, from the release of PHY group 0 on; else they show
  their weak pull-up. -/
  driven : Bool := true
  /-- 08 R185: level of PEER_HB_OUT and the cc of its last toggle; undriven it is pulled up. -/
  hbOut : Bool := true
  hbAt : Nat := 0
  /-- 02 R53: cc from which PEER_HB_IN has been watched: the release of D1. -/
  watched : Nat := 0
  /-- 08 R186: next quarter and the cc at which its HEARTBEAT_INFO is due. -/
  quarter : Nat := 0
  infoDue : Nat := 0
  /-- 08 R183: cc at which the link is free again. -/
  linkFree : Nat := 0
  /-- 08 R194: LAST_RX, LAST_TX. -/
  lastRx : Word64 := 0
  lastTx : Word64 := 0
  deriving DecidableEq, Repr

/-! ### Burin and Graver engines, SEC (09) -/

/-- Thread states (09 Table 9.1). -/
inductive ThrState where
  | held | idle | run | stall | halted | faulted
  deriving DecidableEq, Repr

/-- A job of a thread (09 R203). -/
structure Job where
  /-- Table 9.9 or Table 9.10. -/
  kind : Nat
  profile : Nat
  channel : Nat
  /-- Die number, for jobs that address one. -/
  die : Nat
  tag : Option Nat
  /-- Tag or Graver job that the work serves. -/
  id : Option Nat := none
  /-- Address, laid out as PADDR. -/
  paddr : Nat := 0
  planes : Nat
  cwFirst : Nat
  cwLast : Nat
  slc : Bool
  /-- 09 R207: ordering key of a Graver job. -/
  key : Stamp
  deriving DecidableEq, Repr

/-- One action in the command FIFO of a channel: BUS.ACT and ARG (09 Table 9.5). -/
structure CmdAct where
  act : Nat
  arg : Nat
  /-- DP bits of its word (10 R243) and its cycles on the pads. -/
  dp : Nat := 0
  cycles : List PadCycle := []
  deriving DecidableEq, Repr

/-- Private state of one thread (09 R195). -/
structure Thread where
  /-- Table 9.1: THR_STAT.STATE. -/
  state : ThrState := .held
  pc : BitVec 12 := 0
  /-- Return stack, top first, at most 8. -/
  stack : List (BitVec 12) := []
  /-- Flags F15 to F0. -/
  flags : BitVec 16 := 0
  loopCnt : BitVec 12 := 0
  /-- Last status byte read. -/
  status : Byte := 0
  /-- Wait timer: cc at which it expires, or none when it does not count. -/
  timer : Option Nat := none
  /-- 09 R200: a count that starts when a number of queued actions have ended. -/
  anchored : Option (Nat × Nat) := none
  planeCur : Nat := 0
  cwCur : Nat := 0
  job : Option Job := none
  /-- Second job register, in use while a request handler runs. -/
  job2 : Option Job := none
  /-- 09 R212: kind of the handler that runs (14, 15 or 5). -/
  handler : Option Nat := none
  /-- Addresses on the stack once its return address is pushed. -/
  base : Nat := 0
  /-- Words since the last safe point, saturating at 257 (09 R209). -/
  safeDist : Nat := 0
  /-- 09 R213: cc of the last safe point. -/
  safeAt : Nat := 0
  /-- 09 R210: requests pending; the PREEMPTs by their guest jobs, oldest first. -/
  abortPend : Bool := false
  preemptPend : List Job := []
  /-- 09 Table 9.4: YIELDED, and the handler has issued a bus action. -/
  yielded : Bool := false
  handlerBus : Bool := false
  /-- 09 R203: jobs that wait to be presented, oldest first. -/
  waiting : List Job := []
  /-- 09 R205: job presented and not taken. -/
  offered : Option Job := none
  /-- 09 R196: the next word is the first after a dispatch or a handler entry. -/
  first : Bool := false
  /-- 09 R199: its channel's command FIFO, oldest first, at most 8. -/
  cmdq : List CmdAct := []
  /-- 09 Table 9.6: REPORT by which the last step of its job ended, 0 while none has; 09 Table 9.7: the rung that its last
  LADDER_NEXT chose. -/
  report : Nat := 0
  rung : Nat := 0
  /-- 09 Table 9.4: STAGE_GRANT, RUNG_FITS, LEVELS_CURRENT, GUEST_DONE. -/
  stageGrant : Bool := false
  rungFits : Bool := false
  guestDone : Bool := false
  /-- 09 Table 9.1: CTRL.ENABLE became 0; HELD at the next DISPATCH word. -/
  stopping : Bool := false
  deriving DecidableEq, Repr

/-- One engine. -/
structure EngineSt where
  t0 : Thread := {}
  t1 : Thread := {}
  /-- 09 R196: cc in which a word was last executed, and by T1. -/
  lastCc : Option Nat := none
  lastT1 : Bool := false
  /-- FAULT register. -/
  fault : Word32 := 0
  deriving DecidableEq, Repr

/-- A Graver job in its queue (09 R206). -/
structure GravJob where
  /-- 1,000,000 and upward. -/
  id : Nat
  job : Job
  deriving DecidableEq, Repr

/-- Phases of a load (09 R217). -/
inductive LoadPhase where
  /-- The header is awaited. -/
  | header
  /-- The body is read. -/
  | body
  /-- The image is complete and being verified. -/
  | verify
  deriving DecidableEq, Repr

/-- A load in progress. -/
structure Load where
  phase : LoadPhase := .header
  /-- Image bytes received, by byte offset of each request. -/
  got : SMap (List Byte) := []
  /-- Requests without data. -/
  waiting : Nat := 0
  /-- 09 Table 9.14: first failing check so far; 1 = none. -/
  result : Nat := 1
  /-- TARGETS of the header. -/
  targets : Nat := 0
  /-- Supplied by BOOT_FETCH (09 R222). -/
  boot : Bool := false
  deriving DecidableEq, Repr

/-- Engines, their stores and SEC. -/
structure Eng where
  /-- Engines by number: 0 to 63 Burins, 64 the Graver. -/
  engines : SMap EngineSt := []
  /-- 09 R214: patch words of the Burins and of the Graver; one not listed is unwritten. -/
  patchBur : SMap (BitVec 128) := []
  patchGrv : SMap (BitVec 128) := []
  /-- 09 R204: dispatch entries set by an image. -/
  dispBur : SMap (Option (BitVec 12)) := []
  dispGrv : SMap (Option (BitVec 12)) := []
  /-- 09 R206: Graver jobs waiting, oldest first. -/
  grvQueue : List GravJob := []
  grvNext : Nat := 1000000
  /-- 09 R215: a load has succeeded since the last L2 or L3 reset. -/
  released : Bool := false
  deriving DecidableEq, Repr

/-- Phases of BOOT_FETCH (09 R222). -/
inductive BootPhase where
  | notStarted | railWait | channelWait | bringUp | reading | ended | failed
  deriving DecidableEq, Repr

/-- SEC state beside its plain registers. -/
structure Sec where
  load : Option Load := none
  /-- LOAD_STAT: LOADED_GRV, LOADED_BUR, SVN, RESULT. -/
  loadedGrv : Bool := false
  loadedBur : Bool := false
  svn : Nat := 0
  result : Nat := 0
  /-- 09 R220: rollback fuses blown beyond those of Config at manufacture. -/
  burned : Nat := 0
  /-- 09 R220: TARGET of the burn in progress. -/
  burnTo : Option Nat := none
  /-- 09 R223: the first key has been accepted at this cc; the gate is open. -/
  unlockAt : Option Nat := none
  open_ : Bool := false
  /-- RAW_STAT.WRITTEN: RAW_CMD, RAW_ADDR, RAW_DATA. -/
  wrCmd : Bool := false
  wrAddr : Bool := false
  wrData : Bool := false
  /-- RAW_STAT: BUSY, RESULT, STATUS; cc of the start of its WAIT polls. -/
  rawBusy : Bool := false
  rawResult : Nat := 0
  rawStatus : Byte := 0
  /-- 09 R224: a poll has shown the die ready; the data-out is to come. -/
  rawOut : Bool := false
  rawSince : Nat := 0
  /-- cc in which the raw command was presented (07 R155). -/
  rawAt : Nat := 0
  /-- cc of its next WAIT poll. -/
  rawNext : Nat := 0
  /-- 09 R222. -/
  boot : BootPhase := .notStarted
  bootOn : Nat := 0
  bootPage : Nat := 0
  /-- Image bytes passed by BOOT_FETCH. -/
  bootBytes : List Byte := []
  deriving DecidableEq, Repr

/-! ### DPT and ECC (10) -/

/-- A codeword of a data-out in staging (10 R239, R248). -/
structure Cw where
  /-- Tag, or id of a Graver job, that reads it. -/
  id : Nat
  /-- 11 R277: a member read of rung 5 made for it. -/
  member : Bool := false
  die : Nat
  block : Nat
  page : Nat
  plane : Nat
  idx : Nat
  slc : Bool := false
  /-- 10 R243: DP bits of the data action that brought it. -/
  dp : Nat := 0xAD0
  /-- Rung and attempt of the sense that brought it. -/
  rung : Nat := 0
  attempt : Nat := 0
  /-- The bytes in staging, in the clear; empty while the data-out is still under way. -/
  bytes : List Byte := []
  /-- 10 R241: the codeword as read, before any decode. -/
  read : List Byte := []
  out : CwOut := .none
  /-- 10 R241: bits that the decode changed. -/
  bits : Nat := 0
  /-- 10 R244: senses accumulated, oldest first, in the clear. -/
  senses : List (List Byte) := []
  /-- 10 R250: its granules have been released, by STG_REL or the commitment; its fabric writes without response. -/
  sent : Bool := false
  wrOut : Nat := 0
  /-- 10 R248: granules held in the read class and by the sense accumulator. -/
  gRead : Nat := 0
  gAcc : Nat := 0
  deriving DecidableEq, Repr

/-- Program or stage data in staging (10 R237, R248). -/
structure ProgBuf where
  id : Nat
  granules : Nat
  early : Bool
  /-- 05 R124, 10 R250: the tags served from it whose writes are outstanding; the program is over. -/
  readers : List Nat := []
  ended : Bool := false
  /-- User bytes received, by byte offset in the order of R92. -/
  user : SMap (List Byte) := []
  /-- Encoded codewords by position in the order of R92. -/
  cws : SMap (List Byte) := []
  deriving DecidableEq, Repr

/-- A request for the soft pool (10 R245). -/
structure SoftReq where
  id : Nat
  plane : Nat
  idx : Nat
  key : Stamp
  cls : Nat
  order : Nat
  channel : Nat
  iters : Nat
  codeB : Bool
  deriving DecidableEq, Repr

/-- A soft decode that runs. -/
structure SoftRun where
  req : SoftReq
  since : Nat
  /-- 10 R244: the signed input values, by codeword bit. -/
  input : List (BitVec 8) := []
  /-- 10 R247: its tag has committed; nothing is written back. -/
  dropped : Bool := false
  deriving DecidableEq, Repr

/-- DPT and ECC state beside their plain registers. -/
structure Dpt where
  /-- 10 R248: codewords of data-outs in staging. -/
  cws : List Cw := []
  /-- 10 R237: program data in staging. -/
  progs : List ProgBuf := []
  /-- 10: PEAK.PEAK. -/
  peak : Nat := 0
  deriving DecidableEq, Repr

/-- ECC state. -/
structure Ecc where
  /-- 10 R241: correction stages by channel: id, plane, index, attempt of the codeword in the stage and of the one
  behind. -/
  correct : SMap (List (Nat × Nat × Nat × Nat)) := []
  /-- 10 R245: requests of the soft pool, in order of arrival. -/
  queue : List SoftReq := []
  /-- 10 R245: decoders by number. -/
  running : SMap (Option SoftRun) := []
  deriving DecidableEq, Repr

/-! ### LVL (11) -/

/-- Temperature of one die (11 R261, R262). -/
structure DieTemp where
  /-- Latest reading, signed degrees. -/
  temp : Option Int := none
  /-- Frames since it, saturating at 65,535. -/
  age : Nat := 0
  /-- Band selected at the last tick and at the tick before; none = DEFAULT_BAND (11 R258, R262). -/
  sel : Option Nat := none
  old : Option Nat := none
  /-- The reading has been reported stale. -/
  stale : Bool := false
  /-- A sample is owed. -/
  owed : Bool := false
  deriving DecidableEq, Repr

/-- Levels last set on a LUN (11 R257): element, page type (3 for SLC), rung and attempt offsets. -/
structure SetLevels where
  element : Nat
  ptype : Nat
  offsets : List Int
  deriving DecidableEq, Repr

/-- Bus suspicions of one channel (11 R279). -/
structure Noise where
  count : Nat := 0
  /-- Frame of the first. -/
  since : Word32 := 0
  deriving DecidableEq, Repr

/-- A rung-5 rebuild: members read so far (11 R277). -/
structure Rebuild where
  id : Nat
  plane : Nat
  idx : Nat
  /-- Members still awaited: die and plane. -/
  await : List (Nat × Nat)
  /-- XOR of the user data so far. -/
  acc : List Byte
  failed : Bool
  deriving DecidableEq, Repr

/-- What rung 4 of an operation has found so far (11 R271): lowest codeword index that qualifies with its valley offset,
and decoded codewords that are frozen. -/
structure Valley where
  best : Option (Nat × Int) := none
  frozen : Nat := 0
  deriving DecidableEq, Repr

/-- A codeword of a CALIBRATE unit: as read and, when it decoded, as decoded (11 R264). -/
structure CalCw where
  page : Nat
  plane : Nat
  idx : Nat
  raw : List Byte
  good : Option (List Byte)
  deriving DecidableEq, Repr

/-- LVL state beside its plain registers, the level window and the ladder window. -/
structure Lvl where
  /-- 11 R260: FACTORY_LOCK.LOCKED. -/
  locked : Bool := false
  /-- 11 R259: LOAD_STAT: BUSY, RESULT, ELEMENTS. -/
  loadBusy : Bool := false
  loadResult : Nat := 0
  loadElems : Nat := 0
  /-- 11 R259: LOAD_CTRL as the load took it, and the factory halves read so far with the CRC
  expected. -/
  loadFrom : Nat := 0
  loadCrc : Word32 := 0
  loadBytes : List Byte := []
  /-- 11 R261: temperatures by die. -/
  temps : SMap DieTemp := []
  /-- 11 R257: levels last set by LUN (die number). -/
  current : SMap (Option SetLevels) := []
  /-- 11 R279: suspicions by channel. -/
  noise : SMap Noise := []
  /-- 11 R277: rebuilds in progress. -/
  rebuilds : List Rebuild := []
  /-- 11 R264: CALIBRATE tags and the pages of their unit read so far with the codewords as read and as decoded. -/
  calib : SMap (List CalCw) := []
  /-- 11 R271: rung 4 in progress, by tag. -/
  valley : SMap (Option Valley) := []
  /-- 11 R271: the user bytes that CALIBRATE wrote in a cc, each with its value before and the step added. -/
  calNow : List ((Nat × Nat) × Int × Int) := []
  calAt : Nat := 0
  /-- 11 R258: bands of the member reads of rung 5, by tag * 4096 + die. -/
  memberBand : SMap Nat := []
  /-- 11 R274: cc in which a held tag was last retested. -/
  retestAt : Option Nat := none
  /-- 11 Table 11.5: registers that keep the last event: CAL_LAST, NOISE_STAT, LAST_ECHO. -/
  calLast : Word32 := 0
  noiseStat : Word32 := 0
  lastEcho : Word64 := 0
  deriving DecidableEq, Repr

/-! ### DSP (12) -/

/-- A sector record (12 R288). -/
structure Rec where
  tag : Nat
  sector : Nat
  /-- Position among the entry's sectors. -/
  pos : Nat
  /-- Start wedge. -/
  wedge : Nat
  /-- 12 R289: its frame once the entry is resolved. -/
  frame : Option Word32 := none
  /-- Order of allocation. -/
  order : Nat
  head : Nat
  track : Nat
  zone : Nat
  size : Nat
  /-- 12 R289: its entry, by the order of the first record, with that entry's DL_FRAME, WEDGE and first codeword. -/
  base : Nat := 0
  dl : Word32 := 0
  first : Nat := 0
  cw0 : Nat := 0
  /-- 12 R293: the decision of its start wedge in its frame has been taken, with its sample. -/
  dec : Option (Option (BitVec 44)) := none
  /-- 12 R296: its tag has committed. -/
  dead : Bool := false
  deriving DecidableEq, Repr

/-- A slot of the handoff FIFO (12 R292). -/
structure Slot where
  tag : Nat
  idx : Nat
  /-- The 4,096 user bytes once they stand in the slot. -/
  data : Option (List Byte) := none
  deriving DecidableEq, Repr

/-- The sector being presented on fmt_tx (12 R293 to R295). -/
structure OpenSector where
  rec_ : Rec
  /-- Bytes accepted by the formatter so far. -/
  done : Nat
  /-- Bytes that may go before the next split point. -/
  upTo : Nat
  /-- Its bytes, as they stood in its slot at the release point. -/
  bytes : List Byte := []
  /-- Wedge index expected at the next continuation. -/
  nextWedge : Nat
  /-- Frame of that wedge. -/
  nextFrame : Word32
  /-- Its tag has committed: it ends behind the beat on offer (log entry 6). -/
  closing : Bool := false
  /-- The decision of that frame, when it came before the split point was reached. -/
  cont : Option (Option (BitVec 44)) := none
  deriving DecidableEq, Repr

/-- What the port offers on fmt_tx. -/
inductive TxBeat where
  | none
  /-- A skip beat for a record, or one that closes an open sector (12 R294, R295). -/
  | skip
  /-- Beats of the open sector. -/
  | data
  deriving DecidableEq, Repr

/-- The outputs fmt_tx_* of a port (02 Table 2.10). -/
structure FmtTx where
  valid : Bool
  data : BitVec 64
  sos : Bool
  eos : Bool
  nbytes : BitVec 3
  deriving DecidableEq, Repr

/-- An armed stage (12 R298). -/
structure Armed where
  tag : Nat
  /-- Capturing since its wedge decision. -/
  capturing : Bool := false
  deriving DecidableEq, Repr

/-- The last wedge decision of a port (12 R287). -/
structure Decision where
  frame : Word32
  /-- The sample, when there is one. -/
  sample : Option (BitVec 44)
  /-- Wedge index of the frame. -/
  wedge : Nat
  /-- Sectors received since. -/
  rx : Nat := 0
  deriving DecidableEq, Repr

/-- A tick of an actuator that waits for the wedge decision of its frame (12 R286, R287). -/
structure DTick where
  frame : Word32
  /-- Pad time, and the cc in which it reached DSP. -/
  tau : Nat
  at_ : Nat
  sample : Option (BitVec 44) := none
  deriving DecidableEq, Repr

/-- One DSP instance beside its plain registers and zone tables. -/
structure Dsp where
  /-- 12 R286: SYNC.VALID, SYNC.INDEX, SYNC.OFS_EST of the non-reference actuator. -/
  valid : Bool := false
  index : Nat := 0
  ofs : Nat := 0
  /-- 12 R286: consecutive good frames; the last usable index. -/
  goodRun : Nat := 0
  lastIdx : Option Nat := none
  /-- 12 R286: ticks assigned to frames not yet decided, oldest first. -/
  ticks : List DTick := []
  /-- 12 R286: the first tick since VALID fell has set OFS_EST. -/
  ofsSet : Bool := false
  /-- 12: LAST_POS, and a sample has been received. -/
  lastPos : BitVec 44 := 0
  posValid : Bool := false
  /-- 12 R286: the latest frames decided that had a tick. -/
  ticked : List Word32 := []
  /-- 12 R287: frames not yet decided, oldest first, with their start cc. -/
  frames : List (Word32 × Nat) := []
  decision : Option Decision := none
  /-- 12 R288: records allocated, oldest first. -/
  recs : List Rec := []
  recNext : Nat := 0
  /-- 12 R293: frame and sector of records released in the frames since the oldest that may still have a duplicate. -/
  sent : List (Word32 × Nat) := []
  /-- 12 R292: slots in use, at most 64. -/
  slots : List Slot := []
  /-- 12 R293, R295. -/
  open_ : Option OpenSector := none
  tx : TxBeat := .none
  /-- 12 R298: armed stages in admission order, at most 256, and tags that wait for a place. -/
  armed : List Armed := []
  armWait : List Nat := []
  /-- 12 R297: tags that are replans. -/
  replans : List Nat := []
  /-- 12: HOLD_INFO. -/
  holdInfo : Word64 := 0
  /-- 02 R46: cc of the last edge of ff_pulse. -/
  ffAt : Nat := 0
  deriving DecidableEq, Repr

/-! ### PWR (13) -/

/-- Rail states (13 Table 13.2). -/
inductive RailState where
  | off | ramp | settle | on | fault
  deriving DecidableEq, Repr

/-- What a part of the modelled load stands for (13 R305). -/
inductive LoadKind where
  | array | io | misc
  deriving DecidableEq, Repr

/-- One part of the modelled load. -/
structure LoadPart where
  die : Nat
  kind : LoadKind
  cost : Nat
  /-- cc of a transfer's first byte; cc by which a reset die is taken to report ready. -/
  from_ : Nat := 0
  to_ : Option Nat := none
  deriving DecidableEq, Repr

/-- One rail group (13). -/
structure Group where
  /-- 08 R175: cc from which the next background ZQ update of PHY group g may come. -/
  zqDue : Nat := 0
  /-- 13 R316: GROUP_STAT.RAIL, cc since which it is in RAMP or SETTLE, ON commands that wait. -/
  rail : RailState := .off
  since : Nat := 0
  onWait : Bool := false
  /-- 13 R305: the parts of L_g. -/
  load : List LoadPart := []
  /-- 13 R307: cc of the starts granted in the last 63 cc. -/
  starts : List Nat := []
  /-- 13 R311: fallback and its cause (GROUP_STAT.FB_CAUSE: 1 OPEN, 2 MISSING), good frames in a row. -/
  fallback : Bool := false
  fbCause : Nat := 0
  goodRun : Nat := 0
  /-- 13 R312: THROTTLE and OC_RUN. -/
  throttle : Bool := false
  ocRun : Nat := 0
  /-- 13 R313: drift frames in a row. -/
  driftRun : Nat := 0
  /-- 13 R310: last valid sample code of the running frame; its last sample was open. -/
  sample : Option Nat := none
  openSeen : Bool := false
  /-- GROUP_STAT.CODE, GROUP_LOAD.MEAS, GROUP_MODEL.AVG. -/
  code : Nat := 0
  meas : Nat := 0
  avg : Nat := 0
  /-- 13 R310: integral of L_g over the running frame up to accAt. -/
  acc : Nat := 0
  accAt : Nat := 0
  deriving DecidableEq, Repr

/-- Block power states (13 Table 13.3). -/
inductive PState where
  | run | doze | waking | entering | pfail | pfailDone | retain | cicada
  deriving DecidableEq, Repr

/-- Steps of the power-fail sequence (13 Table 13.6). -/
inductive PfStep where
  | none | stop | drain | lastWords | done
  deriving DecidableEq, Repr

/-- PWR state beside its plain registers and the cost table. -/
structure Pwr where
  groups : SMap Group := []
  /-- 13: PSTATE.STATE and LAST_RESULT; cc of the last change. -/
  state : PState := .run
  lastResult : Nat := 0
  since : Nat := 0
  /-- 13 R323: the state that ENTERING leads to is CICADA. -/
  toCicada : Bool := false
  /-- 13 R325: WAKE_CFG as copied to the wake comparator. -/
  wakeCfg : Word64 := 0
  /-- 13 R325: WAKE_STAT. -/
  wakeStat : Word64 := 0
  /-- 13 R327: PF_STAT.STEP, LW_OK, DRAIN_CUT; cc of pfail_warn and of the step; FRAME at pfail_warn. -/
  step : PfStep := .none
  lwOk : Bool := false
  drainCut : Bool := false
  pfAt : Nat := 0
  stepAt : Nat := 0
  pfFrame : Word32 := 0
  /-- 13 R327: dies whose LUN reset PFAIL_RESET has still to issue. -/
  resetDies : List Nat := []
  deriving DecidableEq, Repr

/-! ### MAP (14) -/

/-- Roster states (14 Table 14.1). -/
inductive RosterState where
  | expected | present | missing | stranger | quarantined
  deriving DecidableEq, Repr

/-- One roster entry (14 R333). -/
structure Roster where
  valid : Bool := false
  state : RosterState := .expected
  hold : Bool := false
  qcause : Nat := 0
  profile : Nat := 0
  id : Word32 := 0
  deriving DecidableEq, Repr

/-- Map states (14 Table 14.5). -/
inductive MapState where
  | empty | loading | ready | conflict | writing | failed
  deriving DecidableEq, Repr

/-- Journal states (14 JRNL_STAT). -/
inductive JrnlState where
  | stopped | running | failed
  deriving DecidableEq, Repr

/-- A map copy as it is read in a load (14 R344). -/
structure CopyRead where
  /-- User bytes of the pages decoded so far; a page that failed is none. -/
  pages : List (Option (List Byte)) := []
  judged : Bool := false
  valid : Bool := false
  gen : Word32 := 0
  len : Nat := 0
  crc : Word32 := 0
  entries : List Word32 := []
  deriving DecidableEq, Repr

/-- A write of copies (14 R349). -/
structure CopyWrite where
  /-- Snapshot of the working map. -/
  entries : List Word32
  /-- Copies still to be written, ascending; the first is in progress. -/
  todo : List Nat
  /-- Pages of the copy in progress still to be programmed; 0 before its erase has ended. -/
  pages : Nat
  erased : Bool
  failed : Bool
  /-- A rewrite of losers after a load. -/
  rewrite : Bool
  /-- 14 R349: the working map has changed since the snapshot. -/
  changed : Bool := false
  deriving DecidableEq, Repr

/-- An intent of the erase journal (14 R350). -/
structure Intent where
  tag : Nat
  die : Nat
  planes : Nat
  slc : Bool
  block : Nat
  /-- 14 R351: confirmed, and in which cc; a page carries its DONE bit; its tag still waits for that. -/
  done : Bool := false
  doneAt : Nat := 0
  written : Bool := false
  live : Bool := true
  deriving DecidableEq, Repr

/-- A recorded batch (14 R352). -/
structure JBatch where
  seq : Word32
  intents : List Intent
  deriving DecidableEq, Repr

/-- A journal page being written (14 R350, R353). -/
structure JPage where
  /-- Intents it records; empty for a confirm-only page. -/
  intents : List Intent
  seq : Word32
  /-- Intents whose DONE bits it carries: SEQ of the batch and place in it. -/
  dones : List (Word32 × Nat) := []
  /-- SEQ of the batches whose CONFIRM records it carries, at most four (14 R352). -/
  carries : List Word32 := []
  lastWords : Bool := false
  second : Bool := false
  /-- 14 R359: it waits to be written until MAP is enabled. -/
  held : Bool := false
  /-- Outcomes of the two programs once known. -/
  res0 : Option Bool := none
  res1 : Option Bool := none
  deriving DecidableEq, Repr

/-- A recovery in progress (14 R355 to R357). -/
structure Recover where
  peer : Bool
  /-- Journal pages found valid: the raw first 1,024 bytes. -/
  pages : List (List Byte) := []
  /-- The newest of them: SEQ, block and page. -/
  newest : Option (Word32 × Nat × Nat) := none
  /-- Planes of unconfirmed intents still to be examined: die, plane, block. -/
  todo : List (Nat × Nat × Nat) := []
  /-- Zero counts of the codewords of the block being examined. -/
  zeros : List Nat := []
  /-- Records made: die, plane, block, class, largest and smallest count. -/
  done : List (Nat × Nat × Nat × Nat × Nat × Nat) := []
  scanned : Bool := false
  deriving DecidableEq, Repr

/-- What a die operation of the Graver is for. -/
inductive JobFor where
  /-- Map copies: page of copy k read, erase of copy k, program of a page of copy k (14 R344, R349). -/
  | copyRead (k page : Nat)
  | copyErase (k : Nat)
  | copyProg (k page : Nat)
  /-- Journal: the page in writing on die i; erase of a block; page read by a recovery (14 R350, R353, R355). -/
  | jrnlProg (i : Nat)
  | jrnlErase (i blk : Nat)
  | jrnlScan (i blk page : Nat)
  /-- Raw read of a block that recovery examines: its first or its last page (14 R356). -/
  | recov (last : Bool)
  /-- Factory level image (11 R259) and patch image (09 R222). -/
  | levelPage (page : Nat)
  | bootPage (page : Nat)
  deriving DecidableEq, Repr

/-- MAP state beside its plain registers. -/
structure MapSt where
  /-- Die operations of the Graver by job id, 1,000,000 and upward (14, 09 Table 9.10). -/
  jobs : SMap (Option JobFor) := []
  /-- 09 R207: what the Graver's die operation that ended last was for, with the key of its job and its place among the
  tags. -/
  follows : Option (JobFor × Stamp × Nat) := none
  /-- Roster by die. -/
  roster : SMap Roster := []
  /-- 14 R341: marks of the working map as Table 14.3 words, ascending by key. -/
  marks : List Word32 := []
  /-- 14 R348: disputed marks while CONFLICT. -/
  disputed : List Word32 := []
  /-- 14 R348: marks added since the load. -/
  added : List Word32 := []
  /-- 14 R342: by key of a mark, the cc after that in which it was added. -/
  addedAt : SMap Nat := []
  state : MapState := .empty
  /-- MAP_STAT: VALID, COPY_OK, DIRTY, LAST_RESULT; MAP.GEN. -/
  valid : BitVec 3 := 0
  copyOk : BitVec 3 := 0
  dirty : Bool := false
  lastResult : Nat := 0
  gen : Word32 := 0
  /-- Copies of a load. -/
  copies : SMap CopyRead := []
  write : Option CopyWrite := none
  /-- 14 R350 to R353. -/
  jrnl : JrnlState := .stopped
  forming : List Intent := []
  formingAt : Nat := 0
  closed : List (List Intent) := []
  batches : List JBatch := []
  jpage : Option JPage := none
  jblock : Bool := false
  jnext : Nat := 0
  jseq : Word32 := 0
  /-- 14 R353: JRNL_INIT runs: erases still outstanding. -/
  jinit : Option Nat := none
  /-- 14 R353, R355: RUNNING follows once the first pages are written. -/
  jfirst : Bool := false
  recover : Option Recover := none
  /-- RECOV_STAT, CENSUS_STAT. -/
  recovStat : Word64 := 0
  censusStat : Word32 := 0
  /-- 14 R339: rows of running censuses, by tag or 65,536 + channel without one: ID, state after, state before per
  position. -/
  reports : SMap (List (Word32 × Nat × Nat)) := []
  deriving DecidableEq, Repr

/-! ### IRQ, IRQT, NOTE (15) -/

/-- Configuration and state of one interrupt source (15 R360, R366). -/
structure Src where
  /-- SRC_CFG: FATAL, TARGETS; PRIO. -/
  fatal : Bool := false
  targets : Byte := 0
  prio : Nat := 0
  /-- 15 R362: an edge source is pending. -/
  edge : Bool := false
  /-- 15 R366: in service, and by which target. -/
  serving : Option Nat := none
  deriving DecidableEq, Repr

/-- One target (15 R364 to R367). -/
structure Target where
  /-- Nesting stack, top first: ID and recorded priority. -/
  stack : List (Nat × Nat) := []
  /-- NEST: STICKY, EXPECTED, WRITTEN. -/
  sticky : Bool := false
  expected : Nat := 0
  written : Nat := 0
  deriving DecidableEq, Repr

/-- IRQ state: shared sources by ID, private sources by target * 64 + ID - 1,024. -/
structure Irq where
  src : SMap Src := []
  priv : SMap Src := []
  targets : SMap Target := []
  /-- 15 R368: FATAL.LATCHED and FIRST. -/
  latched : Bool := false
  first : Nat := 0
  deriving DecidableEq, Repr

/-- One halfword stage of a note FIFO (15 R371, R372). -/
structure NoteHw where
  val : BitVec 16
  /-- It is the length halfword of a packet. -/
  len : Bool := false
  /-- 15 R371: lost-before mark. -/
  lost : Bool := false
  deriving DecidableEq, Repr

/-- Note FIFO of one engine. -/
structure NoteFifo where
  /-- Occupied stages, oldest first, at most 32. -/
  stages : List NoteHw := []
  /-- Stages before the read point. -/
  read : Nat := 0
  mark : Option Nat := none
  /-- Open packet: stage number of its length halfword, the thread, halfwords lost in it. -/
  open_ : Option (Nat × Bool × Bool) := none
  overrun : Bool := false
  /-- The next halfword written carries a lost-before mark. -/
  lossPending : Bool := false
  deriving DecidableEq, Repr

/-- NOTE state. -/
structure Note where
  fifos : SMap NoteFifo := []
  /-- 15 R373: stamp latches by engine * 2 + thread: FRAME[31:16] and PHASE. -/
  stamps : SMap (BitVec 16 × BitVec 16) := []
  /-- 15 R374: engine served by the previous read. -/
  lastServed : Nat := 64
  deriving DecidableEq, Repr

/-! ### RST (16) and MEM (17) -/

/-- Phases of a block reset (16 R382). -/
inductive RstPhase where
  /-- Asserted. -/
  | asserted
  /-- Sensing and releasing from cc `start` on; domains released so far. -/
  | releasing
  /-- RELEASE.DONE. -/
  | done
  deriving DecidableEq, Repr

/-- RST state. -/
structure Rst where
  phase : RstPhase := .done
  /-- 16 R380: cc in which the reset was taken. -/
  began : Nat := 0
  /-- cc in which the assertion or the release began. -/
  since : Nat := 0
  /-- 16 R382: the assertion follows a pin that is still low. -/
  pin : Bool := false
  /-- Last step released, 1 to 8, and the number of PHY groups released. -/
  step : Nat := 8
  groups : Nat := 8
  /-- RST.CAUSE: SOURCES, FIRST, LEVEL. -/
  sources : Byte := 1
  first : Nat := 0
  level : Nat := 3
  /-- RST.WDOG_INFO, RST.UE_INFO. -/
  wdogInfo : Word32 := 0
  ueInfo : Word32 := 0
  /-- FUSE_MAP as latched; PAR_OK; the parity failure persists until por_n (16 R379). -/
  fuses : Byte := 0
  parOk : Bool := true
  fuseBad : Bool := false
  /-- 16 R379: this reset began with FUSE_PAR. -/
  parReset : Bool := false
  /-- BKP[0..15]. -/
  bkp : SMap Word32 := []
  /-- 16 R387: retained memory, bytes by address 0 to 65,535. -/
  rmem : SMap Byte := []
  /-- 06 R143: the watchdog's information at its firing. -/
  wdogFired : Option Word32 := none
  deriving DecidableEq, Repr

/-- One entry of the error log (17 R395). -/
structure LogEnt where
  ue : Bool
  cls : Nat
  bit_ : Nat
  byte_ : Nat
  index : Nat
  frame : BitVec 16
  deriving DecidableEq, Repr

/-- A scrub in progress (17 R397). -/
structure Scrub where
  cls : Nat
  next : Nat
  left : Nat
  /-- Words read, errors corrected and uncorrectable, first index with an error, so far. -/
  words : Nat := 0
  corr : Nat := 0
  unc : Nat := 0
  first : Option Nat := none
  deriving DecidableEq, Repr

/-- MEM state; BKP[0] stands in RST. -/
structure Mem where
  log : List LogEnt := []
  /-- 17 R396: invalid until LOG_CTRL.CLEAR. -/
  logBad : Bool := false
  scrub : Option Scrub := none
  /-- SCRUB_SUM0 and SCRUB_SUM1. -/
  sumValid : Bool := false
  sumWords : Nat := 0
  sumCorr : Nat := 0
  sumUnc : Nat := 0
  firstFail : Option Nat := none
  /-- 17 R398: spares by class * 8 + slot: WHY and INDEX. -/
  remap : SMap (Option (Nat × Nat)) := []
  /-- 17 R391: units of protected words whose bits are flipped. -/
  upsets : List Upset := []
  /-- 17 R392: the three copies of the valid bit of a word of classes 1, 4, 5 and 7, by class * 2^20 + index, and of the
  roster words of class 6, by 8 * 2^20 + die. -/
  valid : SMap (BitVec 3) := []
  /-- 17 R392, R398: control-store words that read zero, a spare standing for them: engine * 8,192 + word. -/
  blank : List Nat := []
  deriving DecidableEq, Repr

/-! ### The block -/

/-- The whole state of the XF128. -/
structure State where
  /-- The commands that wait, first in, first out (the model's own). -/
  pending : List Instr := []
  /-- cclk cycles passed since the first reset (the model's own). -/
  cc : Nat := 0
  /-- Counter of free values taken (the model's own). -/
  free : Nat := 0
  pins : Pins := {}
  csr : CsrPort := {}
  /-- 02: FAB[0..3]. -/
  fab : SMap FabPort := []
  /-- 03 R66: headers by page number. -/
  hdr : SMap Hdr := []
  /-- 03 R63: values of the plain registers by byte address. -/
  regs : SMap Word64 := []
  /-- 03 R77: values of the plain registers as fixed at the last tick. -/
  regsEff : SMap Word64 := []
  /-- 03 R78: bytes of the table windows by byte address. -/
  win : SMap Byte := []
  rif : Rif := {}
  ops : Ops := {}
  tmb : Tmb := {}
  sch : Sch := {}
  /-- 08: channels by number. -/
  chn : SMap Chan := []
  peer : Peer := {}
  eng : Eng := {}
  sec : Sec := {}
  dpt : Dpt := {}
  ecc : Ecc := {}
  lvl : Lvl := {}
  /-- 12: DSP[0..1]. -/
  dsp : SMap Dsp := []
  pwr : Pwr := {}
  map : MapSt := {}
  irq : Irq := {}
  note : Note := {}
  rst : Rst := {}
  mem : Mem := {}
  deriving DecidableEq, Repr

/-- The block right after a power-on reset and the whole release of Table 16.3, before any CSR access: every field at
the value the spec states. CAUSE reads 0x0001_0003 (16). The straps 0b00 and the fuses 0x80 are the model's (DESIGN
CHOICE, log entry 4). -/
def State.reset : State :=
  { rst := { sources := 1, first := 0, level := 3, fuses := 0x80 },
    fab := [(0, { live := true }), (1, { live := true }), (2, { live := true }), (3, { live := true })] }

end Sys2Proof.Machine
end

