-- ==== Sys2Proof/Machine/Ops.lean ====
section
/-!
DEFINITION. The named operations over the block's registers, headers, windows and time that every family uses: plain
registers and their fields (03 R63), the common header (03 R66 to R71), the answer of the CSR port (02 R42, 03 R383)
and the units of time.
-/

namespace Sys2Proof.Machine

/-- What a command answers. -/
abbrev Out := Host.Outcome State Fault Refusal

/-! ### Bit fields (00 R6) -/

/-- The field of width w whose lowest bit is lo. -/
def fieldOf (v lo w : Nat) : Nat := v / 2 ^ lo % 2 ^ w

/-- A field put at bit lo of an otherwise zero word. -/
def fieldAt (lo v : Nat) : Nat := v * 2 ^ lo

/-- Whether bit i is 1. -/
def bitAt (v i : Nat) : Bool := v.testBit i

/-- Two's complement reading of a w-bit field. -/
def signedOf (w v : Nat) : Int := if v < 2 ^ (w - 1) then Int.ofNat v else Int.ofNat v - Int.ofNat (2 ^ w)

/-- A signed number as a w-bit field. -/
def ofSigned (w : Nat) (i : Int) : Nat := (i % Int.ofNat (2 ^ w)).toNat

/-- The bits of old outside the mask and those of new inside it. -/
def mergeBits (mask old new : Word64) : Word64 := (old &&& ~~~mask) ||| (new &&& mask)

/-- Little-endian bytes of a number (00 R7). -/
def leBytes : Nat → Nat → List Byte
  | 0, _ => []
  | n + 1, v => BitVec.ofNat 8 v :: leBytes n (v / 256)

/-- The number that little-endian bytes spell (00 R7). -/
def leNat : List Byte → Nat
  | [] => 0
  | b :: r => b.toNat + 256 * leNat r

/-- Word n of a little-endian byte string (00 R7). -/
def leWord (bytes : List Byte) (n : Nat) : Word32 := BitVec.ofNat 32 (leNat ((bytes.drop (4 * n)).take 4))

/-- The bytes of a fabric beat, byte 0 in bits [7:0] (02 Table 2.6, 00 R7). -/
def beatBytes (b : BitVec 512) : List Byte := leBytes 64 b.toNat

/-- The bytes of the beats of a read, in index order. -/
def beatsBytes (bs : List (BitVec 512)) : List Byte := bs.flatMap beatBytes

/-! ### Free values -/

/-- Advance of the counter of free values. -/
def takeFree (s : State) : State := { s with free := s.free + 1 }

/-- The free value that the next takeFree uses up. -/
def freeNow (s : State) : Word64 := Config.freeValue s.free

/-! ### Time -/

/-- Microseconds in cc. -/
def usCc (n : Nat) : Nat := n * Config.ccPerUs

/-- PHY clocks of 0.625 ns in cc, rounded up (08 R166). -/
def phyCc (n : Nat) : Nat := ceilDiv (n * Config.ccPerUs) 1600

/-- Nanoseconds in cc, rounded up. -/
def nsCc (n : Nat) : Nat := ceilDiv (n * Config.ccPerUs) 1000

/-! ### Headers (03 R66) -/

/-- Header of a page after an L2 or L3 reset: ENABLE is 1 on IRQ, NOTE, RST, MEM and SEC (03 R66). -/
def hdrReset (n : Nat) : Hdr :=
  if n = 12 ∨ n = 21 ∨ n = 22 ∨ n = 23 ∨ n = 24 then { enable := true } else {}

/-- Header of a page. -/
def hdrOf (p : Page) (s : State) : Hdr := SMap.get hdrReset s.hdr (pageNum p)

/-- Write of a header. -/
def setHdr (p : Page) (h : Hdr) (s : State) : State := { s with hdr := SMap.put hdrReset s.hdr (pageNum p) h }

/-- Counters of a page hold (03 R69). -/
def frozen (p : Page) (s : State) : Bool := (hdrOf p s).freeze || (hdrOf .glb s).freeze

/-- Counter i of a page. -/
def cntOf (p : Page) (i : Nat) (s : State) : Nat := SMap.get (fun _ => 0) (hdrOf p s).cnt i

/-- Write of counter i of a page. -/
def setCnt (p : Page) (i v : Nat) (s : State) : State :=
  setHdr p { hdrOf p s with cnt := SMap.put (fun _ => 0) (hdrOf p s).cnt i v } s

/-- What the block has done to a page in the running cc. -/
def nowOf (p : Page) (s : State) : Now := if (hdrOf p s).now.cc = s.cc then (hdrOf p s).now else { cc := s.cc }

/-- The value that count i of a page goes on from: a software write of the same cc has no part in it (03 R74). -/
def baseOf (p : Page) (i cur : Nat) (s : State) : Nat :=
  (((nowOf p s).sets.find? fun e => decide (e.1 = i)).map (·.2)).getD cur

/-- The block has counted on count i of a page in this cc. -/
def markCount (p : Page) (i : Nat) (s : State) : State :=
  let n := nowOf p s
  setHdr p { hdrOf p s with now := { n with cnts := i :: n.cnts } } s

/-- Software writes count i of a page, unless the block has counted on it in this cc; what it held is remembered for
the cc (03 R74). -/
def swCount (p : Page) (i old : Nat) (set : State → State) (s : State) : State :=
  let n := nowOf p s
  if n.cnts.contains i then s
  else
    let e := (i, baseOf p i old s)
    setHdr p { hdrOf p s with now := { n with sets := e :: n.sets.filter fun x => !decide (x.1 = i) } } (set s)

/-- The value a counter counts on from. -/
def cntBase (p : Page) (i : Nat) (s : State) : Nat := baseOf p i (cntOf p i s) s

/-- Counter i of a page counts up to v. -/
def countTo (p : Page) (i v : Nat) (s : State) : State :=
  let n := nowOf p s
  setHdr p { hdrOf p s with cnt := SMap.put (fun _ => 0) (hdrOf p s).cnt i v,
                            now := { n with cnts := i :: n.cnts.filter fun k => !decide (k = i) } } s

/-- Count n on counter i, saturating at 0xFFFF_FFFF, unless the counters are frozen (03 R69). -/
def bumpBy (p : Page) (i n : Nat) (s : State) : State :=
  if frozen p s ∨ n = 0 then s else countTo p i (satTo 0xFFFFFFFF (cntBase p i s + n)) s

/-- Count one. -/
def bump (p : Page) (i : Nat) (s : State) : State := bumpBy p i 1 s

/-- Event i of a page: EVT_PEND bit i is set, and EVT_RAW bit i is 1 in this cc (03 R66, R67). -/
def raiseEvt (p : Page) (i : Nat) (s : State) : State :=
  let n := nowOf p s
  let b := BitVec.ofNat 32 (2 ^ i)
  setHdr p { hdrOf p s with evtPend := (hdrOf p s).evtPend ||| b, now := { n with evts := n.evts ||| b } } s

/-- The errors of a cc: how many, and the lowest code with its information (03 R68). -/
def noteErr (code info : Nat) (n : Now) : Now :=
  if n.errs = 0 ∨ code < n.code.toNat then
    { n with errs := n.errs + 1, code := BitVec.ofNat 16 code, info := BitVec.ofNat 32 info }
  else { n with errs := n.errs + 1 }

/-- The block sets a bit, at an offset of a page, that software clears (03 R74). -/
def hwBit (p : Page) (off i : Nat) (s : State) : State :=
  setHdr p { hdrOf p s with now := { nowOf p s with bits := (off * 64 + i) :: (nowOf p s).bits } } s

/-- The block has set that bit in this cc, so that a software write of this cc does not clear it (03 R74). -/
def hwSet (p : Page) (off i : Nat) (s : State) : Bool := (nowOf p s).bits.contains (off * 64 + i)

/-- An error of a page (03 R68): the first is latched, a further one is counted in MORE; of two in one cc with CODE at
0 the lower code is the one latched. -/
def raiseErr (p : Page) (code info : Nat) (s : State) : State :=
  let h := { hdrOf p s with now := noteErr code info (nowOf p s) }
  if h.errCode = 0 then
    setHdr p { h with errCode := BitVec.ofNat 16 code, errInfo := BitVec.ofNat 32 info, errFrame := s.tmb.frame,
                      errCc := s.cc } s
  else
    let h := { h with more := BitVec.ofNat 8 (satTo 255 (h.more.toNat + 1)) }
    if h.errCc = s.cc ∧ code < h.errCode.toNat then
      setHdr p { h with errCode := BitVec.ofNat 16 code, errInfo := BitVec.ofNat 32 info } s
    else setHdr p h s

/-- Error RESERVED_VALUE: register offset and lowest bit of the field (03 Table 3.4). -/
def errReserved (p : Page) (off lo : Nat) (s : State) : State := raiseErr p 0x0001 (fieldAt 16 lo + off % 4096) s

/-- Error LOCKED_WRITE (03 Table 3.4). -/
def errLocked (p : Page) (off : Nat) (s : State) : State := raiseErr p 0x0002 (off % 4096) s

/-! ### Plain registers (03 R63) -/

/-- Value of the plain register at a page offset. -/
def regOf (p : Page) (off : Nat) (s : State) : Nat := (SMap.get regReset s.regs (pageAddr p off)).toNat

/-- Value in force of a register whose fields take effect at the tick (03 R77). -/
def regTick (p : Page) (off : Nat) (s : State) : Nat := (SMap.get regReset s.regsEff (pageAddr p off)).toNat

/-- A field of a plain register. -/
def regFld (p : Page) (off lo w : Nat) (s : State) : Nat := fieldOf (regOf p off s) lo w

/-- A field in force of a register whose fields take effect at the tick. -/
def regTickFld (p : Page) (off lo w : Nat) (s : State) : Nat := fieldOf (regTick p off s) lo w

/-- Write of a plain register whole, by the block itself. -/
def setReg (p : Page) (off v : Nat) (s : State) : State :=
  { s with regs := SMap.put regReset s.regs (pageAddr p off) (BitVec.ofNat 64 v) }

/-- At a tick the fields that take effect there become those last written (03 R77). -/
def applyTick (s : State) : State := { s with regsEff := s.regs }

/-! ### Windows (03 R78) -/

/-- Reset elements of a ladder row, rungs 0 to 7 (11 Table 11.3). -/
def ladderResetRow : List Nat :=
  [0x800000087F00B05E, 0x80000810FE0161E8, 0x94040021FC0212DC, 0xA804003B6A0374C4, 0xBC040054D804D6AC,
   0x00000010FE015F90, 0, 0]

/-- What a byte of a window reads as after an L3 reset until it is written: the ladder rows hold Table 11.3 (11 R269),
everything else is zero (01 R23, 08 R179, 11 R269, 12 R281, 13 R306). -/
def winReset (a : Nat) : Byte :=
  if 0x630000 ≤ a ∧ a < 0x630800 then
    BitVec.ofNat 8 (((ladderResetRow[a / 8 % 8]?).getD 0) / 256 ^ (a % 8))
  else 0

/-- The byte that an upset of the read-level tables hits, as an address of the window. -/
def upsetByte (u : Upset) : Option Nat := if u.cls = 5 then some (0x400000 + 16 * u.idx + u.unit) else none

/-- A byte of a table window; one that fails beyond correction counts as 0 (17 R394). -/
def winByte (a : Nat) (s : State) : Byte :=
  if s.mem.upsets.any fun u => u.beyond && decide (upsetByte u = some a) then 0 else SMap.get winReset s.win a

/-- The three copies of a valid bit before a word is written (17 R392). -/
def noValid (_ : Nat) : BitVec 3 := 0

/-- The place of a word's valid bit. -/
def wordKey (cls idx : Nat) : Nat := cls * 2 ^ 20 + idx

/-- A word is written: its valid bit is set (17 R392). -/
def setValid (cls idx : Nat) (s : State) : State :=
  { s with mem.valid := SMap.put noValid s.mem.valid (wordKey cls idx) 7 }

/-- Write of a byte of a table window, with fresh check bits; in the read-level tables it makes its element valid (17
R391, R392). -/
def setWinByte (a : Nat) (v : Byte) (s : State) : State :=
  let level := 0x400000 ≤ a ∧ a < 0x600000
  { s with win := SMap.put winReset s.win a v
           mem := { s.mem with
             upsets := s.mem.upsets.filter fun u => !decide (upsetByte u = some a)
             valid := if level then SMap.put noValid s.mem.valid (wordKey 5 ((a - 0x400000) / 16)) 7
               else s.mem.valid } }

/-- n bytes of a window from an address on, little-endian (00 R7). -/
def winNat (a : Nat) : Nat → State → Nat
  | 0, _ => 0
  | n + 1, s => (winByte a s).toNat + 256 * winNat (a + 1) n s

/-- Write of bytes of a window from an address on. -/
def setWinBytes (a : Nat) : List Byte → State → State
  | [], s => s
  | b :: r, s => setWinBytes (a + 1) r (setWinByte a b s)

/-! ### Which pages answer (16 R383) and act (03, GLB.CTRL.ENABLE) -/

/-- The core domain has power: not RETAIN and not CICADA (01 Table 1.9). -/
def corePowered (s : State) : Bool := !(decide (s.pwr.state = .retain) || decide (s.pwr.state = .cicada))

/-- The frame timebase runs: TMB is not OFF and the core domain has power. -/
def tmbRuns (s : State) : Bool := corePowered s && decide (s.tmb.state ≠ .off)

/-- Release step k has come (16 Table 16.3). -/
def stepReleased (k : Nat) (s : State) : Bool :=
  match s.rst.phase with
  | .asserted => false
  | .releasing => decide (k ≤ s.rst.step)
  | .done => true

/-- PHY group g has been released (16 Table 16.3, D4). -/
def groupReleased (g : Nat) (s : State) : Bool :=
  match s.rst.phase with
  | .asserted => false
  | .releasing => decide (g < s.rst.groups)
  | .done => true

/-- Whether a page has been released (16 R383). -/
def pageReleased (p : Page) (s : State) : Bool :=
  match p with
  | .glb => stepReleased 1 s
  | .irq => stepReleased 1 s
  | .irqt _ => stepReleased 1 s
  | .note => stepReleased 1 s
  | .rst => stepReleased 1 s
  | .mem => stepReleased 1 s
  | .sec => stepReleased 1 s
  | .peer => stepReleased 1 s
  | .tmb => stepReleased 3 s
  | .chn c => groupReleased (c.toNat / 16) s
  | .bur _ => stepReleased 5 s
  | .grv => stepReleased 5 s
  | .dpt => stepReleased 6 s
  | .ecc => stepReleased 6 s
  | .lvl => stepReleased 6 s
  | .ops => stepReleased 7 s
  | .sch => stepReleased 7 s
  | .dsp _ => stepReleased 7 s
  | .pwr => stepReleased 7 s
  | .map => stepReleased 7 s
  | .rif => stepReleased 8 s

/-- Whether accesses to a page get a normal response (16 R383, 03). -/
def pageAnswers (p : Page) (s : State) : Bool := corePowered s && pageReleased p s

/-- The service pages, which act whatever GLB.CTRL.ENABLE holds (03). -/
def servicePage : Page → Bool
  | .glb => true
  | .irq => true
  | .irqt _ => true
  | .note => true
  | .rst => true
  | .mem => true
  | .sec => true
  | .peer => true
  | _ => false

/-- A page's ENABLE is 1 and has effect (03, the GLB page). -/
def pageActive (p : Page) (s : State) : Bool :=
  pageAnswers p s && (hdrOf p s).enable && (servicePage p || (hdrOf .glb s).enable)

/-- The block is out of reset and its core domain has power. -/
def blockUp (s : State) : Bool := corePowered s && stepReleased 8 s

/-! ### The CSR port (02 R40 to R42) -/

/-- A normal response with data. -/
def csrOk (data : Word64) (s : State) : State := { s with csr := { s.csr with rspData := data, rspErr := false } }

/-- An error response (02 R42). -/
def csrErr (s : State) : State := { s with csr := { s.csr with rspData := BitVec.allOnes 64, rspErr := true } }

/-- Any access to a page but a 0xF0 write to the latch's own register empties the write-holding latch, and any but the
0xF0 read of its own register ends the read-holding latch (03 R75). -/
def dropLatches (p : Page) (s : State) : State :=
  { s with csr := { s.csr with wLatch := SMap.put (fun _ => none) s.csr.wLatch (pageNum p) none,
                               rLatch := SMap.put (fun _ => none) s.csr.rLatch (pageNum p) none } }

/-- A write to a register of a page with an action of its own: an error response while the page does not answer,
otherwise the action and a normal response (02 R41, R42). -/
def csrDo (p : Page) (act : State → State) (s : State) : State :=
  if pageAnswers p s then csrOk 0 (act (dropLatches p s)) else csrErr s

/-- BOOT_FETCH runs (09 R222). -/
def bootRuns (s : State) : Bool :=
  match s.sec.boot with
  | .railWait => true
  | .channelWait => true
  | .bringUp => true
  | .reading => true
  | _ => false

end Sys2Proof.Machine
end

