-- ==== Sys2Proof/Machine/Codec.lean ====
section
/-!
DEFINITION. The codeword format and its arithmetic (10 R228 to R240): CRC-32C, the randomiser, the quasi-cyclic LDPC
code, the metadata and the erased test.
-/

namespace Sys2Proof.Machine

/-! ### CRC-32C (10 R231) -/

/-- One bit of CRC-32C, least significant bit first. -/
def crcBit (c : Word32) : Word32 := if c.getLsbD 0 then (c >>> 1) ^^^ 0x82F63B78 else c >>> 1

/-- n bits. -/
def crcBits : Nat → Word32 → Word32
  | 0, c => c
  | n + 1, c => crcBits n (crcBit c)

/-- One byte. -/
def crcByte (c : Word32) (b : Byte) : Word32 := crcBits 8 (c ^^^ b.setWidth 32)

/-- CRC-32C of a byte string. -/
def crc32c (bytes : List Byte) : Word32 := (bytes.foldl crcByte 0xFFFFFFFF) ^^^ 0xFFFFFFFF

/-! ### The randomiser (10 R233, R234) -/

/-- One step of the Galois LFSR. -/
def lfsrStep (s : Word32) : Word32 := if s.getLsbD 31 then (s <<< 1) ^^^ 0x00400007 else s <<< 1

/-- n steps. -/
def lfsrSteps : Nat → Word32 → Word32
  | 0, s => s
  | n + 1, s => lfsrSteps n (lfsrStep s)

/-- Key byte: bit t is the output of step t from state s on. -/
def keyByte (s : Word32) : Byte :=
  BitVec.ofNat 8 ((List.range 8).foldl (fun a t => a + fieldAt t (bit ((lfsrSteps t s).getLsbD 31))) 0)

/-- Scrambling of bytes from a state on. -/
def scrambleFrom : Word32 → List Byte → List Byte
  | _, [] => []
  | s, b :: r => (b ^^^ keyByte s) :: scrambleFrom (lfsrSteps 8 s) r

/-- Seed of codeword c of page g in block k under constant x (10 R234). -/
def cwSeed (x : Word32) (k g c : Nat) : Word32 :=
  let v := BitVec.ofNat 32 ((k * 4096 + g) * 4 + c) ^^^ x
  if v = 0 then 1 else v

/-- Bytes 0 to 4,127 are XORed with the key, parity is not (10 R233). Scrambling and descrambling are the same. -/
def scramble (seed : Word32) (cw : List Byte) : List Byte := scrambleFrom seed (cw.take 4128) ++ cw.drop 4128

/-! ### The LDPC code (10 R235, R236) -/

/-- A block of 256 bits. -/
abbrev Block := BitVec 256

/-- rot(x, s): bit i of the result is bit (i + s) mod 256 of x. -/
def rot (x : Block) (n : Nat) : Block := x.rotateRight n

/-- Rows of the base matrix: 16 for Code A, 20 for Code B. -/
def codeRows (codeB : Bool) : Nat := if codeB then 20 else 16

/-- The row step d of an information column. -/
def codeStep (codeB : Bool) : Nat := if codeB then 5 else 4

/-- Row of circulant k of information column j. -/
def infoRow (codeB : Bool) (j k : Nat) : Nat := (3 * j + codeStep codeB * k) % codeRows codeB

/-- Its shift. -/
def infoShift (j k : Nat) : Nat := (37 * j * (k + 1) + 11 * k) % 256

/-- Block n of a byte string: 32 bytes. -/
def blockOf (bytes : List Byte) (n : Nat) : Block := BitVec.ofNat 256 (leNat ((bytes.drop (32 * n)).take 32))

/-- What information block x, column j, adds to row r. -/
def infoTerm (codeB : Bool) (j r : Nat) (x : Block) : Block :=
  (List.range 4).foldl (fun a k => if infoRow codeB j k = r then a ^^^ rot x (infoShift j k) else a) 0

/-- Sum of the information terms of row r, columns from j on. -/
def lamFrom (codeB : Bool) (r : Nat) : Nat → List Block → Block
  | _, [] => 0
  | j, x :: xs => infoTerm codeB j r x ^^^ lamFrom codeB r (j + 1) xs

/-- lam[r] of R236. -/
def lam (codeB : Bool) (info : List Block) (r : Nat) : Block := lamFrom codeB r 0 info

/-- p[0]: the sum of all rows. -/
def parity0 (codeB : Bool) (info : List Block) : Block :=
  (List.range (codeRows codeB)).foldl (fun a r => a ^^^ lam codeB info r) 0

/-- p[1], p[2], … of R236: p[i + 1] from row i, i counting from 0. -/
def parityAt (codeB : Bool) (info : List Block) : Nat → Block
  | 0 => parity0 codeB info
  | 1 => lam codeB info 0 ^^^ rot (parity0 codeB info) 1
  | i + 2 =>
    let v := lam codeB info (i + 1) ^^^ parityAt codeB info (i + 1)
    if i + 1 = codeRows codeB / 2 then v ^^^ parity0 codeB info else v

/-- The parity blocks of 129 information blocks. -/
def parityBlocks (codeB : Bool) (info : List Block) : List Block :=
  (List.range (codeRows codeB)).map (parityAt codeB info)

/-- Block q of a parity list; a missing one counts as 0. -/
def pBlock (par : List Block) (q : Nat) : Block := (par[q]?).getD 0

/-- Check bits of row r over information and parity blocks (10 R235). -/
def checkRow (codeB : Bool) (info par : List Block) (r : Nat) : Block :=
  let m := codeRows codeB
  lam codeB info r
  ^^^ (if r + 1 < m then pBlock par (r + 1) else 0)
  ^^^ (if 1 ≤ r then pBlock par r else 0)
  ^^^ (if r = 0 ∨ r + 1 = m then rot (pBlock par 0) 1 else 0)
  ^^^ (if r = m / 2 then pBlock par 0 else 0)

/-- Every check bit is 0. -/
def blocksValid (codeB : Bool) (info par : List Block) : Bool :=
  (List.range (codeRows codeB)).all fun r => decide (checkRow codeB info par r = 0)

/-- The 129 information blocks of a codeword in the clear. -/
def infoBlocks (cw : List Byte) : List Block := (List.range 129).map (blockOf cw)

/-- Its parity blocks. -/
def parityOf (codeB : Bool) (cw : List Byte) : List Block :=
  (List.range (codeRows codeB)).map fun q => blockOf cw (129 + q)

/-- A codeword in the clear is valid (10 R235). -/
def syndromeZero (codeB : Bool) (cw : List Byte) : Bool := blocksValid codeB (infoBlocks cw) (parityOf codeB cw)

/-- The whole codeword of user data and metadata (10 R236, R237). -/
def encodeCw (codeB : Bool) (data : List Byte) : List Byte :=
  data ++ (parityBlocks codeB (infoBlocks data)).flatMap fun p => leBytes 32 p.toNat

/-! ### Metadata (10 R230, R232, Table 10.2) -/

/-- Metadata of a codeword. -/
def metadata (codeB : Bool) (echo : Nat) (slc : Bool) (idx : Nat) (ts : Stamp) (stream : Nat) (user : List Byte) :
    List Byte :=
  leBytes 1 1 ++ leBytes 1 (bit codeB) ++ leBytes 5 echo ++ leBytes 1 (fieldAt 2 (bit slc) + idx % 4)
  ++ leBytes 2 ts.frac.toNat ++ leBytes 4 ts.frame.toNat ++ leBytes 2 stream ++ leBytes 4 (crc32c user).toNat
  ++ leBytes 12 0

/-- User data and metadata of a codeword in the clear. -/
def cwUser (cw : List Byte) : List Byte := cw.take 4096
def cwMeta (cw : List Byte) : List Byte := (cw.drop 4096).take 32

/-- ECHO found in the metadata. -/
def metaEcho (cw : List Byte) : Nat := leNat (((cwMeta cw).drop 2).take 5)

/-- CW_INDEX found in the metadata. -/
def metaIndex (cw : List Byte) : Nat := leNat (((cwMeta cw).drop 7).take 1) % 4

/-- FORMAT, CODE_ID, ECHO and CW_INDEX are those of the codeword read (10 R232). -/
def echoGood (codeB : Bool) (echo idx : Nat) (cw : List Byte) : Bool :=
  let m := cwMeta cw
  decide (leNat (m.take 1) = 1) && decide (leNat ((m.drop 1).take 1) = bit codeB) && decide (metaEcho cw = echo)
  && decide (metaIndex cw = idx)

/-- USER_CRC is that of the user data (10 R232). -/
def crcGood (cw : List Byte) : Bool :=
  decide (leNat (((cwMeta cw).drop 16).take 4) = (crc32c (cwUser cw)).toNat)

/-! ### Bits of a codeword -/

/-- Zero bits of a byte. -/
def zeroBits (b : Byte) : Nat := (List.range 8).foldl (fun a i => if b.getLsbD i then a else a + 1) 0

/-- Zero bits of a byte string (10 R240). -/
def zerosOf (bytes : List Byte) : Nat := bytes.foldl (fun a b => a + zeroBits b) 0

/-- Bits in which two byte strings differ. -/
def diffBits : List Byte → List Byte → Nat
  | a :: r, b :: t => (8 - zeroBits (a ^^^ b)) + diffBits r t
  | _, _ => 0

/-- Inversion of the bits at positions flips (10 R229: bit b is bit b mod 8 of byte b div 8). -/
def flipBits (bytes : List Byte) (flips : List Nat) : List Byte :=
  flips.foldl (fun bs b => bs.set (b / 8) (((bs[b / 8]?).getD 0) ^^^ BitVec.ofNat 8 (2 ^ (b % 8)))) bytes

/-- XOR of two byte strings. -/
def xorBytes : List Byte → List Byte → List Byte
  | a :: r, b :: t => (a ^^^ b) :: xorBytes r t
  | [], t => t
  | r, [] => r

end Sys2Proof.Machine
end

