-- ==== Sys2Proof/Machine/Access.lean ====
section
/-!
DEFINITION. Reads and writes of the typed tables of State: one reader, one writer and one modifier per table. The
writers keep the sparse maps' canonical form.
-/

namespace Sys2Proof.Machine

/-- Fabric port p (02): what an unlisted key reads as. -/
def fabDefault (_ : Nat) : FabPort := {}

/-- Fabric port p (02). -/
def fabOf (k : Nat) (s : State) : FabPort := SMap.get fabDefault s.fab k

/-- Write of it. -/
def setFab (k : Nat) (v : FabPort) (s : State) : State := { s with fab := SMap.put fabDefault s.fab k v }

/-- Change of it. -/
def modFab (k : Nat) (f : FabPort → FabPort) (s : State) : State := setFab k (f (fabOf k s)) s

/-- Ring r (04 R80): what an unlisted key reads as. -/
def ringDefault (_ : Nat) : Ring := {}

/-- Ring r (04 R80). -/
def ringOf (k : Nat) (s : State) : Ring := SMap.get ringDefault s.rif.rings k

/-- Write of it. -/
def setRing (k : Nat) (v : Ring) (s : State) : State := { s with rif.rings := SMap.put ringDefault s.rif.rings k v }

/-- Change of it. -/
def modRing (k : Nat) (f : Ring → Ring) (s : State) : State := setRing k (f (ringOf k s)) s

/-- Permissions and busy bit of function f (04 R110, R111): what an unlisted key reads as. -/
def fnDefault (_ : Nat) : FnPerm := {}

/-- Permissions and busy bit of function f (04 R110, R111). -/
def fnOf (k : Nat) (s : State) : FnPerm := SMap.get fnDefault s.rif.fns k

/-- Write of it. -/
def setFn (k : Nat) (v : FnPerm) (s : State) : State := { s with rif.fns := SMap.put fnDefault s.rif.fns k v }

/-- Change of it. -/
def modFn (k : Nat) (f : FnPerm → FnPerm) (s : State) : State := setFn k (f (fnOf k s)) s

/-- Row of tag t in the operation table (05 R114): what an unlisted key reads as. -/
def tagDefault (_ : Nat) : TagRow := {}

/-- Row of tag t in the operation table (05 R114). -/
def tagOf (k : Nat) (s : State) : TagRow := SMap.get tagDefault s.ops.tags k

/-- Write of it. -/
def setTag (k : Nat) (v : TagRow) (s : State) : State := { s with ops.tags := SMap.put tagDefault s.ops.tags k v }

/-- Change of it. -/
def modTag (k : Nat) (f : TagRow → TagRow) (s : State) : State := setTag k (f (tagOf k s)) s

/-- Die d as SCH sees it (07): what an unlisted key reads as. -/
def dieDefault (_ : Nat) : Die := {}

/-- Die d as SCH sees it (07). -/
def dieOf (k : Nat) (s : State) : Die := SMap.get dieDefault s.sch.dies k

/-- Write of it. -/
def setDie (k : Nat) (v : Die) (s : State) : State := { s with sch.dies := SMap.put dieDefault s.sch.dies k v }

/-- Change of it. -/
def modDie (k : Nat) (f : Die → Die) (s : State) : State := setDie k (f (dieOf k s)) s

/-- Candidate transfers of channel c, oldest first (07 R152): what an unlisted key reads as. -/
def candsDefault (_ : Nat) : List Xfer := []

/-- Candidate transfers of channel c, oldest first (07 R152). -/
def candsOf (k : Nat) (s : State) : List Xfer := SMap.get candsDefault s.sch.cands k

/-- Write of it. -/
def setCands (k : Nat) (v : List Xfer) (s : State) : State :=
  { s with sch.cands := SMap.put candsDefault s.sch.cands k v }

/-- Change of it. -/
def modCands (k : Nat) (f : (List Xfer) → (List Xfer)) (s : State) : State := setCands k (f (candsOf k s)) s

/-- Plan in force on channel c (07 R150): what an unlisted key reads as. -/
def planDefault (_ : Nat) : Option Plan := none

/-- Plan in force on channel c (07 R150). -/
def planOf (k : Nat) (s : State) : Option Plan := SMap.get planDefault s.sch.plans k

/-- Write of it. -/
def setPlan (k : Nat) (v : Option Plan) (s : State) : State :=
  { s with sch.plans := SMap.put planDefault s.sch.plans k v }

/-- Change of it. -/
def modPlan (k : Nat) (f : (Option Plan) → (Option Plan)) (s : State) : State := setPlan k (f (planOf k s)) s

/-- Channel CHN[c] (08): what an unlisted key reads as. -/
def chanDefault (_ : Nat) : Chan := {}

/-- Channel CHN[c] (08). -/
def chanOf (k : Nat) (s : State) : Chan := SMap.get chanDefault s.chn k

/-- Write of it. -/
def setChan (k : Nat) (v : Chan) (s : State) : State := { s with chn := SMap.put chanDefault s.chn k v }

/-- Change of it. -/
def modChan (k : Nat) (f : Chan → Chan) (s : State) : State := setChan k (f (chanOf k s)) s

/-- Engine e (09 R195): what an unlisted key reads as. -/
def engDefault (_ : Nat) : EngineSt := {}

/-- Engine e (09 R195). -/
def engOf (k : Nat) (s : State) : EngineSt := SMap.get engDefault s.eng.engines k

/-- Write of it. -/
def setEng (k : Nat) (v : EngineSt) (s : State) : State :=
  { s with eng.engines := SMap.put engDefault s.eng.engines k v }

/-- Change of it. -/
def modEng (k : Nat) (f : EngineSt → EngineSt) (s : State) : State := setEng k (f (engOf k s)) s

/-- Soft decoder u (10 R245): what an unlisted key reads as. -/
def softDefault (_ : Nat) : Option SoftRun := none

/-- Soft decoder u (10 R245). -/
def softOf (k : Nat) (s : State) : Option SoftRun := SMap.get softDefault s.ecc.running k

/-- Write of it. -/
def setSoft (k : Nat) (v : Option SoftRun) (s : State) : State :=
  { s with ecc.running := SMap.put softDefault s.ecc.running k v }

/-- Change of it. -/
def modSoft (k : Nat) (f : (Option SoftRun) → (Option SoftRun)) (s : State) : State := setSoft k (f (softOf k s)) s

/-- Correction stage of channel c (10 R241): what an unlisted key reads as. -/
def stageDefault (_ : Nat) : List (Nat × Nat × Nat × Nat) := []

/-- Correction stage of channel c (10 R241). -/
def stageOf (k : Nat) (s : State) : List (Nat × Nat × Nat × Nat) := SMap.get stageDefault s.ecc.correct k

/-- Write of it. -/
def setStage (k : Nat) (v : List (Nat × Nat × Nat × Nat)) (s : State) : State :=
  { s with ecc.correct := SMap.put stageDefault s.ecc.correct k v }

/-- Change of it. -/
def modStage (k : Nat) (f : (List (Nat × Nat × Nat × Nat)) → (List (Nat × Nat × Nat × Nat))) (s : State) : State :=
  setStage k (f (stageOf k s)) s

/-- Temperature of die d (11 R261): what an unlisted key reads as. -/
def tempDefault (_ : Nat) : DieTemp := {}

/-- Temperature of die d (11 R261). -/
def tempOf (k : Nat) (s : State) : DieTemp := SMap.get tempDefault s.lvl.temps k

/-- Write of it. -/
def setTemp (k : Nat) (v : DieTemp) (s : State) : State := { s with lvl.temps := SMap.put tempDefault s.lvl.temps k v }

/-- Change of it. -/
def modTemp (k : Nat) (f : DieTemp → DieTemp) (s : State) : State := setTemp k (f (tempOf k s)) s

/-- Levels last set on LUN d (11 R257): what an unlisted key reads as. -/
def levelsDefault (_ : Nat) : Option SetLevels := none

/-- Levels last set on LUN d (11 R257). -/
def levelsOf (k : Nat) (s : State) : Option SetLevels := SMap.get levelsDefault s.lvl.current k

/-- Write of it. -/
def setLevels (k : Nat) (v : Option SetLevels) (s : State) : State :=
  { s with lvl.current := SMap.put levelsDefault s.lvl.current k v }

/-- Change of it. -/
def modLevels (k : Nat) (f : (Option SetLevels) → (Option SetLevels)) (s : State) : State :=
  setLevels k (f (levelsOf k s)) s

/-- Bus suspicions of channel c (11 R279): what an unlisted key reads as. -/
def noiseDefault (_ : Nat) : Noise := {}

/-- Bus suspicions of channel c (11 R279). -/
def noiseOf (k : Nat) (s : State) : Noise := SMap.get noiseDefault s.lvl.noise k

/-- Write of it. -/
def setNoise (k : Nat) (v : Noise) (s : State) : State := { s with lvl.noise := SMap.put noiseDefault s.lvl.noise k v }

/-- Change of it. -/
def modNoise (k : Nat) (f : Noise → Noise) (s : State) : State := setNoise k (f (noiseOf k s)) s

/-- Disk stream port a (12): what an unlisted key reads as. -/
def dspDefault (_ : Nat) : Dsp := {}

/-- Disk stream port a (12). -/
def dspOf (k : Nat) (s : State) : Dsp := SMap.get dspDefault s.dsp k

/-- Write of it. -/
def setDsp (k : Nat) (v : Dsp) (s : State) : State := { s with dsp := SMap.put dspDefault s.dsp k v }

/-- Change of it. -/
def modDsp (k : Nat) (f : Dsp → Dsp) (s : State) : State := setDsp k (f (dspOf k s)) s

/-- Rail group g (13): what an unlisted key reads as. -/
def groupDefault (_ : Nat) : Group := {}

/-- Rail group g (13). -/
def groupOf (k : Nat) (s : State) : Group := SMap.get groupDefault s.pwr.groups k

/-- Write of it. -/
def setGroup (k : Nat) (v : Group) (s : State) : State :=
  { s with pwr.groups := SMap.put groupDefault s.pwr.groups k v }

/-- Change of it. -/
def modGroup (k : Nat) (f : Group → Group) (s : State) : State := setGroup k (f (groupOf k s)) s

/-- Roster entry of die d (14 R333): what an unlisted key reads as. -/
def rosterDefault (_ : Nat) : Roster := {}

/-- Roster entry of die d (14 R333). -/
def rosterOf (k : Nat) (s : State) : Roster := SMap.get rosterDefault s.map.roster k

/-- Write of it. -/
def setRoster (k : Nat) (v : Roster) (s : State) : State :=
  { s with map.roster := SMap.put rosterDefault s.map.roster k v }

/-- Change of it. -/
def modRoster (k : Nat) (f : Roster → Roster) (s : State) : State := setRoster k (f (rosterOf k s)) s

/-- Map copy k as read in a load (14 R344): what an unlisted key reads as. -/
def copyDefault (_ : Nat) : CopyRead := {}

/-- Map copy k as read in a load (14 R344). -/
def copyOf (k : Nat) (s : State) : CopyRead := SMap.get copyDefault s.map.copies k

/-- Write of it. -/
def setCopy (k : Nat) (v : CopyRead) (s : State) : State :=
  { s with map.copies := SMap.put copyDefault s.map.copies k v }

/-- Change of it. -/
def modCopy (k : Nat) (f : CopyRead → CopyRead) (s : State) : State := setCopy k (f (copyOf k s)) s

/-- Interrupt target t (15 R364): what an unlisted key reads as. -/
def targetDefault (_ : Nat) : Target := {}

/-- Interrupt target t (15 R364). -/
def targetOf (k : Nat) (s : State) : Target := SMap.get targetDefault s.irq.targets k

/-- Write of it. -/
def setTarget (k : Nat) (v : Target) (s : State) : State :=
  { s with irq.targets := SMap.put targetDefault s.irq.targets k v }

/-- Change of it. -/
def modTarget (k : Nat) (f : Target → Target) (s : State) : State := setTarget k (f (targetOf k s)) s

/-- Note FIFO of engine e (15 R371): what an unlisted key reads as. -/
def fifoDefault (_ : Nat) : NoteFifo := {}

/-- Note FIFO of engine e (15 R371). -/
def fifoOf (k : Nat) (s : State) : NoteFifo := SMap.get fifoDefault s.note.fifos k

/-- Write of it. -/
def setFifo (k : Nat) (v : NoteFifo) (s : State) : State :=
  { s with note.fifos := SMap.put fifoDefault s.note.fifos k v }

/-- Change of it. -/
def modFifo (k : Nat) (f : NoteFifo → NoteFifo) (s : State) : State := setFifo k (f (fifoOf k s)) s

/-- Backup register BKP[k] (16 R386): what an unlisted key reads as. -/
def bkpDefault (_ : Nat) : Word32 := 0

/-- Backup register BKP[k] (16 R386). -/
def bkpOf (k : Nat) (s : State) : Word32 := SMap.get bkpDefault s.rst.bkp k

/-- Write of it. -/
def setBkp (k : Nat) (v : Word32) (s : State) : State := { s with rst.bkp := SMap.put bkpDefault s.rst.bkp k v }

/-- Change of it. -/
def modBkp (k : Nat) (f : Word32 → Word32) (s : State) : State := setBkp k (f (bkpOf k s)) s

end Sys2Proof.Machine
end

