-- ==== Sys2Proof/Machine/NoteFifo.lean ====
section
/-!
DEFINITION. The note FIFO of an engine as its threads write it (09 R201, 15 R371 to R373).
-/

namespace Sys2Proof.Machine

/-- NOTE.CTRL.ENABLE: while it is 0, NOTE actions write nothing (15 R376). -/
def noteOn (s : State) : Bool := pageActive .note s

/-- All 32 stages of an engine's FIFO are occupied. -/
def noteFull (e : Nat) (s : State) : Bool := decide (32 ≤ (fifoOf e s).stages.length)

/-- While one thread has a packet open, a NOTE action of the other stalls that thread (09 R201). -/
def noteBlocked (e : Nat) (k : Bool) (s : State) : Bool :=
  match (fifoOf e s).open_ with
  | some (_, t, _) => decide (t ≠ k)
  | none => false

/-- A halfword is lost to a full FIFO (15 R371): NOTE counter 1, event 1; an open packet remembers it. -/
def noteLoss (e : Nat) (s : State) : State :=
  let s := modFifo e (fun f => { f with overrun := true, lossPending := true,
                                        open_ := f.open_.map fun o => (o.1, o.2.1, true) }) s
  raiseEvt .note 1 (bump .note 1 (hwBit .note (oNoteStat + 4096 * (e + 1)) 30 s))

/-- A stage is taken by a halfword; the first after a loss carries a lost-before mark. -/
def noteStage (e : Nat) (v : BitVec 16) (len : Bool) (s : State) : State :=
  modFifo e (fun f => { f with stages := f.stages ++ [{ val := v, len := len, lost := f.lossPending }],
                               lossPending := false }) s

/-- A halfword is written: NOTE counter 0. -/
def noteWrite (e : Nat) (v : BitVec 16) (s : State) : State :=
  if noteFull e s then noteLoss e s else bump .note 0 (noteStage e v false s)

/-- The length halfword of a packet (15 R372). -/
def noteLength (aborted lost : Bool) (count : Nat) : BitVec 16 :=
  BitVec.ofNat 16 (fieldAt 15 (bit aborted) + fieldAt 14 (bit lost) + count % 32)

/-- The open packet of a thread is closed: its length halfword is written, and the packet readable; NOTE counters 0
and 3. -/
def noteClose (e : Nat) (k aborted : Bool) (s : State) : State :=
  match (fifoOf e s).open_ with
  | none => s
  | some (i, t, lost) =>
    if t ≠ k then s
    else
      let s := modFifo e (fun f => { f with
        open_ := none,
        stages := f.stages.modify i fun h => { h with val := noteLength aborted lost (f.stages.length - i - 1) } }) s
      bump .note 3 (bump .note 0 s)

/-- Code 8: a packet still open is closed, then a stage is reserved; a full FIFO opens none and counts a loss. -/
def noteOpen (e : Nat) (k : Bool) (s : State) : State :=
  let s := noteClose e k false s
  if noteFull e s then noteLoss e s
  else
    let i := (fifoOf e s).stages.length
    modFifo e (fun f => { f with open_ := some (i, k, false) }) (noteStage e 0 true s)

/-- A stamp latch that nothing has written. -/
def noStamp (_ : Nat) : BitVec 16 × BitVec 16 := (0, 0)

/-- Stamp latch of a thread (15 R373). -/
def stampOf (e : Nat) (k : Bool) (s : State) : BitVec 16 × BitVec 16 := SMap.get noStamp s.note.stamps (2 * e + bit k)

/-- Code 5 latches FRAME[31:16] and PHASE. -/
def takeStamp (e : Nat) (k : Bool) (s : State) : State :=
  let v := (s.tmb.frame.extractLsb' 16 16, BitVec.ofNat 16 s.tmb.phase)
  { s with note.stamps := SMap.put noStamp s.note.stamps (2 * e + bit k) v }

end Sys2Proof.Machine
end

