-- ==== Sys2Proof/Machine/Threads.lean ====
section
/-!
DEFINITION. The threads of the engines (09 R195, Table 9.1): who takes jobs, the hold after reset, ABORT requests.
-/

namespace Sys2Proof.Machine

/-- Thread T0 or T1 of an engine. -/
def thrOf (e : Nat) (k : Bool) (s : State) : Thread := if k then (engOf e s).t1 else (engOf e s).t0

/-- Write of it. -/
def setThr (e : Nat) (k : Bool) (t : Thread) (s : State) : State :=
  modEng e (fun x => if k then { x with t1 := t } else { x with t0 := t }) s

/-- Change of it. -/
def modThr (e : Nat) (k : Bool) (f : Thread → Thread) (s : State) : State := setThr e k (f (thrOf e k s)) s

/-- The thread of a Burin that drives a channel: T0 the even one, T1 the odd one. -/
def chanThr (c : Nat) : Bool := decide (c % 2 = 1)

/-- A thread takes jobs: it is IDLE, RUN or STALL, and its CTRL.ENABLE is 1. -/
def alive (t : Thread) : Bool :=
  match t.state with
  | .idle => !t.stopping
  | .run => !t.stopping
  | .stall => !t.stopping
  | _ => false

/-- A thread executes words. -/
def running (t : Thread) : Bool := decide (t.state = .run) || decide (t.state = .stall)

/-- Page of an engine. -/
def enginePage (n : Nat) : Page := if n = 64 then .grv else .bur (BitVec.ofNat 6 n)

/-- The straps hold the engines until a load succeeds (09 R215). -/
def strapHold (s : State) : Bool := decide (s.pins.strapBoot ≠ 0) && !s.eng.released

/-- A thread goes to HELD; its open packet is closed as aborted (09 Table 9.1, 15 R372). The PREEMPT of a guest job
stands until it is taken or withdrawn. -/
def holdThr (e : Nat) (k : Bool) (s : State) : State :=
  modThr e k (fun t => { t with state := .held, stopping := false, abortPend := false,
                                handler := none, first := false }) (noteClose e k true s)

/-- A HELD thread whose engine is enabled and not held starts at PC 0 with an empty stack. -/
def startThr (e : Nat) (k : Bool) (s : State) : State :=
  if (thrOf e k s).state = .held ∧ pageActive (enginePage e) s = true ∧ strapHold s = false then
    modThr e k (fun t => { t with state := .run, pc := 0, stack := [], base := 0, safeDist := 0 }) s
  else s

/-- Both threads of an engine start. -/
def startEngine (s : State) (e : Nat) : State := startThr e true (startThr e false s)

/-- Every engine starts that may. -/
def startEngines (s : State) : State := (List.range 65).foldl startEngine s

/-- CTRL.ENABLE of an engine has become 1, seen by one thread: one that was still to stop goes on, a halted or faulted
one starts again. -/
def enableThr (e : Nat) (k : Bool) (s : State) : State :=
  match (thrOf e k s).state with
  | .halted => startThr e k (holdThr e k s)
  | .faulted => startThr e k (holdThr e k s)
  | .held => startThr e k s
  | _ => modThr e k (fun t => { t with stopping := false }) s

/-- CTRL.ENABLE of an engine has become 0: a thread at its DISPATCH word is HELD, a running one is to stop at its
next. -/
def disableThr (e : Nat) (k : Bool) (s : State) : State :=
  match (thrOf e k s).state with
  | .idle => holdThr e k s
  | .run => modThr e k (fun t => { t with stopping := true }) s
  | .stall => modThr e k (fun t => { t with stopping := true }) s
  | _ => s

/-! ### ABORT (09 R210) -/

/-- A thread works on a job. -/
def onJob (t : Thread) : Bool := running t && t.job.isSome && decide (t.handler ≠ some 14)

/-- A thread once some of the jobs are to end: those waiting go, and the one it works on gets an ABORT request. -/
def abortWhere (p : Job → Bool) (t : Thread) : Thread :=
  { t with waiting := t.waiting.filter fun j => !p j,
           offered := if t.offered.any p then none else t.offered,
           abortPend := t.abortPend || (onJob t && t.job.any p) }

/-- Jobs end before their time on every engine. -/
def abortJobs (p : Job → Bool) (s : State) : State :=
  let s := { s with eng.grvQueue := s.eng.grvQueue.filter fun q => !p q.job }
  (s.eng.engines.map (·.1)).foldl (fun s e =>
    modEng e (fun x => { x with t0 := abortWhere p x.t0, t1 := abortWhere p x.t1 }) s) s

/-- A tag has committed: jobs that serve it end. -/
def abortTag (t : Nat) (s : State) : State := abortJobs (fun j => decide (j.tag = some t)) s

/-- A channel has left OWNED and TAKEOVER: jobs on it end. -/
def abortChannel (c : Nat) (s : State) : State := abortJobs (fun j => decide (j.channel = c)) s

end Sys2Proof.Machine
end

