-- ==== Sys2Proof/Machine/Irq.lean ====
section
/-!
DEFINITION. Interrupt sources (15 R360 to R363): which IDs exist, their configuration, their level inputs, pending and
delivery; and the edge that a completion vector raises.
-/

namespace Sys2Proof.Machine

/-! ### Source IDs (15 Table 15.1) -/

/-- The page whose source a shared ID is. -/
def sourcePage (id : Nat) : Option Page :=
  match id with
  | 1 => some .glb
  | 2 => some .tmb
  | 3 => some .rif
  | 4 => some .ops
  | 5 => some .sch
  | 6 => some .dpt
  | 7 => some .ecc
  | 8 => some .lvl
  | 9 => some (.dsp 0)
  | 10 => some (.dsp 1)
  | 11 => some .pwr
  | 12 => some .map
  | 13 => some .irq
  | 14 => some .note
  | 15 => some .rst
  | 16 => some .mem
  | 17 => some .sec
  | 18 => some .peer
  | 19 => some .grv
  | n =>
    if 32 ≤ n ∧ n < 96 then some (.bur (BitVec.ofNat 6 (n - 32)))
    else if 128 ≤ n ∧ n < 256 then some (.chn (BitVec.ofNat 7 (n - 128)))
    else none

/-- A shared ID that names a source. -/
def sharedId (id : Nat) : Bool :=
  decide (1 ≤ id ∧ id ≤ 20) || decide (32 ≤ id ∧ id < 96) || decide (128 ≤ id ∧ id < 256)
  || decide (512 ≤ id ∧ id < 1024)

/-- A private ID that names a source of a target. -/
def privateId (id : Nat) : Bool := decide (1024 ≤ id ∧ id ≤ 1072)

/-- An edge source: a completion vector. -/
def edgeId (id : Nat) : Bool := decide (512 ≤ id ∧ id < 1072)

/-- Configuration after reset: priority 15 on ID 20 and on 1,072, else 0 (15 SRC_CFG, PSRC_CFG). -/
def srcReset (id : Nat) : Src := if id = 20 then { prio := 15 } else {}

/-- Private sources: key target * 64 + ID - 1,024. -/
def privReset (k : Nat) : Src := if k % 64 = 48 then { prio := 15 } else {}

/-- A shared source. -/
def srcOf (id : Nat) (s : State) : Src := SMap.get srcReset s.irq.src id

/-- Write of a shared source. -/
def setSrc (id : Nat) (v : Src) (s : State) : State := { s with irq.src := SMap.put srcReset s.irq.src id v }

/-- A private source of target t. -/
def privOf (t id : Nat) (s : State) : Src := SMap.get privReset s.irq.priv (t * 64 + (id - 1024))

/-- Write of a private source of target t. -/
def setPriv (t id : Nat) (v : Src) (s : State) : State :=
  { s with irq.priv := SMap.put privReset s.irq.priv (t * 64 + (id - 1024)) v }

/-- A source as target t sees it: shared, or of its private bank. -/
def srcFor (t id : Nat) (s : State) : Src := if id < 1024 then srcOf id s else privOf t id s

/-- Write of a source as target t sees it. -/
def setSrcFor (t id : Nat) (v : Src) (s : State) : State := if id < 1024 then setSrc id v s else setPriv t id v s

/-! ### Pending (15 R362) -/

/-- Level input of a page source: an enabled latched event (03 R67). -/
def pageInput (p : Page) (s : State) : Bool := decide ((hdrOf p s).evtPend &&& (hdrOf p s).evtMask ≠ 0)

/-- BKP[0].LOG_LOST (17 Table 17.2). -/
def logLost (s : State) : Bool := bitAt (bkpOf 0 s).toNat 31

/-- Level input of a source as target t sees it; false for an edge source. -/
def levelInput (t id : Nat) (s : State) : Bool :=
  if id = 20 then logLost s
  else if id = 1072 then (targetOf t s).sticky
  else match sourcePage id with
    | some p => pageInput p s
    | none => false

/-- Pending (15 R362, Table 15.2): not in service, and a level input that is high or an edge that is held. -/
def srcPending (t id : Nat) (s : State) : Bool :=
  (srcFor t id s).serving.isNone && (if edgeId id then (srcFor t id s).edge else levelInput t id s)

/-- The shared IDs that can be pending now: every level source, and the edge sources that the map lists. -/
def sharedCandidates (s : State) : List Nat :=
  (List.range 20).map (· + 1) ++ (List.range 64).map (· + 32) ++ (List.range 128).map (· + 128)
  ++ (s.irq.src.map (·.1)).filter edgeId

/-- The private IDs of target t that can be pending now. -/
def privateCandidates (t : Nat) (s : State) : List Nat :=
  (s.irq.priv.map (·.1)).filterMap fun k => if k / 64 = t ∧ k % 64 < 48 then some (1024 + k % 64) else none

/-! ### Delivery (15 R363) -/

/-- Running level of a target: the priority at the top of its stack, or 0. -/
def runningLevel (t : Nat) (s : State) : Nat :=
  match (targetOf t s).stack with
  | [] => 0
  | (_, p) :: _ => p

/-- Target number as a page. -/
def irqtPage (t : Nat) : Page := .irqt (BitVec.ofNat 3 t)

/-- IRQT[t].THRESHOLD.LEVEL. -/
def threshold (t : Nat) (s : State) : Nat := regFld (irqtPage t) oIrqtThreshold 0 4 s

/-- Source id is deliverable to target t (15 R363). -/
def deliverable (t id : Nat) (s : State) : Bool :=
  srcPending t id s
  && (if id < 1024 then bitAt (srcOf id s).targets.toNat t else true)
  && decide (threshold t s < (srcFor t id s).prio)
  && decide (runningLevel t s < (srcFor t id s).prio)
  && (hdrOf .irq s).enable && (hdrOf (irqtPage t) s).enable

/-- The better of two sources for a claim: higher priority, then lower ID (15 R364). -/
def betterSource (t a b : Nat) (s : State) : Nat :=
  if (srcFor t b s).prio < (srcFor t a s).prio then a
  else if (srcFor t a s).prio < (srcFor t b s).prio then b
  else if a ≤ b then a else b

/-- The source that a claim by t returns, if any (15 R364). -/
def claimPick (t : Nat) (s : State) : Option Nat :=
  ((sharedCandidates s ++ privateCandidates t s ++ [1072]).filter fun id => deliverable t id s).foldl
    (fun acc id => match acc with
      | none => some id
      | some b => some (betterSource t b id s)) none

/-- irq_req[t]; low without power in the core domain (15 R363, 02 R52, 13 R323). -/
def irqReq (t : Nat) (s : State) : Bool := corePowered s && (claimPick t s).isSome

/-! ### Edges -/

/-- An edge on a source (15 R362): one that finds the source pending is counted in IRQ counter 3; one that finds it in
service is held until the service ends. -/
def edgeOn (t id : Nat) (s : State) : State :=
  if (srcFor t id s).edge then (if (srcFor t id s).serving.isNone then bump .irq 3 s else s)
  else setSrcFor t id { srcFor t id s with edge := true } s

/-- IRQ.FN_TGT.TGT[f] (15 R361). -/
def fnTarget (f : Nat) (s : State) : Nat := regFld .irq (oIrqFnTgt + 4 * (f / 8)) (4 * (f % 8)) 3 s

/-- The VECTOR edge of a completion ring of function f (04 R98, 15 R361); 0 and other values raise nothing. -/
def raiseVector (f v : Nat) (s : State) : State :=
  if 512 ≤ v ∧ v < 1024 then edgeOn 0 v s
  else if 1024 ≤ v ∧ v < 1072 then edgeOn (fnTarget f s) v s
  else s

/-! ### Fatal (15 R368) -/

/-- The shared sources with FATAL = 1 that are pending or in service, lowest first. -/
def fatalSource (s : State) : Option Nat :=
  (s.irq.src.filter fun e => e.2.fatal && (e.2.serving.isSome || srcPending 0 e.1 s)).head?.map (·.1)

/-- fault_n is low; high without power in the core domain (15 R368, 02 R52, 13 R323). -/
def faultLow (s : State) : Bool := corePowered s && s.irq.latched

end Sys2Proof.Machine
end

