-- ==== Sys2Proof/Machine/MemWords.lean ====
section
/-!
DEFINITION. The words of the internal memories (17): which exist, which are valid, what an upset does to them, the spare
words, the error log, and what a read of a word finds.
-/

namespace Sys2Proof.Machine

/-! ### Control stores (09 R214, Table 9.12) -/

/-- First patch word and store size of an engine class; true for the Graver. -/
def patchBase (grv : Bool) : Nat := if grv then 6144 else 1536
def storeSize (grv : Bool) : Nat := if grv then 8192 else 2048

/-! ### Words (17 Table 17.1) -/

/-- A class has a word of this index. -/
def memWord (cls idx : Nat) : Bool :=
  match cls with
  | 0 => decide (idx < 524288)
  | 1 => decide (idx < 65536)
  | 2 => decide (idx < 8192)
  | 3 => decide (idx / 8192 ≤ 64) && decide (idx % 8192 < storeSize (decide (idx / 8192 = 64)))
  | 4 => decide (idx < 128)
  | 5 => decide (idx < 131072)
  | 6 => decide (idx < 131072)
  | 7 => decide (idx < 8192)
  | _ => false

/-- The index from which a search goes on when i names no word: the next engine's store. -/
def memSkip (cls i : Nat) : Nat := if cls = 3 then (i / 8192 + 1) * 8192 else i

/-- The first index from i on that names a word, if there is one below a bound. -/
def nextWord (cls i bound : Nat) : Option Nat :=
  let j := if memWord cls i then i else memSkip cls i
  if memWord cls j ∧ j < bound then some j else none

/-- MEM's CTRL.ENABLE: while it is 0 nothing is logged, scrubbed or captured (17 R399). -/
def memOn (s : State) : Bool := pageActive .mem s

/-- BKP[0] with a bit set. -/
def setBkp0 (i : Nat) (s : State) : State :=
  hwBit .mem oMemBkpClr i (setBkp 0 (bkpOf 0 s ||| BitVec.ofNat 32 (2 ^ i)) s)

/-- BKP[0] with a bit cleared. -/
def clearBkp0 (i : Nat) (s : State) : State := setBkp 0 (bkpOf 0 s &&& ~~~BitVec.ofNat 32 (2 ^ i)) s

/-- BKP[0].CE_TOTAL. -/
def ceTotal (s : State) : Nat := fieldOf (bkpOf 0 s).toNat 0 16

/-- CE_TOTAL takes a value. -/
def setCeTotal (n : Nat) (s : State) : State :=
  setBkp 0 ((bkpOf 0 s &&& 0xFFFF0000) ||| BitVec.ofNat 32 (satTo 65535 n)) s

/-- Its place among the counts of MEM, behind the page counters (03 R74). -/
def ceCount : Nat := 128

/-- One correctable error more. -/
def bumpCeTotal (s : State) : State := markCount .mem ceCount (setCeTotal (baseOf .mem ceCount (ceTotal s) s + 1) s)

/-- BKP_CLR.CE_TOTAL; an error counted in the same cc wins (03 R74). -/
def clearCeTotal (s : State) : State := swCount .mem ceCount (ceTotal s) (setCeTotal 0) s

/-! ### Spares (17 R398) -/

/-- A spare that is free. -/
def noSpare (_ : Nat) : Option (Nat × Nat) := none

/-- Spare of a class and slot: WHY and word index. -/
def spareOf (cls slot : Nat) (s : State) : Option (Nat × Nat) := SMap.get noSpare s.mem.remap (cls * 8 + slot)

/-- The lowest free slot of a class. -/
def freeSlot (cls : Nat) (s : State) : Option Nat := (List.range 8).find? fun k => (spareOf cls k s).isNone

/-- A spare is captured for a word: counter 17; with none free, BKP[0].REMAP_FULL. The second result is whether one
was. -/
def captureSpare (cls idx why : Nat) (s : State) : State × Bool :=
  if !memOn s then (s, false)
  else match freeSlot cls s with
    | some k =>
      (bump .mem 17 { s with mem.remap := SMap.put noSpare s.mem.remap (cls * 8 + k) (some (why, idx)) }, true)
    | none => (setBkp0 29 s, false)

/-! ### The log (17 R395, R396) -/

/-- A valid entry stands for a word. -/
def inLog (cls idx : Nat) (s : State) : Bool :=
  s.mem.log.any fun e => decide (e.cls = cls) && decide (e.index = idx)

/-- An error is logged: one that stands in the log already is not logged again and, when correctable, remapped under
AUTO_CE; one that finds the log full or invalid is counted in counter 16. -/
def logError (e : LogEnt) (s : State) : State :=
  if !memOn s then s
  else if inLog e.cls e.index s then
    if !e.ue && decide (regFld .mem oMemRemapCfg 0 1 s = 1) then (captureSpare e.cls e.index 1 s).1 else s
  else if s.mem.logBad ∨ 16 ≤ s.mem.log.length then bump .mem 16 s
  else { s with mem.log := s.mem.log ++ [e] }

/-- An entry made now. -/
def logEntry (ue : Bool) (cls bit_ byte_ idx : Nat) (s : State) : LogEnt :=
  { ue := ue, cls := cls, bit_ := bit_, byte_ := byte_, index := idx, frame := s.tmb.frame.setWidth 16 }

/-! ### Where words stand (17 Table 17.1) -/

/-- Die of a roster word of the map cache. -/
def rosterWord (idx : Nat) : Option Nat :=
  if Config.rosterFirst then (if idx < 4096 then some idx else none)
  else if 126976 ≤ idx then some (idx - 126976) else none

/-- The word of the map cache in which a die's roster word stands, and that in which word w of the working map does. -/
def rosterIdx (d : Nat) : Nat := if Config.rosterFirst then d else 126976 + d
def markIdx (w : Nat) : Nat := if Config.rosterFirst then w + 4096 else w

/-- Word of the working map that an index of the map cache is. -/
def markWordAt (idx : Nat) : Nat := if Config.rosterFirst then idx - 4096 else idx

/-- The granules of staging that are held: their holder, and their number among its own, that of a codeword read 256
times its place, that of program data from 65,536 on. -/
def heldGranules (s : State) : List (Nat × Nat) :=
  (s.dpt.cws.flatMap fun c => (List.range (c.gRead + c.gAcc)).map fun j => (c.id, (c.plane * 4 + c.idx) * 256 + j))
  ++ s.dpt.progs.flatMap fun p => (List.range p.granules).map fun j => (p.id, 65536 + j)

/-- Who holds a granule. -/
def granuleHolder (idx : Nat) (s : State) : Option (Nat × Nat) :=
  (heldGranules s).find? fun g => decide (Config.granuleAt g.1 g.2 = idx)

/-- The ring whose context a word of the cache holds. -/
def contextRing (idx : Nat) (s : State) : Option Nat :=
  (s.rif.rings.find? fun e => e.2.cached && decide (Config.cacheWord e.1 = idx)).map (·.1)

/-- Write of eight bytes of retained memory. -/
def setRmem (w v : Nat) (s : State) : State :=
  let put := fun (m : SMap Byte) (i : Nat) => SMap.put (fun _ => 0) m (8 * w + i) (BitVec.ofNat 8 (fieldOf v (8 * i) 8))
  setValid 7 w { s with rst.rmem := (List.range 8).foldl put s.rst.rmem,
                        mem.upsets := s.mem.upsets.filter fun u => !(decide (u.cls = 7) && decide (u.idx = w)) }

/-- The data bits that upsets beyond correction flip in byte i of a word of retained memory. -/
def rmemFlips (w i : Nat) (s : State) : Byte :=
  (s.mem.upsets.filter fun u => u.beyond && decide (u.cls = 7) && decide (u.idx = w) && decide (u.unit = i)).foldl
    (fun m u => m ^^^ u.mask) 0

/-- A word of retained memory; one that fails beyond correction is returned as it stands (17 R394). -/
def rmemWord (w : Nat) (s : State) : Nat :=
  leNat ((List.range 8).map fun i => SMap.get (fun _ => (0 : Byte)) s.rst.rmem (8 * w + i) ^^^ rmemFlips w i s)

/-! ### Valid bits (17 R392) -/

/-- The majority of three copies. -/
def majority (v : BitVec 3) : Bool := decide (2 ≤ ((List.range 3).filter fun i => v.getLsbD i).length)

/-- The valid bit that a place of State holds. -/
def validAt (cls idx : Nat) (s : State) : Bool := majority (SMap.get noValid s.mem.valid (wordKey cls idx))

/-- Word w of an engine's store holds a word: ROM, or a patch word written, and no spare that started invalid stands for
it. -/
def storeHolds (idx : Nat) (s : State) : Bool :=
  let grv := decide (idx / 8192 = 64)
  let w := idx % 8192
  !s.mem.blank.contains idx
  && (decide (w < patchBase grv) || ((if grv then s.eng.patchGrv else s.eng.patchBur).any fun e => decide (e.1 = w)))

/-- A word is valid (17 R392). Held granules, cached contexts, control-store words and words of the working map are valid
as their contents stand in State (log entry 101). -/
def wordValid (cls idx : Nat) (s : State) : Bool :=
  match cls with
  | 0 => (granuleHolder idx s).isSome
  | 2 => (contextRing idx s).isSome
  | 3 => storeHolds idx s
  | 6 => match rosterWord idx with
    | some d => validAt 8 d s
    | none => decide (2 * markWordAt idx < s.map.marks.length)
  | _ => validAt cls idx s

/-! ### Upsets (17 R391) -/

/-- Bytes of a word; a granule is one unit. -/
def wordUnits (cls : Nat) : Nat :=
  match cls with
  | 0 => 1
  | 1 => 64
  | 2 => 64
  | 3 => 16
  | 4 => 4
  | 5 => 16
  | _ => 8

/-- Two upsets hit one unit. -/
def sameUnit (a b : Upset) : Bool := decide (a.cls = b.cls) && decide (a.idx = b.idx) && decide (a.unit = b.unit)

/-- An upset joins those that stand; a second one in a unit goes beyond correction. -/
def addUpset (o : Option Upset) (l : List Upset) : List Upset :=
  match o with
  | none => l
  | some u =>
    if memWord u.cls u.idx && decide (u.unit < wordUnits u.cls) then
      if l.any fun v => sameUnit u v then
        l.map fun v => if sameUnit u v then { v with beyond := true, mask := v.mask ^^^ u.mask } else v
      else u :: l
    else l

/-- The upsets of a word. -/
def upsetsOf (cls idx : Nat) (s : State) : List Upset :=
  s.mem.upsets.filter fun u => decide (u.cls = cls) && decide (u.idx = idx)

/-- Granules of an id, from its lo-th on, are written: no bit of them is flipped. -/
def clearStaged (id lo n : Nat) (s : State) : State :=
  { s with mem.upsets := s.mem.upsets.filter fun u =>
    !(decide (u.cls = 0) && (List.range n).any fun j => decide (Config.granuleAt id (lo + j) = u.idx)) }

/-- A word is written anew, or another takes its place: no bit of it is flipped. -/
def clearUpsets (cls idx : Nat) (s : State) : State :=
  { s with mem.upsets := s.mem.upsets.filter fun u => !(decide (u.cls = cls) && decide (u.idx = idx)) }

/-- A die's roster word fails beyond correction (17 R394). -/
def dieFails (d : Nat) (s : State) : Bool :=
  s.mem.upsets.any fun u => u.beyond && decide (u.cls = 6) && decide (rosterWord u.idx = some d)

/-- A die's roster word is written anew (17 R391, R392). -/
def renewRoster (d : Nat) (s : State) : State :=
  setValid 8 d { s with mem.upsets := s.mem.upsets.filter fun u =>
    !(decide (u.cls = 6) && decide (rosterWord u.idx = some d)) }

/-- The words of the working map from word w on are written anew. -/
def renewMarks (w : Nat) (s : State) : State :=
  { s with mem.upsets := s.mem.upsets.filter fun u =>
    !(decide (u.cls = 6) && (rosterWord u.idx).isNone && decide (w ≤ markWordAt u.idx)) }

/-! ### What a read of a word finds (17 R393, R394) -/

/-- A correctable error (17 R393): counter of the class, CE_TOTAL, event CORRECTED, the log. -/
def correctable (cls idx byte_ bit_ : Nat) (s : State) : State :=
  let s := raiseEvt .mem 0 (bump .mem cls s)
  let s := bumpCeTotal s
  logError (logEntry false cls bit_ (if cls = 0 then 0 else byte_) idx s) s

/-- An uncorrectable error of classes 0, 5, 6 and 7: counter 8 + class, UE_SEEN, the log, error UNCORRECTABLE. -/
def failed (u : Upset) (s : State) : State :=
  let s := setBkp0 30 (raiseEvt .mem 1 (bump .mem (8 + u.cls) s))
  let s := logError (logEntry true u.cls 0 (if u.cls = 0 then 0 else u.unit) u.idx s) s
  raiseErr .mem 0x0100 (fieldAt 24 u.cls + u.idx) s

/-- A read finds an upset: a correctable one is counted and corrected in the word, and one beyond correction in classes
0 and 5 to 7 is counted and stays. That of classes 1 to 4 is the reset source MEM_UE. -/
def findUpset (s : State) (u : Upset) : State :=
  if !u.beyond then
    let s := correctable u.cls u.idx u.unit u.bit_ s
    { s with mem.upsets := s.mem.upsets.filter fun v => !decide (v = u) }
  else if 1 ≤ u.cls ∧ u.cls ≤ 4 then s
  else failed u s

/-- A functional read of a word; an invalid word is not checked (17 R392). -/
def readWord (cls idx : Nat) (s : State) : State :=
  ((upsetsOf cls idx s).filter fun _ => wordValid cls idx s).foldl findUpset s

end Sys2Proof.Machine
end

