-- ==== Sys2Proof/Machine/Operands.lean ====
section
/-!
DEFINITION. The operand forms: the fields of a submission entry (04 Tables 4.4 to 4.8), of a physical address (04 Table
4.6), of a die profile (08 Table 8.6) and of a ring context (04 Table 4.1).
-/

namespace Sys2Proof.Machine

/-! ### Entry words -/

/-- Word n of an entry; a word that was not read is 0. -/
def entryWord (e : Entry) (n : Nat) : Nat := ((e.words[n]?).getD 0).toNat

/-- A field of word n. -/
def entryFld (e : Entry) (n lo w : Nat) : Nat := fieldOf (entryWord e n) lo w

/-- 04 Table 4.4. -/
def ePhase (e : Entry) : Bool := bitAt (entryWord e 0) 31
def eLen (e : Entry) : Nat := entryFld e 0 28 3
def eCbatch (e : Entry) : Bool := bitAt (entryWord e 0) 27
def eClass (e : Entry) : Nat := entryFld e 0 24 3
def eOpcode (e : Entry) : Nat := entryFld e 0 16 8
def eLrow (e : Entry) : Nat := entryFld e 0 11 5
def eMaxrung (e : Entry) : Nat := entryFld e 0 8 3
def eSlc (e : Entry) : Bool := bitAt (entryWord e 0) 1
def eSkip (e : Entry) : Bool := bitAt (entryWord e 0) 0

/-- 04 Table 4.5. -/
def eDlFrame (e : Entry) : Word32 := BitVec.ofNat 32 (entryWord e 1)
def eDlFrac (e : Entry) : Nat := entryFld e 2 0 16
def eCookie (e : Entry) : Word32 := BitVec.ofNat 32 (entryWord e 3)
def ePaddr (e : Entry) : Nat := entryWord e 4 + fieldAt 32 (entryFld e 5 0 8)
def eOpx (e : Entry) : Nat := entryFld e 5 16 16
def ePmask (e : Entry) : Nat := entryFld e 5 12 4
def eCwLast (e : Entry) : Nat := entryFld e 5 10 2
def eCwFirst (e : Entry) : Nat := entryFld e 5 8 2
def eBuffer (e : Entry) : Nat := entryWord e 6 + fieldAt 32 (entryWord e 7)

/-- 04 Table 4.7: FENCE's SCOPE and the feature address. -/
def eScope (e : Entry) : Nat := fieldOf (eOpx e) 0 2
def eFaddr (e : Entry) : Nat := fieldOf (eOpx e) 0 8

/-- 04 Table 4.8. -/
def eMetaAddr (e : Entry) : Nat := entryWord e 10 + fieldAt 32 (entryWord e 11)
def eTrack (e : Entry) : Nat := entryFld e 9 0 24
def eAct (e : Entry) : Nat := entryFld e 10 31 1
def eHead (e : Entry) : Nat := entryFld e 10 26 5
def eZone (e : Entry) : Nat := entryFld e 10 20 6
def eWedge (e : Entry) : Nat := entryFld e 10 8 12
def eSector (e : Entry) : Nat := entryFld e 11 16 16
def eSectors (e : Entry) : Nat := entryFld e 11 0 16
def eDstPaddr (e : Entry) : Nat := entryWord e 9 + fieldAt 32 (entryFld e 10 0 8)
def eDstPmask (e : Entry) : Nat := entryFld e 10 12 4
def eFeature (e : Entry) : Nat := entryWord e 9

/-! ### Physical addresses (04 Table 4.6) -/

def paChannel (a : Nat) : Nat := fieldOf a 33 7
def paVolume (a : Nat) : Nat := fieldOf a 30 3
def paLun (a : Nat) : Nat := fieldOf a 28 2
def paPlane (a : Nat) : Nat := fieldOf a 26 2
def paBlock (a : Nat) : Nat := fieldOf a 12 14
def paPage (a : Nat) : Nat := fieldOf a 0 12

/-- Die number of an address: channel * 32 + volume * 4 + LUN (08 R170). -/
def paDie (a : Nat) : Nat := fieldOf a 28 12

/-- Channel of a die (08 R170). -/
def dieChannel (d : Nat) : Nat := d / 32
/-- Volume of a die (08 R170). -/
def dieVolume (d : Nat) : Nat := d / 4 % 8
/-- LUN of a die (08 R170). -/
def dieLun (d : Nat) : Nat := d % 4
/-- Rail group of a channel (01 R9). -/
def chanGroup (c : Nat) : Nat := c / 16
/-- Rail group of a die (01 R9). -/
def dieGroup (d : Nat) : Nat := d / 512
/-- Burin of a channel (01 R9). -/
def chanBur (c : Nat) : Nat := c / 2

/-- Planes of a mask, ascending. -/
def planesOf (m : Nat) : List Nat := (List.range 4).filter fun p => bitAt m p

/-! ### Opcodes (04 Table 4.7) -/

def opRead : Nat := 0x01
def opReadMp : Nat := 0x02
def opProgram : Nat := 0x08
def opErase : Nat := 0x0C
def opDestage : Nat := 0x10
def opStage : Nat := 0x11
def opCopy : Nat := 0x18
def opFence : Nat := 0x20
def opNop : Nat := 0x21
def opCensus : Nat := 0x28
def opCalibrate : Nat := 0x29
def opFeatureGet : Nat := 0x30
def opFeatureSet : Nat := 0x31
def opRaw : Nat := 0x3F

/-- The opcodes of Table 4.7. -/
def knownOpcode (o : Nat) : Bool :=
  [opRead, opReadMp, opProgram, opErase, opDestage, opStage, opCopy, opFence, opNop, opCensus, opCalibrate,
   opFeatureGet, opFeatureSet, opRaw].contains o

/-- The opcodes that run a ladder (04, after Table 4.4). -/
def ladderOpcode (o : Nat) : Bool := [opRead, opReadMp, opDestage, opCopy].contains o

/-- The opcodes that may carry SLC_MODE (04 Table 4.4). -/
def slcOpcode (o : Nat) : Bool := [opRead, opReadMp, opProgram, opErase, opStage, opCopy].contains o

/-- The planes an entry works on: the one of its address, or those of PMASK for a multi-plane opcode (04 R91). -/
def ePlanes (e : Entry) : Nat :=
  if ePmask e ≠ 0 then ePmask e else 2 ^ paPlane (ePaddr e)

/-- Classes (04 Table 4.4). -/
def clsNone : Nat := 0
def clsStrict : Nat := 1
def clsStream : Nat := 2
def clsEarly : Nat := 3

/-! ### Lists of units -/

/-- The eight words of a 32-byte unit. -/
def unitWords (bytes : List Byte) : List Word32 := (List.range 8).map fun n => leWord bytes n

/-- All words of a byte string. -/
def wordsOf (bytes : List Byte) : List Word32 := (List.range (bytes.length / 4)).map fun n => leWord bytes n

/-- Split of a byte string into 32-byte units. -/
def unitsOf : Nat → List Byte → List (List Word32)
  | 0, _ => []
  | n + 1, b => unitWords (b.take 32) :: unitsOf n (b.drop 32)

end Sys2Proof.Machine
end

