-- ==== Sys2Proof/Machine/Profiles.lean ====
section
/-!
DEFINITION. Die profiles (08 R179, R180, Table 8.6), the roster entry of a die (14 R333, R334) and the figures that
follow from them.
-/

namespace Sys2Proof.Machine

/-- Word n of profile p (08 R179). -/
def profWord (p n : Nat) (s : State) : Nat := winNat (0x610000 + p * 256 + 4 * n) 4 s

/-- A field of a profile word. -/
def profFld (p n lo w : Nat) (s : State) : Nat := fieldOf (profWord p n s) lo w

/-- 08 Table 8.6. -/
def pfCell (p : Nat) (s : State) : Nat := profFld p 0 30 2 s
def pfPlanes (p : Nat) (s : State) : Nat := profFld p 0 28 2 s + 1
/-- Read levels: 1, 3, 7 or 15. -/
def pfLevels (p : Nat) (s : State) : Nat := 2 ^ (profFld p 0 26 2 s + 1) - 1
def pfCodeB (p : Nat) (s : State) : Bool := bitAt (profWord p 0 s) 25
def pfVolSel (p : Nat) (s : State) : Bool := bitAt (profWord p 0 s) 24
def pfMpRead (p : Nat) (s : State) : Bool := bitAt (profWord p 0 s) 23
/-- Pages per program unit. -/
def pfUnit (p : Nat) (s : State) : Nat := profFld p 0 21 2 s + 1
def pfPairRule (p : Nat) (s : State) : Nat := profFld p 0 19 2 s
def pfPairDist (p : Nat) (s : State) : Nat := profFld p 0 11 8 s
def pfRdyBit (p : Nat) (s : State) : Nat := profFld p 0 8 3 s
def pfSuspBit (p : Nat) (s : State) : Nat := profFld p 0 5 3 s
def pfFailBit (p : Nat) (s : State) : Nat := profFld p 0 2 3 s
def pfBlocks (p : Nat) (s : State) : Nat := profFld p 1 16 14 s
def pfPages (p : Nat) (s : State) : Nat := profFld p 1 0 12 s
def pfSpare (p : Nat) (s : State) : Nat := profFld p 2 16 16 s
def pfData (p : Nat) (s : State) : Nat := profFld p 2 0 16 s
/-- Array times in cc. -/
def pfTrMax (p : Nat) (s : State) : Nat := nsCc (100 * profFld p 3 16 16 s)
def pfTrTyp (p : Nat) (s : State) : Nat := nsCc (100 * profFld p 3 0 16 s)
def pfProgMax (p : Nat) (s : State) : Nat := nsCc (100 * profFld p 4 16 16 s)
def pfProgTyp (p : Nat) (s : State) : Nat := nsCc (100 * profFld p 4 0 16 s)
def pfEraseMax (p : Nat) (s : State) : Nat := usCc (profFld p 5 16 16 s)
def pfEraseTyp (p : Nat) (s : State) : Nat := usCc (profFld p 5 0 16 s)
def pfRstMax (p : Nat) (s : State) : Nat := usCc (profFld p 6 16 16 s)
def pfSusMax (p : Nat) (s : State) : Nat := nsCc (100 * profFld p 6 0 16 s)
def pfCostRow (p : Nat) (s : State) : Nat := profFld p 7 16 16 s
def pfPollInt (p : Nat) (s : State) : Nat := nsCc (10 * profFld p 7 0 16 s)
def pfSlcPrefix (p : Nat) (s : State) : Nat := profFld p 8 24 8 s
def pfResumeOp (p : Nat) (s : State) : Nat := profFld p 8 16 8 s
def pfSuspOp (p : Nat) (s : State) : Nat := profFld p 8 8 8 s
def pfFaIface (p : Nat) (s : State) : Nat := profFld p 9 24 8 s
def pfFaOdt (p : Nat) (s : State) : Nat := profFld p 9 16 8 s
def pfFaLevel (p : Nat) (s : State) : Nat := profFld p 9 8 8 s
def pfFaTemp (p : Nat) (s : State) : Nat := profFld p 9 0 8 s
def pfTrainRd (p : Nat) (s : State) : Nat := profFld p 10 24 8 s
def pfTrainWr (p : Nat) (s : State) : Nat := profFld p 10 16 8 s
def pfIdMask (p : Nat) (s : State) : Nat := profWord p 11 s

/-- Pages of a block in SLC mode, W = PAGES div U (04 R91, 11 R255). -/
def pfWordlines (p : Nat) (s : State) : Nat := pfPages p s / pfUnit p s

/-- Words 12 to 63 are zero (08 R179). -/
def profTailZero (p : Nat) (s : State) : Bool := (List.range 52).all fun i => decide (profWord p (12 + i) s = 0)

/-- A profile is valid (08 R180): no reserved encoding (PAIR_RULE 2 and 3), no reserved bit or word set, no zero in
BLOCKS, PAGES, DATA, a typical time or POLL_INT; and DATA and SPARE as 10 R228 asks. -/
def profValid (p : Nat) (s : State) : Bool :=
  decide (pfPairRule p s < 2)
  && decide (profFld p 0 0 2 s = 0)
  && decide (profFld p 1 30 2 s = 0) && decide (profFld p 1 12 4 s = 0)
  && decide (profFld p 8 0 8 s = 0)
  && decide (profFld p 10 0 16 s = 0)
  && profTailZero p s
  && decide (pfBlocks p s ≠ 0) && decide (pfPages p s ≠ 0) && decide (pfData p s ≠ 0)
  && decide (profFld p 3 0 16 s ≠ 0) && decide (profFld p 4 0 16 s ≠ 0) && decide (profFld p 5 0 16 s ≠ 0)
  && decide (profFld p 7 0 16 s ≠ 0)
  && decide (pfData p s = 16384) && decide ((if pfCodeB p s then 2688 else 2176) ≤ pfSpare p s)

/-- Profile number of a die: the one that the roster assigns to it (14 R333); P0 for the boot die while BOOT_FETCH reads
it (09 R222). -/
def dieProf (d : Nat) (s : State) : Nat := if decide (d = 0) && bootRuns s then 0 else (rosterOf d s).profile

/-- The die has a valid roster entry with a valid profile; without either it behaves as a die without a roster entry
(08 R180, 14 R334). -/
def dieKnown (d : Nat) (s : State) : Bool := (rosterOf d s).valid && profValid (dieProf d s) s

/-- An entry works on a die in SLC mode: its SLC_MODE is 1 and the die's profile names an SLC prefix; without a prefix
the XF128 accesses the block in its native cell mode (08 R181). -/
def slcOn (e : Entry) (d : Nat) (s : State) : Bool := eSlc e && decide (pfSlcPrefix (dieProf d s) s ≠ 0)

/-- The same on the die of its PADDR. -/
def entrySlc (e : Entry) (s : State) : Bool := slcOn e (paDie (ePaddr e)) s

/-- Bytes of a codeword on the pads: Code A or Code B (10 Table 10.1). -/
def codewordBytes (codeB : Bool) : Nat := if codeB then 4768 else 4640

/-- Granules of 32 bytes that a codeword takes in staging: 145 or 149 (10 R248). -/
def cwGranules (codeB : Bool) : Nat := codewordBytes codeB / 32

end Sys2Proof.Machine
end

