-- ==== Sys2Proof/Machine/Fabric.lean ====
section
/-!
DEFINITION. The fabric master ports (02 R31 to R39): requests wait in order, are put while credits and tickets last,
and leave with their response.
-/

namespace Sys2Proof.Machine

/-! ### Requests -/

/-- Beats of 64 bytes that cover len bytes from an address on (02 R33). -/
def beatsFor (addr len : Nat) : Nat := ceilDiv (addr % 64 + len) 64

/-- Pieces of a transfer that do not cross a 4 KiB block (02 R33): address and length of each. -/
def fabPieces : Nat → Nat → Nat → List (Nat × Nat)
  | 0, _, _ => []
  | f + 1, addr, len =>
    if len = 0 then []
    else
      let n := min len (4096 - addr % 4096)
      (addr, n) :: fabPieces f (addr + n) (len - n)

/-- Most pieces that len bytes can need. -/
def pieceFuel (len : Nat) : Nat := len / 4096 + 2

/-- The lowest ticket from lo on, within n, that no outstanding request holds (02 R34). -/
def freeTicket {α : Type} (m : SMap (Option α)) : Nat → Nat → Option Nat
  | 0, _ => none
  | n + 1, lo =>
    match SMap.get (fun _ => none) m lo with
    | none => some lo
    | some _ => freeTicket m n (lo + 1)

/-- Reads without a request put: default of the outstanding maps. -/
def noReq {α : Type} (_ : Nat) : Option α := none

/-- The RQ flit of a read: its address is that of a 64-byte beat, or of a 32-byte half for a 32-byte poll (02 R33,
Table 2.6). -/
def rqFlitOf (t : Nat) (q : RdReq) : Flit :=
  let poll := match q.purpose with
    | .poll _ _ => decide (q.len = 32)
    | _ => false
  { tkt := t, addr := if poll then q.addr / 32 * 32 else q.addr / 64 * 64,
    cnt := BitVec.ofNat 6 (beatsFor q.addr q.len), kind := q.kind }

/-- The WQ flit of a write (02 R33, Table 2.6). -/
def wqFlitOf (t : Nat) (q : WrReq) : Flit :=
  { tkt := t, addr := q.addr / 64 * 64, cnt := BitVec.ofNat 6 (beatsFor q.addr q.bytes.length), kind := q.kind }

/-- Beat k of a write's payload: wd_data and wd_be (02 R36, Table 2.6): the bytes from the write's first byte on, in
their places of the beat, and the strobes of those bytes. -/
def wdBeat (q : WrReq) (k : Nat) : BitVec 512 × BitVec 64 :=
  let padded := List.replicate (q.addr % 64) 0 ++ q.bytes
  let here := (padded.drop (64 * k)).take 64
  let first := if k = 0 then q.addr % 64 else 0
  (BitVec.ofNat 512 (leNat here), BitVec.ofNat 64 (2 ^ here.length - 2 ^ first))

/-- One read request is put when a credit and a ticket of 0 to 255 are there (02 R31, R34). -/
def putRead (f : FabPort) : Option FabPort :=
  match f.rdWait, freeTicket f.reads 256 0 with
  | q :: r, some t =>
    if f.rq = 0 then none
    else some { f with rq := f.rq - 1, rdWait := r, reads := SMap.put noReq f.reads t (some q),
                       rqFlit := some (rqFlitOf t q) }
  | _, _ => none

/-- One write request is put when a credit and a ticket of 256 to 383 are there; its payload flits then wait in order
(02 R31, R34, R36). -/
def putWrite (f : FabPort) : Option FabPort :=
  match f.wrWait, freeTicket f.writes 128 256 with
  | q :: r, some t =>
    if f.wq = 0 then none
    else some { f with wq := f.wq - 1, wrWait := r, writes := SMap.put noReq f.writes t (some q),
                       wdLeft := f.wdLeft ++ [(t, beatsFor q.addr q.bytes.length)],
                       wqFlit := some (wqFlitOf t q) }
  | _, _ => none

/-- Payload flits are put as long as WD credits last, oldest write first (02 R31, R36). -/
def putPayload : Nat → List (Nat × Nat) → Nat × List (Nat × Nat)
  | c, [] => (c, [])
  | c, (t, n) :: r => if n ≤ c then putPayload (c - n) r else (0, (t, n - c) :: r)

/-- Repetition while a put succeeds. -/
def putAll (f : FabPort → Option FabPort) : Nat → FabPort → FabPort
  | 0, p => p
  | n + 1, p =>
    match f p with
    | some q => putAll f n q
    | none => p

/-- Everything that a port can put now: nothing before it is live and its idle input has been seen (02 R39). -/
def drainPort (f : FabPort) : FabPort :=
  if f.live && f.begun then
    let f := putAll putRead f.rdWait.length f
    let f := putAll putWrite f.wrWait.length f
    let w := putPayload f.wd f.wdLeft
    { f with wd := w.1, wdLeft := w.2 }
  else f

/-- The same on port p of the block. -/
def drain (p : Nat) (s : State) : State := modFab p drainPort s

/-- A read joins the requests of port p (02 R33). -/
def fabRead (p : Nat) (q : RdReq) (s : State) : State :=
  drain p (modFab p (fun f => { f with rdWait := f.rdWait ++ [q] }) s)

/-- A read of len bytes, split at 4 KiB blocks; each piece's purpose knows its offset (02 R33). -/
def fabReads (p addr len kind : Nat) (mk : Nat → ReadFor) (s : State) : State :=
  (fabPieces (pieceFuel len) addr len).foldl
    (fun s q => fabRead p { addr := q.1, len := q.2, kind := kind, purpose := mk (q.1 - addr) } s) s

/-- A write joins the requests of port p (02 R33). -/
def fabWrite (p : Nat) (q : WrReq) (s : State) : State :=
  drain p (modFab p (fun f => { f with wrWait := f.wrWait ++ [q] }) s)

/-- A write of bytes, split at 4 KiB blocks (02 R33). -/
def fabWrites (p addr : Nat) (bytes : List Byte) (kind : Nat) (why : WriteFor) (s : State) : State :=
  (fabPieces (pieceFuel bytes.length) addr bytes.length).foldl
    (fun s q => fabWrite p { addr := q.1, bytes := (bytes.drop (q.1 - addr)).take q.2, kind := kind, purpose := why } s)
    s

/-- Number of write requests that a write of n bytes takes. -/
def writeCount (addr n : Nat) : Nat := (fabPieces (pieceFuel n) addr n).length

/-- Requests of a port that have not been put and that p names are withdrawn. -/
def withdrawPort (p : WrReq → Bool) (f : FabPort) : FabPort := { f with wrWait := f.wrWait.filter fun q => !p q }

/-! ### Responses -/

/-- The outstanding read that a return answers; none while the port discards returns (02 R39) or no such ticket is
outstanding. -/
def readAt (p : PortId) (tkt : BitVec 9) (s : State) : Option RdReq :=
  if (fabOf p.toNat s).live && (fabOf p.toNat s).begun then
    SMap.get noReq (fabOf p.toNat s).reads tkt.toNat
  else none

/-- The outstanding write that an acknowledgement answers, once all its payload has been put. -/
def writeAt (p : PortId) (tkt : BitVec 9) (s : State) : Option WrReq :=
  if (fabOf p.toNat s).live && (fabOf p.toNat s).begun
      && (fabOf p.toNat s).wdLeft.all (fun e => !decide (e.1 = tkt.toNat)) then
    SMap.get noReq (fabOf p.toNat s).writes tkt.toNat
  else none

/-- The read's ticket is free again (02 R34). -/
def readOver (p : PortId) (tkt : BitVec 9) (s : State) : State :=
  drain p.toNat (modFab p.toNat (fun f => { f with reads := SMap.put noReq f.reads tkt.toNat none }) s)

/-- The write's ticket is free again (02 R34). -/
def writeOver (p : PortId) (tkt : BitVec 9) (s : State) : State :=
  drain p.toNat (modFab p.toNat (fun f => { f with writes := SMap.put noReq f.writes tkt.toNat none }) s)

/-- The bytes wanted by a read, out of its beats: a request begins at the 64-byte beat that holds its first byte
(02 R33). -/
def readBytes (q : RdReq) (beats : List (BitVec 512)) : List Byte :=
  ((beatsBytes beats).drop (q.addr % 64)).take q.len

/-- The number of beats answers the request (02 R35). -/
def beatsMatch (q : RdReq) (beats : List (BitVec 512)) : Bool := decide (beats.length = beatsFor q.addr q.len)

/-- Any status other than 0b00 is a non-OKAY response (02 Table 2.7). -/
def statOk (stat : BitVec 2) : Bool := decide (stat = 0)

end Sys2Proof.Machine
end

