-- ==== Sys2Proof/Machine/Tags.lean ====
section
/-!
DEFINITION. The operation table (05 R113 to R115): allocation and release of tags, the outcome of a tag as its
counters see it (05 R128), and the early-acknowledge log (05 R127).
-/

namespace Sys2Proof.Machine

/-- Tags in state FREE (05 TAGS_FREE). -/
def tagsFree (s : State) : Nat := (65536 - s.ops.fresh) + s.ops.freed.length

/-- The tag that has been free longest (05 R114): those never given out since reset first, ascending, then the freed
ones in the order they were freed. -/
def nextTag (s : State) : Option Nat :=
  if s.ops.fresh < 65536 then some s.ops.fresh else s.ops.freed.head?

/-- That tag leaves the free list (05 R114); TAGS_LOW follows (05 R129). -/
def takeTag (s : State) : State :=
  let o := if s.ops.fresh < 65536 then { s.ops with fresh := s.ops.fresh + 1 }
           else { s.ops with freed := s.ops.freed.tail }
  let s := { s with ops := o }
  { s with ops.low := min s.ops.low (tagsFree s) }

/-- A tag is appended to the free list (05 Table 5.2). -/
def freeTag (t : Nat) (s : State) : State :=
  let s := setTag t {} s
  { s with ops.freed := s.ops.freed ++ [t] }

/-- Release of several tags, in order. -/
def freeTags (ts : List Nat) (s : State) : State := ts.foldl (fun s t => freeTag t s) s

/-- The tags that are not FREE, ascending; keys from 65,536 are programs that run without a tag (05 R127). -/
def liveTags (s : State) : List Nat := (s.ops.tags.map (·.1)).filter (· < 65536)

/-- The tag is live and not committed. -/
def tagOpen (t : Nat) (s : State) : Bool :=
  decide ((tagOf t s).state ≠ .free) && decide ((tagOf t s).state ≠ .committed)

/-- A tag of function f stands in the table (05 Table 5.1). -/
def fnHasTag (f : Nat) (s : State) : Bool := s.ops.tags.any fun e => decide (e.1 < 65536) && decide (e.2.fn = f)

/-! ### Status codes (05 Table 5.5) -/

def stOk : Nat := 0x00
def stRecovered : Nat := 0x01
def stEarly : Nat := 0x02
def stInfeasible : Nat := 0x10
def stRange : Nat := 0x11
def stMissed : Nat := 0x12
def stUncorrectable : Nat := 0x20
def stErased : Nat := 0x21
def stEcho : Nat := 0x22
def stProgramFail : Nat := 0x23
def stEraseFail : Nat := 0x24
def stQuarantined : Nat := 0x30
def stBlockBad : Nat := 0x31
def stPermission : Nat := 0x32
def stChannelLost : Nat := 0x33
def stFabric : Nat := 0x40
def stOverflow : Nat := 0x41
def stUnderrun : Nat := 0x42
def stFnReset : Nat := 0x50
def stPowerFail : Nat := 0x51
def stConflict : Nat := 0x60

/-- A status that may share a batch completion (05 R125, 04 R96). -/
def statusGood (st : Nat) : Bool := decide (st ≤ 2)

/-! ### Accounting (05 R128, Table 5.10) -/

/-- Per-function counter of a status (05 R128). -/
def fnaIndex (st : Nat) : Option Nat :=
  if st = stMissed then some 0
  else if st = stInfeasible then some 1
  else if st = stRange then some 2
  else if st = stUncorrectable then some 3
  else if st = stPermission then some 4
  else if st = stProgramFail ∨ st = stEraseFail then some 5
  else if st = stRecovered then some 6
  else if st ≤ 2 then none
  else some 7

/-- Page counter of a status that a member completes with: refusals at checks 1 to 5 count apart from failures after
admission (05 Table 5.10). -/
def opsCounter (st : Nat) (refused : Bool) : Nat :=
  if st = stInfeasible then 2
  else if st = stRange then 3
  else if refused then 4
  else if st = stMissed then 5
  else if st = stOk then 6
  else if st = stRecovered then 7
  else if st = stEarly then 8
  else 9

/-- Counter k of function f (05 FNA_CNT). -/
def fnaOf (f k : Nat) (s : State) : Nat := SMap.get (fun _ => 0) s.ops.fna (f * 8 + k)

/-- FNA_CNT takes a value. -/
def setFna (f k v : Nat) (s : State) : State := { s with ops.fna := SMap.put (fun _ => 0) s.ops.fna (f * 8 + k) v }

/-- Its place among the counts of OPS, behind the page counters (03 R74). -/
def fnaCount (f k : Nat) : Nat := 128 + f * 8 + k

/-- Software writes FNA_CNT; an outcome counted in the same cc wins (03 R74). -/
def fnaWrite (f k v : Nat) (s : State) : State := swCount .ops (fnaCount f k) (fnaOf f k s) (setFna f k v) s

/-- FNA_HIT is set when counter 0 of a function reaches a threshold that is not 0, unless it holds one already
(05 R128). -/
def fnaHit (f : Nat) (s : State) : State :=
  let th := regFld .ops oOpsFnaThresh 0 16 s
  if th ≠ 0 ∧ th ≤ fnaOf f 0 s ∧ bitAt (regOf .ops oOpsFnaHit s) 31 = false then
    hwBit .ops oOpsFnaHit 31 (setReg .ops oOpsFnaHit (2 ^ 31 + f) s)
  else s

/-- One outcome of function f (05 R128), counted when its completion is written. -/
def countOutcome (f st : Nat) (refused : Bool) (s : State) : State :=
  let s := bump .ops (opsCounter st refused) s
  match fnaIndex st with
  | none => s
  | some k =>
    if frozen .ops s then s
    else
      let n := baseOf .ops (fnaCount f k) (fnaOf f k s) s
      let s := markCount .ops (fnaCount f k) (setFna f k (satTo 0xFFFFFFFF (n + 1)) s)
      if k = 0 then fnaHit f s else s

/-! ### OK_EARLY programs (05 R127) -/

/-- A record of EARLY_LOG; a record beyond 16 is dropped with error EARLY_LOG_OVERFLOW (05 R127, Table 5.10). -/
def earlyFail (st fn paddr : Nat) (s : State) : State :=
  if s.ops.earlyLog.length < 16 then
    { s with ops.earlyLog := s.ops.earlyLog ++ [{ status := st, fn := fn, paddr := paddr }] }
  else raiseErr .ops 0x0100 (fieldAt 8 st + fn) s

/-! ### Early programs as rows -/

/-- A program that committed OK_EARLY goes on under a key above the tags (05 R127). -/
def isEarlyKey (t : Nat) : Bool := decide (65536 ≤ t)

end Sys2Proof.Machine
end

