-- ==== Sys2Proof/Machine/Zones.lean ====
section
/-!
DEFINITION. Zone tables of the disk stream ports (12 R281 to R283) and the fields of a servo sample (02 Table 2.9, 12
R285).
-/

namespace Sys2Proof.Machine

/-! ### Servo samples -/

def posWedge (p : BitVec 44) : Nat := fieldOf p.toNat 0 12
def posGray (p : BitVec 44) : Nat := fieldOf p.toNat 12 24
def posHead (p : BitVec 44) : Nat := fieldOf p.toNat 36 5
def posValid (p : BitVec 44) : Bool := bitAt p.toNat 41
def posDefect (p : BitVec 44) : Bool := bitAt p.toNat 42
def posStale (p : BitVec 44) : Bool := bitAt p.toNat 43

/-- A usable sample (06 R136). -/
def posUsable (p : BitVec 44) : Bool := posValid p && !posStale p && !posDefect p

/-- Binary value of a Gray code whose bits from bit n - 1 down are added to a value whose last bit is given
(12 R285). -/
def grayBits (g : Nat) : Nat → Bool → Nat → Nat
  | 0, _, acc => acc
  | n + 1, last, acc =>
    let b := xor last (bitAt g n)
    grayBits g n b (2 * acc + bit b)

/-- Binary track of a sample (12 R285). -/
def posTrack (p : BitVec 44) : Nat := grayBits (posGray p) 24 false 0

/-! ### Descriptors (12 R281, R282) -/

/-- Word n of the descriptor of port a, head h, zone z. -/
def zoneWord (a h z n : Nat) (s : State) : Nat := winNat (0x600000 + a * 0x8000 + (h * 48 + z) * 16 + 4 * n) 4 s

def zValid (a h z : Nat) (s : State) : Bool := bitAt (zoneWord a h z 0 s) 31
def zPlen (a h z : Nat) (s : State) : Nat := fieldOf (zoneWord a h z 0 s) 24 4 + 1
def zSize (a h z : Nat) (s : State) : Nat := 512 * 2 ^ fieldOf (zoneWord a h z 0 s) 16 2
def zPattern (a h z : Nat) (s : State) : Nat := fieldOf (zoneWord a h z 0 s) 0 7
def zSpp (a h z : Nat) (s : State) : Nat := fieldOf (zoneWord a h z 1 s) 16 16
def zSpt (a h z : Nat) (s : State) : Nat := fieldOf (zoneWord a h z 1 s) 0 16
def zFirst (a h z : Nat) (s : State) : Nat := fieldOf (zoneWord a h z 2 s) 0 24
def zLast (a h z : Nat) (s : State) : Nat := fieldOf (zoneWord a h z 3 s) 0 24

/-- Entry i of a pattern. -/
def patEntry (a p i : Nat) (s : State) : Nat := winNat (0x606000 + a * 0x8000 + p * 64 + i * 4) 4 s

/-- COUNT and SPLIT in bytes of wedge position i of a zone. -/
def patCount (a h z i : Nat) (s : State) : Nat := fieldOf (patEntry a (zPattern a h z s) i s) 28 4
def patSplit (a h z i : Nat) (s : State) : Nat := 8 * fieldOf (patEntry a (zPattern a h z s) i s) 0 12

/-- WEDGES in force (06). -/
def wedges (s : State) : Nat := regTickFld .tmb oTmbConfig 0 13 s

/-- first(i): sectors that start before position i. -/
def patFirst (a h z : Nat) : Nat → State → Nat
  | 0, _ => 0
  | i + 1, s => patFirst a h z i s + patCount a h z i s

/-- A descriptor is usable (12 R282). -/
def zUsable (a h z : Nat) (s : State) : Bool :=
  zValid a h z s && decide (1 ≤ zSpp a h z s) && decide (wedges s % zPlen a h z s = 0)
  && decide (patFirst a h z (zPlen a h z s) s = zSpp a h z s)
  && decide (zSpt a h z s * zPlen a h z s = zSpp a h z s * wedges s)
  && decide (zFirst a h z s ≤ zLast a h z s)

/-! ### Where a sector lies (12 R282) -/

/-- Position of the pattern in which sector j of a repetition starts. -/
def startPos (a h z j : Nat) (s : State) : Nat :=
  (((List.range (zPlen a h z s)).find? fun i => decide (j < patFirst a h z (i + 1) s)).getD 0)

/-- Wedge in which sector n of a track starts. -/
def startWedge (a h z n : Nat) (s : State) : Nat :=
  let spp := max 1 (zSpp a h z s)
  n / spp * zPlen a h z s + startPos a h z (n % spp) s

/-- Bytes of sector n in its start wedge: all of it unless it is the last to start there and SPLIT is not 0. -/
def startBytes (a h z n : Nat) (s : State) : Nat :=
  let j := n % max 1 (zSpp a h z s)
  let i := startPos a h z j s
  if j + 1 = patFirst a h z (i + 1) s ∧ patSplit a h z i s ≠ 0 then min (patSplit a h z i s) (zSize a h z s)
  else zSize a h z s

/-- Bytes of a sector in a following wedge, of `left` that remain. -/
def contBytes (a h z w left : Nat) (s : State) : Nat :=
  let i := w % zPlen a h z s
  if patCount a h z i s = 0 ∧ patSplit a h z i s ≠ 0 then min (patSplit a h z i s) left else left

/-- A wedge carries bytes of sector n, of which `left` remain at wedge cur. -/
def wedgeCarries (a h z n w : Nat) (s : State) : Nat → Nat → Nat → Bool
  | 0, _, _ => false
  | f + 1, cur, left =>
    if left = 0 then false
    else if cur % max 1 (wedges s) = w then true
    else wedgeCarries a h z n w s f (cur + 1) (left - contBytes a h z cur left s)

/-- The fields of Table 4.8 agree with the descriptor (12 R283; cause BAD_FIELD). -/
def diskFieldsOk (e : Entry) (s : State) : Bool :=
  let a := eAct e
  let h := eHead e
  let z := eZone e
  let d := paDie (ePaddr e)
  decide (z < 48) && zUsable a h z s
  && decide (zFirst a h z s ≤ eTrack e) && decide (eTrack e ≤ zLast a h z s)
  && decide (startWedge a h z (eSector e) s = eWedge e)
  && decide (eSector e + eSectors e ≤ zSpt a h z s)
  && (if eOpcode e = opDestage then decide (eSectors e * zSize a h z s = (eCwLast e - eCwFirst e + 1) * 4096)
      else decide (eSectors e * zSize a h z s
        = (planesOf (ePmask e)).length * (if eSlc e then 1 else pfUnit (dieProf d s) s) * 16384))

end Sys2Proof.Machine
end

