-- ==== Sys2Proof/Machine/Rings.lean ====
section
/-!
DEFINITION. Ring contexts, the poller and the checks of entries (04 R80 to R93, R101 to R109).
-/

namespace Sys2Proof.Machine

/-! ### Places in fabric memory (04 R80, R81) -/

/-- Address of the context of ring r. -/
def ctxAddr (r : Nat) (s : State) : Nat := regOf .rif oRifCtxBase s + r * 64

/-- Units of a ring. -/
def ringUnits (g : Ring) : Nat := 2 ^ g.size

/-- Address of a submission unit (32 bytes). -/
def unitAddr (g : Ring) (i : Nat) : Nat := g.base + i * 32

/-- Address of a completion unit (16 bytes). -/
def cplAddr (g : Ring) (i : Nat) : Nat := g.base + i * 16

/-- Port of ring traffic of a function (01 R18). -/
def fnPort (f : Nat) : Nat := f % 4

/-! ### Words 8 and 9 (04 Table 4.1, R83) -/

/-- STATE code. -/
def ringStateCode : RingState → Nat
  | .idle => 0
  | .active => 1
  | .error => 2
  | .fnResetting => 3

/-- Word 8. -/
def ctxWord8 (g : Ring) : Nat :=
  fieldAt 30 (ringStateCode g.state) + fieldAt 16 g.curE + fieldAt 15 (bit g.phase) + g.index

/-- Word 9. -/
def ctxWord9 (g : Ring) : Nat := fieldAt 24 g.errCause + g.errIndex

/-- Words 8 and 9 of ring r are written back, showing what has been consumed; RING_ERROR with a cause may wait for the
response (04 R83); counter 6. -/
def writeBack (r : Nat) (report : Option Nat) (s : State) : State :=
  let g := ringOf r s
  let s := setRing r { g with dirty := false, wbOut := g.wbOut ++ [(g.life, g.consumed)] } s
  let s := bump .rif 6 s
  fabWrite (fnPort g.fn)
    { addr := ctxAddr r s + 32, bytes := leBytes 4 (ctxWord8 g) ++ leBytes 4 (ctxWord9 g), kind := 1,
      purpose := .writeback r g.life g.consumed report } s

/-- A write-back is owed unless one that shows the consumption of `need` units has its response or is on its way, or
the ring's write-back has failed (04 R83, R109). -/
def oweBack (r need : Nat) (s : State) : State :=
  let g := ringOf r s
  if g.wbFailed || decide (need ≤ g.shown) || g.wbOut.any (fun c => decide (c.1 = g.life) && decide (need ≤ c.2)) then s
  else writeBack r none s

/-! ### The context cache (04 R84) -/

/-- Contexts in the cache. -/
def cachedRings (s : State) : List (Nat × Ring) := s.rif.rings.filter fun e => e.2.cached

/-- The context has been used: it is the most recent. -/
def touchRing (r : Nat) (s : State) : State :=
  let s := modRing r (fun g => { g with lastUse := s.rif.useSeq }) s
  { s with rif.useSeq := s.rif.useSeq + 1 }

/-- A context that may leave the cache: not that of an express ring in ACTIVE or ERROR. -/
def evictable (g : Ring) : Bool := !(g.express && (decide (g.state = .active) || decide (g.state = .error)))

/-- The least recently used context that may leave. -/
def lruRing (s : State) : Option Nat :=
  (((cachedRings s).filter fun e => evictable e.2).foldl
    (fun acc e => match acc with
      | none => some e
      | some b => if e.2.lastUse < b.2.lastUse then some e else some b) none).map (·.1)

/-- A context leaves the cache, written back if word 8 or 9 has changed (04 R83). -/
def evictRing (r : Nat) (s : State) : State :=
  let s := if (ringOf r s).dirty then writeBack r none s else s
  modRing r (fun g => { g with cached := false }) s

/-- The context enters the cache; with 8,192 contexts in it another leaves first. -/
def cacheRing (r : Nat) (s : State) : State :=
  let s := if (ringOf r s).cached then s
    else if 8192 ≤ (cachedRings s).length then
      match lruRing s with
      | some v => evictRing v s
      | none => s
    else s
  touchRing r (modRing r (fun g => { g with cached := true }) s)

/-- A ring whose context is not cached is read whole first (04 R84); counter 5, also for the read of an
activation (DESIGN CHOICE, log entry 36). -/
def fetchContext (r : Nat) (act : Bool) (s : State) : State :=
  if (ringOf r s).ctxRead then s
  else
    let p := if act then 0 else fnPort (ringOf r s).fn
    fabRead p { addr := ctxAddr r s, len := 64, kind := 1, purpose := .context r act }
      (bump .rif 5 (modRing r (fun g => { g with ctxRead := true }) s))

/-! ### Batches and due completions (04 R94 to R96) -/

/-- A completion becomes due on the completion ring of submission ring r (04 R95, R96); the write-back that it needs
is owed (04 R83). A completion ring that is not active any more takes no completion. -/
def dueCpl (r : Nat) (c : Cpl) (s : State) : State :=
  let q := (ringOf r s).cqId
  let s := modRing q (fun g => { g with cplDue := g.cplDue ++ [c] }) s
  oweBack r c.need s

/-- A member's own completion (04 R95). -/
def soloCpl (r : Nat) (m : Member) (o : Nat × Word32 × Nat × Nat) : Cpl :=
  { batch := false, status := o.1, count := 1, cookie := m.cookie, frame := o.2.1, tag := m.tag, rung := o.2.2.1,
    maxbits := o.2.2.2, covers := [m.tag], ring := r, need := m.seq }

/-- The members of a batch that ended well, oldest first. -/
def goodMembers (b : Batch) : List (Member × (Nat × Word32 × Nat × Nat)) :=
  b.members.filterMap fun m => match m.done with
    | some o => if statusGood o.1 then some (m, o) else none
    | none => none

/-- Largest number of a list. -/
def maxOf (l : List Nat) : Nat := l.foldl max 0

/-- The completion of a batch whose members have all committed, if one ended well (04 R96). -/
def batchCpl (r : Nat) (b : Batch) : Option Cpl :=
  match (goodMembers b).getLast? with
  | none => none
  | some (m, o) =>
    let g := goodMembers b
    some { batch := true, status := maxOf (g.map fun x => x.2.1), count := g.length, cookie := m.cookie,
           frame := o.2.1, tag := m.tag, rung := maxOf (g.map fun x => x.2.2.2.1),
           maxbits := maxOf (g.map fun x => x.2.2.2.2), covers := g.map fun x => x.1.tag, ring := r, need := m.seq }

/-- A batch is closed and every member has reached its commitment point. -/
def batchDone (b : Batch) : Bool := b.closed && b.members.all fun m => m.done.isSome

/-- The batches of ring r that are done leave it, and their completions become due in ring order (04 R96). -/
def settleBatches (r : Nat) (s : State) : State :=
  let bs := (ringOf r s).batches
  let s := modRing r (fun g => { g with batches := bs.filter fun b => !batchDone b }) s
  (bs.filter batchDone).foldl
    (fun s b => match batchCpl r b with
      | some c => dueCpl r c s
      | none => s) s

/-- The last batch is closed (04 R94). -/
def closeLast : List Batch → List Batch
  | [] => []
  | [b] => [{ b with closed := true }]
  | b :: r => b :: closeLast r

/-- The open batch of ring r closes (04 R94). -/
def closeBatch (r : Nat) (s : State) : State :=
  settleBatches r (modRing r (fun g => { g with batches := closeLast g.batches }) s)

/-- A consumed entry joins the open batch, or begins one (04 R94). -/
def joinBatch (m : Member) : List Batch → List Batch
  | [] => [{ members := [m] }]
  | [b] => if b.closed then [b, { members := [m] }] else [{ b with members := b.members ++ [m] }]
  | b :: r => b :: joinBatch m r

/-- Members of the open batch. -/
def openCount (bs : List Batch) : Nat :=
  match bs.getLast? with
  | some b => if b.closed then 0 else b.members.length
  | none => 0

/-- The outcome of a member is recorded (04 R95, R96). -/
def markMember (t : Nat) (o : Nat × Word32 × Nat × Nat) (b : Batch) : Batch :=
  { b with members := b.members.map fun m => if m.tag = t ∧ m.done = none then { m with done := some o } else m }

/-- The member that tag t is in a ring. -/
def findMember (t : Nat) (g : Ring) : Option Member :=
  (g.batches.flatMap (·.members)).find? fun m => decide (m.tag = t) && m.done.isNone

/-- Tag t of ring r has reached its commitment point with status, frame, rung and corrected bits: a failure completes
alone at once (04 R95), and a batch that this finishes completes (04 R96). -/
def memberDone (r t st : Nat) (frame : Word32) (rung bits : Nat) (s : State) : State :=
  match findMember t (ringOf r s) with
  | none => s
  | some m =>
    let o := (st, frame, rung, satTo 255 bits)
    let s := modRing r (fun g => { g with batches := g.batches.map (markMember t o) }) s
    let s := if statusGood st then s else dueCpl r (soloCpl r m o) s
    settleBatches r s

/-! ### Stopping a ring (04 R108, R109) -/

/-- Error RING_ERROR and its event (04 R108). -/
def reportRingError (r cause : Nat) (s : State) : State :=
  raiseErr .rif 0x0100 (fieldAt 24 cause + r) (raiseEvt .rif 1 s)

/-- Polls, fetches, prefetched entries and the offered entry of a ring are dropped; counter 7 counts the prefetched
ones. -/
def dropFetches (r : Nat) (s : State) : State :=
  let g := ringOf r s
  bumpBy .rif 7 g.prefetched.length
    (setRing r { g with due := none, polling := false, partialUnit := none, got := [], offer := none,
                        prefetched := [], pfAwait := 0, pfGot := [], gen := g.gen + 1, fetchHeld := false,
                        pfHeld := none, tagWait := false, recWait := false } s)

/-- An ACTIVE ring goes to ERROR (04 Table 4.2, R108, R109). RING_ERROR is raised once the write-back that shows it
has its response (04 R83), or at once when it stops because a write-back has failed. -/
def stopRing (r cause : Nat) (failed : Bool) (s : State) : State :=
  if (ringOf r s).state = .active then
    let s := dropFetches r s
    let s := modRing r (fun g => { g with state := .error, errCause := cause, errIndex := g.index }) s
    let s := closeBatch r s
    if failed then reportRingError r cause s else writeBack r (some cause) s
  else s

/-- The submission rings that name completion ring q. -/
def feeders (q : Nat) (s : State) : List Nat :=
  (s.rif.rings.filter fun e => !e.2.cq && decide (e.2.cqId = q) && decide (e.2.state = .active)).map (·.1)

/-- A ring stops, and with a completion ring the submission rings that name it (04 Table 4.2); failed tells that its
write-back has failed. -/
def ringFault (r cause : Nat) (failed : Bool) (s : State) : State :=
  let was := decide ((ringOf r s).state = .active) && (ringOf r s).cq
  let s := stopRing r cause failed s
  if was then (feeders r s).foldl (fun s q => stopRing q 0x0E false s) s else s

/-- A malformed entry or a fabric error stops a ring. -/
def ringError (r cause : Nat) (s : State) : State := ringFault r cause false s

/-! ### Intervals (04 R90, R101 to R103) -/

/-- RIF.IDLE_CAP.CAP_E. -/
def idleCap (s : State) : Nat := regFld .rif oRifIdleCap 0 5 s

/-- Interval of a ring in cc: 2^CUR_E stretched, or 2^CAP_E in Doze (04 R102). -/
def ringInterval (e : Nat) (s : State) : Nat :=
  if s.pwr.state = .doze then 2 ^ idleCap s else ceilDiv (2 ^ e * s.rif.stretch) 256

/-- A completion ring is full: its unit to write is the one software reads next, a lap behind (04 R90). -/
def cqFull (g : Ring) : Bool := decide (g.index = (g.head.toNat % 32768)) && !(g.phase == bitAt g.head.toNat 15)

/-- A ring that counts in the poll demand (04 R103). -/
def inDemand (g : Ring) : Bool := decide (g.state = .active) && (!g.cq || cqFull g)

/-- D in units of 2^-24 polls per cc: the sum of 2^(24 - CUR_E) (04 R103). -/
def demandSum (s : State) : Nat :=
  (s.rif.rings.filter fun e => inDemand e.2).foldl (fun a e => a + 2 ^ (24 - e.2.curE)) 0

/-- The recomputation of D: POLL_DEMAND in 1/256 poll per 1,024 cc, rounded down, and POLL_STRETCH, kept whole where
it exceeds its field (04 R103; DESIGN CHOICE, log entry 35). -/
def updateDemand (s : State) : State :=
  let v := demandSum s
  let b := regFld .rif oRifPollBudget 0 10 s
  { s with rif := { s.rif with demand := v / 64,
                               stretch := if b * 16384 < v then ceilDiv v (b * 64) else 256,
                               demandDue := s.cc + 64 } }

/-- D > B at the last recomputation: POLL_STRETCH exceeds 256 exactly then (04 R103, Table 4.13, event 0). -/
def overcommit (s : State) : Bool := decide (256 < s.rif.stretch)

/-- A completion waits on a full ring (04 Table 4.13, event 4). -/
def cqWaits (s : State) : Bool := s.rif.rings.any fun e => e.2.cq && !e.2.cplDue.isEmpty && cqFull e.2

/-! ### Checks of an entry (04 R91, R108, Tables 4.4 to 4.8, 4.10) -/

/-- LEN allowed for an opcode (04 Table 4.7). -/
def lenOk (o len : Nat) : Bool :=
  if o = opRead ∨ o = opReadMp then decide (len ≤ 1)
  else if o = opDestage ∨ o = opStage ∨ o = opCopy ∨ o = opFeatureSet then decide (len = 1)
  else if o = opNop then true
  else decide (len = 0)

/-- CLASS allowed for an opcode (04 Table 4.7). -/
def classOk (o c : Nat) : Bool :=
  if o = opProgram ∨ o = opStage then decide (c = clsNone ∨ c = clsStrict ∨ c = clsEarly)
  else if o = opDestage then decide (c = clsStream)
  else if o = opRead ∨ o = opReadMp ∨ o = opErase ∨ o = opCopy then decide (c = clsNone ∨ c = clsStrict)
  else decide (c = clsNone)

/-- Word n of unit 1 must be zero but for the PHASE copy of word 8 and the fields of Table 4.8. -/
def unit1Reserved (e : Entry) : Bool :=
  let o := eOpcode e
  let rw := o = opRead ∨ o = opReadMp
  let disk := o = opDestage ∨ o = opStage
  decide (entryFld e 8 0 31 = 0)
  && (if rw then decide (entryWord e 9 = 0)
      else if disk then decide (entryFld e 9 24 8 = 0)
      else if o = opCopy ∨ o = opFeatureSet then true else decide (entryWord e 9 = 0))
  && (if rw then true else if disk then decide (entryFld e 10 0 8 = 0)
      else if o = opCopy then decide (entryFld e 10 16 16 = 0) && decide (entryFld e 10 8 4 = 0)
      else decide (entryWord e 10 = 0))
  && (if rw ∨ disk then true else decide (entryWord e 11 = 0))
  && decide (entryWord e 12 = 0) && decide (entryWord e 13 = 0) && decide (entryWord e 14 = 0)
  && decide (entryWord e 15 = 0)

/-- Reserved bits, fields and words are zero, and SKIP, SLC_MODE and CBATCH stand only where allowed (04 Table 4.4,
4.5, 4.7, 4.8; cause RESERVED_NONZERO). -/
def reservedOk (e : Entry) : Bool :=
  let o := eOpcode e
  decide (entryFld e 0 2 6 = 0)
  && (!eSkip e || (decide (o = opNop) && !eCbatch e))
  && (!eSlc e || slcOpcode o)
  && (decide (eClass e = clsNone) || decide (entryFld e 2 16 16 = 0))
  && (if o = opProgram ∨ o = opStage ∨ o = opCopy then true
      else if o = opFence then decide (eOpx e < 4)
      else if o = opFeatureGet ∨ o = opFeatureSet then decide (eOpx e < 256)
      else decide (eOpx e = 0))
  && (if o = opNop ∨ eLen e = 0 then true else unit1Reserved e)

/-- Pages a block has in the mode of the entry (04 R91). -/
def pageLimit (p : Nat) (slc : Bool) (s : State) : Nat := if slc then pfWordlines p s else pfPages p s

/-- An address fits the profile of its die: block, page, plane; a die without a roster entry is not checked
(04 R91). -/
def profileFits (a planes : Nat) (slc page : Bool) (s : State) : Bool :=
  let d := paDie a
  if dieKnown d s then
    let p := dieProf d s
    decide (paBlock a < pfBlocks p s)
    && (!page || decide (paPage a < pageLimit p slc s))
    && (planesOf planes).all fun q => decide (q < pfPlanes p s)
  else true

/-- First page of a program unit in the mode of the entry (04 after Table 4.7). -/
def unitAligned (a : Nat) (slc : Bool) (s : State) : Bool :=
  let d := paDie a
  slc || !dieKnown d s || decide (paPage a % pfUnit (dieProf d s) s = 0)

/-- The codeword range lies in the page of the die's profile: DATA / 4,096 codewords (04 R91, 10 R230). -/
def cwFits (e : Entry) (s : State) : Bool :=
  let d := paDie (ePaddr e)
  !dieKnown d s || decide (eCwLast e < pfData (dieProf d s) s / 4096)

/-- Number of planes of a mask. -/
def planeCount (m : Nat) : Nat := (planesOf m).length

/-- PADDR, PMASK, DST_PADDR, DST_PMASK and the codeword range are those of Table 4.7 and the profile (cause
BAD_ADDRESS). The plane of a COPY's DST_PADDR is 0 as that of its PADDR (DESIGN CHOICE, log entry 131). -/
def addressOk (e : Entry) (s : State) : Bool :=
  let o := eOpcode e
  let a := ePaddr e
  let m := eSlc e
  let cw := decide (eCwFirst e ≤ eCwLast e)
  let cw0 := decide (eCwFirst e = 0) && decide (eCwLast e = 0)
  let cwAll := decide (eCwFirst e = 0) && decide (eCwLast e = 3)
  if o = opRead ∨ o = opDestage then
    decide (ePmask e = 0) && cw && cwFits e s && profileFits a (2 ^ paPlane a) m true s
  else if o = opReadMp then
    decide (ePmask e ≠ 0) && decide (paPlane a = 0) && cw && cwFits e s && profileFits a (ePmask e) m true s
  else if o = opProgram ∨ o = opStage then
    decide (ePmask e ≠ 0) && decide (paPlane a = 0) && cwAll && profileFits a (ePmask e) m true s
    && unitAligned a m s
  else if o = opErase then
    decide (ePmask e ≠ 0) && decide (paPlane a = 0) && decide (paPage a = 0) && cw0
    && profileFits a (ePmask e) m false s
  else if o = opCopy then
    decide (ePmask e ≠ 0) && decide (paPlane a = 0) && cwAll && profileFits a (ePmask e) m true s
    && unitAligned a m s
    && decide (paPlane (eDstPaddr e) = 0) && decide (planeCount (eDstPmask e) = planeCount (ePmask e))
    && profileFits (eDstPaddr e) (eDstPmask e) m true s && unitAligned (eDstPaddr e) m s
  else if o = opCalibrate then
    decide (ePmask e = 0) && cw0 && profileFits a (2 ^ paPlane a) false true s
  else if o = opCensus then
    decide (ePmask e = 0) && cw0 && decide (a % 2 ^ 33 = 0)
  else if o = opFeatureGet ∨ o = opFeatureSet then
    decide (ePmask e = 0) && cw0 && decide (a % 2 ^ 28 = 0)
  else decide (ePmask e = 0) && cw0 && decide (a = 0)

/-- BUFFER and META_ADDR: aligned to 64 bytes, not zero where data moves, zero where it must be (04 Table 4.7, 02 R58;
cause BAD_BUFFER). -/
def bufferOk (e : Entry) : Bool :=
  let o := eOpcode e
  let moves := [opRead, opReadMp, opProgram, opCensus, opFeatureGet].contains o
  (if moves then decide (eBuffer e ≠ 0) && decide (eBuffer e % 64 = 0) else decide (eBuffer e = 0))
  && (!([opRead, opReadMp].contains o && decide (eLen e = 1)) || decide (eMetaAddr e % 64 = 0))

/-- SCOPE and the disk fields hold values that Table 4.7, Table 4.8 and 12 R283 allow (cause BAD_FIELD). -/
def fieldsOk (e : Entry) (s : State) : Bool :=
  let o := eOpcode e
  if o = opFence then decide (eScope e < 2)
  else if o = opDestage ∨ o = opStage then decide (eSectors e ≠ 0) && diskFieldsOk e s
  else true

/-- PHASE copies of the later units (04 Table 4.8, R89). -/
def contPhaseOk (e : Entry) : Bool :=
  (List.range (eLen e)).all fun i => bitAt (entryWord e (8 * (i + 1))) 31 == ePhase e

/-- The entry's units pass the last unit of the ring (cause CROSSES_END). -/
def crossesEnd (e : Entry) (units : Nat) : Bool := decide (units < e.unit + eLen e + 1)

/-- The lowest cause of Table 4.10 that applies to an entry, 0 when it is well formed (04 R108). RAW entries are only
framed (04 R93). -/
def entryCause (e : Entry) (units : Nat) (s : State) : Nat :=
  let o := eOpcode e
  if crossesEnd e units then 0x01
  else if o = opRaw then (if contPhaseOk e then 0 else 0x0A)
  else if !knownOpcode o then 0x02
  else if !classOk o (eClass e) then 0x03
  else if !lenOk o (eLen e) then 0x04
  else if !reservedOk e then 0x05
  else if !addressOk e s then 0x06
  else if !bufferOk e then 0x07
  else if ladderOpcode o && decide (eMaxrung e = 7) then 0x08
  else if !fieldsOk e s then 0x09
  else if !contPhaseOk e then 0x0A
  else 0

end Sys2Proof.Machine
end

