-- ==== Sys2Proof/Machine/Power.lean ====
section
/-!
DEFINITION. The token model and the start gate (13 R305 to R309): cost rows, the modelled load of a rail group, its
budget and the conditions under which a start is granted.
-/

namespace Sys2Proof.Machine

/-! ### Costs (13 R306, Table 13.1) -/

/-- Halfword h of cost row r. -/
def costHalf (r h : Nat) (s : State) : Nat := winNat (0x620000 + r * 32 + 2 * h) 2 s

/-- A cost of a die: halfword h of the row of its profile, 65,535 where COST_ROW exceeds 15, row 0 without a valid
profile. -/
def dieCost (d h : Nat) (s : State) : Nat :=
  if dieKnown d s then
    let r := pfCostRow (dieProf d s) s
    if 15 < r then 65535 else costHalf r h s
  else costHalf 0 h s

/-- MISC of a die. -/
def costMisc (d : Nat) (s : State) : Nat := dieCost d 5 s

/-- IO_IN or IO_OUT of a die. -/
def costIo (d : Nat) (inward : Bool) (s : State) : Nat := dieCost d (if inward then 7 else 6) s

/-- Cost of the array operation of a kind on a die (13 R305, Table 13.1). -/
def opCost (d : Nat) (k : DieOpKind) (slc : Bool) (s : State) : Nat :=
  match k with
  | .sense => dieCost d (if slc then 1 else 0) s
  | .jobRead => dieCost d (if slc then 1 else 0) s
  | .program => dieCost d (if slc then 3 else 2) s
  | .jobProgram => dieCost d (if slc then 3 else 2) s
  | .erase => dieCost d 4 s
  | .jobErase => dieCost d 4 s
  | .featGet => dieCost d 5 s
  | .featSet => dieCost d 5 s
  | .tempGet => dieCost d 5 s

/-- An operation that passes the start gate: the confirm cycle of an array read, program or erase (13 R307). -/
def gatedKind : DieOpKind → Bool
  | .sense => true
  | .program => true
  | .erase => true
  | .jobRead => true
  | .jobProgram => true
  | .jobErase => true
  | .featGet => false
  | .featSet => false
  | .tempGet => false

/-! ### Load (13 R305, R310) -/

/-- A part counts in a cc: a transfer's from its first byte, a reset's until its die reports ready. -/
def partOn (t : Nat) (p : LoadPart) : Bool := decide (p.from_ ≤ t) && !p.to_.any fun e => decide (e ≤ t)

/-- L_g in a cc: the sum of its parts. -/
def loadSum (t : Nat) (l : List LoadPart) : Nat := (l.filter (partOn t)).foldl (fun a p => a + p.cost) 0

/-- L_g of a group. -/
def loadOf (g : Nat) (s : State) : Nat := loadSum s.cc (groupOf g s).load

/-- L_tot. -/
def loadTotal (s : State) : Nat := (List.range 8).foldl (fun a g => a + loadOf g s) 0

/-- What a part adds to the integral of L_g from cc a to cc b. -/
def partArea (a b : Nat) (p : LoadPart) : Nat := p.cost * (min b (p.to_.getD b) - max a p.from_)

/-- The account of the running frame is brought up to the present cc (13 R310); while TMB is OFF no frame passes. -/
def accrue (g : Nat) (s : State) : State :=
  modGroup g (fun x => { x with
    acc := if s.tmb.state = .off then x.acc else x.acc + x.load.foldl (fun n p => n + partArea x.accAt s.cc p) 0,
    accAt := s.cc, load := x.load.filter fun p => !p.to_.any fun e => decide (e ≤ s.cc) }) s

/-- The accounts of all groups are. -/
def accrueAll (s : State) : State := (List.range 8).foldl (fun s g => accrue g s) s

/-- A part joins the load of the die's group, to count from a cc; nothing is accounted while PWR is disabled (13 R332). -/
def addLoadFrom (t d : Nat) (k : LoadKind) (cost : Nat) (s : State) : State :=
  if pageActive .pwr s then
    modGroup (dieGroup d) (fun x => { x with load := x.load ++ [{ die := d, kind := k, cost := cost, from_ := t }] })
      (accrue (dieGroup d) s)
  else s

/-- A part joins the load of the die's group. -/
def addLoad (d : Nat) (k : LoadKind) (cost : Nat) (s : State) : State := addLoadFrom s.cc d k cost s

/-- The load with the first part of a die and kind, among those without an end, changed or dropped. -/
def onPart (d : Nat) (k : LoadKind) (f : LoadPart → List LoadPart) : List LoadPart → List LoadPart
  | [] => []
  | p :: r => if p.die = d ∧ p.kind = k ∧ p.to_ = none then f p ++ r else p :: onPart d k f r

/-- A part changes or leaves the load. -/
def changeLoad (d : Nat) (k : LoadKind) (f : LoadPart → List LoadPart) (s : State) : State :=
  modGroup (dieGroup d) (fun x => { x with load := onPart d k f x.load }) (accrue (dieGroup d) s)

/-- The reset of a die has been issued: its part counts until the die reports ready, at the latest to a cc (log entry
147). -/
def timeLoad (t d : Nat) (s : State) : State := changeLoad d .misc (fun p => [{ p with to_ := some t }]) s

/-- The die has reported ready behind its reset. -/
def readyLoad (d : Nat) (s : State) : State :=
  modGroup (dieGroup d) (fun x => { x with load := x.load.filter fun p =>
    !(decide (p.die = d) && decide (p.kind = .misc) && p.to_.isSome) }) (accrue (dieGroup d) s)

/-- A part leaves the load. -/
def dropLoad (d : Nat) (k : LoadKind) (s : State) : State := changeLoad d k (fun _ => []) s

/-- Every part of a die leaves the load. -/
def clearLoad (d : Nat) (s : State) : State :=
  modGroup (dieGroup d) (fun x => { x with load := x.load.filter fun p => !decide (p.die = d) })
    (accrue (dieGroup d) s)

/-! ### Budgets (13 R307) -/

/-- BUDGET[g].TOKENS and MEAS_LIMIT in force. -/
def budgetTokens (g : Nat) (s : State) : Nat := regTickFld .pwr (oPwrBudget + 4 * g) 0 16 s
def measLimit (g : Nat) (s : State) : Nat :=
  if regFld .pwr (oPwrBudget + 4 * g) 16 16 s = 0 then budgetTokens g s
  else regFld .pwr (oPwrBudget + 4 * g) 16 16 s

/-- B_g. -/
def groupBudget (g : Nat) (s : State) : Nat :=
  if (groupOf g s).fallback then budgetTokens g s * 85 / 100 else budgetTokens g s

/-- The dies of a channel that have a roster entry. -/
def rosterDies (c : Nat) (s : State) : List Nat :=
  (s.map.roster.filter fun e => e.2.valid && decide (dieChannel e.1 = c)).map (·.1)

/-- Channel number as its page. -/
def chnPage (c : Nat) : Page := .chn (BitVec.ofNat 7 c)

/-- A transfer is in progress on a channel. -/
def transferOn (c : Nat) (s : State) : Bool :=
  match (chanOf c s).act with
  | some (.transfer _, _) => true
  | _ => false

/-- H_g: over the enabled channels of the group without a transfer, the largest I/O cost of their roster dies. -/
def headroom (g : Nat) (s : State) : Nat :=
  ((List.range 16).map (16 * g + ·)).foldl
    (fun a c => if (hdrOf (chnPage c) s).enable && !transferOn c s then
        a + maxOf ((rosterDies c s).map fun d => max (costIo d false s) (costIo d true s))
      else a) 0

/-- Starts granted in group g within the 63 cc before. -/
def recentStarts (g : Nat) (s : State) : Nat :=
  ((groupOf g s).starts.filter fun t => decide (s.cc ≤ t + 63) && decide (t < s.cc)).length
  + ((groupOf g s).starts.filter fun t => decide (t = s.cc)).length

/-- The power-fail sequence runs (13 R327). -/
def pfRunning (s : State) : Bool :=
  !decide (s.pwr.step = .none)

/-- The five conditions of R307 for a start of cost c in group g. -/
def gateOpen (g c : Nat) (s : State) : Bool :=
  (decide (loadOf g s + c + headroom g s ≤ groupBudget g s) || decide (loadOf g s = 0))
  && decide (loadTotal s + c ≤ regTickFld .pwr oPwrGlobalBudget 0 16 s)
  && decide (recentStarts g s < regFld .pwr oPwrStagger 0 4 s)
  && decide ((groupOf g s).rail = .on) && !(groupOf g s).throttle
  && !pfRunning s

/-- All conditions but the stagger hold: the start is delayed by STAGGER (13 Table 13.8, counter 11). -/
def onlyStagger (g c : Nat) (s : State) : Bool :=
  gateOpen g c (modGroup g (fun x => { x with starts := [] }) s) && !gateOpen g c s

/-- A start is recorded for the stagger (13 R307). -/
def noteStart (g : Nat) (s : State) : State :=
  modGroup g (fun x => { x with starts := (x.starts.filter fun t => decide (s.cc ≤ t + 63)) ++ [s.cc] }) s

/-- The dies of group g whose start the gate holds. -/
def heldDies (g : Nat) (s : State) : List Nat :=
  (s.sch.dies.filter fun e => decide (dieGroup e.1 = g) && e.2.startWait.isSome).map (·.1)

/-- Some start is held (13 Table 13.8, event 0). -/
def anyHeld (s : State) : Bool := s.sch.dies.any fun e => e.2.startWait.isSome

end Sys2Proof.Machine
end

