-- ==== Sys2Proof/Machine/Sched.lean ====
section
/-!
DEFINITION. The scheduler's tables (07): ordering keys, the queues of a die, the choice of its next operation, suspend
triggers and counts, transfers and the building of a frame plan.
-/

namespace Sys2Proof.Machine

/-! ### Keys (07 R146) -/

/-- Key a is earlier than key b; a difference of 2^31 frames makes them equal. -/
def keyLt (a b : Stamp) : Bool :=
  if a.frame = b.frame then decide (a.frac.toNat < b.frac.toNat) else frameLater b.frame a.frame

/-- The order of two queued operations: key, class rank, order of taking. -/
def sortsBefore (ka : Stamp) (ca oa : Nat) (kb : Stamp) (cb ob : Nat) : Bool :=
  keyLt ka kb || (!keyLt kb ka && (decide (ca < cb) || (decide (ca = cb) && decide (oa < ob))))

/-- Item a is served before item b. -/
def itemBefore (a b : QItem) : Bool := sortsBefore a.key a.cls a.order b.key b.cls b.order

/-- Transfer a is served before transfer b. -/
def xferBefore (a b : Xfer) : Bool := sortsBefore a.key a.cls a.order b.key b.cls b.order

/-- The first of a list under a strict order; of two equal ones the earlier in the list. -/
def firstBy {α : Type} (lt : α → α → Bool) : List α → Option α
  | [] => none
  | x :: r => some (r.foldl (fun b y => if lt y b then y else b) x)

/-- Insertion behind everything that is not later. -/
def insertBy {α : Type} (lt : α → α → Bool) (x : α) : List α → List α
  | [] => [x]
  | y :: r => if lt x y then x :: y :: r else y :: insertBy lt x r

/-- A list in order, equal elements as they stood. -/
def sortBy {α : Type} (lt : α → α → Bool) (l : List α) : List α := l.foldl (fun acc x => insertBy lt x acc) []

/-- Class rank of R146: STREAM, then STRICT and EARLY_ACK, then NONE. -/
def classRank (c : Nat) : Nat := if c = clsStream then 0 else if c = clsNone then 2 else 1

/-! ### Bus time (08 Table 8.4, 07 R150) -/

/-- Rate of a channel in MT/s (08 Table 8.1). -/
def chanRate (c : Nat) (s : State) : Nat :=
  let div := regFld (chnPage c) oChnBusCfg 4 2 s
  if regFld (chnPage c) oChnBusCfg 0 2 s = 0 then 800 / 2 ^ (div - 2) else 3200 / 2 ^ div

/-- A field of TIMING0 or TIMING1 less its reset value, in PHY clocks: one step is k of them (08 Table 8.3). -/
def timingOver (c off lo w reset k : Nat) (s : State) : Int := (k : Int) * ((regFld (chnPage c) off lo w s : Int) - reset)

/-- PHY clocks of 0.625 ns in cc, rounded up, below 0 too. -/
def phyInt (n : Int) : Int := -((-n * Config.ccPerUs) / 1600)

/-- What the programmed intervals of a data-out, data-in or status byte add to the lengths of Table 8.4, which stand
at the reset values (08 R168; log entry 47). -/
def outOver (c : Nat) (s : State) : Int :=
  phyInt (timingOver c oChnTiming0 24 8 48 4 s + timingOver c oChnTiming0 0 8 16 4 s
    + timingOver c oChnTiming1 16 8 24 1 s + timingOver c oChnTiming1 4 4 8 1 s)
def inOver (c : Nat) (s : State) : Int :=
  phyInt (timingOver c oChnTiming0 16 8 32 4 s + timingOver c oChnTiming1 8 8 24 1 s + timingOver c oChnTiming1 0 4 8 1 s)
def statOver (c : Nat) (s : State) : Int :=
  phyInt (timingOver c oChnTiming0 8 8 12 4 s + timingOver c oChnTiming0 0 8 16 4 s
    + timingOver c oChnTiming1 16 8 24 1 s + timingOver c oChnTiming1 4 4 8 1 s)

/-- A length at the reset intervals with what the programmed ones add or take. -/
def withOver (n : Nat) (extra : Int) : Nat := ((n : Int) + extra).toNat

/-- tWB in cc: no status poll comes sooner after a command (08 Table 8.3). -/
def wbCc (c : Nat) (s : State) : Nat := phyCc (4 * regFld (chnPage c) oChnTiming1 24 8 s)

/-- cc that n bytes take on a channel. -/
def bytesCc (c n : Nat) (s : State) : Nat := ceilDiv (n * Config.ccPerUs) (max 1 (chanRate c s))

/-- Length of a data-out of n codewords: command and turnaround, then the codewords (08 Table 8.4). -/
def outCc (d n : Nat) (s : State) : Nat :=
  withOver 75 (outOver (dieChannel d) s) + n * bytesCc (dieChannel d) (codewordBytes (pfCodeB (dieProf d s) s)) s

/-- Bytes of a page with its spare. -/
def pageBytes (d : Nat) (s : State) : Nat := pfData (dieProf d s) s + pfSpare (dieProf d s) s

/-- Length of the data-in of one page (08 Table 8.4). -/
def inCc (d : Nat) (s : State) : Nat :=
  withOver 150 (inOver (dieChannel d) s) + bytesCc (dieChannel d) (pageBytes d s) s

/-- Codewords of a page (10 R230). -/
def pageCws (d : Nat) (s : State) : Nat := pfData (dieProf d s) s / 4096

/-- A volume select precedes an action on another volume than the last (07 R156, 08 Table 8.4). -/
def selectCc (d : Nat) (s : State) : Nat :=
  if (chanOf (dieChannel d) s).volume = some (dieVolume d) then 0 else 40

/-- Volume that an action selects. -/
def actVolume (a : BusAct) : Option Nat :=
  match a with
  | .arrayStart d => some (dieVolume d)
  | .statusPoll d => some (dieVolume d)
  | .suspendCmd d => some (dieVolume d)
  | .resumeCmd d => some (dieVolume d)
  | .resetLun d => some (dieVolume d)
  | .feature d => some (dieVolume d)
  | .readId d => some (dieVolume d)
  | .raw d => some (dieVolume d)
  | .bringUp v => some v
  | .setUp v => some v
  | .zqLong v => some v
  | .levelSet d => some (dieVolume d)
  | .train v => some v
  | .resetTargets v => some v
  | .transfer x => some (dieVolume x.die)

/-- What the intervals add to a feature action of a die: parameters go in with a SET, come out with a GET. -/
def featOver (d : Nat) (s : State) : Int :=
  if (dieOf d s).run.any fun o => decide (o.kind = .featSet) then inOver (dieChannel d) s else statOver (dieChannel d) s

/-- What they add to a raw command: its bytes in, or its bytes out. -/
def rawOver (c : Nat) (s : State) : Int :=
  if bitAt (regOf .sec oSecRawCmd s) 11 then inOver c s else statOver c s

/-- Length of a short action (08 Table 8.4): 150 per plane to start an array operation, 60 for a status poll, 30 for
suspend, resume and reset; 120 for a read of a census (14 R337); up to 2 µs for the retraining of a volume (08 R177); no
length is given for the others, which count as 150 (log entry 5). -/
def shortCc (c : Nat) (a : BusAct) (s : State) : Nat :=
  match a with
  | .arrayStart d => selectCc d s + 150 * max 1 (planeCount (((dieOf d s).run.map (·.planes)).getD 1))
  | .statusPoll d => selectCc d s + withOver 60 (statOver c s)
  | .suspendCmd d => selectCc d s + 30
  | .resumeCmd d => selectCc d s + 30
  | .resetLun d => selectCc d s + 30
  | .feature d => selectCc d s + withOver 150 (featOver d s)
  | .levelSet d => selectCc d s + withOver 150 (inOver c s)
  | .zqLong _ => 190
  | .readId d => selectCc d s + withOver 120 (statOver c s)
  | .raw d => selectCc d s + withOver 150 (rawOver c s)
  | .bringUp _ => withOver 190 (2 * statOver c s)
  | .setUp _ => withOver 190 (3 * inOver c s)
  | .train _ => 40 + usCc 2
  | .resetTargets _ => 70
  | .transfer x => selectCc (c * 32 + x.die) s + x.len

/-! ### The plan in force -/

/-- The plan is that of the running frame and entries of it may start. -/
def planCurrent (p : Plan) (s : State) : Bool := decide (p.frame = s.tmb.frame) && !p.carried

/-- The next entry that reserves bus time on a channel: of the running frame's plan the first whose time has not come;
until that plan is published, or when it has been discarded, the previous plan's reserved slots stay reserved
(01 R12, 06 R141). -/
def nextEntry (c : Nat) (s : State) : Option PlanEnt :=
  match planOf c s with
  | some p =>
    if planCurrent p s then p.entries.find? fun e => !e.past
    else if p.carried ∨ p.frame + 1 = s.tmb.frame then
      p.entries.find? fun e => decide (s.tmb.phase < e.start + e.x.len)
    else none
  | none => none

/-- cc of the volume select that must stand between an action and a transfer (07 R156, 08 Table 8.4). -/
def gapCc (a : BusAct) (x : Xfer) : Nat := if actVolume a = some (dieVolume x.die) then 0 else 40

/-- An action ends no later than the start of the channel's next planned entry, with room for the volume select that the
entry's transfer then needs before it (07 R155, R156). -/
def fits (c : Nat) (a : BusAct) (s : State) : Bool :=
  match nextEntry c s with
  | some e => decide (s.tmb.phase + shortCc c a s + gapCc a e.x ≤ e.start)
  | none => true

/-- The command FIFO of a channel, oldest first (09 R199). -/
def cmdqOf (c : Nat) (s : State) : List CmdAct := (thrOf (chanBur c) (chanThr c) s).cmdq

/-- The bus of a channel is free: no action is in progress, and none waits in the command FIFO, between two of whose
actions nothing is inserted (09 R199). -/
def busFree (c : Nat) (s : State) : Bool := (chanOf c s).act.isNone && (cmdqOf c s).isEmpty

/-- The profile that a volume of a channel is driven by: that of its lowest roster die, or P0 (09 R203). -/
def volProf (c v : Nat) (s : State) : Nat :=
  match ((List.range 4).map (c * 32 + v * 4 + ·)).find? fun d => (rosterOf d s).valid with
  | some d => dieProf d s
  | none => 0

/-- Cycles of a volume select (08 R170): the volume's CE_N low, then E1h with its address where the profile says so. -/
def selectCycles (c v : Nat) (s : State) : List PadCycle :=
  .ce (v / 4 + 1) :: (if pfVolSel (volProf c v s) s then [.cmd 0xE1, .addr (BitVec.ofNat 8 (v % 4))] else [])

/-- Bytes that a cycle moves. -/
def cycleBytes : PadCycle → Nat
  | .din _ => 1
  | .page n => n
  | .dout n => n
  | _ => 0

/-- The cc of the turnarounds inside an action of a length that begins now: each stands before the bytes that follow it
(08 R190; log entry 49). -/
def turnTimes (c len : Nat) (s : State) : List PadCycle → List Nat
  | [] => []
  | .turn _ :: r => (s.cc + (len - bytesCc c ((r.map cycleBytes).foldl (· + ·) 0) s)) :: turnTimes c len s r
  | _ :: r => turnTimes c len s r

/-- A bus action begins with its cycles; a change of volume goes before them. -/
def beginAct (c : Nat) (a : BusAct) (v : Option Nat) (l : List PadCycle) (s : State) : State :=
  let ts := turnTimes c (shortCc c a s) s l
  let sel := decide (v ≠ none) && decide ((chanOf c s).volume ≠ v)
  let pre := if sel then selectCycles c (v.getD 0) s else []
  let s := if sel then bump (chnPage c) 3 s else s
  modChan c (fun x => { x with act := some (a, s.cc), volume := if v = none then x.volume else v, cycles := pre ++ l,
                               turnAt := some s.cc, turns := ts }) s

/-- Level of CE_N[k] of a channel: low while an action is on a volume behind it, or, with none in progress, while the
last CE action of a word drives it so; else high (08 R170, 09 Table 9.5). -/
def ceHigh (c k : Nat) (s : State) : Bool :=
  let x := chanOf c s
  let low := if x.act.isSome then x.volume.any fun v => decide (v / 4 = k) else bitAt x.ceWord k
  !(x.driven && low)

/-! ### Queues of a die (07 R145, R147) -/

/-- The data of a program stands in staging: nothing more is to arrive (10 R237). -/
def progReady (id : Nat) (s : State) : Bool :=
  decide ((tagOf id s).dataLeft = 0) && !(tagOf id s).fetchWait

/-- SCH passes a STAGE over until its last sector has been captured (12 R300). -/
def passedOver (it : QItem) (s : State) : Bool :=
  decide (it.kind = .program) && decide (eOpcode (tagOf it.id s).entry = opStage) && !progReady it.id s

/-- The sense of a rung that runs in the same Burin job stands before the rest of its queue (11 R273). -/
def queueBefore (a b : QItem) : Bool := if a.goes = b.goes then itemBefore a b else a.goes

/-- The head of a plane queue of a die. -/
def planeHead (d p : Nat) (s : State) : Option QItem :=
  firstBy queueBefore ((dieOf d s).queue.filter fun it => bitAt it.planes p && !passedOver it s)

/-- A Burin job on a die goes on with the sense of its next rung (11 R273). -/
def jobGoesOn (d : Nat) (s : State) : Bool := (dieOf d s).queue.any (·.goes)

/-- The heads of the four plane queues. -/
def planeHeads (d : Nat) (s : State) : List QItem := (List.range 4).filterMap fun p => planeHead d p s

/-- Array reads. -/
def readKind : DieOpKind → Bool
  | .sense => true
  | .jobRead => true
  | _ => false

/-- The intent of an erase stands in a recorded batch (14 R350). -/
def intentRecorded (t : Nat) (s : State) : Bool :=
  s.map.batches.any fun b => b.intents.any fun i => decide (i.tag = t) && i.live

/-- An item may start as far as its own preparation goes. -/
def itemReady (it : QItem) (s : State) : Bool :=
  match it.kind with
  | .program => progReady it.id s
  | .jobProgram => progReady it.id s
  | .erase => intentRecorded it.id s
  | _ => true

/-- A data-out of a die has not ended: waiting, planned or on the bus. -/
def outPending (d : Nat) (s : State) : Bool :=
  let c := dieChannel d
  let of := fun (x : Xfer) => decide (x.die = d % 32) && decide (x.kind ≠ 1)
  (candsOf c s).any of
  || (match planOf c s with
      | some p => p.entries.any fun e => !e.past && of e.x
      | none => false)
  || (match (chanOf c s).act with
      | some (.transfer x, _) => of x
      | _ => false)

/-- SCH starts work on a channel: OWNED and enabled, SCH enabled (07 R163, R165). -/
def chanStarts (c : Nat) (s : State) : Bool :=
  decide ((chanOf c s).own = .owned) && pageActive (chnPage c) s && pageActive .sch s

/-! ### Suspend (07 R157 to R161) -/

/-- The operation whose suspend is at stake: the program or erase in the array, the suspended one, or the program in
data-in. -/
def suspOp (x : Die) : Option DieOp :=
  match x.dataIn, x.abandoned, x.held, x.run with
  | some (o, _), _, _, _ => some o
  | none, some o, _, _ => some o
  | none, none, some o, _ => some o
  | none, none, none, o => o

/-- It is a program. -/
def isProgram (o : DieOp) : Bool := decide (o.kind = .program) || decide (o.kind = .jobProgram)

/-- THRESH and CAP of its kind. -/
def suspThresh (o : DieOp) (s : State) : Nat :=
  regFld .sch (if isProgram o then oSchProgSusp else oSchEraseSusp) 0 16 s
def suspCap (o : DieOp) (s : State) : Nat :=
  regFld .sch (if isProgram o then oSchProgSusp else oSchEraseSusp) 16 16 s

/-- No further suspend: a function reset of its function, or pfail_warn for a program (07 R161, Table 7.2). -/
def suspFrozen (o : DieOp) (s : State) : Bool :=
  o.ids.any (fun t => (fnOf (tagOf t s).fn s).busy && decide (t < 1000000)) || (pfRunning s && isProgram o)

/-- It has been suspended fewer than CAP times (07 R157). -/
def capLeaves (d : Nat) (s : State) : Bool :=
  match suspOp (dieOf d s) with
  | none => false
  | some o => decide (suspCap o s = 0) || decide ((dieOf d s).suspCount < suspCap o s)

/-- It may be suspended: below its cap and not frozen (07 R157, R161). -/
def suspAllowed (d : Nat) (s : State) : Bool :=
  capLeaves d s && match suspOp (dieOf d s) with
    | none => false
    | some o => !suspFrozen o s

/-- A read-type operation of class STRICT or STREAM. -/
def deadlineRead (it : QItem) : Bool := decide (it.kind = .sense) && decide (it.cls ≤ 1)

/-- The gate holds the start of an item of a die (13 R307). -/
def itemHeld (d : Nat) (it : QItem) (s : State) : Bool :=
  (dieOf d s).startWait.isSome && decide ((dieOf d s).heldItem = some it)

/-- A suspend trigger stands: a read-type operation of class STRICT or STREAM at a head, not held by the gate
(07 R157). -/
def trigger (d : Nat) (s : State) : Bool := (planeHeads d s).any fun it => deadlineRead it && !itemHeld d it s

/-- No read runs on a die, its data-out included. -/
def noRead (d : Nat) (s : State) : Bool := (dieOf d s).run.isNone && !outPending d s

/-- A census has reached a die and has not read its ID yet (14 R337). -/
def censusAt (d : Nat) (s : State) : Bool :=
  match (chanOf (dieChannel d) s).census with
  | some (p :: _, _) => decide (p = d % 32)
  | _ => false

/-- The operations that may start on a die now, as SCH sees it: on an idle die the heads of its plane queues that are
prepared (07 R147), on a suspended one every read-type operation (07 R149, R158; log entry 43). -/
def startable (d : Nat) (s : State) : List QItem :=
  let x := dieOf d s
  if !chanStarts (dieChannel d) s || x.resetWanted || x.dataIn.isSome || outPending d s || censusAt d s then []
  else if x.state = .idle ∧ x.abandoned = none ∧ x.run = none then (planeHeads d s).filter fun it => itemReady it s
  else if (x.state = .suspended ∨ (x.state = .idle ∧ x.abandoned ≠ none)) ∧ x.run = none
      ∧ (planeHeads d s).any deadlineRead = true
      ∧ (match suspOp x with
         | some o => !suspFrozen o s
         | none => true) = true then
    x.queue.filter fun it => decide (it.kind = .sense) && decide (eOpcode (tagOf it.id s).entry ≠ opCalibrate)
  else []

/-- SCH's choice: the earliest key (07 R147), and nothing before the next rung of the job that a die works on. -/
def chooseItem (d : Nat) (s : State) : Option QItem :=
  firstBy itemBefore (if jobGoesOn d s then (startable d s).filter (·.goes) else startable d s)

/-- SUSP_REQ is entered while a trigger stands below the cap and left when it goes (07 Table 7.2). -/
def recheck (d : Nat) (s : State) : State :=
  let x := dieOf d s
  let want := trigger d s && suspAllowed d s
  if (x.state = .program ∨ x.state = .erase) ∧ want = true then
    setDie d { x with state := .suspReq, suspErase := decide (x.state = .erase), suspTaken := false } s
  else if x.state = .suspReq ∧ want = false then
    setDie d { x with state := if x.suspErase then .erase else .program, suspTaken := false } s
  else s

/-- STARVE_INFO takes the first threshold or cap event (07 R159); TAG shows the low bits of the id of a job without a tag
(DESIGN CHOICE, log entry 136). -/
def starve (d : Nat) (o : DieOp) (n : Nat) (s : State) : State :=
  if bitAt s.sch.starve.toNat 63 then s
  else
    hwBit .sch oSchStarveInfo 63 { s with sch.starve := BitVec.ofNat 64 (2 ^ 63 + fieldAt 62 (bit (!isProgram o)) + fieldAt 48 (d % 4096)
        + fieldAt 32 (((o.ids[0]?).getD 0) % 65536) + n) }

/-- One suspend of operation o on die d is counted, with its threshold and cap (07 R159). -/
def countSuspend (d : Nat) (o : DieOp) (s : State) : State :=
  let n := satTo 16777215 ((dieOf d s).suspCount + 1)
  let s := modDie d (fun x => { x with suspCount := n }) s
  let th := suspThresh o s
  let cap := suspCap o s
  let s := if th ≠ 0 ∧ th ≤ n ∧ (dieOf d s).threshRaised = false then
      starve d o n (raiseEvt .sch (if isProgram o then 1 else 0) (modDie d (fun x => { x with threshRaised := true }) s))
    else s
  if cap ≠ 0 ∧ cap = n then starve d o n (raiseEvt .sch 2 s) else s

/-- The caps have changed: they apply to what runs at once (07, ERASE_SUSP and PROG_SUSP). -/
def recheckAll (s : State) : State := (s.sch.dies.map (·.1)).foldl (fun s d => recheck d s) s

/-- A reset of a LUN is wanted from now on (14 R335, 08 R173). -/
def wantReset (d : Nat) (s : State) : State :=
  modDie d (fun x => if x.resetWanted then x else { x with resetWanted := true, resetAt := s.cc }) s

/-- An operation enters the queues of its die (07 R145). -/
def enqueue (d : Nat) (it : QItem) (s : State) : State :=
  recheck d (modDie d (fun x => { x with queue := x.queue ++ [it] }) s)

/-! ### Transfers -/

/-- A transfer becomes a candidate of its channel. -/
def addCand (c : Nat) (x : Xfer) (s : State) : State := modCands c (fun l => l ++ [x]) s

/-- The entries of a plan without the unstarted ones of an operation. -/
def planWithout (t die : Nat) (p : Plan) : Plan :=
  { p with entries := p.entries.filter fun e => e.past || !(decide (e.x.id = t) && decide (e.x.die = die)) }

/-- Transfers of a plan that have not started. -/
def planWaits : Option Plan → List Xfer
  | none => []
  | some p => (p.entries.filter fun e => !e.past).map (·.x)

/-- Unstarted entries of an operation in a plan. -/
def plannedOf (t die : Nat) : Option Plan → Nat
  | none => 0
  | some p => (p.entries.filter fun e => !e.past && decide (e.x.id = t) && decide (e.x.die = die)).length

/-- The candidates and planned entries of an operation on a die are released (07 R162); counter 2. -/
def dropXfers (t d : Nat) (s : State) : State :=
  let c := dieChannel d
  let n := plannedOf t (d % 32) (planOf c s)
  let s := bumpBy .sch 2 n s
  let s := modCands c (fun l => l.filter fun x => !(decide (x.id = t) && decide (x.die = d % 32))) s
  modPlan c (fun p => p.map (planWithout t (d % 32))) s

/-! ### Removal of an operation (07 R162, 01 R19) -/

/-- The bus carries an action of die d now. -/
def actOn (d : Nat) (s : State) : Bool :=
  match (chanOf (dieChannel d) s).act with
  | some (.arrayStart e, _) => decide (e = d)
  | some (.feature e, _) => decide (e = d)
  | some (.transfer x, _) => decide (x.die = d % 32)
  | _ => false

/-- A running operation without one of its tags; the last one that leaves abandons it. -/
def dropRun (t : Nat) (o : DieOp) : DieOp :=
  if o.ids = [t] then { o with dropped := true } else { o with ids := o.ids.filter fun i => !decide (i = t) }

/-- The die after an operation that has not reached its array is abandoned. -/
def freeDie (d : Nat) (s : State) : State :=
  dropLoad d .array (modDie d (fun x =>
    { x with run := none, state := if x.state = .suspended then .suspended else .idle }) s)

/-- Tag t leaves die d: queues, gate, candidates, plan, and the operation that runs for it (07 R162, 13 R308). An
operation not yet on the bus ends at once; one on the bus or in the array ends at its next status or page end, its
result dropped. -/
def dropFromDie (t d : Nat) (s : State) : State :=
  let x := dieOf d s
  let had := x.queue.any fun it => decide (it.id = t)
  let s := if had then bump .sch 7 s else s
  let held := x.heldItem.any fun it => decide (it.id = t)
  let s := modDie d (fun x => { x with queue := x.queue.filter fun it => !decide (it.id = t),
                                       startWait := if held then none else x.startWait,
                                       heldItem := if held then none else x.heldItem }) s
  let s := dropXfers t d s
  let s := match (dieOf d s).run with
    | some o =>
      if o.ids.contains t then
        if o.ids = [t] ∧ o.inArray = false ∧ actOn d s = false then freeDie d s
        else modDie d (fun x => { x with run := some (dropRun t o) }) s
      else s
    | none => s
  let s := match (dieOf d s).held with
    | some o => if o.ids.contains t then modDie d (fun x => { x with held := some (dropRun t o) }) s else s
    | none => s
  let s := match (dieOf d s).dataIn with
    | some (o, n) =>
      if o.ids.contains t then
        if actOn d s then modDie d (fun x => { x with dataIn := some (dropRun t o, n) }) s
        else dropLoad d .array (modDie d (fun x => { x with dataIn := none }) s)
      else s
    | none => s
  let s := match (dieOf d s).abandoned with
    | some o => if o.ids.contains t then modDie d (fun x => { x with abandoned := none }) s else s
    | none => s
  recheck d s

/-- The dies an entry addresses: its own, and a COPY's destination. -/
def entryDies (e : Entry) : List Nat :=
  if eOpcode e = opCopy then [paDie (ePaddr e), paDie (eDstPaddr e)]
  else if eOpcode e = opFence ∨ eOpcode e = opNop ∨ eOpcode e = opCensus ∨ eOpcode e = opRaw then []
  else [paDie (ePaddr e)]

/-- Every die that knows tag t (rung-5 members stand on other dies than the entry's). -/
def diesOfTag (t : Nat) (s : State) : List Nat :=
  (s.sch.dies.filter fun e =>
    e.2.queue.any (fun it => decide (it.id = t))
    || (match e.2.run with
        | some o => o.ids.contains t
        | none => false)
    || (match e.2.held with
        | some o => o.ids.contains t
        | none => false)
    || (match e.2.dataIn with
        | some o => o.1.ids.contains t
        | none => false)
    || (match e.2.abandoned with
        | some o => o.ids.contains t
        | none => false)).map (·.1)

/-- Dies with a transfer of tag t that waits or is planned. -/
def xferDiesOfTag (t : Nat) (s : State) : List Nat :=
  (s.sch.cands.flatMap fun e => (e.2.filter fun x => decide (x.id = t)).map fun x => e.1 * 32 + x.die)
  ++ (s.sch.plans.flatMap fun e => match e.2 with
      | some p => (p.entries.filter fun y => !y.past && decide (y.x.id = t)).map fun y => e.1 * 32 + y.x.die
      | none => [])

/-- Tag t leaves SCH. -/
def dropFromSched (t : Nat) (s : State) : State :=
  ((diesOfTag t s ++ xferDiesOfTag t s).dedup).foldl (fun s d => dropFromDie t d s) s

/-! ### Building a plan (07 R152, R153) -/

/-- Registers that shape the plan, in force since the tick. -/
def planWindow (s : State) : Nat := regTickFld .sch oSchPlanWindow 0 12 s
def planGap (s : State) : Nat := regTickFld .sch oSchPlanGap 0 12 s
def streamRes (s : State) : Nat := regTickFld .sch oSchStreamRes 0 15 s

/-- cc in which the current frame began. -/
def frameStart (s : State) : Nat := s.cc - s.tmb.phase

/-- A start offset is free: gaps kept to every entry placed, inside the frame, outside the tail (07 R150, R153). -/
def slotFree (gap last start len : Nat) (placed : List PlanEnt) : Bool :=
  decide (start + len ≤ last)
  && placed.all fun e => decide (start + len + gap ≤ e.start) || decide (e.start + e.x.len + gap ≤ start)

/-- The earliest start from lo on. -/
def findSlot (gap lo last len : Nat) (placed : List PlanEnt) : Option Nat :=
  firstBy (fun a b => decide (a < b))
    ((lo :: placed.map fun e => max lo (e.start + e.x.len + gap)).filter fun st => slotFree gap last st len placed)

/-- One candidate of a pass is placed if it can be; at most 16 entries. -/
def placeOne (gap lo last fs : Nat) (acc : List PlanEnt) (x : Xfer) : List PlanEnt :=
  if 16 ≤ acc.length then acc
  else match findSlot gap (max lo (x.ready - fs)) last x.len acc with
    | some st => acc ++ [{ x := x, start := st }]
    | none => acc

/-- The pass a candidate belongs to: 0 STREAM, 1 DEADLINE with aged NONE keys, 2 NONE (07 R152). -/
def planPass (x : Xfer) (n : Word32) : Nat :=
  if x.kind = 2 then 0
  else if x.cls ≤ 1 then 1
  else if keyLt x.key ⟨n, 0⟩ then 1 else 2

/-- A transfer whose data is ready before the end of the current frame (07 R152). -/
def readyInFrame (x : Xfer) (s : State) : Bool := decide (x.ready < frameStart s + s.tmb.periodEst)

/-- The candidates of the plan of the current frame: no earlier plan has placed them (07 R152). Guests have no place in a
plan (07 R150, 09 R208). -/
def planCands (c : Nat) (s : State) : List Xfer :=
  (candsOf c s).filter fun x => decide (x.id < 1000000) && !x.placed && readyInFrame x s

/-- Where free time begins: PLAN_WINDOW, and PLAN_GAP after the end of the transfer that ran at the tick or runs now
(07 R152). -/
def planFrom (c : Nat) (s : State) : Nat :=
  let e := (chanOf c s).busyTo
  if frameStart s < e then max (planWindow s) (e - frameStart s + planGap s) else planWindow s

/-- The entries of the plan of channel c for the current frame, by start; none in Doze (07 R152, 13 R321). -/
def buildPlan (c : Nat) (s : State) : List PlanEnt :=
  if s.pwr.state = .doze then []
  else
    let cs := sortBy xferBefore (planCands c s)
    let per := s.tmb.periodEst
    let go := fun (last : Nat) (acc : List PlanEnt) (k : Nat) =>
      (cs.filter fun x => decide (planPass x s.tmb.frame = k)).foldl
        (placeOne (planGap s) (planFrom c s) last (frameStart s)) acc
    let a := go per [] 0
    let a := go (per - streamRes s) a 1
    let a := go (per - streamRes s) a 2
    sortBy (fun x y => decide (x.start < y.start)) a

/-- Unstarted entries of the previous plan are left to late fill (07 R152). -/
def returnPlan (c : Nat) (s : State) : State :=
  match planOf c s with
  | none => s
  | some p =>
    modCands c (fun l => ((p.entries.filter fun e => !e.past).map (·.x)) ++ l)
      (setPlan c (some { p with entries := p.entries.filter (·.past) }) s)

/-- Channel c's plan for the current frame is published (07 R150): counters 0 and 1. -/
def publish (c : Nat) (s : State) : State :=
  let s := returnPlan c s
  let es := buildPlan c s
  let s := modCands c (fun l => l.filter fun x => !es.any fun e => decide (e.x = x)) s
  let s := setPlan c (some { frame := s.tmb.frame, since := s.cc, entries := es.map fun e => { e with x := { e.x with placed := true } } }) s
  bumpBy .sch 1 es.length (bump .sch 0 s)

end Sys2Proof.Machine
end

