-- ==== Sys2Proof/Machine/Staging.lean ====
section
/-!
DEFINITION. Staging and the soft pool (10 R237 to R251): granules held and granted, the codewords in staging, the seed
and the checks of a codeword of an address, the queue of the soft decoders and its expected wait.
-/

namespace Sys2Proof.Machine

/-! ### Granules (10 R248, R249) -/

/-- Granules of 32 bytes of one codeword of a die. -/
def cwGran (d : Nat) (s : State) : Nat := cwGranules (pfCodeB (dieProf d s) s)

/-- OCC_READ: granules held by the read class. -/
def occRead (s : State) : Nat := s.dpt.cws.foldl (fun a c => a + c.gRead) 0

/-- OCC: granules held. -/
def occAll (s : State) : Nat :=
  s.dpt.progs.foldl (fun a p => a + p.granules) (s.dpt.cws.foldl (fun a c => a + c.gRead + c.gAcc) 0)

/-- OCC_EARLY: granules held by early data. -/
def occEarly (s : State) : Nat := s.dpt.progs.foldl (fun a p => if p.early then a + p.granules else a) 0

/-- F: free granules. -/
def freeGran (s : State) : Nat := 524288 - occAll s

/-- A request of the read class is granted. -/
def grantRead (g : Nat) (s : State) : Bool := decide (g ≤ freeGran s)

/-- A request of another class is granted. -/
def grantOther (g : Nat) (s : State) : Bool :=
  decide (g + (regFld .dpt oDptReadRes 0 20 s - occRead s) ≤ freeGran s)

/-- An early request is granted. -/
def grantEarly (g : Nat) (s : State) : Bool :=
  grantOther g s && decide (occEarly s + g ≤ regFld .dpt oDptEarlyMax 0 20 s)

/-- PEAK follows the occupancy. -/
def notePeak (s : State) : State := { s with dpt.peak := max s.dpt.peak (occAll s) }

/-- STAGING_LOW (10 Table 10.7, event 0). -/
def stagingLow (s : State) : Bool := decide (freeGran s < regFld .dpt oDptLowMark 0 20 s)

/-! ### Codewords in staging -/

/-- The codeword of an id, plane and index. -/
def isCw (id plane idx : Nat) (c : Cw) : Bool :=
  decide (c.id = id) && decide (c.plane = plane) && decide (c.idx = idx) && !c.member

/-- It. -/
def cwOf (id plane idx : Nat) (s : State) : Option Cw := s.dpt.cws.find? (isCw id plane idx)

/-- Change of it. -/
def modCw (id plane idx : Nat) (f : Cw → Cw) (s : State) : State :=
  { s with dpt.cws := s.dpt.cws.map fun c => if isCw id plane idx c then f c else c }

/-- Codewords whose granules are given back and whose writes have all been answered leave staging (10 R250). -/
def reapCws (s : State) : State :=
  { s with dpt.cws := s.dpt.cws.filter fun c => !(c.sent && decide (c.wrOut = 0)) }

/-- Program data of an id in staging. -/
def progOf (id : Nat) (s : State) : Option ProgBuf := s.dpt.progs.find? fun p => decide (p.id = id) && !p.ended

/-- Change of it. -/
def modProg (id : Nat) (f : ProgBuf → ProgBuf) (s : State) : State :=
  { s with dpt.progs := s.dpt.progs.map fun p => if p.id = id ∧ p.ended = false then f p else p }

/-- Program data that is over leaves staging once no reader of it has writes outstanding (10 R250). -/
def reapProgs (s : State) : State :=
  { s with dpt.progs := s.dpt.progs.filter fun p => !(p.ended && p.readers.isEmpty) }

/-- Its granules are released (10 R250, Table 10.6). -/
def dropProg (id : Nat) (s : State) : State :=
  reapProgs (modProg id (fun p => { p with ended := true, user := [] }) s)

/-- Tag t has no write outstanding any more: it reads no staged copy. -/
def readerDone (t : Nat) (s : State) : State :=
  reapProgs { s with dpt.progs := s.dpt.progs.map fun p => { p with readers := p.readers.filter fun r => !decide (r = t) } }

/-! ### Seeds and echoes (10 R232, R234) -/

/-- SEED_OVR bit of a die. -/
def seedOvr (d : Nat) (s : State) : Bool := bitAt (regOf .dpt (oDptSeedOvr + 4 * (d / 32)) s) (d % 32)

/-- The constant X of a die. -/
def seedConst (d : Nat) (s : State) : Word32 :=
  if seedOvr d s then BitVec.ofNat 32 (regOf .dpt oDptSeedAlt s) else 0x5A17C3E9

/-- An override die while ALT_OFF is 1 is not scrambled. -/
def unscrambled (d : Nat) (s : State) : Bool := seedOvr d s && bitAt (regOf .dpt oDptSeedCfg s) 0

/-- Between the array and the clear: scrambling with the seed of an address. -/
def scrambleAt (d block page idx : Nat) (bytes : List Byte) (s : State) : List Byte :=
  if unscrambled d s then bytes else scramble (cwSeed (seedConst d s) block page idx) bytes

/-- Physical address of a page (04 Table 4.6). -/
def paddrOf (d plane block page : Nat) : Nat := d * 2 ^ 28 + plane * 2 ^ 26 + block * 2 ^ 12 + page

/-- What the checks of a decoded codeword give: echo, then USER_CRC; none without its DP ECHO bit or for an override die
(10 R232). -/
def checkDecoded (c : Cw) (bytes : List Byte) (ok : CwOut) (s : State) : CwOut :=
  if !bitAt c.dp 7 || seedOvr c.die s then ok
  else if !echoGood (pfCodeB (dieProf c.die s) s) (paddrOf c.die c.plane c.block c.page) c.idx bytes then .echoBad
  else if !crcGood bytes then .miscorrect
  else ok

/-! ### The soft pool (10 R245, R246) -/

/-- SOFT_TIME.LOAD, and PER_IT of a code. -/
def softLoad : Nat := 15
def softPerIt (codeB : Bool) : Nat := if codeB then 112 else 108

/-- Worst-case service time of a request. -/
def softCost (q : SoftReq) : Nat := softLoad + q.iters * softPerIt q.codeB

/-- Decoders enabled in SOFT_EN. -/
def softCount (s : State) : Nat := ((List.range 32).filter fun d => bitAt (regOf .ecc oEccSoftEn s) d).length

/-- SOFT_STAT.RUNNING: decodes that run. -/
def softBusy (s : State) : Nat := (s.ecc.running.filter fun e => e.2.isSome).length

/-- Worst-case work left of the running decodes. -/
def softRunning (s : State) : Nat :=
  s.ecc.running.foldl (fun a e => match e.2 with
    | some r => a + (softCost r.req - (s.cc - r.since))
    | none => a) 0

/-- A(K). -/
def softAhead (k : Stamp) (s : State) : Nat :=
  s.ecc.queue.foldl (fun a q => if keyLt k q.key then a else a + softCost q) (softRunning s)

/-- W(K); none when no decoder is enabled (10 R246). -/
def poolWait (k : Stamp) (s : State) : Option Nat :=
  if softCount s = 0 then none else some (ceilDiv (softAhead k s) (softCount s))

/-- SOFT_WAIT: W behind every queued request. -/
def softWait (s : State) : Nat :=
  if softCount s = 0 then 0xFFFFFF
  else satTo 0xFFFFFF (ceilDiv (s.ecc.queue.foldl (fun a q => a + softCost q) (softRunning s)) (softCount s))

/-- Request a is served before request b (10 R245). -/
def softBefore (a b : SoftReq) : Bool :=
  keyLt a.key b.key
  || (!keyLt b.key a.key
      && (decide (a.cls < b.cls)
          || (decide (a.cls = b.cls)
              && (decide (a.order < b.order) || (decide (a.order = b.order) && decide (a.channel < b.channel))))))

/-- Requests of an id leave the pool: the queued ones at once, the running ones write nothing back (10 R247);
counter 8. -/
def dropSoft (id : Nat) (s : State) : State :=
  let q := (s.ecc.queue.filter fun r => decide (r.id = id)).length
  let r := (s.ecc.running.filter fun e => match e.2 with
    | some x => decide (x.req.id = id) && !x.dropped
    | none => false).length
  let s := bumpBy .ecc 8 (q + r) s
  let s := { s with ecc.queue := s.ecc.queue.filter fun r => !decide (r.id = id) }
  (s.ecc.running.filterMap fun e => match e.2 with
      | some x => if x.req.id = id then some (e.1, x) else none
      | none => none).foldl
    (fun s e => setSoft e.1 (some { e.2 with dropped := true }) s) s

/-! ### Release at a commitment (10 R250) -/

/-- Everything that an id holds in staging is released: codewords at once or, with writes outstanding, with their last
response; program data at once. -/
def dropStaging (id : Nat) (s : State) : State :=
  let s := { s with dpt.cws := s.dpt.cws.map fun c => if c.id = id then { c with sent := true, gAcc := 0 } else c }
  reapCws (dropProg id s)

/-- Codewords of an id leave the correction stages of the hard decoders. -/
def dropCorrect (id : Nat) (s : State) : State :=
  (s.ecc.correct.map (·.1)).foldl (fun s c => modStage c (fun l => l.filter fun e => !decide (e.1 = id)) s) s

end Sys2Proof.Machine
end

