-- ==== Sys2Proof/Machine/Levels.lean ====
section
/-!
DEFINITION. Read levels and the ladder table (11): the element of a read, its level values, the band in force, the
fields of a ladder row, the remaining slack and the choice of the next rung.
-/

namespace Sys2Proof.Machine

/-! ### Wordline, page type, zone, band (11 R254, R255, R258) -/

/-- Page type of a read; 3 marks the SLC level. -/
def pageType (d page : Nat) (slc : Bool) (s : State) : Nat :=
  if slc then 3 else page % pfUnit (dieProf d s) s

/-- Zone of a page. -/
def zoneOf (d page : Nat) (slc : Bool) (s : State) : Nat :=
  let p := dieProf d s
  let w := if slc then page else page / pfUnit p s
  w * 8 / max 1 (pfWordlines p s) % 8

/-- Band in force for a die: the selection of the last tick from offset 64 on, that of the tick before it until then. -/
def bandNow (d : Nat) (s : State) : Nat :=
  ((if s.tmb.phase < 64 then (tempOf d s).old else (tempOf d s).sel)).getD (regFld .lvl oLvlTempCfg 8 2 s)

/-- Address of an element. -/
def elemAddr (d z b : Nat) : Nat := 0x400000 + ((d * 8 + z) * 4 + b) * 16

/-- The profile has 15 levels. -/
def fifteenLevels (d : Nat) (s : State) : Bool := decide (pfLevels (dieProf d s) s = 15)

/-- Where level l stands for a die, zone and band: element address and byte index 0 to 7 (11 Table 11.1). -/
def levelPlace (d z b l : Nat) (s : State) : Nat × Nat :=
  if fifteenLevels d s then
    let b := b / 2 * 2
    if l ≤ 7 then (elemAddr d z b, l - 1) else (elemAddr d z (b + 1), l - 8)
  else (elemAddr d z b, l - 1)

/-- The SLC level's place: byte 7; with 15 levels that of the lower element of the pair. -/
def slcPlace (d z b : Nat) (s : State) : Nat × Nat :=
  if fifteenLevels d s then (elemAddr d z (b / 2 * 2), 7) else (elemAddr d z b, 7)

/-- A signed byte of the window. -/
def winSigned (a : Nat) (s : State) : Int := signedOf 8 (winByte a s).toNat

/-- Effective level E = clamp(F + U) at a place (11 R256). -/
def effLevel (pl : Nat × Nat) (s : State) : Int :=
  clampInt (winSigned (pl.1 + pl.2) s + winSigned (pl.1 + 8 + pl.2) s) (-128) 127

/-- The levels a native page type uses, ascending (11 R255). -/
def ptLevels (d t : Nat) (s : State) : List Nat :=
  let m := regFld .lvl (oLvlPtLevels + 4 * (pfCell (dieProf d s) s * 4 + t)) 0 15 s
  ((List.range 15).filter fun i => bitAt m i).map (· + 1)

/-- The places of the levels of a read. -/
def readPlaces (d page : Nat) (slc : Bool) (b : Nat) (s : State) : List (Nat × Nat) :=
  let z := zoneOf d page slc s
  if slc then [slcPlace d z b s]
  else (ptLevels d (pageType d page slc s) s).map fun l => levelPlace d z b l s

/-- The element that LEVELS_CURRENT compares. -/
def readElement (d page : Nat) (slc : Bool) (b : Nat) (s : State) : Nat :=
  let z := zoneOf d page slc s
  if fifteenLevels d s then elemAddr d z (b / 2 * 2) else elemAddr d z b

/-- A write has reached an element: levels set from it are no longer current (11 R257). -/
def touchElement (a : Nat) (s : State) : State :=
  let d := (a - 0x400000) / 512
  match levelsOf d s with
  | some x =>
    if x.element = a / 16 * 16 ∨ (fifteenLevels d s = true ∧ x.element = a / 32 * 32) then setLevels d none s else s
  | none => s

/-- The user byte of a place is written. -/
def putUser (pl : Nat × Nat) (v : Int) (s : State) : State :=
  touchElement pl.1 (setWinByte (pl.1 + 8 + pl.2) (BitVec.ofNat 8 (ofSigned 8 v)) s)

/-- A sum in a user byte saturates. -/
def satSum (v delta : Int) : Int := clampInt (v + delta) (-128) 127

/-- The steps that CALIBRATE added in this cc. -/
def calNow (s : State) : List ((Nat × Nat) × Int × Int) := if s.lvl.calAt = s.cc then s.lvl.calNow else []

/-- The element of a place is read (17 R393, R394). -/
def readPlace (pl : Nat × Nat) (s : State) : State := readWord 5 ((pl.1 - 0x400000) / 16) s

/-- CALIBRATE adds its step to the user byte of a place, saturating (11 R265). -/
def addCal (pl : Nat × Nat) (delta : Int) (s : State) : State :=
  let s := readPlace pl s
  let v := winSigned (pl.1 + 8 + pl.2) s
  putUser pl (satSum v delta) { s with lvl.calNow := (pl, v, delta) :: calNow s, lvl.calAt := s.cc }

/-- Rung 4 adds its offset to the user byte of a place, saturating; a step that CALIBRATE adds there in the same cc comes
behind it (11 R271). -/
def addUser (pl : Nat × Nat) (delta : Int) (s : State) : State :=
  let s := readPlace pl s
  match (calNow s).find? fun x => decide (x.1 = pl) with
  | none => putUser pl (satSum (winSigned (pl.1 + 8 + pl.2) s) delta) s
  | some x =>
    let v := satSum x.2.1 delta
    putUser pl (satSum v x.2.2)
      { s with lvl.calNow := (calNow s).map fun y => if y = x then (pl, v, x.2.2) else y }

/-! ### The ladder table (11 R268) -/

/-- Element of rung q of row r. -/
def ladderElem (r q : Nat) (s : State) : Nat := winNat (0x630000 + r * 64 + q * 8) 8 s

def leBase (e : Nat) : Nat := fieldOf e 0 24
def lePerCw (e : Nat) : Nat := fieldOf e 24 16
def leAltFirst (e : Nat) : Nat := fieldOf e 40 3
def leAttempts (e : Nat) : Nat := fieldOf e 43 2 + 1
def leSpacing (e : Nat) : Nat := fieldOf e 48 8
def leIter (e : Nat) : Nat := fieldOf e 56 7

/-- The rung may run: EN, and its fields are in range, reserved ones zero (11 R268). -/
def rungEnabled (q e : Nat) : Bool :=
  bitAt e 63
  && (if 2 ≤ q ∧ q ≤ 4 then decide (1 ≤ leIter e) && decide (1 ≤ leSpacing e) && decide (leSpacing e ≤ 32)
      else if q = 1 then decide (fieldOf e 45 18 = 0)
      else if q = 5 then decide (fieldOf e 40 23 = 0)
      else true)

/-- TRUNC_END of a row. -/
def truncEnd (r : Nat) (s : State) : Bool := bitAt (ladderElem r 7 s) 0

/-- Senses of a rung: attempts of rung 1, 3, 5 and 7 of rungs 2 to 4 (11 Table 11.4). -/
def rungSenses (r q : Nat) (s : State) : Nat :=
  if q = 1 then leAttempts (ladderElem r 1 s) else if q = 2 then 3 else if q = 3 then 5 else if q = 4 then 7 else 1

/-- Offset of sense a of rung q on the j-th level of the page type (11 Table 11.4). -/
def senseOffset (r q a j : Nat) (s : State) : Int :=
  let e := ladderElem r q s
  let sp := Int.ofNat (leSpacing e)
  if q = 1 then
    signedOf 8 (regFld .lvl (oLvlAltSet + 4 * ((leAltFirst e + a) % 8)) (8 * min j 3) 8 s)
  else if q = 2 then sp * (Int.ofNat a - 1)
  else if q = 3 then sp * (Int.ofNat a - 2)
  else if q = 4 then sp * (Int.ofNat a - 3)
  else 0

/-- The offsets of a sense on n levels. -/
def senseOffsets (r q a n : Nat) (s : State) : List Int := (List.range n).map fun j => senseOffset r q a j s

/-! ### Stripe groups (11 R276) -/

/-- Member halfword m of group g. -/
def stripeHalf (g m : Nat) (s : State) : Nat := winNat (0x631000 + g * 64 + 2 * m) 2 s

/-- The valid members of a group: die and plane. -/
def stripeMembers (g : Nat) (s : State) : List (Nat × Nat) :=
  (List.range 32).filterMap fun m =>
    let v := stripeHalf g m s
    if bitAt v 15 then some (fieldOf v 0 12, fieldOf v 12 2) else none

/-- The group of a die and plane. -/
def stripeGroup (d p : Nat) (s : State) : Option Nat :=
  (List.range 64).find? fun g => (stripeMembers g s).any fun m => decide (m = (d, p))

/-! ### Slack and the choice of a rung (05 R117, 11 R272, R273) -/

/-- The fraction of the present time: min(floor(PHASE × 65,536 / PERIOD_EST), 65,535) (06 R131). -/
def phaseFrac (s : State) : Nat := min 65535 (s.tmb.phase * 65536 / max 1 s.tmb.periodEst)

/-- Distance from now to a deadline in fraction units. -/
def distTo (k : Stamp) (s : State) : Int :=
  signedOf 32 (k.frame - s.tmb.frame).toNat * 65536 + Int.ofNat k.frac.toNat - Int.ofNat (phaseFrac s)

/-- Deadline of an entry. -/
def eDeadline (e : Entry) : Stamp := ⟨eDlFrame e, BitVec.ofNat 16 (eDlFrac e)⟩

/-- rem of R272, in cc. -/
def remSlack (e : Entry) (s : State) : Int :=
  distTo (eDeadline e) s * Int.ofNat s.tmb.periodEst / 65536 - Int.ofNat (regFld .lvl oLvlLadderCfg 0 16 s)

/-- What LADDER_NEXT decides. -/
inductive Next where
  | run (q : Nat)
  | hold
  | fail (rung : Nat)
  deriving DecidableEq, Repr

/-- The search of R273 over the rungs q to last: short and held so far, rungs passed over. -/
def ladderSearch (e : Entry) (key : Stamp) (n : Nat) (grp : Bool) (s : State) :
    Nat → Nat → Bool → Bool → Nat → Option Nat × Bool × Bool × Nat
  | 0, _, short, held, passed => (none, short, held, passed)
  | f + 1, q, short, held, passed =>
    let le := ladderElem (eLrow e) q s
    if min (eMaxrung e) 5 < q then (none, short, held, passed)
    else if rungEnabled q le && (decide (q ≠ 5) || grp) then
      let c := Int.ofNat (leBase le + lePerCw le * n)
      let soft := decide (2 ≤ q) && decide (q ≤ 4)
      let w := if soft then poolWait key s else some 0
      let rem := remSlack e s
      let fit := decide (eClass e = clsNone) || match w with
        | some w => decide (c + Int.ofNat w ≤ rem)
        | none => false
      if fit then (some q, short, held, passed)
      else if c ≤ rem then ladderSearch e key n grp s f (q + 1) short true (passed + 1)
      else ladderSearch e key n grp s f (q + 1) true held (passed + 1)
    else ladderSearch e key n grp s f (q + 1) short held passed

/-- R273 for a tag after rung r failed for n codewords; grp: every undecoded codeword has a stripe group. The second
result is the number of rungs passed over. With no soft decoder enabled a soft rung of a tag with a deadline does not
fit and counts as held only by the pool (10 R246). -/
def ladderNext (e : Entry) (key : Stamp) (r n : Nat) (grp : Bool) (s : State) : Next × Nat :=
  let x := ladderSearch e key n grp s 6 (r + 1) false false 0
  match x.1 with
  | some q => (.run q, x.2.2.2)
  | none =>
    if x.2.2.1 || (x.2.1 && !truncEnd (eLrow e) s) then (.hold, x.2.2.2)
    else (.fail (if eMaxrung e = 6 ∧ x.2.1 = false then 6 else r), x.2.2.2)

end Sys2Proof.Machine
end

