-- ==== Sys2Proof/Machine/Loader.lean ====
section
/-!
DEFINITION. Nibepen images (09 R214 to R219): the header checks of Table 9.14, the records of the body and what a load
does to the patch regions and dispatch tables.
-/

namespace Sys2Proof.Machine

/-! ### Control stores (09 R214, Table 9.12) -/

/-- An unwritten patch word reads as zero, whose parity is even (09 R197). -/
def noWord (_ : Nat) : BitVec 128 := 0

/-- The microword at an address: ROM, patch, or beyond the store as an unwritten word (09 R198). -/
def microword (grv : Bool) (a : Nat) (s : State) : BitVec 128 :=
  if a < patchBase grv then Config.romWord grv a
  else if storeSize grv ≤ a then 0
  else SMap.get noWord (if grv then s.eng.patchGrv else s.eng.patchBur) a

/-- The word that an engine executes at an address; one whose place a blank spare has taken is zero (17 R398). -/
def storeWord (e a : Nat) (s : State) : BitVec 128 :=
  if s.mem.blank.contains (e * 8192 + a) then 0 else microword (decide (e = 64)) a s

/-- A dispatch entry that no image has set. -/
def noEntry (_ : Nat) : Option (BitVec 12) := none

/-- Dispatch entry set by an image, if any. -/
def dispPatched (grv : Bool) (i : Nat) (s : State) : Option (BitVec 12) :=
  SMap.get noEntry (if grv then s.eng.dispGrv else s.eng.dispBur) i

/-- Dispatch entry in force: the ROM value of kind × 16 + p is that of the kind for every p (09 R204). -/
def dispEntry (grv : Bool) (i : Nat) (s : State) : BitVec 12 :=
  (dispPatched grv i s).getD (Config.romEntry grv (i / 16))

/-! ### Engines at rest -/

/-- Engine by number. -/
def engineOf (n : Nat) : Engine := if n = 64 then .graver else .bur (BitVec.ofNat 6 n)

/-- A thread is HELD or IDLE with no ABORT or PREEMPT pending (09 R226). -/
def threadIdle (t : Thread) : Bool :=
  (decide (t.state = .held) || decide (t.state = .idle)) && !t.abortPend && t.preemptPend.isEmpty

/-- A suspend trigger stands against the data-in of a die (07 R149). -/
def inTriggered (d : Nat) (s : State) : Bool :=
  (dieOf d s).dataIn.isSome && trigger d s && suspAllowed d s

/-- The die that SCH asks the thread of a channel to suspend (09 R210): the lowest in SUSP_REQ (07 R157), or whose
data-in a trigger ends (07 R149), of which the thread has not taken the request. -/
def suspWanted (c : Nat) (s : State) : Option Nat :=
  (s.sch.dies.find? fun e => decide (e.1 / 32 = c) && !e.2.suspTaken
    && (decide (e.2.state = .suspReq) || inTriggered e.1 s)).map (·.1)

/-- STATUS.IDLE of an engine. -/
def engineIdle (n : Nat) (s : State) : Bool :=
  threadIdle (engOf n s).t0 && threadIdle (engOf n s).t1
  && (decide (n = 64) || ((suspWanted (2 * n) s).isNone && (suspWanted (2 * n + 1) s).isNone))

/-- Engines of the classes of TARGETS. -/
def targeted (t : Nat) : List Nat := (if bitAt t 0 then List.range 64 else []) ++ (if bitAt t 1 then [64] else [])

/-- A thread that runs the BOOT_FETCH, or is on the way to it: T0 of the Graver with no job yet, or with the job of kind
8. -/
def bootThread (t : Thread) : Bool := t.job.isNone || t.job.any fun j => decide (j.kind = 8)

/-- Check 0x02: an engine of a targeted class has CTRL.ENABLE = 1 or is not IDLE; the thread that runs the BOOT_FETCH of
this image is excepted. -/
def enginesRunning (t : Nat) (boot : Bool) (s : State) : Bool :=
  (targeted t).any fun n =>
    (hdrOf (enginePage n) s).enable
    || (if boot && decide (n = 64) then
          [(engOf n s).t0, (engOf n s).t1].any fun x => !threadIdle x && !bootThread x
        else !engineIdle n s)

/-! ### Header (09 Table 9.13) -/

/-- n bytes of the header from byte i on. -/
def hdrNat (h : List Byte) (i n : Nat) : Nat := leNat ((h.drop i).take n)

/-- BODY_LEN. -/
def bodyLen (h : List Byte) : Nat := hdrNat h 8 4

/-- Check 0x04. -/
def headerGood (h : List Byte) : Bool :=
  decide (hdrNat h 0 4 = 0x4E50424E) && decide (hdrNat h 4 2 = 1) && decide (hdrNat h 6 2 = 128)
  && decide (16 ≤ bodyLen h ∧ bodyLen h ≤ 65536 ∧ bodyLen h % 16 = 0)
  && decide (1 ≤ hdrNat h 12 4 ∧ hdrNat h 12 4 ≤ 3) && decide (hdrNat h 16 4 ≤ 64)
  && decide (hdrNat h 26 2 = 0) && decide (hdrNat h 72 28 = 0) && decide (hdrNat h 100 28 = 0)

/-- SEC.ROLLBACK.COUNT. -/
def rollCount (s : State) : Nat := Config.rollbackFuses.toNat + s.sec.burned

/-- The checks on the header, 0 when all pass (09 Table 9.14). -/
def headerCheck (h : List Byte) (boot : Bool) (s : State) : Nat :=
  if enginesRunning (hdrNat h 12 4) boot s then 0x02
  else if !headerGood h then 0x04
  else if hdrNat h 20 4 ≠ 0x0A5C0128 ∨ hdrNat h 24 2 ≠ 0x0102 then 0x05
  else if Config.sha256 ((h.drop 40).take 32) ≠ Config.keyHash then 0x06
  else if hdrNat h 16 4 < rollCount s then 0x07
  else 0

/-! ### Records (09 R216) -/

/-- A record of the body: TYPE, START and its items. -/
structure ImgRec where
  type : Nat
  start : Nat
  items : List Nat
  deriving DecidableEq, Repr

/-- count items of w bytes. -/
def imgItems (w : Nat) (b : List Byte) (count : Nat) : List Nat :=
  (List.range count).map fun i => leNat ((b.drop (w * i)).take w)

/-- The class of a record type: the Graver's are 0x02 and 0x04. -/
def recGrv (t : Nat) : Bool := decide (t = 2 ∨ t = 4)

/-- The records of a body, or none where one of them is invalid. -/
def imgRecords (targets : Nat) : Nat → List Byte → Option (List ImgRec)
  | 0, _ => none
  | f + 1, b =>
    let t := leNat (b.take 1)
    let st := leNat ((b.drop 2).take 2)
    let n := leNat ((b.drop 4).take 2)
    if b.length < 16 then none
    else if t = 0x0F then (if (b.drop 1).all (fun x => decide (x = 0)) then some [] else none)
    else if leNat ((b.drop 1).take 1) ≠ 0 ∨ leNat ((b.drop 6).take 10) ≠ 0 then none
    else if t = 0 ∨ 4 < t ∨ bitAt targets (if recGrv t then 1 else 0) = false then none
    else
      let w := if t ≤ 2 then 16 else 2
      let len := ceilDiv (w * n) 16 * 16
      let d := (b.drop 16).take len
      let items := imgItems w d n
      if b.length < 16 + len then none
      else if t ≤ 2 then
        if st < patchBase (recGrv t) ∨ storeSize (recGrv t) < st + n then none
        else (imgRecords targets f (b.drop (16 + len))).map fun r => ⟨t, st, items⟩ :: r
      else if 256 < st + n ∨ items.any (fun x => decide (storeSize (recGrv t) ≤ x) || decide (4096 ≤ x))
          ∨ (d.drop (w * n)).any (fun x => !decide (x = 0)) then none
      else (imgRecords targets f (b.drop (16 + len))).map fun r => ⟨t, st, items⟩ :: r

/-! ### Effects on the engines (09 R217) -/

/-- The patch regions of the classes of TARGETS are emptied and their dispatch entries hold their ROM values: no patch of
these classes is loaded (09 R217, LOAD_STAT). -/
def emptyPatches (t : Nat) (s : State) : State :=
  let s := if bitAt t 0 then
      { s with eng := { s.eng with patchBur := [], dispBur := [] }, sec := { s.sec with loadedBur := false } }
    else s
  if bitAt t 1 then
    { s with eng := { s.eng with patchGrv := [], dispGrv := [] }, sec := { s.sec with loadedGrv := false } }
  else s

/-- One patch word. -/
def putWord (grv : Bool) (a v : Nat) (s : State) : State :=
  let s := { s with mem.blank := s.mem.blank.filter fun x =>
    !(decide (x % 8192 = a) && decide (decide (x / 8192 = 64) = grv)) }
  if grv then { s with eng.patchGrv := SMap.put noWord s.eng.patchGrv a (BitVec.ofNat 128 v) }
  else { s with eng.patchBur := SMap.put noWord s.eng.patchBur a (BitVec.ofNat 128 v) }

/-- One dispatch entry. -/
def putEntry (grv : Bool) (i v : Nat) (s : State) : State :=
  if grv then { s with eng.dispGrv := SMap.put noEntry s.eng.dispGrv i (some (BitVec.ofNat 12 v)) }
  else { s with eng.dispBur := SMap.put noEntry s.eng.dispBur i (some (BitVec.ofNat 12 v)) }

/-- Items from an address on. -/
def putItems (entry grv : Bool) : Nat → List Nat → State → State
  | _, [], s => s
  | a, v :: r, s => putItems entry grv (a + 1) r (if entry then putEntry grv a v s else putWord grv a v s)

/-- The records of an accepted image. -/
def putRecords (l : List ImgRec) (s : State) : State :=
  l.foldl (fun s r => putItems (decide (2 < r.type)) (recGrv r.type) r.start r.items s) s

/-! ### The course of a load -/

/-- A load ends with a RESULT other than OK (09 R217, Table 9.16): counter 2, event and error. Once the header has
passed, the targeted patch regions are emptied. -/
def loadReject (code : Nat) (s : State) : State :=
  let s := match s.sec.load with
    | some l => if l.phase = LoadPhase.header then s else emptyPatches l.targets s
    | none => s
  let s := { s with sec.load := none, sec.result := code }
  raiseErr .sec 0x0100 code (raiseEvt .sec 1 (bump .sec 2 s))

/-- All bytes received, in order. -/
def loadImage (l : Load) : List Byte := l.got.flatMap (·.2)

/-- The header has been received: checks 0x02 and 0x04 to 0x07. When they pass the patch regions are emptied and the
body is awaited; the second result says so. -/
def loadHeader (h : List Byte) (s : State) : State × Bool :=
  match s.sec.load with
  | none => (s, false)
  | some l =>
    let c := headerCheck h l.boot s
    if c = 0 then
      let t := hdrNat h 12 4
      (emptyPatches t { s with sec.load := some { l with phase := .body, targets := t } }, true)
    else (loadReject c s, false)

/-- The checks after the last byte, 1 when all pass: signature, GCM tag, records (09 Table 9.14). -/
def bodyCheck (img : List Byte) : Nat :=
  let n := bodyLen img
  let h := img.take 128
  if !Config.ed25519 ((h.drop 40).take 32) (img.take (144 + n)) ((img.drop (144 + n)).take 64) then 0x08
  else match Config.gcmOpen ((h.drop 28).take 12) h ((img.drop 128).take n) ((img.drop (128 + n)).take 16) with
    | none => 0x09
    | some p =>
      match imgRecords (hdrNat h 12 4) (n / 16 + 1) p with
      | none => 0x0A
      | some _ => 1

/-- The records that an image that passes every check holds. -/
def imgContents (img : List Byte) : List ImgRec :=
  let n := bodyLen img
  let h := img.take 128
  match Config.gcmOpen ((h.drop 28).take 12) h ((img.drop 128).take n) ((img.drop (128 + n)).take 16) with
  | none => []
  | some p => (imgRecords (hdrNat h 12 4) (n / 16 + 1) p).getD []

/-- A load ends with RESULT OK: the words become executable, the entries apply, LOADED is set for the classes of
TARGETS, the holds of R215 end; counter 1 and LOAD_DONE (09 R217, R215). -/
def loadAccept (l : Load) (s : State) : State :=
  let img := loadImage l
  let s := putRecords (imgContents img) (emptyPatches l.targets s)
  let s := { s with sec := { s.sec with load := none, result := 1, svn := hdrNat img 16 4,
                                        loadedBur := s.sec.loadedBur || bitAt l.targets 0,
                                        loadedGrv := s.sec.loadedGrv || bitAt l.targets 1 },
                    eng.released := true }
  startEngines (raiseEvt .sec 0 (bump .sec 1 s))

end Sys2Proof.Machine
end

