-- ==== Sys2Proof/Machine/Disk.lean ====
section
/-!
DEFINITION. Records, slots and holds of the disk stream ports (12 R286 to R297).
-/

namespace Sys2Proof.Machine

/-- Page of a port. -/
def dspPage (a : Nat) : Page := .dsp (BitVec.ofNat 1 a)

/-- REF_ACT in force (06). -/
def refAct (s : State) : Nat := regTickFld .tmb oTmbConfig 16 1 s

/-- SYNC.VALID of a port (12 R286). -/
def syncValid (a : Nat) (s : State) : Bool :=
  if a = refAct s then decide (s.tmb.state = .locked) else (dspOf a s).valid

/-- SYNC.INDEX of a port (12 R286). -/
def syncIndex (a : Nat) (s : State) : Nat :=
  if a = refAct s then s.tmb.wedgeIndex else (dspOf a s).index

/-- SYNC.OFS_EST of a port. -/
def ofsEst (a : Nat) (s : State) : Nat := if a = refAct s then 0 else (dspOf a s).ofs

/-- Wedge of a frame, counted from the present one (12 R286). -/
def wedgeOf (a : Nat) (f : Word32) (s : State) : Nat :=
  ((Int.ofNat (syncIndex a s) + signedOf 32 (f - s.tmb.frame).toNat) % Int.ofNat (max 1 (wedges s))).toNat

/-- Free sector records of a port (12 R288). -/
def freeRecs (a : Nat) (s : State) : Nat := 4096 - (dspOf a s).recs.length

/-- Slots in use. -/
def slotsUsed (a : Nat) (s : State) : Nat := (dspOf a s).slots.length

/-- The records of a DESTAGE, one per sector, with their start wedges and sizes (12 R288). -/
def recsOf (e : Entry) (t : Nat) (s : State) : List Rec :=
  let a := eAct e
  let h := eHead e
  let z := eZone e
  let base := (dspOf a s).recNext
  (List.range (eSectors e)).map fun n =>
    { tag := t, sector := eSector e + n, pos := n, wedge := startWedge a h z (eSector e + n) s, order := base + n,
      head := h, track := eTrack e, zone := z, size := zSize a h z s, base := base, dl := eDlFrame e, first := eWedge e,
      cw0 := eCwFirst e }

/-- Allocation of them. -/
def allocRecs (e : Entry) (t : Nat) (s : State) : State :=
  let rs := recsOf e t s
  modDsp (eAct e) (fun d => { d with recs := d.recs ++ rs, recNext := d.recNext + rs.length }) s

/-- Every record that an open tag holds is freed, with no beat for its sector (12 R288, R303). -/
def freeRecsOf (a t : Nat) (s : State) : State :=
  modDsp a (fun d => { d with recs := d.recs.filter fun r => !decide (r.tag = t) || r.dead }) s

/-- HOLD_INFO takes the first hold (12 R294). -/
def holdInfo (a cause : Nat) (cont : Bool) (t sector wedge : Nat) (s : State) : State :=
  if bitAt (dspOf a s).holdInfo.toNat 63 then s
  else hwBit (dspPage a) oDspHoldInfo 63 <| modDsp a (fun d => { d with holdInfo := BitVec.ofNat 64 (2 ^ 63 + fieldAt 60 cause + fieldAt 59 (bit cont)
    + fieldAt 32 (t % 65536) + fieldAt 16 (sector % 65536) + wedge % 4096) }) s

/-- A committed tag leaves a port: its slots, its armed stage and its place in the queue of arming go; its records
stay until their release points (12 R292, R296). An open sector of it is closed by a skip beat, behind
the beat on offer if there is one (02 R31, log entry 6). -/
def dropFromPort (a t : Nat) (s : State) : State :=
  modDsp a (fun d =>
    { d with slots := d.slots.filter fun x => !decide (x.tag = t),
             armed := d.armed.filter fun x => !decide (x.tag = t),
             armWait := d.armWait.filter fun x => !decide (x = t),
             recs := d.recs.map fun r => if r.tag = t then { r with dead := true } else r,
             open_ := d.open_.map fun o => if o.rec_.tag = t then { o with closing := true } else o,
             tx := match d.open_, d.tx with
               | some o, .none => if o.rec_.tag = t then .skip else .none
               | _, x => x }) s

/-- Stages are armed in admission order while an enabled port has fewer than 256 (12 R298, R301). -/
def armNext (a : Nat) (s : State) : State :=
  match (dspOf a s).armWait with
  | [] => s
  | t :: r =>
    if pageActive (dspPage a) s = true ∧ (dspOf a s).armed.length < 256 then
      modDsp a (fun d => { d with armed := d.armed ++ [{ tag := t }], armWait := r }) s
    else s

/-- A committed tag leaves both ports; a place that it held among the armed stages goes to the next. -/
def dropFromDisk (t : Nat) (s : State) : State := armNext 1 (armNext 0 (dropFromPort 1 t (dropFromPort 0 t s)))

end Sys2Proof.Machine
end

