-- ==== Sys2Proof/Machine/Images.lean ====
section
/-!
DEFINITION. The pages that the block programs, as their bytes leave on the pads: the program data of an entry, a journal
page or the last-words record (14 Table 14.6), a page of a map copy (14 R344, Table 14.4).
-/

namespace Sys2Proof.Machine

/-- What a job is for. -/
def jobOf (id : Nat) (s : State) : Option JobFor := SMap.get (fun _ => none) s.map.jobs id

/-! ### User bytes of the pages that the block writes of its own -/

/-- DONE bitmap of a batch that a page carries: bit i for intent i. -/
def doneMap (q : Word32) (dones : List (Word32 × Nat)) : Nat :=
  (List.range 64).foldl (fun a i => if dones.contains (q, i) then a + 2 ^ i else a) 0

/-- CONFIRM record k of a page. -/
def confirmBytes (p : JPage) (k : Nat) : List Byte :=
  match p.carries[k]? with
  | some q => leBytes 4 q.toNat ++ leBytes 4 1 ++ leBytes 8 (doneMap q p.dones)
  | none => leBytes 16 0

/-- INTENT record i of a page. -/
def intentBytes (p : JPage) (i : Nat) : List Byte :=
  match p.intents[i]? with
  | some x =>
    leBytes 4 (fieldAt 20 (x.die % 4096) + fieldAt 16 (x.planes % 16) + fieldAt 15 (bit x.slc) + x.block % 16384)
    ++ leBytes 4 (x.tag % 65536)
  | none => leBytes 8 0

/-- Bytes 0 to 1,019 of a journal page or of the last-words record. -/
def jpageBody (p : JPage) (pfFrame : Word32) (cut : Bool) : List Byte :=
  leBytes 4 (if p.lastWords then 0x4452574C else 0x544E4945) ++ leBytes 4 p.seq.toNat ++ leBytes 2 p.intents.length
  ++ leBytes 6 0 ++ (List.range 4).flatMap (confirmBytes p) ++ (List.range 64).flatMap (intentBytes p)
  ++ leBytes 4 (if p.lastWords then pfFrame.toNat else 0) ++ leBytes 1 (if p.lastWords then bit cut else 0)
  ++ leBytes 423 0

/-- The first 1,024 user bytes of a journal page (14 Table 14.6). -/
def jpageBytes (p : JPage) (pfFrame : Word32) (cut : Bool) : List Byte :=
  let b := jpageBody p pfFrame cut
  b ++ leBytes 4 (crc32c b).toNat

/-- Header and entries of map copy k (14 Table 14.4). -/
def copyImage (k : Nat) (gen : Word32) (entries : List Word32) : List Byte :=
  let h := leBytes 4 0x4350414D ++ leBytes 4 gen.toNat ++ leBytes 4 (4 * entries.length)
  let b := entries.flatMap fun w => leBytes 4 w.toNat
  h ++ leBytes 4 (crc32c (h ++ b)).toNat ++ leBytes 1 k ++ leBytes 47 0 ++ b

/-- User bytes of the page that a job programs; bytes past the end are zero. -/
def jobUser (id : Nat) (s : State) : List Byte :=
  let b := match jobOf id s with
    | some (.jrnlProg _) => match s.map.jpage with
      | some p => jpageBytes p s.pwr.pfFrame s.pwr.drainCut
      | none => []
    | some (.copyProg k page) => match s.map.write with
      | some w => ((copyImage k s.map.gen w.entries).drop (16384 * page)).take 16384
      | none => []
    | _ => []
  b ++ List.replicate (16384 - b.length) 0

/-! ### Encoding (10 R236, R237) -/

/-- The time now, in the deadline format (10 R230). -/
def stampNow (s : State) : Stamp := ⟨s.tmb.frame, BitVec.ofNat 16 (phaseFrac s)⟩

/-- Encoding of a codeword into the program data of an id: metadata with the address written to, the present time and
the stream id; ECC counter 10. -/
def encodeInto (id d plane block page idx : Nat) (slc : Bool) (pos : Nat) (user : List Byte) (s : State) : State :=
  let codeB := pfCodeB (dieProf d s) s
  let md := metadata codeB (paddrOf d plane block page) slc idx (stampNow s) (eOpx (tagOf id s).entry) user
  let s := if seedOvr d s then bump .dpt 7 s else s
  let g := cwGran d s
  let s := clearStaged id (65536 + pos * g) g s
  bump .ecc 10 (modProg id (fun p => { p with cws := SMap.put (fun _ => []) p.cws pos (encodeCw codeB (user ++ md)) }) s)

/-- The page that a Graver job programs enters staging, encoded (10 R237, Table 10.6). A request that DPT refuses waits
for STAGING_REGRANT, as it does while DPT or ECC is disabled. -/
def stageJob (id : Nat) (s : State) : State :=
  let e := (tagOf id s).entry
  let a := ePaddr e
  let d := paDie a
  let g := 4 * cwGran d s
  if pageActive .dpt s && pageActive .ecc s && grantOther g s then
    let u := jobUser id s
    let s := { s with dpt.progs := s.dpt.progs ++ [{ id := id, granules := g, early := false }] }
    let s := modTag id (fun x => { x with fetchWait := false }) (notePeak (bump .dpt 0 s))
    (List.range 4).foldl (fun s i =>
      encodeInto id d (paPlane a) (paBlock a) (paPage a) i (eSlc e) i ((u.drop (4096 * i)).take 4096) s) s
  else modTag id (fun x => { x with fetchWait := true }) s

/-! ### The page on the pads -/

/-- The bytes of page n of a data-in: its four staged codewords, with RAND scrambled with the seeds of the address
written to (10 R233, R234), then 0xFF to the end of the page (10 R228). -/
def inBytes (rand : Bool) (d : Nat) (o : DieOp) (n unit : Nat) (s : State) : List Byte :=
  let page := o.page + n % max 1 unit
  let cws := (List.range 4).map fun i => ((o.ids.head?.bind fun id => progOf id s).map
    fun b => SMap.get (fun _ => []) b.cws (4 * n + i)).getD []
  let b := (cws.mapIdx fun i cw => if rand && !cw.isEmpty then scrambleAt d o.block page i cw s else cw).flatten
  b ++ List.replicate (pageBytes d s - 4 * codewordBytes (pfCodeB (dieProf d s) s)) 0xFF

end Sys2Proof.Machine
end

