-- ==== Sys2Proof/Machine/Media.lean ====
section
/-!
DEFINITION. MAP's tables (14): marks, intents of the erase journal, erase counts, and the die operations of the
Graver's jobs.
-/

namespace Sys2Proof.Machine

/-! ### Marks (14 R341 to R343, R348) -/

/-- A mark as Table 14.3 lays it out. -/
def markWord (d plane kind block : Nat) : Word32 :=
  BitVec.ofNat 32 (fieldAt 20 (d % 4096) + fieldAt 18 (plane % 4) + fieldAt 16 kind + block % 16384)

/-- Key (DIE, PLANE, BLOCK) of a mark as one number. -/
def markKey (w : Word32) : Nat :=
  fieldAt 16 (fieldOf w.toNat 20 12) + fieldAt 14 (fieldOf w.toNat 18 2) + fieldOf w.toNat 0 14

/-- KIND of a mark: 1 factory, 2 grown. -/
def markKind (w : Word32) : Nat := fieldOf w.toNat 16 2

/-- The key of a block. -/
def blockKey (d plane block : Nat) : Nat := markKey (markWord d plane 0 block)

/-- A mark with a key stands in a list. -/
def markIn (k : Nat) (l : List Word32) : Option Word32 := l.find? fun w => decide (markKey w = k)

/-- Insertion of a mark in key order, replacing one of the same key. -/
def putMark (w : Word32) (l : List Word32) : List Word32 :=
  insertBy (fun a b => decide (markKey a < markKey b)) w (l.filter fun x => !decide (markKey x = markKey w))

/-- The keys that word w of the working map could hold: those strictly between the marks before and behind its two. -/
def keyRange (w : Nat) (s : State) : Nat × Nat :=
  let lo := if w = 0 then 0 else match s.map.marks[2 * w - 1]? with
    | some m => markKey m + 1
    | none => 0
  let hi := match s.map.marks[2 * w + 2]? with
    | some m => markKey m - 1
    | none => 2 ^ 28 - 1
  (lo, hi)

/-- A working-map word that fails beyond correction could hold a key (17 R394). -/
def keyFails (k : Nat) (s : State) : Bool :=
  s.mem.upsets.any fun u => u.beyond && decide (u.cls = 6) && (rosterWord u.idx).isNone
    && decide ((keyRange (markWordAt u.idx) s).1 ≤ k ∧ k ≤ (keyRange (markWordAt u.idx) s).2)

/-- Marks before a key. -/
def marksBefore (k : Nat) (s : State) : Nat := (s.map.marks.filter fun w => decide (markKey w < k)).length

/-- A key is looked up: the words of the working map that could hold it are read (17 R393). -/
def readMarks (k : Nat) (s : State) : State :=
  let n := marksBefore k s
  [(n - 1) / 2, n / 2].dedup.foldl (fun s w => readWord 6 (markIdx w) s) s

/-- Room of the working map. -/
def mapRoom : Nat := 253952

/-- The working map changes: DIRTY, also for the next write when copies are being written (14 R342, R349). -/
def mapChanged (s : State) : State :=
  { s with map.dirty := true, map.write := s.map.write.map fun w => { w with changed := true } }

/-- A mark takes its place in the working map. One whose key held no mark that counted counts from the next cc on (14
R342). -/
def placeMark (fresh : Bool) (w : Word32) (s : State) : State :=
  mapChanged <| renewMarks (marksBefore (markKey w) s / 2) { s with
    map.marks := putMark w s.map.marks, map.added := putMark w s.map.added,
    map.addedAt := if fresh then SMap.put (fun _ => 0) s.map.addedAt (markKey w) (s.cc + 1) else s.map.addedAt }

/-- A mark is added to the working map; the second result is false when the list is full (14 R342). -/
def addMark (w : Word32) (s : State) : State × Bool :=
  match markIn (markKey w) s.map.marks with
  | some old =>
    if markKind old = 2 ∧ markKind w = 1 then
      (placeMark (markIn (markKey w) s.map.disputed).isSome w s, true)
    else (s, true)
  | none =>
    if s.map.marks.length < mapRoom then (placeMark true w s, true)
    else (raiseErr .map 0x0101 w.toNat s, false)

/-- A block counts as marked bad for an entry that OPS took in a cc (14 R342, R343, R348): every block while the map is
not loaded; while CONFLICT the settled marks and those added since the load. A mark counts for entries taken after the
cc in which it was added. -/
def blockBadFor (since d plane block : Nat) (s : State) : Bool :=
  let k := blockKey d plane block
  let marked := (markIn k s.map.marks).isSome && decide (SMap.get (fun _ => 0) s.map.addedAt k ≤ since)
  keyFails k s
  || match s.map.state with
  | .empty => true
  | .loading => true
  | .failed => true
  | .conflict => marked && ((markIn k s.map.added).isSome || (markIn k s.map.disputed).isNone)
  | .ready => marked
  | .writing => marked

/-- A block counts as marked bad now. -/
def blockBad (d plane block : Nat) (s : State) : Bool := blockBadFor (s.cc + 1) d plane block s

/-- A block with a disputed mark while CONFLICT stands (14 R348). -/
def blockDisputed (d plane block : Nat) (s : State) : Bool :=
  decide (s.map.state = .conflict) && (markIn (blockKey d plane block) s.map.disputed).isSome

/-- AUTO_GROW: a grown mark for the block of each plane (14 R342); counter 5. -/
def autoGrow (d planes block : Nat) (s : State) : State :=
  if bitAt (regOf .map oMapCfg s) 31 then
    (planesOf planes).foldl (fun s p =>
      let r := addMark (markWord d p 2 block) s
      if r.2 ∧ (markIn (blockKey d p block) s.map.marks).isNone then bump .map 5 r.1 else r.1) s
  else s

/-! ### The roster (14 R334) -/

/-- A die serves operations: PRESENT, with a valid profile (08 R180). -/
def dieServes (d : Nat) (s : State) : Bool := dieKnown d s && decide ((rosterOf d s).state = .present)

/-! ### Erase counts (14 R358) -/

/-- The erase count of a block of a plane is to be advanced: its word is read from fabric memory, for the tag whose
erase advances it or for none (14 R358). -/
def countErase (d plane block : Nat) (t : Option Nat) (s : State) : State :=
  let base := regOf .map oMapEcBase s
  if base = 0 then s
  else fabRead 0 { addr := base + ((d * 4 + plane) * 16384 + block) * 4, len := 4, kind := 0, purpose := .eraseCount t } s

/-- The word has been read: the count in bits [23:0] plus 1, saturating, goes back, and bits [31:24] stay as found.
Counter 12 counts an addition that saturates (14 R358, log entry 7). -/
def countRead (addr : Nat) (t : Option Nat) (bytes : List Byte) (s : State) : State :=
  let old := leNat (bytes.take 3)
  let s := if old = 2 ^ 24 - 1 then bump .map 12 s else s
  fabWrite 0 { addr := addr, bytes := leBytes 3 (satTo (2 ^ 24 - 1) (old + 1)), kind := 0,
               purpose := match t with | some t => .data t 0 0 | none => .map } s

/-- The counts of every plane of a mask. -/
def countErases (d planes block : Nat) (t : Option Nat) (s : State) : State :=
  (planesOf planes).foldl (fun s p => countErase d p block t s) s

/-! ### Intents (14 R350, R351) -/

/-- An admitted ERASE becomes an intent of the forming batch. -/
def addIntent (t d planes block : Nat) (slc : Bool) (s : State) : State :=
  let at' := if s.map.forming.isEmpty then s.cc else s.map.formingAt
  { s with map.forming := s.map.forming ++ [{ tag := t, die := d, planes := planes, slc := slc, block := block }],
           map.formingAt := at' }

/-- Change of the intents that stand for tag t in one list. -/
def modIntents (t : Nat) (f : Intent → Intent) (l : List Intent) : List Intent :=
  l.map fun i => if i.tag = t ∧ i.live = true then f i else i

/-- Change of the intents that stand for tag t in the recorded batches and on the page in writing. -/
def modIntent (t : Nat) (f : Intent → Intent) (s : State) : State :=
  { s with map.batches := s.map.batches.map (fun b => { b with intents := modIntents t f b.intents }),
           map.jpage := s.map.jpage.map fun p => { p with intents := modIntents t f p.intents } }

/-- An erase has committed: its intent is confirmed, or stays unconfirmed and no longer waits for it; one that no page
has carried is dropped when it is confirmed (14 R351, log entry 8). -/
def settleIntent (t : Nat) (confirmed : Bool) (s : State) : State :=
  let s := { s with map.forming := s.map.forming.filter fun i => !decide (i.tag = t),
                    map.closed := s.map.closed.map fun l =>
                      if confirmed then l.filter fun i => !(decide (i.tag = t) && i.live)
                      else modIntents t (fun i => { i with live := false }) l }
  modIntent t (fun i => if confirmed then { i with done := true, doneAt := s.cc } else { i with live := false }) s

/-- An intent whose DONE bit the completion of its erase waits for. -/
def awaitsDone (t : Nat) (i : Intent) : Bool := decide (i.tag = t) && i.live && i.done && !i.written

/-- The completion of an erase waits for the page that carries its DONE bit (14 R351). -/
def confirmHeld (t : Nat) (s : State) : Bool :=
  (s.map.batches.any fun b => b.intents.any (awaitsDone t)) || (s.map.closed.any fun l => l.any (awaitsDone t))
  || s.map.jpage.any fun p => p.intents.any (awaitsDone t)

/-! ### Die operations of Graver jobs (14, 09 Table 9.10, R207) -/

/-- The entry that a job's read runs under: READ of all codewords 0 to last, class NONE. -/
def jobEntry (d plane block page : Nat) (slc : Bool) (last lrow maxrung : Nat) : Entry :=
  let a := paddrOf d plane block page
  { ring := 0, unit := 0,
    words := [BitVec.ofNat 32 (fieldAt 16 opRead + fieldAt 11 lrow + fieldAt 8 maxrung + fieldAt 1 (bit slc)), 0, 0, 0,
      BitVec.ofNat 32 a, BitVec.ofNat 32 (a / 2 ^ 32 + fieldAt 10 last), 0, 0] }

/-- A NONE key formed now (07 R146). -/
def noneKey (s : State) : Stamp :=
  ⟨s.tmb.frame + BitVec.ofNat 32 (regFld .sch oSchNoneAge 0 16 s), BitVec.ofNat 16 (phaseFrac s)⟩

/-- An operation goes on with the Graver job that the one before it belonged to: the next page of a copy, of the factory
image or of the patch image, a copy behind its erase, and what a recovery reads behind its first page (09 R207). -/
def continues : JobFor → JobFor → Bool
  | .copyRead k p, .copyRead k' p' => decide (k = k' ∧ p' = p + 1)
  | .copyErase k, .copyProg k' p' => decide (k = k' ∧ p' = 0)
  | .copyProg k p, .copyProg k' p' => decide (k = k' ∧ p' = p + 1)
  | .jrnlScan _ _ _, .jrnlScan i b p => !decide (i = 0 ∧ b = 0 ∧ p = 0)
  | .jrnlScan _ _ _, .recov _ => true
  | .recov _, .recov _ => true
  | .levelPage p, .levelPage p' => decide (p' = p + 1)
  | .bootPage p, .bootPage p' => decide (p' = p + 1)
  | _, _ => false

/-- The key of a job's operation and its place among the tags: those of the cc in which the job was queued (09 R207). -/
def jobKey (why : JobFor) (s : State) : Stamp × Nat :=
  match s.map.follows with
  | some (w, k) => if continues w why then k else (noneKey s, s.ops.taken)
  | none => (noneKey s, s.ops.taken)

/-- A job of the Graver asks for a die operation on plane `plane` of a block; the page of a program goes into staging.
-/
def startJob (why : JobFor) (kind : DieOpKind) (d plane block page : Nat) (slc : Bool) (last lrow maxrung : Nat)
    (s : State) : State :=
  let id := s.eng.grvNext
  let k := jobKey why s
  let s := { s with eng.grvNext := id + 1, map.jobs := SMap.put (fun _ => none) s.map.jobs id (some why) }
  let s := setTag id { state := .queued, entry := jobEntry d plane block page slc last lrow maxrung, key := k.1,
                       order := k.2,
                       todo := (List.range (last + 1)).map fun i => { plane := plane, idx := i } } s
  let s := enqueue d { id := id, kind := kind, planes := 2 ^ plane, block := block, page := page, slc := slc, rung := 0,
                       attempt := 0, cls := 3, key := k.1, order := k.2 } s
  if kind = .jobProgram then stageJob id s else s

/-- A job whose read is raw: the blocks that recovery examines (14 R356). -/
def rawJob (id : Nat) (s : State) : Bool :=
  match jobOf id s with
  | some (.recov _) => true
  | _ => false

/-- The data-outs of BOOT_FETCH pass whatever the ENABLE bits of DPT and ECC hold (09 R222). -/
def bootRead (id : Nat) (s : State) : Bool :=
  match jobOf id s with
  | some (.bootPage _) => true
  | _ => false

/-- A job's operation has ended; what follows it in the same job keeps its key. -/
def dropJob (id : Nat) (s : State) : State :=
  let s := { s with map.follows := (jobOf id s).map fun w => (w, (tagOf id s).key, (tagOf id s).order) }
  setTag id {} { s with map.jobs := SMap.put (fun _ => none) s.map.jobs id none,
                        eng.grvQueue := s.eng.grvQueue.filter fun q => !decide (q.id = id) }

/-- A key of a Graver job. -/
def isJob (id : Nat) : Bool := decide (1000000 ≤ id)

/-- A location register: die, plane, block (14 COPY_LOC, JRNL_LOC). -/
def locDie (v : Nat) : Nat := fieldOf v 20 12
def locPlane (v : Nat) : Nat := fieldOf v 18 2
def locBlock (v : Nat) : Nat := fieldOf v 0 14
def copyLoc (k : Nat) (s : State) : Nat := regOf .map (oMapCopyLoc + 4 * k) s
def jrnlLoc (k : Nat) (s : State) : Nat := regOf .map (oMapJrnlLoc + 4 * k) s

/-- Ladder row of map and journal reads. -/
def mapRow (s : State) : Nat := regFld .map oMapCfg 0 5 s

end Sys2Proof.Machine
end

