-- ==== Sys2Proof/Machine/Jobs.lean ====
section
/-!
DEFINITION. What the die operations of the Graver's jobs are for: map copies (14 R344 to R349), the erase journal (14
R350 to R354), recovery (14 R355 to R357), the factory level image (11 R259) and the patch image of the boot die
(09 R222). Each reader or writer here is called with the end of one die operation.
-/

namespace Sys2Proof.Machine

/-! ### Jobs of the threads (09 R203, R206) -/

/-- A job joins those that wait to be presented to the Burin thread of a channel (09 R203). -/
def pushJob (c : Nat) (j : Job) (s : State) : State :=
  modThr (chanBur c) (chanThr c) (fun t => { t with waiting := t.waiting ++ [j] }) s

/-- A job joins the Graver's queue (09 R206). -/
def pushGraver (id : Nat) (j : Job) (s : State) : State :=
  { s with eng.grvQueue := s.eng.grvQueue ++ [{ id := id, job := { j with id := some id } }] }

/-- A job of a kind that addresses a die, with nothing more to say. -/
def plainJob (kind d : Nat) (tag : Option Nat) (key : Stamp) (s : State) : Job :=
  { kind := kind, profile := dieProf d s, channel := dieChannel d, die := d, tag := tag, id := tag,
    paddr := paddrOf d 0 0 0, planes := 0, cwFirst := 0, cwLast := 0, slc := false, key := key }

/-- A job that addresses a volume but no die: its profile is that of the lowest roster die there, or P0 (09 R203). -/
def volJob (kind c v : Nat) (s : State) : Job :=
  { plainJob kind (c * 32 + v * 4) none ⟨0, 0⟩ s with profile := volProf c v s }

/-! ### Map copies (14 R344, R349) -/

/-- Header of a copy read: LENGTH where the header of Table 14.4 is correct for copy k. -/
def copyHeader (k : Nat) (b : List Byte) : Option Nat :=
  let len := leNat ((b.drop 8).take 4)
  if leNat (b.take 4) = 0x4350414D ∧ len % 4 = 0 ∧ len ≤ 1015808 ∧ leNat ((b.drop 16).take 1) = k
      ∧ leNat ((b.drop 17).take 47) = 0 then some len else none

/-- Pages that a copy with LENGTH bytes of entries takes. -/
def copyPages (len : Nat) : Nat := ceilDiv (64 + len) 16384

/-- A mark's KIND is valid. -/
def kindGood (w : Word32) : Bool := decide (markKind w = 1) || decide (markKind w = 2)

/-- Keys strictly ascend. -/
def keysRise : List Word32 → Bool
  | a :: b :: r => decide (markKey a < markKey b) && keysRise (b :: r)
  | _ => true

/-- Bytes of a copy's pages when every one of them has decoded. -/
def copyBytes (c : CopyRead) : Option (List Byte) :=
  if c.pages.all (·.isSome) then some (c.pages.flatMap fun p => p.getD []) else none

/-- A copy is judged (14 R344). -/
def judgeCopy (k : Nat) (s : State) : State :=
  let c := copyOf k s
  match copyBytes c with
  | none => setCopy k { c with judged := true, valid := false } s
  | some b =>
    match copyHeader k b with
    | none => setCopy k { c with judged := true, valid := false } s
    | some len =>
      let body := (b.drop 64).take len
      let es := wordsOf body
      let crc := leWord b 3
      let good := decide (crc32c (b.take 12 ++ body) = crc) && es.all kindGood && keysRise es
        && decide ((rosterOf (locDie (copyLoc k s)) s).state = .present) && (rosterOf (locDie (copyLoc k s)) s).valid
      setCopy k { c with judged := true, valid := good, gen := leWord b 1, len := len, crc := crc, entries := es } s

/-- Read of page `page` of copy k (14 R344). -/
def readCopyPage (k page : Nat) (s : State) : State :=
  let l := copyLoc k s
  startJob (.copyRead k page) .jobRead (locDie l) (locPlane l) (locBlock l) page true 3 (mapRow s) 4 s

/-- A page of copy k has been read, or has failed to decode: its part of the image slot is written (14 R345), and the
next page follows until the copy can be judged. -/
def copyPageRead (k page : Nat) (r : Option (List Byte)) (s : State) : State :=
  let s := modCopy k (fun c => { c with pages := c.pages ++ [r] }) s
  let head := ((copyOf k s).pages[0]?).getD none
  let len := (head.bind fun h => copyHeader k h).getD 0
  let good := (head.bind fun h => copyHeader k h).isSome
  let n := min 16384 (64 + len - page * 16384)
  let s := match r with
    | some b => fabWrites 0 (regOf .map oMapImgBase s + k * 0x100000 + page * 16384) (b.take n) 0 .map s
    | none => s
  if good && decide (page + 1 < copyPages len) then readCopyPage k (page + 1) s else judgeCopy k s

/-- The next copy of a write begins with the erase of its block (14 R349). -/
def startCopy (s : State) : State :=
  match s.map.write with
  | some w =>
    match w.todo with
    | k :: _ =>
      let l := copyLoc k s
      let s := { s with map.write := some { w with erased := false,
                                                   pages := copyPages (4 * w.entries.length) } }
      startJob (.copyErase k) .jobErase (locDie l) (locPlane l) (locBlock l) 0 true 0 0 0 s
    | [] => s
  | none => s

/-- A copy of a write has ended (14 R349): COPY_OK, counters 6 and 7, or COPY_FAIL. -/
def copyEnd (k : Nat) (ok : Bool) (s : State) : State :=
  match s.map.write with
  | none => s
  | some w =>
    let m := BitVec.ofNat 3 (2 ^ k)
    let s := { s with map.write := some { w with todo := w.todo.tail, failed := w.failed || !ok },
                      map.copyOk := if ok then s.map.copyOk ||| m else s.map.copyOk &&& ~~~m }
    let s := if ok then bump .map (if w.rewrite then 7 else 6) s
      else raiseErr .map 0x0103 k (raiseEvt .map 6 s)
    startCopy s

/-- Program of the next page of copy k. -/
def programCopyPage (k page : Nat) (s : State) : State :=
  let l := copyLoc k s
  startJob (.copyProg k page) .jobProgram (locDie l) (locPlane l) (locBlock l) page true 0 0 0 s

/-- The erase of copy k's block has ended; its erase count advances (14 R349, R358). -/
def copyErased (k : Nat) (ok : Bool) (s : State) : State :=
  let l := copyLoc k s
  let s := countErase (locDie l) (locPlane l) (locBlock l) none s
  match s.map.write with
  | none => s
  | some w =>
    if ok then programCopyPage k 0 { s with map.write := some { w with erased := true } } else copyEnd k false s

/-- A page of copy k has been programmed (14 R349). -/
def copyPageDone (k page : Nat) (ok : Bool) (s : State) : State :=
  match s.map.write with
  | none => s
  | some w =>
    if !ok then copyEnd k false s
    else
      let s := { s with map.write := some { w with pages := w.pages - 1 } }
      if w.pages ≤ 1 then copyEnd k true s else programCopyPage k (page + 1) s

/-! ### The journal (14 R350, R353) -/

/-- Block in use of journal location i: b or b + 1. -/
def jrnlBlock (i : Nat) (s : State) : Nat := locBlock (jrnlLoc i s) + bit s.map.jblock

/-- SLC pages of a journal die. -/
def jrnlPages (s : State) : Nat := pfWordlines (dieProf (locDie (jrnlLoc 0 s)) s) s

/-- The next journal page moves on; past the last page of a block the other block follows, and once the block in use
passes half its pages its spare is erased (14 R350). -/
def jrnlAdvance (s : State) : State :=
  let n := s.map.jnext + 1
  if jrnlPages s ≤ n then { s with map.jnext := 0, map.jblock := !s.map.jblock }
  else
    let s := { s with map.jnext := n }
    if n = jrnlPages s / 2 + 1 then
      [0, 1].foldl (fun s i =>
        let l := jrnlLoc i s
        startJob (.jrnlErase i (bit (!s.map.jblock))) .jobErase (locDie l) (locPlane l)
          (locBlock l + bit (!s.map.jblock)) 0 true 0 0 0 s) s
    else s

/-- Both programs of a journal page begin at the next page of both dies (14 R350). -/
def jrnlWrite (p : JPage) (s : State) : State :=
  let page := s.map.jnext
  let s := { s with map.jpage := some { p with res0 := none, res1 := none } }
  let s := [0, 1].foldl (fun s i =>
    let l := jrnlLoc i s
    startJob (.jrnlProg i) .jobProgram (locDie l) (locPlane l) (jrnlBlock i s) page true 0 0 0 s) s
  jrnlAdvance { s with map.jseq := p.seq }

/-- A program of the journal page has ended on die i. -/
def jrnlProgDone (i : Nat) (ok : Bool) (s : State) : State :=
  match s.map.jpage with
  | none => s
  | some p => { s with map.jpage := some (if i = 0 then { p with res0 := some ok } else { p with res1 := some ok }) }

/-- JRNL_CFG.OPEN_MAX. -/
def openMax (s : State) : Nat := regFld .map oMapJrnlCfg 0 3 s

/-- A batch is open until every one of its intents is confirmed (14 R352). -/
def batchOpen (b : JBatch) : Bool := b.intents.any fun i => !i.done

/-- Open batches. -/
def openBatches (s : State) : Nat := (s.map.batches.filter batchOpen).length

/-- The recorded batches whose CONFIRM records the next page carries: the oldest four (14 R352, Table 14.6). -/
def carriedBatches (s : State) : List JBatch := s.map.batches.take 4

/-- DONE bits of these batches as they stand: SEQ and place in the batch. -/
def doneBits (s : State) : List (Word32 × Nat) :=
  (carriedBatches s).flatMap fun b => (b.intents.zipIdx.filter fun i => i.1.done).map fun i => (b.seq, i.2)

/-- The next page with a list of intents (14 R350, R352). -/
def nextPageWith (l : List Intent) (s : State) : JPage :=
  { intents := l, seq := s.map.jseq + 1, dones := doneBits s, carries := (carriedBatches s).map (·.seq) }

/-- MAP writes journal pages: enabled, none in writing, and RUNNING or about to run (14 R353, R355, R359). -/
def jrnlWrites (s : State) : Bool :=
  pageActive .map s && (decide (s.map.jrnl = .running) || s.map.jfirst) && s.map.jpage.isNone

/-- Closed batches that still hold an intent. -/
def closedLeft (s : State) : List (List Intent) := s.map.closed.filter fun l => !l.isEmpty

/-- A page with the oldest closed batch, when one more batch may be open (14 R350, R352). -/
def writeBatch (s : State) : State :=
  match closedLeft s with
  | l :: r =>
    if jrnlWrites s && decide (openBatches s < openMax s) then
      jrnlWrite (nextPageWith l s) { s with map.closed := r }
    else s
  | [] => s

/-- The pages that wait are written as far as they can be; RUNNING follows the first of them (14 R353, R355). -/
def jrnlGoOn (s : State) : State :=
  let s := writeBatch s
  if s.map.jfirst = true ∧ s.map.jpage = none ∧ closedLeft s = [] then
    { s with map := { s.map with jrnl := .running, jfirst := false, formingAt := s.cc } }
  else s

/-- A page is written, or waits until MAP is enabled (14 R359). -/
def jrnlPut (p : JPage) (s : State) : State :=
  if pageActive .map s then jrnlWrite { p with held := false } s
  else { s with map.jpage := some { p with held := true, res0 := none, res1 := none } }

/-- MAP is enabled: a page that waits for that is written. -/
def jrnlResume (s : State) : State :=
  match s.map.jpage with
  | some p => if p.held then jrnlPut p s else s
  | none => jrnlGoOn s

/-- Intents as batches of at most 64. -/
def inBatches (l : List Intent) : List (List Intent) :=
  (List.range (ceilDiv l.length 64)).map fun i => (l.drop (64 * i)).take 64

/-- The erases of JRNL_INIT have ended: SEQ starts at 1, the open batches and the queued intents go into the first pages,
then RUNNING follows (14 R353). -/
def jrnlReady (s : State) : State :=
  let open' := s.map.batches.map fun b => b.intents.map fun i => { i with written := false }
  jrnlGoOn { s with map := { s.map with
    jinit := none, jseq := 0, jnext := 0, jblock := false, jpage := none, jfirst := true,
    closed := open' ++ s.map.closed ++ inBatches s.map.forming, forming := [], batches := [] } }

/-- An erase of a journal block has ended; its erase count advances (14 R353, R358). -/
def jrnlErased (i blk : Nat) (s : State) : State :=
  let l := jrnlLoc i s
  let s := countErase (locDie l) (locPlane l) (locBlock l + blk) none s
  match s.map.jinit with
  | none => s
  | some n => if n ≤ 1 then jrnlReady s else { s with map.jinit := some (n - 1) }

/-! ### Recovery (14 R355, R356) -/

/-- Locations that a recovery reads: JRNL_LOC[0..1], or [2..3] for the peer's journal. -/
def recovLoc (peer : Bool) (i : Nat) (s : State) : Nat := jrnlLoc (if peer then i + 2 else i) s

/-- Read of one page of a journal block. -/
def scanPage (peer : Bool) (i blk page : Nat) (s : State) : State :=
  let l := recovLoc peer i s
  startJob (.jrnlScan i blk page) .jobRead (locDie l) (locPlane l) (locBlock l + blk) page true 3 (mapRow s) 4 s

/-- A journal page is valid: known MAGIC and matching CRC. -/
def jpageGood (b : List Byte) : Bool :=
  (decide (leNat (b.take 4) = 0x544E4945) || decide (leNat (b.take 4) = 0x4452574C))
  && decide (leNat ((b.drop 1020).take 4) = (crc32c (b.take 1020)).toNat)

/-- SEQ of a journal page. -/
def jpageSeq (b : List Byte) : Word32 := leWord b 1

/-- COUNT of a journal page. -/
def jpageCount (b : List Byte) : Nat := min 64 (leNat ((b.drop 8).take 2))

/-- The newest valid page. -/
def newestPage (l : List (List Byte)) : Option (List Byte) :=
  firstBy (fun a b => frameLater (jpageSeq a) (jpageSeq b)) l

/-- CONFIRM record k of a page: SEQ and DONE bitmap where it is VALID. -/
def confirmRec (b : List Byte) (k : Nat) : Option (Word32 × Nat) :=
  let r := (b.drop (16 + 16 * k)).take 16
  if bitAt (leNat ((r.drop 4).take 4)) 0 then some (leWord r 0, leNat ((r.drop 8).take 8)) else none

/-- The intents of a page as die, plane mask and block. -/
def pageIntents (b : List Byte) : List (Nat × Nat × Nat) :=
  (List.range (jpageCount b)).map fun i =>
    let w := leNat ((b.drop (80 + 8 * i)).take 4)
    (fieldOf w 20 12, fieldOf w 16 4, fieldOf w 0 14)

/-- The unconfirmed ones, given a DONE bitmap, one per plane. -/
def openIntents (b : List Byte) (done : Nat) : List (Nat × Nat × Nat) :=
  (((pageIntents b).zipIdx).filter fun x => !bitAt done x.2).flatMap fun x =>
    (planesOf x.1.2.1).map fun p => (x.1.1, p, x.1.2.2)

/-- The intent page of a batch. -/
def batchPage (l : List (List Byte)) (seq : Word32) : Option (List Byte) :=
  l.find? fun b => decide (jpageSeq b = seq) && decide (jpageCount b ≠ 0)

/-- The planes of the unconfirmed intents of the open batches (14 R355), at most 1,024. -/
def unconfirmed (l : List (List Byte)) : List (Nat × Nat × Nat) :=
  match newestPage l with
  | none => []
  | some n =>
    ((openIntents n 0)
      ++ (List.range 4).flatMap fun k => match confirmRec n k with
          | none => []
          | some (q, done) => match batchPage l q with
            | some b => openIntents b done
            | none => []).take 1024

/-- The open batches that the newest page shows: SEQ and intents (14 R355). -/
def openSeqs (l : List (List Byte)) : List (Word32 × Nat) :=
  match newestPage l with
  | none => []
  | some n =>
    ((if jpageCount n = 0 then [] else [(jpageSeq n, jpageCount n)])
      ++ (List.range 4).filterMap fun k => match confirmRec n k with
          | none => none
          | some (q, done) => match batchPage l q with
            | some b => if (openIntents b done).isEmpty then none else some (q, jpageCount b)
            | none => none).take 4

/-- Record of a block: die, plane, block, class, largest and smallest count. -/
def recovRecord (c hi lo : Nat) (x : Nat × Nat × Nat) (s : State) : State :=
  match s.map.recover with
  | none => s
  | some r => { s with map.recover := some { r with todo := r.todo.tail, zeros := [],
                                                    done := r.done ++ [(x.1, x.2.1, x.2.2, c, hi, lo)] } }

/-- A block can be examined: its channel is OWNED and its die PRESENT (14 R355). -/
def examinable (d : Nat) (s : State) : Bool :=
  dieServes d s && decide ((chanOf (dieChannel d) s).own = .owned)

/-- The blocks that cannot be examined are recorded SKIPPED up to the next that can, whose first page is read. -/
def examineNext : Nat → State → State
  | 0, s => s
  | f + 1, s =>
    match s.map.recover with
    | none => s
    | some r =>
      match r.todo with
      | [] => s
      | x :: _ =>
        if examinable x.1 s then startJob (.recov false) .jobRead x.1 x.2.1 x.2.2 0 true 3 0 0 s
        else examineNext f (recovRecord 3 0 0 x s)

/-- The scan of the journal has ended (14 R355). -/
def scanEnd (s : State) : State :=
  match s.map.recover with
  | none => s
  | some r => examineNext 1025 { s with map.recover := some { r with scanned := true, todo := unconfirmed r.pages } }

/-- A valid journal page joins those found; of the newest its place is kept. -/
def notePage (blk page : Nat) (b : List Byte) (x : Recover) : Recover :=
  let q := jpageSeq b
  { x with pages := x.pages ++ [b],
           newest := match x.newest with
             | some (n, k, i) => if frameLater q n then some (q, blk, page) else some (n, k, i)
             | none => some (q, blk, page) }

/-- A journal page has been read in a recovery; every page of both blocks on both dies is (14 R355). -/
def scanRead (i blk page : Nat) (r : Option (List Byte)) (s : State) : State :=
  match s.map.recover with
  | none => s
  | some x =>
    let s := match r with
      | some b => if jpageGood (b.take 1024) then
          { s with map.recover := some (notePage blk page (b.take 1024) x) } else s
      | none => s
    let last := pfWordlines (dieProf (locDie (recovLoc x.peer i s)) s) s
    if page + 1 < last then scanPage x.peer i blk (page + 1) s
    else if blk = 0 then scanPage x.peer i 1 0 s
    else if i = 0 then scanPage x.peer 1 0 0 s
    else scanEnd s

/-- Class of an examined block (14 R356). -/
def recovClass (d : Nat) (zs : List Nat) (s : State) : Nat :=
  let n := codewordBytes (pfCodeB (dieProf d s) s)
  let lim := ceilDiv (n * 8 * regFld .map oMapRecovCfg 24 7 s) 100
  if zs.all fun z => decide (z ≤ regFld .ecc oEccErasedThr 0 13 s) then 0
  else if zs.all fun z => decide (lim ≤ z) then 1
  else 2

/-- A block has been examined (14 R356, R358): counters 10 and 11, erase count unless UNTOUCHED. -/
def examined (zs : List Nat) (s : State) : State :=
  match s.map.recover with
  | none => s
  | some r =>
    match r.todo with
    | [] => s
    | x :: _ =>
      let c := recovClass x.1 zs s
      let s := bump .map 10 s
      let s := if c = 2 then bump .map 11 s else s
      let s := if c = 1 then s else countErase x.1 x.2.1 x.2.2 none s
      examineNext 1025 (recovRecord c (maxOf zs) (zs.foldl min (zs.headD 0)) x s)

/-- The four raw codewords of a page of the block being examined have been counted; none when the read was lost. -/
def recovRead (last : Bool) (zs : Option (List Nat)) (s : State) : State :=
  match s.map.recover with
  | none => s
  | some r =>
    match r.todo with
    | [] => s
    | x :: _ =>
      match zs with
      | none => examineNext 1025 (recovRecord 3 0 0 x s)
      | some z =>
        if last then examined (r.zeros ++ z) s
        else
          let w := pfWordlines (dieProf x.1 s) s
          startJob (.recov true) .jobRead x.1 x.2.1 x.2.2 (w - 1) true 3 0 0
            { s with map.recover := some { r with zeros := z } }

/-! ### The factory level image (11 R259) -/

/-- Zero in the factory half of every element from e on; levels set from one of them are no longer current. -/
def clearFactory (e : Nat) (s : State) : State :=
  { s with win := s.win.filter fun x =>
             !(decide (0x400000 + 16 * e ≤ x.1) && decide (x.1 < 0x600000) && decide (x.1 % 16 < 8)),
           mem.upsets := s.mem.upsets.filter fun u =>
             !(decide (u.cls = 5) && decide (e ≤ u.idx) && decide (u.unit < 8)),
           lvl.current := [] }

/-- The factory half of an element. -/
def setFactory (e : Nat) (b : List Byte) (s : State) : State :=
  touchElement (0x400000 + 16 * e) (setWinBytes (0x400000 + 16 * e) b s)

/-- n factory halves from element e on. -/
def setFactories : Nat → Nat → List Byte → State → State
  | 0, _, _, s => s
  | n + 1, e, b, s => setFactories n (e + 1) (b.drop 8) (setFactory e (b.take 8) s)

/-- A load of the factory image fails: every factory half is zero, LOAD_FAIL. -/
def levelFail (code : Nat) (s : State) : State :=
  let s := if s.lvl.locked then s else clearFactory 0 s
  let s := { s with lvl := { s.lvl with loadBusy := false, loadResult := code, loadBytes := [] } }
  raiseErr .lvl 0x0100 code (raiseEvt .lvl 1 s)

/-- Read of a page of the factory image. -/
def readLevelPage (page : Nat) (s : State) : State :=
  startJob (.levelPage page) .jobRead (fieldOf s.lvl.loadFrom 0 12) 0 (fieldOf s.lvl.loadFrom 12 14) page true 3 0 2 s

/-- The header page of the factory image: ELEMENTS and CRC where it is correct. -/
def levelHeader (b : List Byte) : Option (Nat × Word32) :=
  let n := leNat ((b.drop 4).take 4)
  if leNat (b.take 4) = 0x4C564C46 ∧ 1 ≤ n ∧ n ≤ 131072 ∧ (b.drop 12).all (fun x => decide (x = 0)) = true then
    some (n, leWord b 2) else none

/-- The last page of the factory image has been read (11 R259 steps 3 to 5). -/
def levelEnd (s : State) : State :=
  let s := clearFactory s.lvl.loadElems s
  if crc32c s.lvl.loadBytes = s.lvl.loadCrc then
    raiseEvt .lvl 0 { s with lvl := { s.lvl with loadBusy := false, loadResult := 1, locked := true,
                                                 loadBytes := [] } }
  else levelFail 5 s

/-- A page of the factory image has been read, or has failed (11 R259). A lock set meanwhile ends the load LOCKED
(11 R260). -/
def levelPageRead (page : Nat) (r : Option (List Byte)) (s : State) : State :=
  match r with
  | none => levelFail 3 s
  | some b =>
    if s.lvl.locked then levelFail 2 s
    else if page = 0 then
      match levelHeader b with
      | none => levelFail 4 s
      | some (n, c) => readLevelPage 1 { s with lvl := { s.lvl with loadElems := n, loadCrc := c, loadBytes := [] } }
    else
      let done := (page - 1) * 2048
      let n := min 2048 (s.lvl.loadElems - done)
      let s := setFactories n done b s
      let s := { s with lvl.loadBytes := s.lvl.loadBytes ++ b.take (8 * n) }
      if done + n < s.lvl.loadElems then readLevelPage (page + 1) s else levelEnd s

/-! ### The patch image of the boot die (09 R222) -/

/-- BOOT_FETCH fails with NAND_READ: its job and its reads go. -/
def bootFail (s : State) : State :=
  match s.sec.boot with
  | .ended => s
  | .failed => s
  | _ =>
    let s := { s with sec.boot := .failed, eng.grvQueue := s.eng.grvQueue.filter fun q => !decide (q.job.kind = 8) }
    loadReject 0x0B (holdThr 64 true (holdThr 64 false (modDie 0 (fun x => { x with queue := x.queue.filter fun it => !bootRead it.id s }) s)))

/-- Read of a page of the patch image: block 0 of plane 0 of die 0. -/
def readBootPage (page : Nat) (s : State) : State :=
  startJob (.bootPage page) .jobRead 0 0 0 page true 3 0 2 { s with sec.bootPage := page }

/-- BOOT_FETCH has ended: its job ends at a DISPATCH word (09 R206, R222). -/
def bootDone (s : State) : State :=
  let s := { s with sec.boot := .ended, eng.grvQueue := s.eng.grvQueue.filter fun q => !decide (q.job.kind = 8) }
  holdThr 64 false (modThr 64 false (fun t => { t with job := none, offered := none }) s)

/-- A page of the patch image has been read, or has failed (09 R222 step 5). -/
def bootPageRead (page : Nat) (r : Option (List Byte)) (s : State) : State :=
  if s.sec.boot ≠ .reading then s
  else match r with
  | none => bootFail s
  | some b =>
    let s := { s with sec.bootBytes := s.sec.bootBytes ++ b }
    let h := if page = 0 then loadHeader (b.take 128) s else (s, true)
    let s := h.1
    if !h.2 then bootDone s
    else
      let total := bodyLen s.sec.bootBytes + 208
      if total ≤ s.sec.bootBytes.length then
        bootDone { s with
          sec.load := s.sec.load.map fun l => { l with phase := .verify,
                                                       got := [(0, s.sec.bootBytes.take total)] } }
      else readBootPage (page + 1) s

/-! ### Ends of die operations -/

/-- The read of a job has ended with the page's user bytes, or has failed. -/
def jobReadEnd (id : Nat) (r : Option (List Byte)) (s : State) : State :=
  match jobOf id s with
  | some (.copyRead k page) => copyPageRead k page r (dropJob id s)
  | some (.jrnlScan i blk page) => scanRead i blk page r (dropJob id s)
  | some (.levelPage page) => levelPageRead page r (dropJob id s)
  | some (.bootPage page) => bootPageRead page r (dropJob id s)
  | some (.recov last) => recovRead last none (dropJob id s)
  | _ => dropJob id s

/-- The program or erase of a job has ended. -/
def jobOpEnd (id : Nat) (ok : Bool) (s : State) : State :=
  match jobOf id s with
  | some (.copyErase k) => copyErased k ok (dropJob id s)
  | some (.copyProg k page) => copyPageDone k page ok (dropJob id s)
  | some (.jrnlProg i) => jrnlProgDone i ok (dropJob id s)
  | some (.jrnlErase i blk) => jrnlErased i blk (dropJob id s)
  | _ => dropJob id s

/-- A job's die operation is lost: its read fails, its program or erase fails. -/
def jobLost (id : Nat) (s : State) : State :=
  match jobOf id s with
  | some (.copyErase _) => jobOpEnd id false s
  | some (.copyProg _ _) => jobOpEnd id false s
  | some (.jrnlProg _) => jobOpEnd id false s
  | some (.jrnlErase _ _) => jobOpEnd id false s
  | _ => jobReadEnd id none s

/-- A job that the start gate never holds: the last-words record (13 R307, Table 13.6). -/
def gateFreeJob (id : Nat) (s : State) : Bool :=
  match jobOf id s, s.map.jpage with
  | some (.jrnlProg _), some p => p.lastWords
  | _, _ => false

end Sys2Proof.Machine
end

