-- ==== Sys2Proof/Machine/Commit.lean ====
section
/-!
DEFINITION. The commitment point of a tag (01 R17, R19, R20, 05 Table 5.2, R125): its status is fixed, everything the
part still does for it ends, and its completion becomes due when its last fabric write has been answered.
-/

namespace Sys2Proof.Machine

/-- Ranks of R20: a tag's own commitment point, power fail, function reset, expiry. -/
def rankOwn : Nat := 1
def rankPfail : Nat := 2
def rankReset : Nat := 3
def rankExpiry : Nat := 4

/-- Band, zone and places that the writes of R265 and R271 to one read's levels use. -/
def calLast (source band zone d frozen changed : Nat) (s : State) : State :=
  { s with lvl.calLast := BitVec.ofNat 32 (fieldAt 30 source + fieldAt 28 (band % 4) + fieldAt 25 (zone % 8)
      + fieldAt 13 (d % 4096) + fieldAt 8 (min frozen 16) + changed % 16) }

/-- Rung 4 of an operation has ended, or the operation has (11 R271): the valley offset of the lowest qualifying
codeword is added to the user bytes of the levels read, and frozen codewords are counted (11 R266, counters 10, 11). -/
def applyValley (id page : Nat) (s : State) : State :=
  match SMap.get (fun _ => none) s.lvl.valley id with
  | none => s
  | some v =>
    let x := tagOf id s
    let d := paDie (ePaddr x.entry)
    let slc := slcOn x.entry d s
    let frozen := v.frozen + x.todo.length
    let s := { s with lvl.valley := SMap.put (fun _ => none) s.lvl.valley id none }
    let s := bumpBy .lvl 11 frozen s
    match v.best with
    | none => s
    | some (_, off) =>
      if bitAt (regOf .lvl oLvlCalCfg s) 31 && pageActive .lvl s then
        let pl := readPlaces d page slc x.band s
        calLast 2 x.band (zoneOf d page slc s) d frozen pl.length
          (bump .lvl 10 (pl.foldl (fun s p => addUser p off s) s))
      else s

/-- Pages of its unit that a COPY has read whole before the one it reads last: each page gives four codewords of program
data per plane. -/
def copyPagesRead (id : Nat) (s : State) : Nat :=
  (((progOf id s).map (·.cws.length)).getD 0 - 1) / (4 * max 1 (planesOf (ePmask (tagOf id s).entry)).length)

/-- The page of the codewords that an id has in staging; a COPY whose codewords of a page have all become program data
stands at the page of the last of these. -/
def stagedPage (id : Nat) (s : State) : Nat :=
  match s.dpt.cws.find? fun c => decide (c.id = id) && !c.member with
  | some c => c.page
  | none =>
    let e := (tagOf id s).entry
    paPage (ePaddr e) + (if eOpcode e = opCopy then copyPagesRead id s else 0)

/-- A data write of tag t. -/
def dataOf (t : Nat) (q : WrReq) : Bool :=
  match q.purpose with
  | .data u _ _ => decide (u = t)
  | _ => false

/-- A withdrawn data write needs no response. -/
def withdrawn (s : State) (q : WrReq) : State :=
  match q.purpose with
  | .data t plane idx =>
    modTag t (fun x => { x with wrOut := x.wrOut - 1 }) (modCw t plane idx (fun c => { c with wrOut := c.wrOut - 1 }) s)
  | _ => s

/-- The data writes of tag t that still wait at a port are withdrawn: none is issued after its commitment (05 R119,
10 R247, R251). -/
def withdrawWrites (t : Nat) (s : State) : State :=
  (List.range 4).foldl (fun s p =>
    ((fabOf p s).wrWait.filter (dataOf t)).foldl withdrawn (modFab p (withdrawPort (dataOf t)) s)) s

/-- A write of tag t whose payload is not all put keeps the bytes of the flits already put; the rest of its flits carry
none (10 R242, R251; log entry 142). -/
def cutWrite (t : Nat) (f : FabPort) (e : Nat × Nat) : FabPort :=
  match SMap.get noReq f.writes e.1 with
  | some q =>
    if dataOf t q then
      let put := (beatsFor q.addr q.bytes.length - e.2) * 64 - q.addr % 64
      { f with writes := SMap.put noReq f.writes e.1 (some { q with bytes := q.bytes.take put }) }
    else f
  | none => f

/-- The data writes of tag t that are being put are cut at their next flit. -/
def cutWrites (t : Nat) (s : State) : State :=
  (List.range 4).foldl (fun s p => modFab p (fun f => f.wdLeft.foldl (cutWrite t) f) s) s

/-- Everything that works for an id leaves SCH, ECC, DPT, LVL and DSP (07 R162, 10 R247, R250, 11 R277, 12 R292). -/
def dropWork (id : Nat) (s : State) : State :=
  let s := applyValley id (stagedPage id s) s
  let s := withdrawWrites id (dropFromSched id s)
  let s := dropSoft id s
  let s := dropCorrect id s
  let s := dropStaging id s
  let s := { s with lvl.rebuilds := s.lvl.rebuilds.filter fun r => !decide (r.id = id),
                    lvl.memberBand := s.lvl.memberBand.filter fun e => !decide (e.1 / 4096 = id),
                    lvl.calib := SMap.put (fun _ => []) s.lvl.calib id [] }
  abortTag id (dropFromDisk id s)

/-- The port on which a tag is a replan (12 R297). -/
def replanPort (t : Nat) (s : State) : Option Nat :=
  if (dspOf 0 s).replans.contains t then some 0 else if (dspOf 1 s).replans.contains t then some 1 else none

/-- Completion of a replan: alone, with COUNT 0 (12 R297). -/
def replanCpl (t : Nat) (x : TagRow) : Cpl :=
  { batch := false, status := x.status, count := 0, cookie := eCookie x.entry, frame := x.commitFrame, tag := t,
    rung := x.maxRung, maxbits := satTo 255 x.maxbits, covers := [t], ring := x.entry.ring, need := 0 }

/-- The completion of a committed tag falls due. -/
def tagDone (s : State) (t : Nat) : State :=
  let x := tagOf t s
  match replanPort t s with
  | some a =>
    dueCpl x.entry.ring (replanCpl t x)
      (modDsp a (fun d => { d with replans := d.replans.filter fun k => !decide (k = t) }) s)
  | none => memberDone x.entry.ring t x.status x.commitFrame x.maxRung x.maxbits s

/-- With the next cc the completions of the tags that committed in the last one fall due, since until then an event that
R20 puts first may decide the status. -/
def flushDone (s : State) : State := s.ops.doneNow.foldl tagDone { s with ops.doneNow := [] }

/-- A committed tag is complete once no fabric write of it is outstanding (01 R17) and, for a confirmed erase, a journal
page carries its DONE bit (14 R351). -/
def completeTag (t : Nat) (s : State) : State :=
  let x := tagOf t s
  if x.wrOut = 0 ∧ confirmHeld t s = false ∧ s.ops.doneNow.contains t = false ∧ s.ops.abortNow.contains t = false then
    { s with ops.doneNow := s.ops.doneNow ++ [t] }
  else s

/-- A terminal event of a rank reaches a tag: it is open, or an event of this cc that R20 puts later has committed it.
-/
def reachedNow (t rank : Nat) (s : State) : Bool :=
  tagOpen t s || (decide ((tagOf t s).state = .committed) && decide ((tagOf t s).commitCc = s.cc)
    && decide (rank < (tagOf t s).commitRank))

/-- Events and page counters of OPS at a commitment point (05 Table 5.10). -/
def noteCommit (st : Nat) (s : State) : State := if st = stMissed then raiseEvt .ops 0 s else s

/-- The status that DESTAGE misses raise at their port (05 R119, 12 Table 12.7, counter 9). -/
def noteDestage (t st : Nat) (s : State) : State :=
  let e := (tagOf t s).entry
  if eOpcode e = opDestage ∧ (st = stMissed ∨ st = stUnderrun) then
    let s := raiseEvt (dspPage (eAct e)) 0 s
    if st = stMissed then bump (dspPage (eAct e)) 9 s else s
  else s

/-- A deadline has been reached: the time is equal to it or later (01 R15, 06 R132). -/
def reached (k : Stamp) (s : State) : Bool :=
  frameLater s.tmb.frame k.frame || (decide (s.tmb.frame = k.frame) && decide (k.frac.toNat ≤ phaseFrac s))

/-- A deadline lies in the past: the time is later than it. -/
def passed (k : Stamp) (s : State) : Bool :=
  frameLater s.tmb.frame k.frame || (decide (s.tmb.frame = k.frame) && decide (k.frac.toNat < phaseFrac s))

/-- A confirmed write or erase that commits after its deadline is a late commit: OPS counter 10 and event 4
(05 R120). -/
def noteLate (x : TagRow) (rank : Nat) (s : State) : State :=
  let k := eDeadline x.entry
  if rank = rankOwn ∧ x.confirmed = true ∧ eClass x.entry ≠ clsNone ∧ passed k s = true
      ∧ [opProgram, opStage, opCopy, opErase].contains (eOpcode x.entry) = true then
    raiseEvt .ops 4 (bump .ops 10 s)
  else s

/-- What a committed tag leaves behind: the events of its status, its work, its erase intent, and its completion. -/
def leaveOps (t st : Nat) (s : State) : State :=
  let x := tagOf t s
  let s := dropWork t (noteDestage t st (noteCommit st s))
  let s := if eOpcode x.entry = opErase then
      settleIntent t (decide (st = stOk) || decide (st = stEraseFail) || !x.confirmed) s
    else s
  let s := if (tagOf t s).wrOut = 0 then readerDone t s else s
  completeTag t s

/-- The status of tag t is fixed by an event of a rank. -/
def fixStatus (t st rank : Nat) (s : State) : State :=
  modTag t (fun x => { x with state := .committed, status := st, commitCc := s.cc, commitRank := rank,
                              commitFrame := s.tmb.frame, armed := false, ladderHeld := none }) s

/-- Tag t commits with a status by an event of a rank. A tag that has committed keeps its status, unless an event of
the same cc that R20 puts first decides it: the work of an aborted tag therefore stays until the cc ends. -/
def commitTag (t st rank : Nat) (s : State) : State :=
  if reachedNow t rank s then
    let s := { s with ops.doneNow := s.ops.doneNow.filter fun i => !decide (i = t),
                      ops.abortNow := s.ops.abortNow.filter fun i => !decide (i = t) }
    if rank = rankOwn then leaveOps t st (fixStatus t st rank (noteLate (tagOf t s) rank s))
    else { fixStatus t st rank s with ops.abortNow := s.ops.abortNow ++ [t] }
  else s

/-- Success: OK at rung 0, else OK_RECOVERED (05 Table 5.5). -/
def okStatus (t : Nat) (s : State) : Nat := if (tagOf t s).maxRung = 0 then stOk else stRecovered

/-- An OK_EARLY program that ends badly leaves a record in EARLY_LOG, and its staged copy is released (05 R127). -/
def failEarly (id st : Nat) (s : State) : State :=
  let x := tagOf id s
  if x.state = .free then s
  else setTag id {} (earlyFail st x.fn (ePaddr x.entry) (dropWork id s))

/-- An OK_EARLY program that has passed: its granules are free and it is gone. -/
def endEarly (id : Nat) (s : State) : State := setTag id {} (dropWork id s)

/-- The end of an operation, tagged, OK_EARLY or of a Graver job, with a failure status. An OK_EARLY
program is recorded with PROGRAM_FAIL unless its channel or its power is lost (DESIGN CHOICE, log entry 40). -/
def failOp (id st rank : Nat) (s : State) : State :=
  if isJob id then jobLost id (dropWork id s)
  else if isEarlyKey id then failEarly id (if st = stChannelLost ∨ st = stPowerFail then st else stProgramFail) s
  else commitTag id st rank s

/-- A tag of the operation table that is open and addresses a die. -/
def tagsOnDie (d : Nat) (s : State) : List Nat :=
  (s.ops.tags.filter fun e => decide (e.2.state ≠ .free) && decide (e.2.state ≠ .committed)
    && (entryDies e.2.entry).contains d).map (·.1)

/-- Open tags that address a channel. -/
def tagsOnChannel (c : Nat) (s : State) : List Nat :=
  (s.ops.tags.filter fun e => decide (e.2.state ≠ .free) && decide (e.2.state ≠ .committed)
    && ((entryDies e.2.entry).any (fun d => decide (dieChannel d = c))
        || (decide (eOpcode e.2.entry = opCensus) && decide (paChannel (ePaddr e.2.entry) = c)))).map (·.1)

/-- Several operations end with one status. -/
def failOps (ids : List Nat) (st rank : Nat) (s : State) : State := ids.foldl (fun s t => failOp t st rank s) s

/-- ERR_INFO of POISON: the tag; of a holder that has none the spec states no value. -/
def poisonTag (id : Nat) (s : State) : Nat := if id < 65536 then id else (freeNow s).toNat % 65536

/-- The operation that holds a granule is poisoned (10 R251): no further beat of its writes carries a byte. -/
def poison (id : Nat) (s : State) : State :=
  let s := bump .dpt 6 (raiseErr .dpt 0x0101 (poisonTag id s) (raiseEvt .dpt 1 s))
  failOp id stFabric rankOwn (cutWrites id (takeFree s))

/-- Class 0: the holder of the granule is poisoned; one that nobody holds is invalid. A spare is captured. -/
def ueStaging (idx : Nat) (s : State) : State :=
  let h := granuleHolder idx s
  let s := clearUpsets 0 idx (captureSpare 0 idx 0 s).1
  match h with
  | some g => poison g.1 s
  | none => s

/-- Granules of an id, from its lo-th on, are read out of staging; the second result says that one of them is poisoned
(17 R393, R394). -/
def readStaged (id lo n : Nat) (s : State) : State × Bool :=
  let found := s.mem.upsets.filter fun u =>
    decide (u.cls = 0) && (List.range n).any fun j => decide (Config.granuleAt id (lo + j) = u.idx)
  let s := found.foldl findUpset s
  match found.find? (·.beyond) with
  | some u => (ueStaging u.idx s, true)
  | none => (s, false)

end Sys2Proof.Machine
end

