-- ==== Sys2Proof/Machine/Reads.lean ====
section
/-!
DEFINITION. The course of a read (10 R239 to R250, 11 R264 to R279): candidates and start of a data-out, the judgement
of a codeword, forwarding, the ladder, stripe reconstruction, calibration, echo mismatches and bus noise.
-/

namespace Sys2Proof.Machine

/-! ### Codewords by die -/

/-- The codeword of an id read from a die, plane and index; a rung-5 member has another die or plane than the
codeword it serves. -/
def isCwAt (id d plane idx : Nat) (c : Cw) : Bool :=
  decide (c.id = id) && decide (c.die = d) && decide (c.plane = plane) && decide (c.idx = idx)

/-- It. -/
def cwAt (id d plane idx : Nat) (s : State) : Option Cw := s.dpt.cws.find? (isCwAt id d plane idx)

/-- Change of it. -/
def modCwAt (id d plane idx : Nat) (f : Cw → Cw) (s : State) : State :=
  { s with dpt.cws := s.dpt.cws.map fun c => if isCwAt id d plane idx c then f c else c }

/-- It leaves staging. -/
def dropCwAt (id d plane idx : Nat) (s : State) : State :=
  { s with dpt.cws := s.dpt.cws.filter fun c => !isCwAt id d plane idx c }

/-- Opcode of an id's entry. -/
def idOp (id : Nat) (s : State) : Nat := eOpcode (tagOf id s).entry

/-- A member read of a rung-5 reconstruction: it is made for a tag that is no job. -/
def isMemberOp (k : DieOpKind) (id : Nat) : Bool := decide (k = .jobRead) && !isJob id

/-- The rebuild of an id. -/
def rebuildOf (id : Nat) (s : State) : Option Rebuild := s.lvl.rebuilds.find? fun r => decide (r.id = id)

/-- The codeword indices that an operation reads for an id on a plane. -/
def wantedIdx (k : DieOpKind) (id plane : Nat) (s : State) : List Nat :=
  if isMemberOp k id then
    match rebuildOf id s with
    | some r => [r.idx]
    | none => []
  else ((tagOf id s).todo.filter fun c => decide (c.plane = plane)).map (·.idx)

/-! ### Candidates (07 R152) -/

/-- The outcome that a thread's conditions see for a codeword of a channel (10 R239). -/
def showOut (id d plane idx : Nat) (out : CwOut) (s : State) : State :=
  modChan (dieChannel d) (fun c => { c with outs := SMap.put (fun _ => (0, .none)) c.outs (plane * 4 + idx) (id, out) }) s

/-- The codeword awaits the sense of operation o. -/
def prepCw (o : DieOp) (d id plane idx : Nat) (s : State) : State :=
  let s := showOut id d plane idx .none s
  match cwAt id d plane idx s with
  | some _ =>
    modCwAt id d plane idx (fun c =>
      { c with block := o.block, page := o.page, slc := o.slc, rung := o.rung, attempt := o.attempt, out := .none,
               bits := 0, senses := c.senses.take o.attempt,
               gAcc := if o.attempt = 0 then 0 else c.gAcc }) s
  | none =>
    let w : Cw := { id := id, member := isMemberOp o.kind id, die := d, block := o.block, page := o.page,
                    plane := plane, idx := idx, slc := o.slc, rung := o.rung, attempt := o.attempt }
    { s with dpt.cws := s.dpt.cws ++ [w] }

/-- Rank of an id's class in the order of R146; a job ranks after every tag (09 R207). -/
def idRank (id : Nat) (s : State) : Nat := if isJob id then 3 else classRank (eClass (tagOf id s).entry)

/-- The data-outs of a sense become candidates, one per id and plane, ready at a cc (07 R150, R152). -/
def addOuts (o : DieOp) (d ready : Nat) (s : State) : State :=
  o.ids.foldl (fun s id =>
    (planesOf o.planes).foldl (fun s p =>
      match wantedIdx o.kind id p s with
      | [] => s
      | l =>
        let s := l.foldl (fun s i => prepCw o d id p i s) s
        addCand (dieChannel d)
          { id := id, die := d % 32, plane := p, kind := if idOp id s = opDestage then 2 else 0, cws := l,
            len := outCc d l.length s, ready := ready, cls := idRank id s, key := (tagOf id s).key,
            order := (tagOf id s).order } s) s) s

/-! ### Start of a data-out (07 R154, 10 R241, R249, R253, 12 R292) -/

/-- Rungs whose senses are accumulated. -/
def softRung (q : Nat) : Bool := decide (2 ≤ q) && decide (q ≤ 4)

/-- Granules of a sense accumulator (10 Table 10.6). -/
def accGran (d q : Nat) (s : State) : Nat := cwGran d s * (if q = 2 then 2 else if q = 3 then 3 else 7)

/-- The granules of codeword i of a data-out are requested; false when DPT refuses (10 R249, Table 10.6). -/
def askRead (d : Nat) (x : Xfer) (s : State) (i : Nat) : State × Bool :=
  if (cwAt x.id d x.plane i s).any fun w => decide (w.gRead = 0) then
    let g := cwGran d s
    if grantRead g s then (bump .dpt 0 (modCwAt x.id d x.plane i (fun w => { w with gRead := g }) s), true) else (s, false)
  else (s, true)

/-- So are those of its sense accumulator, on a soft rung. -/
def askAcc (d : Nat) (x : Xfer) (s : State) (i : Nat) : State × Bool :=
  match cwAt x.id d x.plane i s with
  | none => (s, true)
  | some w =>
    if softRung w.rung && decide (w.gAcc = 0) then
      let g := accGran d w.rung s
      if grantOther g s then (bump .dpt 0 (modCwAt x.id d x.plane i (fun w => { w with gAcc := g }) s), true) else (s, false)
    else (s, true)

/-- Requests for some codewords, in order; those granted. -/
def askEach (f : State → Nat → State × Bool) (l : List Nat) (s : State) : State × List Nat :=
  l.foldl (fun r i => let q := f r.1 i; (q.1, if q.2 then r.2 ++ [i] else r.2)) (s, [])

/-- The codewords of a data-out that DPT grants: data-out requests first, then accumulators; each refused codeword is a
STAGING_BACKPRESSURE deferral, DPT counter 1 (10 R249). -/
def askSpace (d : Nat) (x : Xfer) (s : State) : State × List Nat :=
  let a := askEach (askRead d x) x.cws s
  let b := askEach (askAcc d x) a.2 a.1
  (notePeak (bumpBy .dpt 1 (x.cws.length - b.2.length) b.1), b.2)

/-- A slot for codeword i of a DESTAGE data-out; a refusal is DSP counter 12 (12 R292). -/
def askSlot (x : Xfer) (s : State) (i : Nat) : State × Bool :=
  let a := eAct (tagOf x.id s).entry
  if (dspOf a s).slots.any fun z => decide (z.tag = x.id) && decide (z.idx = i) then (s, true)
  else if slotsUsed a s < 64 then (modDsp a (fun d => { d with slots := d.slots ++ [{ tag := x.id, idx := i }] }) s, true)
  else (bump (dspPage a) 12 s, false)

/-- Row address cycles of a page on a plane of a die. -/
def rowCycles (d plane block page : Nat) : List PadCycle :=
  (leBytes 3 (Config.rowAddr (d % 4) plane block page).toNat).map PadCycle.addr

/-- Column and row address cycles (log entry 48). -/
def fullCycles (col d plane block page : Nat) : List PadCycle :=
  (leBytes 2 col).map PadCycle.addr ++ rowCycles d plane block page

/-- Cycles of a data-out: change read column enhanced to its first codeword, turnaround, the codewords (08 Table 8.2,
10 R228). -/
def outCycles (c : Nat) (x : Xfer) (s : State) : List PadCycle :=
  let d := c * 32 + x.die
  let n := codewordBytes (pfCodeB (dieProf d s) s)
  match x.cws with
  | [] => []
  | i :: _ =>
    let r := (cwAt x.id d x.plane i s).map fun w => (w.block, w.page)
    [.cmd 0x06] ++ fullCycles (i * n) d x.plane ((r.map (·.1)).getD 0) ((r.map (·.2)).getD 0) ++ [.cmd 0xE0, .turn false]
    ++ x.cws.map fun _ => .dout n

/-- A data-out may bring its codewords to a decoder: ECC enabled, and for one that the correction stage has deferred
the stage free again (10 R241, R253). -/
def decoderOpen (c : Nat) (x : Xfer) (s : State) : Bool :=
  bootRead x.id s || rawJob x.id s
  || (pageActive .ecc s && !(x.stageWait && decide (2 ≤ (stageOf c s).length)))

/-- A data-out starts with the codewords that DPT, and for a DESTAGE the handoff FIFO, have room for; the others stay
candidates (07 R154). The second result says whether it did. -/
def startOut (c : Nat) (x : Xfer) (planned : Bool) (s : State) : State × Bool :=
  let d := c * 32 + x.die
  if !decoderOpen c x s || !(bootRead x.id s || pageActive .dpt s) then (s, false)
  else
    let r := askSpace d x s
    let r := if idOp x.id s = opDestage then askEach (askSlot x) r.2 r.1 else r
    if r.2.isEmpty then (r.1, false)
    else
      let s := r.1
      let rest := x.cws.filter fun i => !r.2.contains i
      let y := if rest.isEmpty then x else { x with cws := r.2, len := outCc d r.2.length s }
      let s := if rest.isEmpty then s else addCand c { x with cws := rest, len := outCc d rest.length s } s
      let sel := if planned then 0 else selectCc d s
      let t := s.cc + sel + (y.len - r.2.length * bytesCc c (codewordBytes (pfCodeB (dieProf d s) s)) s)
      let s := addLoadFrom t d .io (costIo d false s) (beginAct c (.transfer y) (some (dieVolume d)) (outCycles c y s) s)
      (modChan c (fun w => { w with busyTo := s.cc + sel + y.len }) s, true)

/-! ### Echo mismatches and bus noise (11 R278, R279) -/

/-- Retraining of every volume that bring-up has trained (08 R177); a request already standing absorbs another. -/
def retrainAll (c : Nat) (s : State) : State :=
  modChan c (fun x => if x.retrain.isEmpty then
    { x with retrain := (List.range 8).filter fun v => bitAt x.trained.toNat v, retrainAt := s.cc } else x) s

/-- A bus suspicion of channel c: an echo mismatch, or corrections on one DQ line. -/
def suspect (c : Nat) (echo : Bool) (dq : Nat) (s : State) : State :=
  let s := bump .lvl 13 s
  let w := regFld .lvl oLvlNoiseCfg 16 16 s
  let th := regFld .lvl oLvlNoiseCfg 12 4 s
  let n := noiseOf c s
  let fresh := decide (n.count = 0) || decide (w ≤ (s.tmb.frame - n.since).toNat)
  let n : Noise := if fresh then { count := 1, since := s.tmb.frame } else { n with count := n.count + 1 }
  if th ≠ 0 ∧ th ≤ n.count then
    let s := retrainAll c (setNoise c {} s)
    let v := 2 ^ 31 + fieldAt 16 c + fieldAt 11 (bit echo) + (if echo then 0 else fieldAt 8 dq)
    raiseEvt .lvl 2 { s with lvl.noiseStat := BitVec.ofNat 32 v }
  else setNoise c n s

/-- Bytes in which bit t of two byte strings differs: corrected bits on DQ line t. -/
def lineDiff (t : Nat) : List Byte → List Byte → Nat
  | a :: r, b :: u => (if (a ^^^ b).getLsbD t then 1 else 0) + lineDiff t r u
  | _, _ => 0

/-- The DQ test of R279 for a decoded codeword: before and after correction. -/
def noiseTest (c : Nat) (before after : List Byte) (s : State) : State :=
  let n := diffBits before after
  let share := regFld .lvl oLvlNoiseCfg 8 4 s
  if regFld .lvl oLvlNoiseCfg 0 8 s ≤ n ∧ n ≠ 0 then
    match (List.range 8).find? fun t => decide (share * n ≤ 16 * lineDiff t before after) with
    | some t => suspect c false t s
    | none => s
  else s

/-- What an ECHO_BAD on channel c does beside the tag's status (11 R278). -/
def echoFound (c : Nat) (bytes : List Byte) (s : State) : State :=
  let v := 2 ^ 63 + fieldAt 48 c + fieldAt 40 (metaIndex bytes) + metaEcho bytes
  let s := { s with lvl.lastEcho := BitVec.ofNat 64 v }
  let s := raiseEvt .lvl 3 (bump .lvl 12 s)
  modChan c (fun x => { x with strangerCheck := true }) (suspect c true 0 s)

/-! ### Outcomes of a decode (10 Table 10.3) -/

/-- ECC's counters, event and error for an outcome; corrected says that the decoder changed bits. -/
def noteOut (soft corrected : Bool) (c : Nat) (out : CwOut) (s : State) : State :=
  let miss := fun s => raiseErr .ecc 0x0100 (fieldAt 8 (bit soft) + c) (raiseEvt .ecc 1 (bump .ecc 9 s))
  let good := fun s => if soft then bump .ecc 6 s else if corrected then bump .ecc 1 s else s
  match out with
  | .none => s
  | .erased => bump .ecc 3 s
  | .clean => if soft then bump .ecc 6 s else bump .ecc 0 s
  | .corrected => good s
  | .echoBad => bump .ecc 4 (good s)
  | .miscorrect => miss (if soft then bump .ecc 7 s else if corrected then bump .ecc 1 s else s)
  | .failed => bump .ecc (if soft then 7 else 2) s

/-- The outcome is recorded on the codeword, its corrected bits on the tag (10 R241). -/
def setOut (id d plane idx : Nat) (bytes : List Byte) (out : CwOut) (bits : Nat) (s : State) : State :=
  let s := if seedOvr d s then bump .dpt 7 s else s
  let s := showOut id d plane idx out s
  let s := modCwAt id d plane idx (fun c => { c with bytes := bytes, out := out, bits := bits }) s
  if out = .clean ∨ out = .corrected then modTag id (fun x => { x with maxbits := satTo 255 (max x.maxbits bits) }) s
  else s

/-- A read-type opcode (07 R157). -/
def readType (o : Nat) : Bool := [opRead, opReadMp, opDestage, opCopy].contains o

/-! ### Queueing a sense -/

/-- The sense of a rung and attempt for the codewords of an id not decoded yet enters the queues of its die at the id's key
(07 R145), or goes on in the same Burin job (11 R273). -/
def queueSense (goes : Bool) (id page rung attempt : Nat) (s : State) : State :=
  let x := tagOf id s
  let d := paDie (ePaddr x.entry)
  let planes := ((x.todo.map (·.plane)).dedup).foldl (fun a p => a + 2 ^ p) 0
  let s := modTag id (fun x => { x with rung := rung, attempt := attempt }) s
  enqueue d { id := id, kind := if isJob id then .jobRead else .sense, planes := planes, block := paBlock (ePaddr x.entry),
              page := page, slc := slcOn x.entry d s, rung := rung, attempt := attempt, cls := idRank id s, key := x.key,
              order := x.order, goes := goes } s

/-- The first sense of a page enters the queues; those of later rungs and attempts go on in the job. -/
def enqueueSense (id page rung attempt : Nat) (s : State) : State :=
  queueSense (decide (rung ≠ 0) || decide (attempt ≠ 0)) id page rung attempt s

/-! ### Forwarding (10 R242, 04 R92) -/

/-- Position of a codeword among those of its entry (04 R92). -/
def cwPos (e : Entry) (plane idx : Nat) : Nat :=
  ((planesOf (ePlanes e)).filter fun p => decide (p < plane)).length * (eCwLast e - eCwFirst e + 1) + (idx - eCwFirst e)

/-- User bytes and, with META_OUT, metadata of a codeword of a READ or READ_MP leave on FAB[c mod 4]; the result counts
the requests. -/
def forwardRead (out : Bool) (id c plane idx : Nat) (user md : List Byte) (s : State) : State × Nat :=
  let e := (tagOf id s).entry
  let pos := cwPos e plane idx
  let addr := eBuffer e + pos * 4096
  let s := fabWrites (c % 4) addr user 0 (.data id plane idx) s
  let n := writeCount addr 4096
  if out = true ∧ eLen e = 1 ∧ eMetaAddr e ≠ 0 then
    (fabWrite (c % 4) { addr := eMetaAddr e + 32 * pos, bytes := md, kind := 0, purpose := .data id plane idx } s, n + 1)
  else (s, n)

/-- A codeword needs no more work. -/
def notTodo (id plane idx : Nat) (s : State) : State :=
  modTag id (fun x => { x with todo := x.todo.filter fun w => !(decide (w.plane = plane) && decide (w.idx = idx)) }) s

/-- Pages of the program unit of a die operation: one in SLC mode and for a Graver job. -/
def opUnit (d : Nat) (o : DieOp) (s : State) : Nat :=
  if o.slc ∨ o.kind = .jobProgram ∨ eSlc (tagOf ((o.ids[0]?).getD 0) s).entry = true then 1 else pfUnit (dieProf d s) s

/-- Pages per program unit that an entry works on: one when SLC_MODE is 1 (04 R91). -/
def entryPages (e : Entry) (s : State) : Nat :=
  if eSlc e then 1 else pfUnit (dieProf (paDie (ePaddr e)) s) s

/-- Destination plane of a COPY: the planes of the two masks correspond in ascending order. -/
def copyPlane (e : Entry) (plane : Nat) : Nat :=
  let i := ((planesOf (ePmask e)).filter fun p => decide (p < plane)).length
  ((planesOf (eDstPmask e))[i]?).getD 0

/-- A decoded codeword of a COPY becomes destination data in the granules that it holds (10 Table 10.6). -/
def forwardCopy (id d page plane idx g : Nat) (user : List Byte) (s : State) : State :=
  let e := (tagOf id s).entry
  let a := eDstPaddr e
  let u := entryPages e s
  let j := page - paPage (ePaddr e)
  let q := copyPlane e plane
  let i := ((planesOf (eDstPmask e)).filter fun p => decide (p < q)).length
  let s := match progOf id s with
    | some _ => modProg id (fun p => { p with granules := p.granules + g }) s
    | none => { s with dpt.progs := s.dpt.progs ++ [{ id := id, granules := g, early := false }] }
  encodeInto id (paDie a) q (paBlock a) (paPage a + j) idx (slcOn e (paDie a) s) ((i * u + j) * 4 + idx) user
    (dropCwAt id d plane idx s)

/-- The user bytes of a DESTAGE codeword stand in its slot (12 R292). -/
def forwardSlot (id idx : Nat) (user : List Byte) (s : State) : State :=
  modDsp (eAct (tagOf id s).entry) (fun d =>
    { d with slots := d.slots.map fun z => if z.tag = id ∧ z.idx = idx then { z with data := some user } else z }) s

/-- A decoded codeword is forwarded (10 R242); DPT counter 3 when its decode changed no bit, else 4. Its granules stay
with it until STG_REL or the commitment (10 Table 10.6), but those of a COPY become destination data. -/
def forwardCw (id d plane idx bits : Nat) (user md : List Byte) (s : State) : State :=
  let s := notTodo id plane idx (bump .dpt (if bits = 0 then 3 else 4) s)
  let page := ((cwAt id d plane idx s).map (·.page)).getD 0
  let o := idOp id s
  if o = opDestage then modCwAt id d plane idx (fun c => { c with gAcc := 0 }) (forwardSlot id idx user s)
  else if o = opCopy then
    forwardCopy id d page plane idx (((cwAt id d plane idx s).map (·.gRead)).getD 0) user s
  else
    let out := ((cwAt id d plane idx s).map fun c => bitAt c.dp 4).getD true
    let r := forwardRead out id (dieChannel d) plane idx user md s
    let s := modTag id (fun x => { x with wrOut := x.wrOut + r.2 }) r.1
    modCwAt id d plane idx (fun c => { c with wrOut := r.2, gAcc := 0 }) s

/-- Its granules are read out of staging, and unless they are poisoned it is forwarded (17 R394). -/
def forward (id d plane idx bits : Nat) (user md : List Byte) (s : State) : State :=
  let n := ((cwAt id d plane idx s).map fun c => c.gRead + c.gAcc).getD 0
  let r := readStaged id ((plane * 4 + idx) * 256) n s
  if r.2 then r.1 else forwardCw id d plane idx bits user md r.1

/-! ### End of a read -/

/-- A read whose codewords have all been forwarded commits with the last write response (01 Table 1.7), also when an
event of the same cc that R20 puts later has committed it before. -/
def finishRead (id : Nat) (s : State) : State :=
  let x := tagOf id s
  if reachedNow id rankOwn s ∧ (eOpcode x.entry = opRead ∨ eOpcode x.entry = opReadMp) ∧ x.todo = [] ∧ x.wrOut = 0 then
    commitTag id (okStatus id s) rankOwn s
  else if x.state = .committed then completeTag id s
  else s

/-- The destination program of a COPY enters the queues of its die (07 R145). -/
def queueCopyWrite (id : Nat) (s : State) : State :=
  let x := tagOf id s
  let a := eDstPaddr x.entry
  enqueue (paDie a) { id := id, kind := .program, planes := eDstPmask x.entry, block := paBlock a, page := paPage a,
                      slc := slcOn x.entry (paDie a) s, rung := 0, attempt := 0, cls := classRank (eClass x.entry), key := x.key,
                      order := x.order } s

/-! ### Calibration (11 R264 to R267) -/

/-- PT_LEVELS mask of page type t of a die. -/
def ptMask (d t : Nat) (s : State) : Nat := regFld .lvl (oLvlPtLevels + 4 * (pfCell (dieProf d s) s * 4 + t)) 0 15 s

/-- Bit of a page type in a state: it starts at 1 in state 0 and inverts at each of its levels (11 R267). -/
def stateBit (mask st : Nat) : Bool :=
  decide (((List.range st).filter fun l => bitAt mask l).length % 2 = 0)

/-- Bit pattern of a state, page types ascending. -/
def statePattern (d u st : Nat) (s : State) : List Bool := (List.range u).map fun t => stateBit (ptMask d t s) st

/-- R267 holds for a die's cell type: every level in exactly one mask, all patterns distinct. -/
def ptGood (d : Nat) (s : State) : Bool :=
  let u := pfUnit (dieProf d s) s
  let n := pfLevels (dieProf d s) s
  ((List.range n).all fun l => decide (((List.range u).filter fun t => bitAt (ptMask d t s) l).length = 1))
  && decide (((List.range (n + 1)).map fun st => statePattern d u st s).Nodup)

/-- The state that a bit pattern stands for. -/
def patternState (d u : Nat) (pat : List Bool) (s : State) : Option Nat :=
  (List.range (pfLevels (dieProf d s) s + 1)).find? fun st => decide (statePattern d u st s = pat)

/-- Bit b of a byte string. -/
def byteBit (b : Nat) (l : List Byte) : Bool := ((l[b / 8]?).getD 0).getLsbD (b % 8)

/-- Read and decoded state of the cell at bit b of codeword index i, when all its codewords qualify. -/
def cellStates (d i b : Nat) (l : List CalCw) (s : State) : Option (Nat × Nat) :=
  let u := pfUnit (dieProf d s) s
  let rows := l.filter fun c => decide (c.idx = i)
  if rows.length = u ∧ rows.all (fun c => c.good.isSome) = true then
    match patternState d u (rows.map fun c => byteBit b c.raw) s,
          patternState d u (rows.map fun c => byteBit b (c.good.getD [])) s with
    | some r, some g => some (r, g)
    | _, _ => none
  else none

/-- Read and decoded states of every cell that counts. -/
def calCells (d : Nat) (l : List CalCw) (s : State) : List (Nat × Nat) :=
  (List.range 4).flatMap fun i =>
    (List.range (8 * codewordBytes (pfCodeB (dieProf d s) s))).filterMap fun b => cellStates d i b l s

/-- up_l and down_l of a level; where R267 does not hold the results are undefined: free values (log entry 10). -/
def calCount (d l : Nat) (cells : List (Nat × Nat)) (s : State) : Nat × Nat :=
  if ptGood d s then
    ((cells.filter fun c => decide (c.2 + 1 = l) && decide (c.1 = l)).length,
     (cells.filter fun c => decide (c.2 = l) && decide (c.1 + 1 = l)).length)
  else (fieldOf (Config.freeValue (s.free + l)).toNat 0 32, fieldOf (Config.freeValue (s.free + l)).toNat 32 32)

/-- Delta of a level (11 R265); none when too few cells moved. -/
def calDelta (n : Nat × Nat) (s : State) : Option Int :=
  let m := regFld .lvl oLvlCalCfg 8 8 s
  let step := Int.ofNat (regFld .lvl oLvlCalCfg 0 4 s)
  if m ≤ n.1 + n.2 then
    some (clampInt (Int.tdiv (8 * (Int.ofNat n.1 - Int.ofNat n.2)) (Int.ofNat (n.1 + n.2))) (-step) step)
  else none

/-- A CALIBRATE has read its whole unit: the levels that move far enough are written, also with a Δ of 0, and it
commits OK; CAL_LAST.CHANGED counts those with another Δ (11 R265, R266). -/
def calEnd (id : Nat) (s : State) : State :=
  let x := tagOf id s
  let d := paDie (ePaddr x.entry)
  let page := paPage (ePaddr x.entry)
  let z := zoneOf d page false s
  let l := SMap.get (fun _ => []) s.lvl.calib id
  let frozen := (l.filter fun c => c.good.isNone).length
  let cells := calCells d l s
  let ds := (List.range (pfLevels (dieProf d s) s)).filterMap fun i =>
    (calDelta (calCount d (i + 1) cells s) s).map fun v => (i + 1, v)
  let ds := if l.all (fun c => c.good.isNone) || !pageActive .lvl s then [] else ds
  let s := if ptGood d s then s else { s with free := s.free + 16 }
  let s := ds.foldl (fun s v => addCal (levelPlace d z x.band v.1 s) v.2 s) s
  let s := if ds.isEmpty then s else bump .lvl 10 s
  let changed := (ds.filter fun v => !decide (v.2 = 0)).length
  commitTag id stOk rankOwn (calLast 1 x.band z d frozen changed s)

/-! ### Stripe reconstruction (11 R276, R277) -/

/-- The remaining member reads of an id are abandoned. -/
def dropMembers (r : Rebuild) (s : State) : State :=
  let s := (r.await.map (·.1)).dedup.foldl (fun s d => dropFromDie r.id d s) s
  { s with dpt.cws := s.dpt.cws.filter fun c => !(decide (c.id = r.id) && c.member),
           lvl.rebuilds := s.lvl.rebuilds.filter fun x => !decide (x.id = r.id) }

/-- A member can be read: its channel OWNED, its die in the roster and not quarantined. -/
def memberOk (m : Nat × Nat) (s : State) : Bool :=
  dieServes m.1 s && decide ((chanOf (dieChannel m.1) s).own = .owned)

/-- A member read enters the queues of its die at the tag's key. -/
def enqueueMember (id block page : Nat) (slc : Bool) (rung attempt : Nat) (m : Nat × Nat) (s : State) : State :=
  let x := tagOf id s
  enqueue m.1 { id := id, kind := .jobRead, planes := 2 ^ m.2, block := block, page := page, slc := slc, rung := rung,
                attempt := attempt, cls := idRank id s, key := x.key, order := x.order } s

/-- Metadata of a rebuilt codeword (11 R277). -/
def rebuiltMeta (codeB : Bool) (echo idx : Nat) (slc : Bool) (user : List Byte) : List Byte :=
  metadata codeB echo slc idx ⟨0, 0⟩ 0 user

/-- A codeword has been rebuilt as the XOR of its members and is forwarded (11 R277). -/
def rebuilt (id plane idx : Nat) (user : List Byte) (s : State) : State :=
  let e := (tagOf id s).entry
  let d := paDie (ePaddr e)
  let page := ((cwAt id d plane idx s).map (·.page)).getD 0
  let md := rebuiltMeta (pfCodeB (dieProf d s) s) (paddrOf d plane (paBlock (ePaddr e)) page) idx (slcOn e d s) user
  forward id d plane idx 1 user md s

/-- The next undecoded codeword of an id that rung 5 has not tried: its members are read. A codeword with a member that
cannot be read fails at once; one without other members is their XOR, all zeros. False when none is left. -/
def startRebuild : Nat → Nat → State → State × Bool
  | 0, _, s => (s, false)
  | f + 1, id, s =>
    let x := tagOf id s
    let d := paDie (ePaddr x.entry)
    match x.todo.filterMap (fun w => (cwAt id d w.plane w.idx s).bind fun c =>
        if c.rung = 5 then none else some c) with
    | [] => (s, false)
    | c :: _ =>
      let s := modCwAt id d c.plane c.idx (fun w => { w with rung := 5, out := .failed }) s
      let ms := match stripeGroup d c.plane s with
        | some g => (stripeMembers g s).filter fun m => !decide (m = (d, c.plane))
        | none => []
      if (stripeGroup d c.plane s).isNone || ms.any (fun m => !memberOk m s) then startRebuild f id s
      else if ms.isEmpty then startRebuild f id (rebuilt id c.plane c.idx (List.replicate 4096 0) s)
      else
        let s := { s with lvl.rebuilds := s.lvl.rebuilds ++
          [{ id := id, plane := c.plane, idx := c.idx, await := ms, acc := [], failed := false }] }
        (ms.foldl (fun s m => enqueueMember id c.block c.page c.slc 0 0 m s) s, true)

/-! ### The ladder (11 R270 to R275) -/

/-- The channel of a soft request, its key and class, and the cc in which it is made. -/
def softReq (id plane idx : Nat) (s : State) : SoftReq :=
  let x := tagOf id s
  let d := paDie (ePaddr x.entry)
  { id := id, plane := plane, idx := idx, key := x.key, cls := idRank id s, order := s.cc, channel := dieChannel d,
    iters := leIter (ladderElem (eLrow x.entry) x.rung s), codeB := pfCodeB (dieProf d s) s }

/-- A codeword whose last sense has come is queued for the soft pool (10 R244); ECC counter 5. -/
def queueSoft (id plane idx : Nat) (s : State) : State :=
  bump .ecc 5 { s with ecc.queue := s.ecc.queue ++ [softReq id plane idx s] }

/-- The user bytes of a page that a job has read, in codeword order. -/
def pageUser (id : Nat) (s : State) : List Byte :=
  ((sortBy (fun a b => decide (a.idx < b.idx)) (s.dpt.cws.filter fun c => decide (c.id = id))).flatMap
    fun c => cwUser c.bytes)

/-- The codewords still to be decoded, as staging holds them. -/
def todoRows (id : Nat) (s : State) : List Cw :=
  let d := paDie (ePaddr (tagOf id s).entry)
  (tagOf id s).todo.filterMap fun w => cwAt id d w.plane w.idx s

/-! ### Reads served from a staged copy (05 R124) -/

/-- The staged copy of an OK_EARLY program that holds a page, and the place of its first codeword there. -/
def earlyHolder (d plane block page : Nat) (slc : Bool) (s : State) : Option (Nat × Nat) :=
  (s.ops.tags.filterMap fun x =>
    let e := x.2.entry
    let a := ePaddr e
    let u := entryPages e s
    let i := ((planesOf (ePmask e)).filter fun p => decide (p < plane)).length
    if 65536 ≤ x.1 ∧ x.1 < 1000000 ∧ paDie a = d ∧ bitAt (ePmask e) plane = true ∧ paBlock a = block ∧ entrySlc e s = slc
        ∧ paPage a ≤ page ∧ page < paPage a + u then
      some (x.1, (i * u + (page - paPage a)) * 4)
    else none).head?

/-- The planes of a page still wanted by a tag that stand in staging, each with its holder and place. -/
def stagedPlanes (id page : Nat) (s : State) : List (Nat × Nat × Nat) :=
  let x := tagOf id s
  let a := ePaddr x.entry
  ((x.todo.map (·.plane)).dedup).filterMap fun p =>
    (earlyHolder (paDie a) p (paBlock a) page (entrySlc x.entry s) s).map fun h => (p, h)

/-- The codewords wanted of them: plane, index, holder, place. -/
def stagedCws (id page : Nat) (s : State) : List (Nat × Nat × Nat × Nat) :=
  (stagedPlanes id page s).flatMap fun p =>
    ((tagOf id s).todo.filter fun w => decide (w.plane = p.1)).map fun w => (p.1, w.idx, p.2.1, p.2.2 + w.idx)

/-- There is room for n codewords of a staged copy: granules for a COPY's data, slots for a DESTAGE (10 R249, 12
R292). -/
def serveRoom (id n : Nat) (s : State) : Bool :=
  let e := (tagOf id s).entry
  if eOpcode e = opCopy then pageActive .ecc s && pageActive .dpt s && grantOther (n * cwGran (paDie (ePaddr e)) s) s
  else if eOpcode e = opDestage then decide (slotsUsed (eAct e) s + n ≤ 64)
  else true

/-- A codeword of a staged copy is served: it needs no decode, and the copy stays until the writes are answered. -/
def serveCw (id page : Nat) (s : State) (w : Nat × Nat × Nat × Nat) : State :=
  let e := (tagOf id s).entry
  let d := paDie (ePaddr e)
  let b := ((progOf w.2.2.1 s).map fun p => SMap.get (fun _ => []) p.cws w.2.2.2).getD []
  let s := notTodo id w.1 w.2.1 (bump .dpt 3 s)
  if eOpcode e = opDestage then
    forwardSlot id w.2.1 (cwUser b) (modDsp (eAct e) (fun d => { d with slots := d.slots ++ [{ tag := id, idx := w.2.1 }] }) s)
  else if eOpcode e = opCopy then notePeak (bump .dpt 0 (forwardCopy id d page w.1 w.2.1 (cwGran d s) (cwUser b) s))
  else
    let r := forwardRead true id (dieChannel d) w.1 w.2.1 (cwUser b) (cwMeta b) s
    let s := modTag id (fun x => { x with wrOut := x.wrOut + r.2 }) r.1
    modProg w.2.2.1 (fun p => { p with readers := if p.readers.contains id then p.readers else p.readers ++ [id] }) s

/-- Every codeword that a page reads. -/
def pageTodo (e : Entry) : List CwId :=
  (planesOf (ePlanes e)).flatMap fun p => (List.range 4).map fun i => { plane := p, idx := i }

/-- The page at which an entry's reads begin: a CALIBRATE reads the whole program unit that contains its page (11
R264). -/
def firstPage (e : Entry) (s : State) : Nat :=
  let p := paPage (ePaddr e)
  if eOpcode e = opCalibrate then p - p % max 1 (entryPages e s) else p

/-- Another page of a COPY's or CALIBRATE's unit follows. -/
def morePages (id page : Nat) (s : State) : Bool :=
  let e := (tagOf id s).entry
  (decide (eOpcode e = opCopy) || decide (eOpcode e = opCalibrate))
  && decide (page + 1 < firstPage e s + entryPages e s)

/-- The last page of an operation has been read and decoded (LVL counters 0 to 5). -/
def readEnd (id : Nat) (s : State) : State :=
  let x := tagOf id s
  let o := eOpcode x.entry
  let s := bump .lvl (min x.maxRung 5) s
  if o = opCopy then queueCopyWrite id s
  else if o = opDestage then modTag id (fun x => { x with withdrawn := true, armed := false }) s
  else finishRead id s

/-- A page is read: the planes that stand in staging are served from there (05 R124), the others sensed; a COPY goes on
to the next page of its unit. With no room for the copy the page waits for STAGING_REGRANT (DPT counter 1). -/
def readPage : Nat → Nat → Nat → State → State
  | 0, _, _, s => s
  | f + 1, id, page, s =>
    let l := if readType (idOp id s) && !isJob id then stagedCws id page s else []
    if l.isEmpty then enqueueSense id page 0 0 (modTag id (fun x => { x with pageWait := none }) s)
    else if !serveRoom id l.length s then bump .dpt 1 (modTag id (fun x => { x with pageWait := some page }) s)
    else
      let s := l.foldl (serveCw id page) (modTag id (fun x => { x with state := .issued, pageWait := none }) s)
      if (tagOf id s).todo ≠ [] then enqueueSense id page 0 0 s
      else if morePages id page s then
        readPage f id (page + 1) (modTag id (fun x => { x with todo := pageTodo x.entry }) s)
      else readEnd id s

/-- All codewords of a page have been decoded: a COPY or CALIBRATE goes on to the next page of its unit, otherwise the
operation has its data. -/
def pageDone (id page : Nat) (s : State) : State :=
  let s := applyValley id page s
  let o := idOp id s
  if isJob id then
    let b := pageUser id s
    jobReadEnd id (some b) (dropWork id s)
  else if morePages id page s then
    let s := modTag id (fun x => { x with todo := pageTodo x.entry }) s
    let s := if o = opCalibrate then { s with dpt.cws := s.dpt.cws.filter fun c => !decide (c.id = id) } else s
    readPage 4096 id (page + 1) s
  else if o = opCalibrate then calEnd id s
  else readEnd id s

/-- cc until the next retest of a held tag: LADDER_CFG.RETEST, or the number of tags held where that is more
(11 R274). -/
def retestCc (s : State) : Nat :=
  max (regFld .lvl oLvlLadderCfg 16 16 s) (s.ops.tags.filter fun e => e.2.ladderHeld.isSome).length

/-- LADDER_NEXT after a rung has failed (11 R273): counters 6 to 8, event LADDER_SHORT. -/
def ladderStep (id page : Nat) (s : State) : State :=
  let s := applyValley id page s
  let x := tagOf id s
  let e := x.entry
  let d := paDie (ePaddr e)
  let grp := x.todo.all fun w => (stripeGroup d w.plane s).isSome
  let r := ladderNext e x.key x.rung x.todo.length grp s
  let s := if r.2 = 0 then s else raiseEvt .lvl 5 (bumpBy .lvl 7 r.2 s)
  match r.1 with
  | .run q =>
    if q = 5 then
      let s := modTag id (fun x => { x with rung := 5, attempt := 0, maxRung := max x.maxRung 5 }) s
      (startRebuild 64 id s).1
    else enqueueSense id page q 0 s
  | .hold =>
    bump .lvl 8 (modTag id (fun x => { x with ladderHeld := some (s.cc + retestCc s) }) s)
  | .fail q =>
    let s := bump .lvl 6 s
    if isJob id then jobReadEnd id none (dropWork id s)
    else commitTag id stUncorrectable rankOwn (modTag id (fun x => { x with maxRung := max x.maxRung q }) s)

/-- Rung 5 could begin for no codeword, or has rebuilt all without a read: the ladder goes on, or the page is done. -/
def rungOver (id page : Nat) (s : State) : State :=
  let x := tagOf id s
  if x.rung = 5 ∧ (rebuildOf id s).isNone = true ∧ x.state ≠ .committed ∧ x.ladderHeld = none then
    if x.todo = [] then pageDone id page s else ladderStep id page s
  else s

/-- LADDER_NEXT after a rung has failed. -/
def ladderGo (id page : Nat) (s : State) : State := rungOver id page (ladderStep id page s)

/-- After a codeword of an id has been judged or sensed: the next sense, the next rung, or the end of the page. -/
def readStep (id : Nat) (s : State) : State :=
  let x := tagOf id s
  let rows := todoRows id s
  let page := stagedPage id s
  if x.state = .free ∨ (x.state = .committed ∧ reachedNow id rankOwn s = false) then s
  else if x.todo = [] then pageDone id page s
  else
    let need := rungSenses (eLrow x.entry) x.rung s
    if softRung x.rung && x.attempt + 1 < need then
      if rows.all fun c => decide (x.attempt < c.senses.length) then enqueueSense id page x.rung (x.attempt + 1) s else s
    else if rows.any fun c => decide (c.out = .none) || decide (c.out = .clean) || decide (c.out = .corrected) then s
    else if x.rung = 1 ∧ x.attempt + 1 < need then enqueueSense id page 1 (x.attempt + 1) s
    else ladderGo id page s

/-- A rebuild fails for its codeword: the next codeword, or the ladder. -/
def rebuildFail (r : Rebuild) (s : State) : State :=
  let s := dropMembers r s
  let n := startRebuild 64 r.id s
  if n.2 then n.1 else readStep r.id n.1

/-- A member of a rebuild has been judged on channel c (11 R277). -/
def memberJudged (id d plane idx : Nat) (s : State) : State :=
  match rebuildOf id s, cwAt id d plane idx s with
  | some r, some c =>
    let lrow := eLrow (tagOf id s).entry
    let le1 := ladderElem lrow 1 s
    if c.out = .clean ∨ c.out = .corrected then
      let r := { r with await := r.await.filter fun m => !decide (m = (d, plane)),
                        acc := xorBytes r.acc (cwUser c.bytes) }
      let s := dropCwAt id d plane idx { s with lvl.rebuilds := s.lvl.rebuilds.map fun x =>
        if x.id = id then r else x }
      if r.await = [] then
        let s := rebuilt id r.plane r.idx r.acc { s with lvl.rebuilds := s.lvl.rebuilds.filter fun x => !decide (x.id = id) }
        let n := startRebuild 64 id s
        if n.2 then n.1 else readStep id n.1
      else s
    else if c.out = .failed ∨ c.out = .miscorrect then
      let next := if c.rung = 0 then 0 else c.attempt + 1
      if rungEnabled 1 le1 && decide (next < leAttempts le1) then
        enqueueMember id c.block c.page c.slc 1 next (d, plane) s
      else rebuildFail r s
    else rebuildFail r s
  | _, _ => s

/-- A codeword of a CALIBRATE has been judged; a frozen one counts in counter 11 (11 R264, R266). -/
def calJudged (id d plane idx : Nat) (s : State) : State :=
  match cwAt id d plane idx s with
  | none => s
  | some c =>
    let decoded := decide (c.out = .clean) || decide (c.out = .corrected)
    let ok := decoded && decide (c.bits ≤ regFld .lvl oLvlCalCfg 16 8 s) && !blockBad d plane c.block s
    let e : CalCw := { page := c.page, plane := plane, idx := idx, raw := (c.senses[0]?).getD [],
                       good := if ok then some (scrambleAt d c.block c.page idx c.bytes s) else none }
    let l := SMap.get (fun _ => []) s.lvl.calib id ++ [e]
    let s := if ok then s else bump .lvl 11 s
    let s := { s with lvl.calib := SMap.put (fun _ => []) s.lvl.calib id l }
    readStep id (notTodo id plane idx s)

/-- A codeword found erased commits ERASED_PAGE at once (11 R275); its other codewords stay to the end of the cc, since an
ECHO_BAD of the same cc makes it ECHO_MISMATCH. -/
def commitErased (id : Nat) (s : State) : State :=
  if reachedNow id rankOwn s then
    let s := fixStatus id stErased rankOwn s
    { s with ops.abortNow := (s.ops.abortNow.filter fun i => !decide (i = id)) ++ [id] }
  else s

/-- A codeword with ECHO_BAD commits ECHO_MISMATCH at once, in place of an ERASED_PAGE of the same cc (11 R275). -/
def commitEcho (id : Nat) (s : State) : State :=
  let x := tagOf id s
  if x.state = .committed ∧ x.status = stErased ∧ x.commitCc = s.cc ∧ x.commitRank = rankOwn then
    leaveOps id stEcho (fixStatus id stEcho rankOwn
      { s with ops.abortNow := s.ops.abortNow.filter fun i => !decide (i = id) })
  else commitTag id stEcho rankOwn s

/-- What follows from the outcome of a codeword on channel c. -/
def cwJudged (c id d plane idx : Nat) (s : State) : State :=
  match cwAt id d plane idx s with
  | none => s
  | some w =>
    let s := if w.out = .echoBad then echoFound c w.bytes s else s
    if w.member then memberJudged id d plane idx s
    else if isJob id then
      if w.out = .clean ∨ w.out = .corrected then readStep id (notTodo id plane idx s)
      else if w.out = .echoBad ∨ (w.out = .erased ∧ w.rung = 0) then jobReadEnd id none (dropWork id s)
      else readStep id s
    else if w.out = .echoBad then commitEcho id (if idOp id s = opCalibrate then bump .lvl 11 s else s)
    else if idOp id s = opCalibrate then calJudged id d plane idx s
    else if w.out = .erased ∧ w.rung = 0 then commitErased id s
    else if w.out = .clean ∨ w.out = .corrected then
      if !(bitAt w.dp 6 || decide (idOp id s = opCopy)) then s
      else readStep id (forward id d plane idx w.bits (cwUser w.bytes) (cwMeta w.bytes) s)
    else readStep id s

/-! ### A codeword off the pads (10 R239, R240) -/

/-- The DP bits that a codeword comes under: those of the word whose data action is on the pads; else those of the read
routine, RAND, ECHO, FWD and META_OUT with DEC_HARD, or on a soft rung with SENSE_ACC (10 R243). -/
def dpOf (c : Nat) (w : Cw) (s : State) : Nat := (chanOf c s).dp.getD (if softRung w.rung then 0x8F0 else 0xAD0)

/-- The codeword as it goes into staging: descrambled with RAND. -/
def offPads (c d idx : Nat) (w : Cw) (raw : List Byte) (s : State) : List Byte :=
  if bitAt (dpOf c w s) 11 then scrambleAt d w.block w.page idx raw s else raw

/-- At most ERASED_THR of its bits, as they left the pads, are zero (10 R240). -/
def erasedRaw (raw : List Byte) (s : State) : Bool := decide (zerosOf raw ≤ regFld .ecc oEccErasedThr 0 13 s)

/-- A codeword that comes in now would be the third in need of correction: the data-out that brings it is deferred (10
R241); while ECC is disabled, any that would come to a decoder (10 R253). -/
def decodeDefers (c id d plane i : Nat) (raw : List Byte) (s : State) : Bool :=
  match cwAt id d plane i s with
  | none => false
  | some w =>
    !rawJob id s && !bootRead id s && bitAt (dpOf c w s) 9
    && (!pageActive .ecc s
        || (decide (2 ≤ (stageOf c s).length) && !erasedRaw raw s
            && !syndromeZero (pfCodeB (dieProf d s) s) (offPads c d i w raw s)))

/-- The hard path: erased test on the bytes as they left the pads, then syndrome and checks; a codeword with a non-zero
syndrome waits in the correction stage. -/
def hardCodeword (c id d plane idx : Nat) (w : Cw) (raw : List Byte) (s : State) : State :=
  let clear := offPads c d idx w raw s
  let s := modCwAt id d plane idx (fun w => { w with read := clear }) s
  let s := if idOp id s = opCalibrate then modCwAt id d plane idx (fun w => { w with senses := [raw] }) s else s
  if erasedRaw raw s then
    cwJudged c id d plane idx (setOut id d plane idx clear .erased 0 (noteOut false false c .erased s))
  else if syndromeZero (pfCodeB (dieProf d s) s) clear then
    let out := checkDecoded w clear .clean s
    cwJudged c id d plane idx (setOut id d plane idx clear out 0 (noteOut false false c out s))
  else
    modStage c (fun l => l ++ [(id, d, plane, idx)]) (modCwAt id d plane idx (fun w => { w with bytes := clear }) s)

/-- The senses that a soft decode takes: three, five, or the seven of rung 4 (10 R244). -/
def softInputOk (w : Cw) : Bool :=
  decide (w.senses.length = 3) || decide (w.senses.length = 5) || (decide (w.senses.length = 7) && decide (w.rung = 4))

/-- DEC_SOFT for a codeword: it joins the soft pool, or fails at once with another number of senses (10 R244). -/
def decodeSoft (id d plane idx : Nat) (s : State) : State :=
  match cwAt id d plane idx s with
  | none => s
  | some w =>
    if softInputOk w then queueSoft id plane idx s
    else
      let c := dieChannel d
      cwJudged c id d plane idx (setOut id d plane idx w.bytes .failed 0 (noteOut true false c .failed (bump .ecc 5 s)))

/-- A sense that SENSE_ACC accumulates (10 R244). The staged copy of the codeword is the one of the hard path; the first
sense stands in for it where none is staged (log entry 11). With the last sense of the rung the read routine asks for
the decode, as a word with DEC_SOFT does. -/
def softCodeword (c id d plane idx : Nat) (w : Cw) (raw : List Byte) (s : State) : State :=
  let clear := offPads c d idx w raw s
  let s := modCwAt id d plane idx (fun w =>
    { w with senses := w.senses ++ [clear], bytes := if w.bytes.isEmpty then clear else w.bytes,
             read := if w.read.isEmpty then clear else w.read }) s
  let asked := match (chanOf c s).dp with
    | some dp => bitAt dp 8
    | none => decide (rungSenses (eLrow (tagOf id s).entry) w.rung s ≤ w.attempt + 1)
  if asked then decodeSoft id d plane idx s else readStep id s

/-- A raw codeword of a block that recovery examines (14 R356): its zero bits are counted. -/
def rawCodeword (id d plane idx : Nat) (raw : List Byte) (s : State) : State :=
  let s := notTodo id plane idx (modCwAt id d plane idx (fun w => { w with bits := zerosOf raw }) s)
  if (tagOf id s).todo = [] then
    let zs := (sortBy (fun a b => decide (a.idx < b.idx)) (s.dpt.cws.filter fun w => decide (w.id = id))).map (·.bits)
    match jobOf id s with
    | some (.recov last) => recovRead last (some zs) (dropJob id (dropWork id s))
    | _ => s
  else s

/-- The last byte of a codeword of a data-out on channel c has left the pads. -/
def codewordIn (c id d plane idx : Nat) (raw : List Byte) (s : State) : State :=
  match cwAt id d plane idx s with
  | none => s
  | some w =>
    let dp := dpOf c w s
    let s := clearStaged id ((plane * 4 + idx) * 256) (cwGran d s) s
    let s := modCwAt id d plane idx (fun w => { w with dp := dp }) s
    let w := { w with dp := dp }
    if rawJob id s then rawCodeword id d plane idx raw s
    else if bitAt dp 5 then softCodeword c id d plane idx w raw s
    else if bitAt dp 9 then hardCodeword c id d plane idx w raw s
    else modCwAt id d plane idx (fun w => { w with bytes := offPads c d idx w raw s }) s

/-! ### Ends of corrections and soft decodes (10 R241, R245, 11 R271) -/

/-- The codeword at the head of channel c's correction stage ends with the bits at some positions inverted: decoded if
its syndrome is then zero. While ECC is disabled no correction ends, but one of BOOT_FETCH (10 R253). -/
def correctionEnd (c : Nat) (flips : List Nat) (s : State) : State :=
  match stageOf c s with
  | [] => s
  | (id, d, plane, idx) :: r =>
    if !(pageActive .ecc s || bootRead id s) then s
    else
    let s := setStage c r s
    match cwAt id d plane idx s with
    | none => s
    | some w =>
      let res := flipBits w.bytes flips
      if syndromeZero (pfCodeB (dieProf d s) s) res then
        let out := checkDecoded w res .corrected s
        let s := noteOut false true c out s
        let s := noiseTest c w.bytes res s
        cwJudged c id d plane idx (setOut id d plane idx res out (diffBits w.bytes res) s)
      else
        cwJudged c id d plane idx (setOut id d plane idx w.bytes .failed 0 (noteOut false false c .failed s))

/-- Bits that differ between senses i and j of a codeword. -/
def senseDiff (w : Cw) (i j : Nat) : Nat := diffBits ((w.senses[i]?).getD []) ((w.senses[j]?).getD [])

/-- The valley search of rung 4 (11 R270): 0, then -1, then +1 in a tie. -/
def valleyK (w : Cw) : Int :=
  let cost := fun (k : Nat) => senseDiff w (k - 1) k + senseDiff w k (k + 1)
  let a := cost 3
  let b := cost 2
  let c := cost 4
  if a ≤ b ∧ a ≤ c then 0 else if b ≤ c then -1 else 1

/-- Rung 4 of an operation has judged a codeword: those not decoded are counted as frozen with its end. -/
def valleyBegun (id : Nat) (s : State) : State :=
  if (SMap.get (fun _ => none) s.lvl.valley id).isNone then
    { s with lvl.valley := SMap.put (fun _ => none) s.lvl.valley id (some {}) }
  else s

/-- A codeword decoded at rung 4 takes part in R271, or is frozen (11 R266). Of one codeword index the lowest plane gives V
(DESIGN CHOICE, log entry 146). -/
def noteValley (id d plane idx bits : Nat) (w : Cw) (s : State) : State :=
  let e := (tagOf id s).entry
  let v := (SMap.get (fun _ => none) s.lvl.valley id).getD {}
  let off := valleyK w * Int.ofNat (leSpacing (ladderElem (eLrow e) 4 s))
  let frozen := decide (regFld .lvl oLvlCalCfg 16 8 s < bits) || blockBad d plane w.block s
  let pos := 4 * idx + plane
  let v : Valley :=
    if frozen then { v with frozen := v.frozen + 1 }
    else if off = 0 then v
    else match v.best with
      | some (p, _) => if pos < p then { v with best := some (pos, off) } else v
      | none => { v with best := some (pos, off) }
  { s with lvl.valley := SMap.put (fun _ => none) s.lvl.valley id (some v) }

/-- Value of an LLR register's byte i. -/
def llrByte (off i : Nat) (s : State) : BitVec 8 := BitVec.ofNat 8 (regFld .ecc off (8 * i) 8 s)

/-- Input value for n of a number of planes (10 R244): LLR2 for three, LLR3 for five. -/
def llrOf (planes n : Nat) (s : State) : BitVec 8 :=
  if planes = 3 then llrByte oEccLlr2 n s
  else if n < 4 then llrByte oEccLlr3Lo n s
  else llrByte oEccLlr3Hi (n - 4) s

/-- The planes of a decode: all senses, or at rung 4 the five around the valley. -/
def softPlanes (w : Cw) : List (List Byte) :=
  if w.senses.length = 7 then (w.senses.drop (1 + valleyK w).toNat).take 5 else w.senses

/-- The signed input values of a codeword's bits (10 R244). -/
def softInput (w : Cw) (s : State) : List (BitVec 8) :=
  let ps := softPlanes w
  (List.range (8 * w.bytes.length)).map fun b => llrOf ps.length (ps.filter (byteBit b)).length s

/-- A soft decode ends with the bits at some positions of the staged codeword inverted; the result is written back in
either case (10 R245). -/
def softEnd (q : SoftReq) (flips : List Nat) (s : State) : State :=
  let d := paDie (ePaddr (tagOf q.id s).entry)
  match cwAt q.id d q.plane q.idx s with
  | none => s
  | some w =>
    let res := flipBits w.bytes flips
    let s := modCwAt q.id d q.plane q.idx (fun w => { w with gAcc := 0 }) s
    if syndromeZero q.codeB res then
      let bits := diffBits w.read res
      let out := checkDecoded w res .corrected s
      let s := noteOut true true q.channel out s
      let s := noiseTest q.channel w.read res s
      let s := if w.rung ≠ 4 then s
        else if out = .corrected then noteValley q.id d q.plane q.idx bits w s
        else valleyBegun q.id s
      cwJudged q.channel q.id d q.plane q.idx (setOut q.id d q.plane q.idx res out bits s)
    else
      let s := if w.rung = 4 then valleyBegun q.id s else s
      cwJudged q.channel q.id d q.plane q.idx
        (setOut q.id d q.plane q.idx res .failed 0 (noteOut true false q.channel .failed s))

/-! ### Losing a die (11 R277) -/

/-- The rebuilds with a member on die d that is still awaited fail. -/
def loseMembers (d : Nat) (s : State) : State :=
  (s.lvl.rebuilds.filter fun r => r.await.any fun m => decide (m.1 = d)).foldl
    (fun s r => match rebuildOf r.id s with
      | some r => rebuildFail r s
      | none => s) s

end Sys2Proof.Machine
end

