-- ==== Sys2Proof/Machine/Poller.lean ====
section
/-!
DEFINITION. What RIF does with units it has read (04 R88, R94, R101 to R106): the entry at INDEX, its follow-on units,
prefetching, consumption.
-/

namespace Sys2Proof.Machine

/-! ### Consumption (04 R88, R94) -/

/-- INDEX moves on by n units; past the last it becomes 0 and PHASE inverts. -/
def advanceIndex (n : Nat) (g : Ring) : Ring :=
  let i := g.index + n
  let g := { g with consumed := g.consumed + n, dirty := true }
  if ringUnits g ≤ i then { g with index := i - ringUnits g, phase := !g.phase } else { g with index := i }

/-- The entry that ring r offers is consumed: RIF counter 2, and the next unit is polled no sooner than 2 cc later
(04 R102) unless it is prefetched. -/
def consumeUnits (r : Nat) (e : Entry) (s : State) : State :=
  let s := bump .rif 2 s
  let s := modRing r (fun g =>
    let g := advanceIndex (eLen e + 1) g
    { g with offer := none, due := some (s.cc + 2), tagWait := false, recWait := false,
             prefetched := if g.index = 0 then [] else g.prefetched.filter fun u => decide (g.index ≤ u.1) }) s
  touchRing r s

/-- The entry becomes a member of the ring's open batch, which closes on CBATCH or with its BATCH_MAX + 1-th member
(04 R94). -/
def joinMember (r t : Nat) (e : Entry) (s : State) : State :=
  let g := ringOf r s
  let s := setRing r { g with batches := joinBatch ⟨t, g.consumed, eCookie e, none⟩ g.batches } s
  if eCbatch e || decide (g.batchMax + 1 ≤ openCount (ringOf r s).batches) then closeBatch r s else s

/-! ### Found units (04 R88, R102 to R106) -/

/-- Doze ends, through WAKING (13 R322). -/
def wakeDoze (s : State) : State :=
  if s.pwr.state = .doze then { s with pwr := { s.pwr with state := .waking, since := s.cc } } else s

/-- A read of n units of ring r from unit i on. -/
def readUnits (r i n : Nat) (mk : Nat → ReadFor) (s : State) : State :=
  let g := ringOf r s
  fabReads (fnPort g.fn) (unitAddr g i) (n * 32) 1 (fun off => mk (i + off / 32)) s

/-- RIF polls and fetches: enabled, and no power failure (04 R87, 13 Table 13.6). -/
def rifPolls (s : State) : Bool := pageActive .rif s && !pfRunning s

/-- The follow-on units of the entry at INDEX are read (04 R104). -/
def readFollowOn (r : Nat) (s : State) : State :=
  let g := ringOf r s
  match g.partialUnit with
  | some w =>
    if g.fetchHeld then
      readUnits r (g.index + 1) (eLen { ring := r, unit := g.index, words := w }) (fun u => .units r g.gen u)
        (setRing r { g with fetchHeld := false } s)
    else s
  | none => s

/-- The prefetch that waits is read (04 R105). -/
def readPrefetch (r : Nat) (s : State) : State :=
  let g := ringOf r s
  match g.pfHeld with
  | some i =>
    let n := min g.pfDepth (ringUnits g - i)
    readUnits r i n (fun u => .prefetch r g.gen u) (setRing r { g with pfAwait := n, pfGot := [], pfHeld := none } s)
  | none => s

/-- The reads of a ring that wait are issued, unless fetching is suspended (04 R87); with its context not cached that is
read first (04 R84). -/
def startFetches (r : Nat) (s : State) : State :=
  let g := ringOf r s
  if g.state ≠ .active ∨ (g.fetchHeld = false ∧ g.pfHeld = none) ∨ rifPolls s = false then s
  else if g.cached then readPrefetch r (readFollowOn r s)
  else fetchContext r false s

/-- A prefetch of the units after unit i, stopping short of the end of the ring (04 R105). -/
def prefetchFrom (r i : Nat) (s : State) : State :=
  let g := ringOf r s
  if g.pfDepth = 0 ∨ g.pfAwait ≠ 0 ∨ ringUnits g ≤ i then s
  else startFetches r (setRing r { g with pfHeld := some i } s)

/-- A whole entry stands at INDEX of ring r: malformed, it stops the ring (04 R108); a NOP with SKIP is consumed at once
(04 R88); any other is handed to OPS. In Doze it is held and wakes the block (13 R322). -/
def entryReady (r : Nat) (e : Entry) (s : State) : State :=
  let cause := entryCause e (ringUnits (ringOf r s)) s
  if cause ≠ 0 then ringError r cause s
  else
    let s := modRing r (fun g => { g with due := none, partialUnit := none, got := [] }) s
    if s.pwr.state = .doze ∨ s.pwr.state = .waking then
      wakeDoze (modRing r (fun g => { g with offer := some e }) s)
    else if eOpcode e = opNop ∧ eSkip e = true then consumeUnits r e s
    else modRing r (fun g => { g with offer := some e }) s

/-- A unit lies in the hold of R107. -/
def unitHeld (r i : Nat) (s : State) : Bool :=
  match s.rif.hold with
  | none => false
  | some (q, first, n) =>
    decide (q = r) && decide ((i + ringUnits (ringOf r s) - first) % ringUnits (ringOf r s) < n)

/-- Some unit of an entry at unit i lies in the hold. -/
def entryHeld (r i len : Nat) (s : State) : Bool := (List.range (len + 1)).any fun k => unitHeld r (i + k) s

/-- The unit at INDEX carries a new entry: its follow-on units are read (04 R104), or it is whole. A unit under a hold
is not consumed (04 R107). -/
def foundUnit (r : Nat) (words : List Word32) (s : State) : State :=
  let g := ringOf r s
  let e : Entry := { ring := r, unit := g.index, words := words }
  if entryHeld r g.index (eLen e) s then modRing r (fun g => { g with due := none }) s
  else if eLen e = 0 ∨ crossesEnd e (ringUnits g) = true then entryReady r e s
  else
    startFetches r
      (modRing r (fun g => { g with due := none, partialUnit := some words, got := [], fetchHeld := true }) s)

/-- The next prefetched unit, if it is the one at INDEX, is taken up without a poll (04 R105). -/
def present (r : Nat) (s : State) : State :=
  let g := ringOf r s
  match g.prefetched with
  | [] => s
  | (i, w) :: rest =>
    if g.state = .active ∧ g.offer = none ∧ g.partialUnit = none ∧ i = g.index then
      foundUnit r w (modRing r (fun g => { g with prefetched := rest }) s)
    else s

/-- Presentation after a consumption; a run of SKIP NOPs passes in one go. -/
def presentAll : Nat → Nat → State → State
  | 0, _, s => s
  | f + 1, r, s =>
    let n := (ringOf r s).consumed
    let s := present r s
    if (ringOf r s).consumed = n then s else presentAll f r s

/-- The block runs again: SKIP NOPs found in Doze and held till then are consumed with no tag (04 R88, 13 R322). -/
def takeSkips (s : State) : State :=
  (s.rif.rings.map (·.1)).foldl (fun s r =>
    match (ringOf r s).offer with
    | some e => if eOpcode e = opNop ∧ eSkip e = true then presentAll 64 r (consumeUnits r e s) else s
    | none => s) s

/-- RIF becomes enabled: the fetches that waited are issued (04 R87). -/
def resumeFetches (s : State) : State := (s.rif.rings.map (·.1)).foldl (fun s r => startFetches r s) s

end Sys2Proof.Machine
end

