-- ==== Sys2Proof/Machine/Admit.lean ====
section
/-!
DEFINITION. Taking and admitting entries (05 R113 to R124): the checks of Table 5.3, the estimate of Table 5.4, the
first work of each opcode, fences and replans (12 R297).
-/

namespace Sys2Proof.Machine

/-! ### Permissions (04 R110) -/

/-- FN_OPS bit of an opcode; none for those that need no permission or never get it. -/
def opBit (o : Nat) : Option Nat :=
  if o = opRead ∨ o = opReadMp then some 0
  else if o = opProgram then some 1
  else if o = opErase then some 2
  else if o = opCopy then some 3
  else if o = opDestage then some 4
  else if o = opStage then some 5
  else if o = opCensus then some 6
  else if o = opCalibrate then some 7
  else if o = opFeatureGet then some 8
  else if o = opFeatureSet then some 9
  else none

/-- Bit of a class. -/
def classBit (c : Nat) (p : FnPerm) : Bool :=
  if c = clsNone then true else bitAt p.ops.toNat (if c = clsStrict then 16 else if c = clsStream then 17 else 18)

/-- Channels that an entry addresses. -/
def entryChannels (e : Entry) : List Nat :=
  if eOpcode e = opCensus then [paChannel (ePaddr e)] else (entryDies e).map dieChannel

/-- Check 1. -/
def permitted (f : Nat) (e : Entry) (s : State) : Bool :=
  let o := eOpcode e
  let p := fnOf f s
  if o = opFence ∨ o = opNop then true
  else match opBit o with
    | none => false
    | some b =>
      bitAt p.ops.toNat b && classBit (eClass e) p && (!eSlc e || bitAt p.ops.toNat 19)
      && (entryChannels e).all fun c => bitAt p.chan.toNat c

/-! ### Checks 2 to 5 -/

/-- Check 2. -/
def diesServe (e : Entry) (s : State) : Bool :=
  (entryDies e).all fun d => dieServes d s && !dieFails d s

/-- Check 3. -/
def channelsOwned (e : Entry) (s : State) : Bool :=
  (entryChannels e).all fun c => decide ((chanOf c s).own = .owned)

/-- The block that an entry writes: die, plane mask and block. -/
def writtenBlock (e : Entry) : Option (Nat × Nat × Nat) :=
  let o := eOpcode e
  if o = opProgram ∨ o = opStage ∨ o = opErase then some (paDie (ePaddr e), ePmask e, paBlock (ePaddr e))
  else if o = opCopy then some (paDie (eDstPaddr e), eDstPmask e, paBlock (eDstPaddr e))
  else none

/-- A written block of some plane satisfies a test. -/
def writtenAny (f : Nat → Nat → Nat → State → Bool) (e : Entry) (s : State) : Bool :=
  match writtenBlock e with
  | none => false
  | some (d, m, b) => (planesOf m).any fun p => f d p b s

/-! ### The estimate (05 R117, Table 5.4) -/

/-- Fraction units of a time in cc, rounded up. -/
def toFrac (t : Nat) (s : State) : Nat := ceilDiv (t * 65536) (max 1 s.tmb.periodEst)

/-- Codewords that an entry reads. -/
def readCws (e : Entry) (s : State) : Nat :=
  if eOpcode e = opCopy then (planesOf (ePmask e)).length * entryPages e s * 4
  else (planesOf (ePlanes e)).length * (eCwLast e - eCwFirst e + 1)

/-- Rung-0 cost of an entry's ladder row. -/
def rungZero (e : Entry) (s : State) : Nat :=
  let le := ladderElem (eLrow e) 0 s
  leBase le + lePerCw le * readCws e s

/-- Expected service time (05 Table 5.4). A COPY counts its source read and its destination program (log entry 12). -/
def serviceOf (e : Entry) (s : State) : Nat :=
  let o := eOpcode e
  let p := dieProf (paDie (ePaddr e)) s
  if o = opCalibrate then pfTrTyp p s
  else if o = opCopy then rungZero e s + pfProgTyp (dieProf (paDie (eDstPaddr e)) s) s
  else if readType o then rungZero e s
  else if o = opErase then pfEraseTyp p s
  else if o = opProgram ∨ o = opStage then pfProgTyp p s
  else 0

/-- Typical array time of a kind of operation on a die. -/
def typOf (k : DieOpKind) (d : Nat) (s : State) : Nat :=
  let p := dieProf d s
  match k with
  | .sense => pfTrTyp p s
  | .jobRead => pfTrTyp p s
  | .program => pfProgTyp p s
  | .jobProgram => pfProgTyp p s
  | .erase => pfEraseTyp p s
  | .jobErase => pfEraseTyp p s
  | .featGet => 0
  | .featSet => 0
  | .tempGet => 0

/-- Expected service time of a queued operation. -/
def itemService (d : Nat) (it : QItem) (s : State) : Nat :=
  match it.kind with
  | .sense =>
    let e := (tagOf it.id s).entry
    if readType (eOpcode e) then rungZero e s else typOf .sense d s
  | k => typOf k d s

/-- Expected remaining array time of an operation: typical less run so far (07 R160). -/
def remaining (d : Nat) (o : DieOp) (s : State) : Nat :=
  typOf o.kind d s - (o.ran + (if o.inArray then s.cc - o.since else 0))

/-- An entry of class STRICT or STREAM may suspend what stands on its die (07 R160). -/
def mayTrigger (e : Entry) (d : Nat) (s : State) : Bool :=
  readType (eOpcode e) && (decide (eClass e = clsStrict) || decide (eClass e = clsStream)) && capLeaves d s

/-- What a running or suspended program, erase or data-in adds to q_wait on plane p (07 R149): for a read-type entry
wherever it runs on the die (R160), for others when it works on the plane (05 Table 5.4). A suspended one has run for
the time it had run when it was suspended. -/
def heldWait (e : Entry) (d p : Nat) (s : State) : Nat :=
  if mayTrigger e d s then 0
  else
    let x := dieOf d s
    let on := fun (o : DieOp) => readType (eOpcode e) || bitAt o.planes p
    let arr := match x.run with
      | some o => if readKind o.kind || !on o then 0 else remaining d o s
      | none => 0
    let susp := match x.held with
      | some o => if on o then typOf o.kind d s - o.ran else 0
      | none => 0
    let din := match x.dataIn with
      | some (o, n) =>
        let pages := (planesOf o.planes).length * opUnit d o s
        if on o then (pages - n) * inCc d s else 0
      | none => 0
    arr + susp + din

/-- A read in the array of the die, on a plane. -/
def readWait (d p : Nat) (s : State) : Nat :=
  match (dieOf d s).run with
  | some o => if readKind o.kind && bitAt o.planes p then remaining d o s else 0
  | none => 0

/-- q_wait of one plane. -/
def planeWait (e : Entry) (key : Stamp) (order d p : Nat) (s : State) : Nat :=
  let ahead := (dieOf d s).queue.filter fun it =>
    bitAt it.planes p && !passedOver it s && sortsBefore it.key it.cls it.order key (classRank (eClass e)) order
  readWait d p s + heldWait e d p s + ahead.foldl (fun a it => a + itemService d it s) 0

/-- q_wait. -/
def qWait (e : Entry) (key : Stamp) (order : Nat) (s : State) : Nat :=
  let d := paDie (ePaddr e)
  maxOf ((planesOf (ePlanes e)).map fun p => planeWait e key order d p s)

/-- Class STRICT or STREAM. -/
def deadlineClass (e : Entry) : Bool := decide (eClass e = clsStrict) || decide (eClass e = clsStream)

/-- Held STRICT and STREAM starts of a group that sort ahead of a key (13 R309). -/
def heldAhead (g : Nat) (key : Stamp) (s : State) : Nat :=
  ((heldDies g s).filter fun d => match chooseItem d s with
    | some it => !decide (1000000 ≤ it.id) && deadlineClass (tagOf it.id s).entry && keyLt it.key key
    | none => false).length

/-- held. -/
def heldTerm (d : Nat) (key : Stamp) (s : State) : Nat :=
  let g := dieGroup d
  if (heldDies g s).isEmpty then 0 else (heldAhead g key s + 1) * regOf .pwr oPwrHoldStep s

/-- A program or erase, or a program's data-in, stands on a die. -/
def suspStands (d : Nat) (s : State) : Bool :=
  let x := dieOf d s
  x.held.isSome || x.dataIn.isSome || match x.run with
    | some o => !readKind o.kind && gatedKind o.kind
    | none => false

/-- susp (07 R149, R160). -/
def suspTerm (e : Entry) (d : Nat) (s : State) : Nat :=
  if suspStands d s && mayTrigger e d s then
    let t := pfSusMax (dieProf d s) s
    if (dieOf d s).dataIn.isSome then max t (inCc d s) else t
  else 0

/-- Dies of a channel with a roster entry. -/
def chanDies (c : Nat) (s : State) : Nat := (rosterDies c s).length

/-- Data-outs of other dies ahead on the channel: planned entries and carried candidates. -/
def outsAhead (d : Nat) (key : Stamp) (cls order : Nat) (s : State) : List Xfer :=
  let c := dieChannel d
  let other := fun (x : Xfer) => decide (x.kind ≠ 1) && decide (x.die ≠ d % 32)
  (match planOf c s with
    | some p => ((p.entries.filter fun y => !y.past && other y.x).map (·.x))
    | none => [])
  ++ (candsOf c s).filter fun x => other x && sortsBefore x.key x.cls x.order key cls order

/-- chan. -/
def chanTerm (e : Entry) (d : Nat) (key : Stamp) (order : Nat) (s : State) : Nat :=
  let c := dieChannel d
  ((outsAhead d key (classRank (eClass e)) order s).take (chanDies c s - 1)).foldl
    (fun a x => a + bytesCc c (pageBytes (c * 32 + x.die) s) s) 0

/-- est of R117 in cc. -/
def estimate (e : Entry) (key : Stamp) (order : Nat) (s : State) : Nat :=
  let d := paDie (ePaddr e)
  qWait e key order s + heldTerm d key s + suspTerm e d s + chanTerm e d key order s + serviceOf e s
  + regFld .ops oOpsEstMargin 0 16 s

/-- HORIZON. -/
def horizon (s : State) : Nat := regFld .ops oOpsHorizon 0 31 s

/-- Check 6. -/
def deadlineRange (e : Entry) (s : State) : Bool :=
  let d := (eDlFrame e - s.tmb.frame).toNat
  decide (d = 2147483648) || (decide (d < 2147483648) && decide (horizon s < d))

/-- Slack of an entry in fraction units (05 R117). -/
def slackOf (e : Entry) (order : Nat) (s : State) : Int :=
  distTo (eDeadline e) s - Int.ofNat (toFrac (estimate e (eDeadline e) order s) s)

/-- The status of Table 5.3; 0 when every check passes. Check 1 is on the permissions as OPS took the entry (04 R110),
check 4 on the marks added before the cc in which OPS took it (14 R342). -/
def admitStatus (ok : Bool) (since : Nat) (e : Entry) (order : Nat) (s : State) : Nat :=
  if !ok then stPermission
  else if !diesServe e s then stQuarantined
  else if !channelsOwned e s then stChannelLost
  else if writtenAny (blockBadFor since) e s then stBlockBad
  else if writtenAny blockDisputed e s then stConflict
  else if eClass e = clsNone then 0
  else if deadlineRange e s then stRange
  else if slackOf e order s < 0 then stInfeasible
  else 0

/-! ### First work of an admitted operation -/

/-- Ordering key of an entry (07 R146). -/
def entryKey (e : Entry) (s : State) : Stamp := if eClass e = clsNone then noneKey s else eDeadline e

/-- The codewords that an entry reads first. -/
def firstCws (e : Entry) : List CwId :=
  let whole := decide (eOpcode e = opCopy) || decide (eOpcode e = opCalibrate)
  let lo := if whole then 0 else eCwFirst e
  let hi := if whole then 3 else eCwLast e
  (planesOf (ePlanes e)).flatMap fun p => ((List.range (hi + 1)).filter fun i => decide (lo ≤ i)).map fun i =>
    { plane := p, idx := i }

/-- A queue item for the die operation of an entry. -/
def entryItem (t : Nat) (kind : DieOpKind) (s : State) : QItem :=
  let x := tagOf t s
  let a := ePaddr x.entry
  { id := t, kind := kind, planes := ePlanes x.entry, block := paBlock a, page := paPage a, slc := slcOn x.entry (paDie a) s, rung := 0,
    attempt := 0, cls := classRank (eClass x.entry), key := x.key, order := x.order }

/-- Pages of a program: planes times pages of the unit. -/
def progPages (e : Entry) (s : State) : Nat := (planesOf (ePmask e)).length * entryPages e s

/-- Granules of one page of program data. -/
def pageGran (d : Nat) (s : State) : Nat := 4 * cwGran d s

/-- The next page of a PROGRAM's data is requested from DPT, and when granted it is read from the buffer on
FAB[c mod 4] (10 R237, R249). False when DPT refuses or is disabled, or ECC is (10 R252, R253). -/
def fetchPage (t : Nat) (s : State) : State × Bool :=
  let x := tagOf t s
  let e := x.entry
  let d := paDie (ePaddr e)
  let g := pageGran d s
  let early := decide (eClass e = clsEarly)
  let n := ((progOf t s).map (·.granules)).getD 0 / max 1 g
  if !(pageActive .dpt s && pageActive .ecc s) || decide (progPages e s ≤ n) then (s, false)
  else if !(if early then grantEarly g s else grantOther g s) then (s, false)
  else
    let s := match progOf t s with
      | some _ => modProg t (fun p => { p with granules := p.granules + g }) s
      | none => { s with dpt.progs := s.dpt.progs ++ [{ id := t, granules := g, early := early }] }
    let s := modTag t (fun x => { x with state := .issued }) (notePeak (bump .dpt 0 s))
    (fabReads (dieChannel d % 4) (eBuffer e + n * 16384) 16384 0 (fun off => .program t x.order (dieChannel d) (n * 16384 + off)) s, true)

/-- Pages are requested until one is refused or all are granted; a refused fetch waits. -/
def fetchPages : Nat → Nat → State → State
  | 0, t, s => modTag t (fun x => { x with fetchWait := false }) s
  | f + 1, t, s =>
    let e := (tagOf t s).entry
    let n := ((progOf t s).map (·.granules)).getD 0 / max 1 (pageGran (paDie (ePaddr e)) s)
    if progPages e s ≤ n then modTag t (fun x => { x with fetchWait := false }) s
    else
      let r := fetchPage t s
      if r.2 then fetchPages f t r.1 else modTag t (fun x => { x with fetchWait := true }) r.1

/-- The work of an admitted operation begins (05 R116, 07 R145, 12 R298, 14 R339, R350). -/
def beginWork (t : Nat) (s : State) : State :=
  let x := tagOf t s
  let e := x.entry
  let o := eOpcode e
  let a := ePaddr e
  let d := paDie a
  if readType o ∨ o = opCalibrate then
    readPage 4096 t (firstPage e s) (modTag t (fun x => { x with todo := firstCws e }) s)
  else if o = opProgram then
    let s := modTag t (fun x => { x with dataLeft := progPages e s * 16384 }) s
    fetchPages (progPages e s) t (enqueue d (entryItem t .program s) s)
  else if o = opStage then
    let s := modTag t (fun x => { x with dataLeft := progPages e s * 16384 }) s
    let s := enqueue d (entryItem t .program s) s
    if pageActive (dspPage (eAct e)) s then
      armNext (eAct e) (modDsp (eAct e) (fun p => { p with armWait := p.armWait ++ [t] }) s)
    else modDsp (eAct e) (fun p => { p with armWait := p.armWait ++ [t] }) s
  else if o = opErase then addIntent t d (ePmask e) (paBlock a) (slcOn e d s) s
  else if o = opFeatureGet then enqueue d (entryItem t .featGet s) s
  else if o = opFeatureSet then enqueue d (entryItem t .featSet s) s
  else if o = opNop then commitTag t stOk rankOwn s
  else s

/-! ### Admission -/

/-- A refused entry: OPS event 1 and LAST_REFUSE at checks 6 and 7; the records of a DESTAGE are freed (12 R288). -/
def refuse (t st : Nat) (slack : Int) (s : State) : State :=
  let x := tagOf t s
  let s := if st = stRange ∨ st = stInfeasible then
      let v := if st = stRange then 0x80000000 else ofSigned 32 (clampInt slack (-2147483648) 2147483647)
      raiseEvt .ops 1 (setReg .ops oOpsLastRefuse1 v
        (setReg .ops oOpsLastRefuse0 (fieldAt 24 st + fieldAt 16 x.fn + t % 65536) s))
    else s
  let s := if eOpcode x.entry = opDestage then freeRecsOf (eAct x.entry) t s else s
  let s := modTag t (fun x => { x with refused := decide (st ≠ stRange ∧ st ≠ stInfeasible), slack := slack }) s
  commitTag t st rankOwn s

/-- A tag in the comparator: its deadline lies in the current or the next frame, or before (05 R119). -/
def dueSoon (e : Entry) (s : State) : Bool := decide (signedOf 32 (eDlFrame e - s.tmb.frame).toNat ≤ 1)

/-- What checks 2, 4 and 5 of an entry read of the map cache: the roster words of its dies, and the words of the working
map that could hold its blocks (17 R393, R394). -/
def mapReads (e : Entry) (s : State) : State :=
  let s := (entryDies e).foldl (fun s d => readWord 6 (rosterIdx d) s) s
  match writtenBlock e with
  | none => s
  | some (d, m, b) => (planesOf m).foldl (fun s p => readMarks (blockKey d p b) s) s

/-- Admission of tag t (05 R116, R118): refused, or admitted, counted, entered in the comparator and begun. -/
def admitTag (t : Nat) (s : State) : State :=
  let x := tagOf t s
  let e := x.entry
  let s := mapReads e s
  let st := admitStatus x.allowed x.takenAt e x.order s
  let slack := if eClass e = clsNone then 0 else slackOf e x.order s
  if st ≠ 0 then refuse t st slack s
  else
    let s := modTag t (fun x => { x with state := .queued, slack := slack, key := entryKey e s,
                                         armed := decide (eClass e ≠ clsNone) && dueSoon e s }) s
    beginWork t (bump .ops 1 s)

/-! ### Fences (05 R123) -/

/-- Fence tag q covers tag t: taken before it, of its ring, or with SCOPE 1 of its function. -/
def fenceCovers (q t : Nat) (s : State) : Bool :=
  let f := tagOf q s
  let x := tagOf t s
  decide (eOpcode f.entry = opFence) && decide (f.order < x.order) && decide (f.state ≠ .free)
  && (decide (f.entry.ring = x.entry.ring) || (decide (eScope f.entry = 1) && decide (f.fn = x.fn)))

/-- Tag t stands behind a fence that has not committed, or behind an entry of its ring that does (05 R122, R123). -/
def behindFence (t : Nat) (s : State) : Bool :=
  let x := tagOf t s
  (liveTags s).any fun q =>
    (decide ((tagOf q s).state ≠ .committed) && fenceCovers q t s)
    || (decide ((tagOf q s).state = .fenced) && decide ((tagOf q s).entry.ring = x.entry.ring)
        && decide ((tagOf q s).order < x.order))

/-- Every entry of a fence's scope taken before it is COMMITTED or FREE. -/
def fenceClear (t : Nat) (s : State) : Bool :=
  let f := tagOf t s
  (liveTags s).all fun q =>
    let x := tagOf q s
    !(decide (x.order < f.order)
      && (decide (x.entry.ring = f.entry.ring) || (decide (eScope f.entry = 1) && decide (x.fn = f.fn))))
    || decide (x.state = .committed)

/-- The FENCED tags, oldest first. -/
def fencedTags (s : State) : List Nat :=
  (sortBy (fun a b => decide (a.2.order < b.2.order))
    (s.ops.tags.filter fun e => decide (e.1 < 65536) && decide (e.2.state = .fenced))).map (·.1)

/-- The FENCED tags that stand behind no fence any more are admitted in the order taken (05 R123). -/
def admitFenced (s : State) : State :=
  (fencedTags s).foldl (fun s t =>
    if (tagOf t s).state = .fenced ∧ behindFence t s = false then admitTag t s else s) s

/-! ### Taking an entry (05 R113, R114) -/

/-- OPS takes entries: enabled, the block running and no power failure (13 R322, Table 13.6); and none that a ring already
offers while RIF is disabled (DESIGN CHOICE, log entry 133). -/
def opsTakes (s : State) : Bool :=
  pageActive .ops s && pageActive .rif s && decide (s.pwr.state = .run) && !pfRunning s

/-- Records that an entry needs (12 R288). -/
def recsNeeded (e : Entry) : Nat := if eOpcode e = opDestage then eSectors e else 0

/-- The row of a tag just taken. -/
def takenRow (e : Entry) (f order : Nat) (s : State) : TagRow :=
  { state := .fenced, entry := e, fn := f, order := order, takenAt := s.cc, allowed := permitted f e s,
    armed := decide (eClass e ≠ clsNone) && !deadlineRange e s && dueSoon e s,
    unwatched := deadlineRange e s }

/-- A tag is given to an entry and its row written (05 R113, R114): OPS counter 0. -/
def giveTag (t : Nat) (e : Entry) (f : Nat) (s : State) : State :=
  let s := takeTag s
  let s := setValid 1 t (clearUpsets 1 t (setTag t (takenRow e f s.ops.taken s) s))
  bump .ops 0 { s with ops.taken := s.ops.taken + 1 }

/-- OPS takes the entry that ring r offers if its opcode is o: a tag, consumption, batch, records, then admission or
FENCED (05 Table 5.2). With no free tag or too few records the entry stays (04 R106, 12 R288), and its hold counts once:
RIF counter 9, DSP counter 16. -/
def takeEntry (o r : Nat) (s : State) : State :=
  match (ringOf r s).offer, nextTag s with
  | none, _ => s
  | some e, none =>
    if eOpcode e = o ∧ opsTakes s = true ∧ (ringOf r s).tagWait = false then
      bump .rif 9 (modRing r (fun g => { g with tagWait := true }) s)
    else s
  | some e, some t =>
    if eOpcode e ≠ o ∨ opsTakes s = false then s
    else if freeRecs (eAct e) s < recsNeeded e then
      (if (ringOf r s).recWait then s
        else bump (dspPage (eAct e)) 16 (modRing r (fun g => { g with recWait := true }) s))
    else
      let f := (ringOf r s).fn
      let s := giveTag t e f s
      let s := if eOpcode e = opDestage then allocRecs e t s else s
      let s := joinMember r t e (consumeUnits r e s)
      let s := if behindFence t s then bump .ops 11 s else admitTag t s
      presentAll 64 r s

/-! ### Replans (12 R297) -/

/-- The entry of a replan: one revolution later. -/
def replanEntry (e : Entry) (s : State) : Entry :=
  { e with words := e.words.set 1 (eDlFrame e + BitVec.ofNat 32 (wedges s)) }

/-- A DESTAGE that missed is admitted again one revolution later under a new tag (12 R297). -/
def replan (t : Nat) (s : State) : State :=
  let x := tagOf t s
  let a := eAct x.entry
  let e := replanEntry x.entry s
  match nextTag s with
  | some n =>
    if freeRecs a s < eSectors e then raiseErr (dspPage a) 0x0101 t (raiseEvt (dspPage a) 3 (bump (dspPage a) 11 s))
    else
      let s := giveTag n e x.fn s
      let s := allocRecs e n (modDsp a (fun d => { d with replans := d.replans ++ [n] }) s)
      admitTag n (bump (dspPage a) 10 s)
  | none => raiseErr (dspPage a) 0x0101 t (raiseEvt (dspPage a) 3 (bump (dspPage a) 11 s))

/-- A DESTAGE that is no replan may be admitted again after DEADLINE_MISSED or STREAM_UNDERRUN (12 R297). -/
def mayReplan (t st : Nat) (s : State) : Bool :=
  let e := (tagOf t s).entry
  decide (eOpcode e = opDestage) && (decide (st = stMissed) || decide (st = stUnderrun))
  && bitAt (regOf (dspPage (eAct e)) oDspConfig s) 16 && (replanPort t s).isNone

/-- A commitment that may be followed by a replan; that of an abort follows when the cc ends. -/
def endTag (t st rank : Nat) (s : State) : State :=
  let again := reachedNow t rank s && decide (rank = rankOwn) && mayReplan t st s
  let s := commitTag t st rank s
  if again then replan t s else s

/-- The cc of its abort ends and nothing that R20 puts first has come: tag t leaves OPS. -/
def finishAbort (s : State) (t : Nat) : State :=
  let st := (tagOf t s).status
  let s := leaveOps t st { s with ops.abortNow := s.ops.abortNow.filter fun i => !decide (i = t) }
  if mayReplan t st s then replan t s else s

end Sys2Proof.Machine
end

