-- ==== Sys2Proof/Machine/Flags.lean ====
section
/-!
DEFINITION. The flags of the pages: the events that are levels (03 R67, the event tables of 04 to 17), the latch of the
fault line (15 R368), and the end of every command, which brings both up to date.
-/

namespace Sys2Proof.Machine

/-! ### Levels -/

/-- INTEG stands at a clamp limit of PRESET × 252 and PRESET × 260 (06 R138, TMB event 6). -/
def integClamped (s : State) : Bool :=
  decide (s.tmb.integ = s.tmb.preset * 252) || decide (s.tmb.integ = s.tmb.preset * 260)

/-- SOFT_WAIT exceeds SAT_MARK (10, ECC event 0). -/
def softSat (s : State) : Bool := decide (regFld .ecc oEccSatMark 0 24 s < softWait s)

/-- The reading of a PRESENT die is older than STALE frames (11 R261, R262). -/
def staleDie (d : Nat) (t : DieTemp) (s : State) : Bool :=
  t.temp.isSome && decide (regFld .lvl oLvlTempCfg 16 16 s < t.age) && (rosterOf d s).valid
  && decide ((rosterOf d s).state = .present)

/-- Some die's reading is older than STALE frames (11, LVL event 4). -/
def tempStale (s : State) : Bool := s.lvl.temps.any fun e => staleDie e.1 e.2 s

/-- Some group is in fallback with cause OPEN (13, PWR event 2). -/
def isenseOpen (s : State) : Bool := s.pwr.groups.any fun e => e.2.fallback && decide (e.2.fbCause = 1)

/-- Stages of a note FIFO that may be read: those from the read point on, up to an open packet (15 R372). -/
def readable (f : NoteFifo) : Nat :=
  (match f.open_ with
    | some (i, _, _) => min i f.stages.length
    | none => f.stages.length) - f.read

/-- Some engine holds readable halfwords (15 R376, NOTE event 0). -/
def noteAvail (s : State) : Bool := s.note.fifos.any fun e => decide (0 < readable e.2)

/-- Level i of a page; false for an event that is no level. -/
def levelEvt (p : Page) (i : Nat) (s : State) : Bool :=
  match p, i with
  | .rif, 0 => overcommit s
  | .rif, 4 => cqWaits s
  | .ops, 2 => decide (tagsFree s = 0)
  | .ops, 3 => !s.ops.earlyLog.isEmpty
  | .ops, 5 => bitAt (regOf .ops oOpsFnaHit s) 31
  | .tmb, 3 => decide (s.tmb.state = .reverse)
  | .tmb, 6 => integClamped s
  | .dpt, 0 => stagingLow s
  | .ecc, 0 => softSat s
  | .lvl, 4 => tempStale s
  | .pwr, 0 => anyHeld s
  | .pwr, 2 => isenseOpen s
  | .map, 5 => decide (s.map.state = .conflict)
  | .irq, 0 => s.irq.latched
  | .note, 0 => noteAvail s
  | .rst, 0 => !s.rst.parOk
  | .mem, 2 => decide (16 ≤ s.mem.log.length)
  | .mem, 3 => logLost s
  | .mem, 5 => bitAt (bkpOf 0 s).toNat 29
  | _, _ => false

/-- The events that are levels. -/
def levelList : List (Page × Nat) :=
  [(.rif, 0), (.rif, 4), (.ops, 2), (.ops, 3), (.ops, 5), (.tmb, 3), (.tmb, 6), (.dpt, 0), (.ecc, 0), (.lvl, 4),
   (.pwr, 0), (.pwr, 2), (.map, 5), (.note, 0), (.rst, 0), (.mem, 2), (.mem, 3), (.mem, 5)]

/-- A level that is high is latched in EVT_PEND (03 R67). -/
def latchLevel (s : State) (e : Page × Nat) : State :=
  if levelEvt e.1 e.2 s && !bitAt (hdrOf e.1 s).evtPend.toNat e.2 then raiseEvt e.1 e.2 s else s

/-- Every level that is high is latched. -/
def latchLevels (s : State) : State := levelList.foldl latchLevel s

/-- FATAL.LATCHED is set while a FATAL source is pending or in service, with the lowest such ID in FIRST (15 R368). -/
def latchFatal (s : State) : State :=
  if s.irq.latched then s
  else match fatalSource s with
    | some i => { s with irq := { s.irq with latched := true, first := i } }
    | none => s

/-- The flags after a command; they change only in headers and in FATAL, and stand still while the block is in reset
or its core domain has no power. -/
def settle (s : State) : State :=
  if corePowered s && stepReleased 1 s then latchLevel (latchFatal (latchLevels s)) (.irq, 0) else s

/-- The end of a command. -/
def fin (s : State) : Out := .next (settle s)

end Sys2Proof.Machine
end

