-- ==== Sys2Proof/Machine/Timebase.lean ====
section
/-!
DEFINITION. TMB (06): ticks of the reference actuator and their classes, the loop, the tracker's states, frame
checkpoints.
-/

namespace Sys2Proof.Machine

/-! ### Registers in force -/

def periodMin (s : State) : Nat := regTickFld .tmb oTmbPeriodMin 0 17 s
def periodMax (s : State) : Nat := regTickFld .tmb oTmbPeriodMax 0 17 s
def synPeriod (s : State) : Nat := regTickFld .tmb oTmbSynPeriod 0 17 s
def loopKi (s : State) : Nat := regTickFld .tmb oTmbLoop 24 4 s
def loopKp (s : State) : Nat := regTickFld .tmb oTmbLoop 16 4 s
def loopWindow (s : State) : Nat := regTickFld .tmb oTmbLoop 0 13 s
def sampleWait (s : State) : Nat := regFld .tmb oTmbHold 16 16 s
def holdLimit (s : State) : Nat := regFld .tmb oTmbHold 0 16 s

/-- STATE codes (06 TRK_STAT). -/
def trkCode : TrkState → Nat
  | .off => 0
  | .freerun => 1
  | .acquire => 2
  | .locked => 3
  | .hold => 4
  | .reverse => 5

/-! ### Tick classes (06 Table 6.1) -/

inductive TickClass where
  | stray | missing | stale | defect | backward | slip | first | out | good
  deriving DecidableEq, Repr

/-- Counter of a class. -/
def classCounter : TickClass → Option Nat
  | .stray => some 8
  | .missing => some 4
  | .stale => some 3
  | .defect => some 2
  | .backward => some 6
  | .slip => some 5
  | .first => none
  | .out => none
  | .good => some 1

/-- LOCKED or HOLD. -/
def inService (s : State) : Bool := decide (s.tmb.state = .locked) || decide (s.tmb.state = .hold)

/-- FREERUN or ACQUIRE. -/
def acquiring (s : State) : Bool := decide (s.tmb.state = .freerun) || decide (s.tmb.state = .acquire)

/-- Step of an index from the last usable one (06 R136). -/
def stepOf (idx : Nat) (s : State) : Option Nat :=
  s.tmb.lastUsable.map fun l => (idx + wedges s * 4096 - l) % max 1 (wedges s)

/-- The index expected of the tick being decided (06 R136). -/
def expectedIdx (s : State) : Option Nat :=
  s.tmb.lastUsable.map fun l => (l + s.tmb.sinceUsable + 1) % max 1 (wedges s)

/-- The interval lies outside PERIOD_MIN to PERIOD_MAX. -/
def badInterval (iv : Nat) (s : State) : Bool := decide (iv < periodMin s) || decide (periodMax s < iv)

/-- Class of a tick by the first row of Table 6.1 that applies. -/
def classify (t : PendTick) (pos : Option (BitVec 44)) (s : State) : TickClass :=
  if inService s && t.stray then .stray
  else match pos with
    | none => .missing
    | some p =>
      if !posValid p then .missing
      else if posStale p then .stale
      else if posDefect p then .defect
      else if (stepOf (posWedge p) s).any fun d => decide (wedges s ≤ 2 * d) then .backward
      else if (expectedIdx s).any fun x => !decide (x = posWedge p) then .slip
      else if acquiring s && t.interval.isNone then .first
      else if acquiring s && badInterval (t.interval.getD 0) s then .out
      else .good

/-- A tick counts as GOOD in Table 6.2: not in REVERSE (06 R140). -/
def goodTick (c : TickClass) (s : State) : Bool := decide (c = .good) && !decide (s.tmb.state = .reverse)

/-! ### The loop (06 R138) -/

/-- round(integ / 256), halves up. -/
def roundInteg (n : Nat) : Nat := (n + 128) / 256

/-- Frames of a state take SYN_PERIOD (06 Table 6.2). -/
def synState (st : TrkState) : Bool := decide (st = .freerun) || decide (st = .reverse) || decide (st = .off)

/-- coast_len(). -/
def coastLen (s : State) : Nat :=
  if synState s.tmb.state then synPeriod s
  else roundInteg s.tmb.integ

/-- set_length of a frame: of the running frame never shorter than now + 4; of the next one in advance. -/
def setLength (own : Word32) (len : Nat) (s : State) : State :=
  if frameLater own s.tmb.frame then { s with tmb.nextLen := some len }
  else { s with tmb := { s.tmb with frameLen := max len (s.tmb.phase + 4),
                                    lenLog := (s.tmb.lenLog.filter fun x => decide (s.cc ≤ x.1 + 2)) ++ [(s.cc, s.tmb.frameLen)] } }

/-- The loop on a tick: good says that its class is GOOD. The estimate before the integrator moves is the next
PERIOD_EST. -/
def runLoop (t : PendTick) (good : Bool) (s : State) : State :=
  let p := Int.ofNat (roundInteg s.tmb.integ)
  let far := decide (s.tmb.state = .acquire) && decide (Int.ofNat (loopWindow s) < Int.ofNat t.err.natAbs)
  let integ := if good && !far then
      (clampInt (Int.ofNat s.tmb.integ + t.err * 256 / Int.ofNat (2 ^ loopKi s)) (Int.ofNat (s.tmb.preset * 252))
        (Int.ofNat (s.tmb.preset * 260))).toNat
    else s.tmb.integ
  let corr := if good && !far then t.err / Int.ofNat (2 ^ loopKp s) else if good then t.err else 0
  let lim := Int.tdiv p 8
  let len := clampInt (Int.ofNat (roundInteg integ) + clampInt corr (-lim) lim) (Int.ofNat (periodMin s))
    (Int.ofNat (periodMax s))
  setLength t.own len.toNat { s with tmb := { s.tmb with integ := integ, nextEst := some p.toNat } }

/-! ### States (06 Table 6.2) -/

/-- A change of state. The ticks that the rows count go on being counted, since only a tick of another class resets a
count; the frames begun without a GOOD tick are counted from the entry on (log entry 45). Frame starts are judged for
MISS in LOCKED and HOLD alone. -/
def setTrk (st : TrkState) (s : State) : State :=
  { s with tmb := { s.tmb with state := st, idleFrames := 0, nextEst := if synState st then none else s.tmb.nextEst,
                               starts := if st = .locked ∨ st = .hold then s.tmb.starts else [] } }

/-- LOCKED is entered: LOCK, counter 9. -/
def enterLock (s : State) : State := bump .tmb 9 (raiseEvt .tmb 0 (setTrk .locked s))

/-- LOCKED to HOLD: LOCK_LOST. -/
def loseLock (s : State) : State := raiseEvt .tmb 1 (setTrk .hold s)

/-- The end of HOLD: FREERUN without a lock. -/
def freeRun (s : State) : State := setTrk .freerun { s with tmb.wedgeValid := false }

/-- The second consecutive BACKWARD tick: REVERSE. -/
def enterReverse (s : State) : State :=
  setTrk .reverse { s with tmb := { s.tmb with wedgeValid := false, fwdRun := 0 } }

/-- INDEX of the current frame from the index of another frame. -/
def indexNow (idx : Nat) (own : Word32) (s : State) : Nat :=
  let w := max 1 (wedges s)
  ((Int.ofNat idx + signedOf 32 (s.tmb.frame - own).toNat) % Int.ofNat w).toNat

/-- A GOOD tick takes lock when eight are counted and it lies in the window. -/
def tryLock (t : PendTick) (idx : Nat) (s : State) : State :=
  if 8 ≤ s.tmb.acqCount ∧ t.err.natAbs ≤ loopWindow s then
    let i := indexNow idx t.own s
    let s := enterLock s
    { s with tmb := { s.tmb with wedgeValid := true, wedgeIndex := i } }
  else s

/-- A GOOD tick. -/
def goodAct (t : PendTick) (idx : Nat) (s : State) : State :=
  let s := { s with tmb := { s.tmb with run := 0, idleFrames := 0, missRun := 0, backRun := 0 } }
  match s.tmb.state with
  | .freerun =>
    let iv := t.interval.getD 0
    let s := setTrk .acquire s
    runLoop t true { s with tmb := { s.tmb with preset := iv, integ := iv * 256, acqCount := 1 } }
  | .acquire =>
    tryLock t idx (runLoop t true { s with tmb.acqCount := satTo 15 (s.tmb.acqCount + 1) })
  | .hold => enterLock (runLoop t true s)
  | _ => runLoop t true s

/-- The eighth consecutive wedge that is not GOOD, or the second consecutive MISS, ends LOCKED. -/
def lockCheck (s : State) : State :=
  if s.tmb.state = .locked ∧ (8 ≤ s.tmb.run ∨ 2 ≤ s.tmb.missRun) then loseLock s else s

/-- HOLD's re-acquisition: two consecutive ticks with usable samples one index apart and an interval in range, the
second not taken. -/
def reacquires (t : PendTick) (pos : Option (BitVec 44)) (s : State) : Option Nat :=
  match s.tmb.holdPrev, pos with
  | some (tau, idx), some p =>
    if s.tmb.state = .hold ∧ t.stray = true ∧ posUsable p = true ∧ badInterval (t.tau - tau) s = false
        ∧ posWedge p = (idx + 1) % max 1 (wedges s) then some (t.tau - tau) else none
  | _, _ => none

/-- A tick of any class but GOOD and STRAY: the loop coasts, the counts move. -/
def coastAct (t : PendTick) (c : TickClass) (s : State) : State :=
  let s := if s.tmb.state = .freerun ∨ s.tmb.state = .reverse then s else runLoop t false s
  let back := if c = .backward then s.tmb.backRun + 1 else 0
  let s := { s with tmb := { s.tmb with run := satTo 255 (s.tmb.run + 1), missRun := 0, backRun := back,
                                        acqCount := if s.tmb.state = .acquire then 0 else s.tmb.acqCount } }
  if 2 ≤ back ∧ s.tmb.state ≠ .reverse then enterReverse s else lockCheck s

/-- A tick in REVERSE: the eighth consecutive one with a usable sample and a step of 1 ends it. -/
def reverseAct (pos : Option (BitVec 44)) (s : State) : State :=
  let fwd := match pos with
    | some p => posUsable p && decide (stepOf (posWedge p) s = some (1 % max 1 (wedges s)))
    | none => false
  let n := if fwd then s.tmb.fwdRun + 1 else 0
  if 8 ≤ n then { setTrk .freerun s with tmb.prevTick := none } else { s with tmb.fwdRun := n }

/-- A STRAY tick is ignored, but for re-acquisition in HOLD, where its sample is the last usable one. -/
def strayAct (t : PendTick) (pos : Option (BitVec 44)) (s : State) : State :=
  match reacquires t pos s with
  | some iv =>
    let s := setTrk .acquire s
    runLoop t true { s with tmb := { s.tmb with preset := iv, integ := iv * 256, acqCount := 2,
                                                lastUsable := pos.map posWedge, sinceUsable := s.tmb.missSince,
                                                missRun := 0, backRun := 0 } }
  | none => { s with tmb := { s.tmb with missRun := 0, backRun := 0 } }

/-- The last usable index and the wedges since, after a tick that is not STRAY (06 R136; a STRAY tick moves neither,
log entry 28). -/
def noteUsable (pos : Option (BitVec 44)) (s : State) : State :=
  match pos with
  | some p =>
    if posUsable p then { s with tmb := { s.tmb with lastUsable := some (posWedge p), sinceUsable := s.tmb.missSince } }
    else { s with tmb.sinceUsable := s.tmb.sinceUsable + 1 }
  | none => { s with tmb.sinceUsable := s.tmb.sinceUsable + 1 }

/-- The pad time and index that HOLD's re-acquisition compares the next tick with. -/
def noteHold (t : PendTick) (pos : Option (BitVec 44)) (s : State) : State :=
  { s with tmb.holdPrev := match pos with
      | some p => if posUsable p then some (t.tau, posWedge p) else none
      | none => none }

/-- The decision of the pending tick (06 R135 to R140). -/
def decideTick (pos : Option (BitVec 44)) (s : State) : State :=
  match s.tmb.pend with
  | none => s
  | some t =>
    let c := classify t pos s
    let s := { s with tmb.pend := none }
    let s := match classCounter c with
      | some n => bump .tmb n s
      | none => s
    let r := if s.tmb.state = .reverse then reverseAct pos (coastAct t c s)
      else if c = .stray then strayAct t pos s
      else if c = .good then goodAct t ((pos.map posWedge).getD 0) s
      else coastAct t c s
    noteHold t pos (if c = .stray then r else noteUsable pos r)

/-! ### A tick (06 R135) -/

/-- FRAME_LEN of the running frame as it stood at a cc of late. -/
def lenAt (cc : Nat) (s : State) : Nat :=
  match s.tmb.lenLog.find? fun x => decide (cc < x.1) with
  | some x => x.2
  | none => s.tmb.frameLen

/-- Frame in progress at the pad time, phase in it, its length; own frame and phase error. -/
def tickPlace (s : State) : Word32 × Nat × Word32 × Int :=
  let f := s.tmb.frame
  let ph := s.tmb.phase
  if ph < 2 then (f - 1, s.tmb.prevLen + ph - 2, f, Int.ofNat ph - 2)
  else
    let p := ph - 2
    let len := lenAt (s.cc - 2) s
    if 2 * p < len then (f, p, f, Int.ofNat p)
    else (f, p, f + 1, Int.ofNat p - Int.ofNat len)

/-- The start of a tick's own frame is taken by it. -/
def takeStart (own : Word32) (s : State) : State :=
  { s with tmb := { s.tmb with takenFor := some own, starts := s.tmb.starts.filter fun x => !decide (x.1 = own) } }

/-- A tick of the reference actuator reaches TMB: a tick still waiting is decided without a sample. -/
def wedgeTick (s : State) : State :=
  if tmbRuns s = false then s
  else
    let s := decideTick none s
    let p := tickPlace s
    let tau := s.cc - 2
    let far := decide (loopWindow s < p.2.2.2.natAbs)
    let stray := far || decide (s.tmb.takenFor = some p.2.2.1)
    let t : PendTick := { tau := tau, at_ := s.cc, own := p.2.2.1, err := p.2.2.2,
                          interval := s.tmb.prevTick.map fun q => tau - q, stray := stray }
    let s := if stray then s else takeStart p.2.2.1 s
    { s with tmb := { s.tmb with pend := some t, prevTick := some tau, missSince := 0, stampFrame := p.1, stampPhase := p.2.1,
                                 lastErr := clampInt p.2.2.2 (-32767) 32767 } }

/-- SAMPLE_WAIT has run out for the pending tick (06 R135). -/
def waitOver (s : State) : Bool :=
  match s.tmb.pend with
  | some t => decide (t.at_ + sampleWait s ≤ s.cc) && tmbRuns s
  | none => false

/-- A sample that comes now comes too late for the pending tick (02 R45). -/
def sampleLate (s : State) : Bool := s.tmb.pend.any fun t => decide (t.at_ + sampleWait s < s.cc)

/-! ### MISS, HOLD_EXPIRED, ACQUIRE_TIMEOUT -/

/-- The oldest frame start without a tick is judged at B + WINDOW + 2 (06 R137). -/
def missDue (s : State) : Bool :=
  match s.tmb.starts with
  | (_, b) :: _ => corePowered s && inService s && decide (b + loopWindow s + 2 ≤ s.cc)
  | [] => false

/-- A MISS: counter 7. -/
def takeMiss (s : State) : State :=
  let s := bump .tmb 7 s
  lockCheck { s with tmb := { s.tmb with starts := s.tmb.starts.tail, sinceUsable := s.tmb.sinceUsable + 1,
                                         missSince := s.tmb.missSince + 1, missRun := s.tmb.missRun + 1, run := satTo 255 (s.tmb.run + 1) } }

/-- HOLD has lasted HOLD.LIMIT frames (06 Table 6.2). -/
def holdOver (s : State) : Bool := corePowered s && decide (s.tmb.state = .hold) && decide (holdLimit s ≤ s.tmb.idleFrames)

/-- ACQUIRE has begun 8 frames without a GOOD tick. -/
def acquireOver (s : State) : Bool := corePowered s && decide (s.tmb.state = .acquire) && decide (8 ≤ s.tmb.idleFrames)

/-! ### Checkpoints (06 R141 to R143) -/

/-- Checkpoints are due: TMB runs and GLB.CTRL.ENABLE is 1 (06 R143). -/
def checkpointsDue (s : State) : Bool := tmbRuns s && (hdrOf .glb s).enable

/-- The planner is judged for the running frame. -/
def judgePlanner (missed : Bool) (s : State) : State :=
  { s with tmb := { s.tmb with planJudged := true, planPrev := s.tmb.planLast, planLast := missed,
                               planAt := s.tmb.frame } }

/-- The planner's checkpoint has been missed: plans of the running frame unpublished at PLAN_WINDOW. -/
def overrunDue (s : State) : Bool :=
  checkpointsDue s && pageActive .sch s && !s.tmb.planJudged && !s.sch.toPlan.isEmpty
  && decide (planWindow s ≤ s.tmb.phase)

/-- PLAN_OVERRUN: event 4, counter 10, error; the unpublished plans are discarded, and after a second miss in a row
the frame watchdog fires. -/
def planOverrun (s : State) : State :=
  if overrunDue s then
    let n := s.sch.toPlan.length
    let twice := s.tmb.planLast && decide (s.tmb.planAt + 1 = s.tmb.frame)
    let s := raiseErr .tmb 0x0101 n (bump .tmb 10 (raiseEvt .tmb 4 s))
    let s := s.sch.toPlan.foldl (fun s c => modPlan c (fun p => p.map fun q => { q with carried := true }) s) s
    let s := judgePlanner true { s with tmb.unpub := n, sch.toPlan := [] }
    if twice then { s with rst.wdogFired := some (BitVec.ofNat 32 (2 ^ 31 + 2 ^ 30)) } else s
  else s

/-- WDOG_INFO with a Burin that missed twice added, the lowest of several (16 WDOG_INFO). -/
def burinInfo (b w : Nat) : Word32 :=
  BitVec.ofNat 32 (2 ^ 31 + fieldAt 30 (fieldOf w 30 1) + 2 ^ 29 + (if bitAt w 29 then min (fieldOf w 0 6) b else b))

/-- The checkpoint of Burin b is missed: event 5, counter 11, error with the lowest Burin, the watchdog after a second
miss in a row. -/
def checkpointMiss (b : Nat) (s : State) : State :=
  if s.tmb.ckptOwed.getLsbD b then
    let m := BitVec.ofNat 64 (2 ^ b)
    let twice := s.tmb.ckptPrev.getLsbD b
    let first := decide (s.tmb.ckptMiss = 0)
    let s := bump .tmb 11 (raiseEvt .tmb 5 s)
    let s := if first then raiseErr .tmb 0x0102 (((List.range 64).find? fun i => s.tmb.ckptOwed.getLsbD i).getD b) s else s
    let s := { s with tmb := { s.tmb with ckptOwed := s.tmb.ckptOwed &&& ~~~m, ckptMiss := s.tmb.ckptMiss ||| m } }
    if twice then { s with rst.wdogFired := some (burinInfo b ((s.rst.wdogFired.map (·.toNat)).getD 0)) } else s
  else s

end Sys2Proof.Machine
end

