-- ==== Sys2Proof/Machine/Data.lean ====
section
/-!
DEFINITION. The data path's commands (10): program data and its encoding, the responses of data writes, staging grants,
the ends of hard corrections and the soft pool, and the retest of a held ladder (11 R274).
-/

namespace Sys2Proof.Machine

/-! ### Fabric errors of data moves (10 R251, 01 R38) -/

/-- DPT reports a data move of tag t that got a non-OKAY status: event 2, error, counter 5. -/
def noteDataError (stat c : Nat) (s : State) : State :=
  bump .dpt 5 (raiseErr .dpt 0x0100 (fieldAt 16 stat + c) (raiseEvt .dpt 2 s))

/-- The operation of tag t commits FABRIC_ERROR. -/
def dataError (t stat : Nat) (s : State) : State :=
  failOp t stFabric rankOwn (noteDataError stat (paChannel (ePaddr (tagOf t s).entry)) s)

/-! ### Program data (10 R237) -/

/-- Destination address of a program's data. -/
def progAddr (e : Entry) : Nat := if eOpcode e = opCopy then eDstPaddr e else ePaddr e

/-- Codeword k of a program, in the order of R92, is encoded from 4,096 user bytes. -/
def encodePos (t k : Nat) (user : List Byte) (s : State) : State :=
  let e := (tagOf t s).entry
  let a := ePaddr e
  let u := max 1 (entryPages e s)
  let n := k / 4
  let plane := ((planesOf (ePmask e))[n / u]?).getD 0
  encodeInto t (paDie a) plane (paBlock a) (paPage a + n % u) (k % 4) (entrySlc e s) k user s

/-- Bytes of codeword k out of those received, when all 4,096 are there. -/
def userOf (k : Nat) (m : SMap (List Byte)) : Option (List Byte) :=
  let l := (m.filter fun e => decide (4096 * k < e.1 + e.2.length) && decide (e.1 < 4096 * (k + 1))).flatMap fun e =>
    (e.2.drop (4096 * k - e.1)).take (4096 * (k + 1) - max e.1 (4096 * k))
  if l.length = 4096 then some l else none

/-- The bytes of codeword k of program data, when it is whole and not yet encoded. -/
def toEncode (k : Nat) (p : ProgBuf) : Option (List Byte) :=
  if (SMap.get (fun _ => []) p.cws k).isEmpty then userOf k p.user else none

/-- The codewords that bytes from off to off + n touch are encoded where they are whole. -/
def encodeRange (t off n : Nat) (s : State) : State :=
  ((List.range (ceilDiv (off % 4096 + n) 4096)).map fun i => off / 4096 + i).foldl
    (fun s k => match (progOf t s).bind (toEncode k) with
      | some u => encodePos t k u s
      | none => s) s

/-- Bytes enter staging at a place of a program's data, encoded as they come; while ECC is disabled the encoding waits
(10 R237, R253). -/
def stageBytes (t off : Nat) (bytes : List Byte) (s : State) : State :=
  let s := modProg t (fun p => { p with user := SMap.put (fun _ => []) p.user off bytes }) s
  if pageActive .ecc s then encodeRange t off bytes.length s else modTag t (fun x => { x with fetchWait := true }) s

/-- The tag of the queued program is replaced by the key of its OK_EARLY program (05 R127). -/
def renameQueued (t id d : Nat) (s : State) : State :=
  modDie d (fun x => { x with queue := x.queue.map fun it => if it.id = t then { it with id := id } else it }) s

/-- The key after one, between the tags and the Graver's jobs. -/
def nextKey (k : Nat) : Nat := if k + 1 < 1000000 then k + 1 else 65536

/-- The first key from k on under which no program runs and nothing is staged. -/
def earlyKey : Nat → Nat → State → Nat
  | 0, k, _ => k
  | f + 1, k, s =>
    if (s.ops.tags.any fun e => decide (e.1 = k)) || (s.dpt.progs.any fun p => decide (p.id = k)) then
      earlyKey f (nextKey k) s
    else k

/-- EARLY_ACK: the last byte stands in staging, the tag commits OK_EARLY and its program goes on without a tag
(05 R127, 01 Table 1.7). -/
def commitEarly (t : Nat) (s : State) : State :=
  let x := tagOf t s
  let id := earlyKey (s.ops.tags.length + s.dpt.progs.length + 1) s.ops.earlyNext s
  let d := paDie (ePaddr x.entry)
  let s := setTag id { x with armed := false, withdrawn := true, state := .issued } { s with ops.earlyNext := nextKey id }
  let s := renameQueued t id d s
  let s := { s with dpt.progs := s.dpt.progs.map fun p => if p.id = t ∧ p.ended = false then { p with id := id } else p }
  commitTag t stEarly rankOwn s

/-- Every byte of a program's data stands in staging, encoded: EARLY_ACK commits; the array program may start. Where the
encoding waits, so do they. -/
def progComplete (t : Nat) (s : State) : State :=
  let s := modTag t (fun x => { x with dataLeft := 0 }) s
  if !pageActive .ecc s then modTag t (fun x => { x with fetchWait := true }) s
  else
    let s := modProg t (fun p => { p with user := [] }) s
    if eClass (tagOf t s).entry = clsEarly then commitEarly t s else s

/-- Bytes of a program's data enter staging. -/
def progBytes (t off : Nat) (bytes : List Byte) (s : State) : State :=
  let s := stageBytes t off bytes s
  let left := (tagOf t s).dataLeft - bytes.length
  if left = 0 then progComplete t s else modTag t (fun x => { x with dataLeft := left }) s

/-- A read of program data returns for a tag that still waits for it; a failed one of another operation is reported
alone (10 R251). -/
def programReturn (t order ch off : Nat) (q : RdReq) (beats : List (BitVec 512)) (stat : BitVec 2) (s : State) : State :=
  let x := tagOf t s
  if reachedNow t rankOwn s = false ∨ x.order ≠ order ∨ x.dataLeft = 0 then
    if statOk stat then s else noteDataError stat.toNat ch s
  else if statOk stat then progBytes t off (readBytes q beats) s
  else dataError t stat.toNat s

/-- The word of an erase count returns: the count is advanced. One that a non-OKAY status answers stays as it is, and
its erase waits for it no longer (14 R358, log entry 7). -/
def countReturn (q : RdReq) (t : Option Nat) (beats : List (BitVec 512)) (stat : BitVec 2) (s : State) : State :=
  if statOk stat then countRead q.addr t (readBytes q beats) s
  else match t with
    | some t => completeTag t (modTag t (fun x => { x with wrOut := x.wrOut - 1 }) s)
    | none => s

/-- PROGRAM_DATA: a fabric return of program data, or of the word of an erase count (10 R237, R238, 14 R358). -/
def programData (p : PortId) (tkt : BitVec 9) (beats : List (BitVec 512)) (stat : BitVec 2) (s : State) : State :=
  match readAt p tkt s with
  | some q =>
    match q.purpose with
    | .program t order ch off =>
      if beatsMatch q beats then programReturn t order ch off q beats stat (readOver p tkt s) else s
    | .eraseCount t => if beatsMatch q beats then countReturn q t beats stat (readOver p tkt s) else s
    | _ => s
  | none => s

/-- PROGRAM_DATA (10 R237). -/
def execProgramData (p : PortId) (tkt : BitVec 9) (beats : List (BitVec 512)) (stat : BitVec 2) (s : State) : Out :=
  fin (programData p tkt beats stat s)

/-! ### Responses of data writes (01 R17, 10 R250, R251) -/

/-- A codeword's write has been answered. -/
def cwAnswered (t plane idx : Nat) (s : State) : State :=
  reapCws (modCw t plane idx (fun c => { c with wrOut := c.wrOut - 1 }) s)

/-- A write for tag t has been answered: an error commits FABRIC_ERROR unless the tag has committed before; the
completion follows the last response. The erase counts of an ERASE carry no data of it (14 R358). -/
def writeAnswered (t : Nat) (stat : BitVec 2) (s : State) : State :=
  let s := modTag t (fun x => { x with wrOut := x.wrOut - 1 }) s
  let x := tagOf t s
  let s := if x.wrOut = 0 then readerDone t s else s
  if eOpcode x.entry = opErase then completeTag t s
  else if statOk stat then finishRead t s
  else if x.state = .committed ∧ reachedNow t rankOwn s = false then completeTag t (noteDataError stat.toNat (paChannel (ePaddr x.entry)) s)
  else dataError t stat.toNat s

/-- The report of a CENSUS or FEATURE_GET has been written: with the last response the tag commits (01 Table 1.7). -/
def reportAnswered (t : Nat) (stat : BitVec 2) (s : State) : State :=
  let s := modTag t (fun x => { x with wrOut := x.wrOut - 1 }) s
  let x := tagOf t s
  if !statOk stat then
    if x.state = .committed ∧ reachedNow t rankOwn s = false then completeTag t (noteDataError stat.toNat (paChannel (ePaddr x.entry)) s)
    else dataError t stat.toNat s
  else if x.state = .committed ∧ ¬ (x.wrOut = 0 ∧ reachedNow t rankOwn s = true) then completeTag t s
  else if x.wrOut = 0 then commitTag t stOk rankOwn s
  else s

/-- DATA_WRITE_RESPONSE: the acknowledgement of a data, report or map write. -/
def dataWriteResponse (p : PortId) (tkt : BitVec 9) (stat : BitVec 2) (s : State) : State :=
  match writeAt p tkt s with
  | some w =>
    match w.purpose with
    | .data t plane idx => writeAnswered t stat (cwAnswered t plane idx (writeOver p tkt s))
    | .report t => reportAnswered t stat (writeOver p tkt s)
    | .map => writeOver p tkt s
    | _ => s
  | none => s

/-- DATA_WRITE_RESPONSE (01 R17). -/
def execDataWriteResponse (p : PortId) (tkt : BitVec 9) (stat : BitVec 2) (s : State) : Out :=
  fin (dataWriteResponse p tkt stat s)

/-! ### STAGING_REGRANT (10 R249) -/

/-- The programs whose fetch waits and the reads whose staged copy waits for room, in key order. -/
def fetchWaiters (s : State) : List Nat :=
  (sortBy (fun (a b : Nat × TagRow) =>
      sortsBefore a.2.key (classRank (eClass a.2.entry)) a.2.order b.2.key (classRank (eClass b.2.entry)) b.2.order)
    (s.ops.tags.filter fun e => (e.2.fetchWait || e.2.pageWait.isSome) && tagOpen e.1 s)).map (·.1)

/-- The fetch or the encoding of a program's data goes on. -/
def fetchOn (t : Nat) (s : State) : State :=
  let e := (tagOf t s).entry
  let n := progPages e s
  if !pageActive .ecc s then s
  else
    let s := modTag t (fun x => { x with fetchWait := false }) (encodeRange t 0 (n * 16384) s)
    if (tagOf t s).dataLeft = 0 then progComplete t s
    else if eOpcode e = opStage then s
    else fetchPages n t s

/-- A request that waits is judged again. -/
def regrant (s : State) (t : Nat) : State :=
  match (tagOf t s).pageWait with
  | some p => readPage 4096 t p s
  | none => if isJob t then stageJob t s else fetchOn t s

/-- DPT judges the waiting requests again in key order. -/
def stagingRegrant (s : State) : State := (fetchWaiters s).foldl regrant s

/-- STAGING_REGRANT (10 R249). -/
def execStagingRegrant (s : State) : Out := fin (stagingRegrant s)

/-! ### Hard and soft decoders (10 R241, R245) -/

/-- HARD_CORRECTION_END (10 R241). -/
def execHardCorrectionEnd (c : ChnId) (flips : List Nat) (s : State) : Out := fin (correctionEnd c.toNat flips s)

/-- The request that a free decoder takes next: while ECC is disabled only those of BOOT_FETCH (10 R253). -/
def softPick (s : State) : Option SoftReq :=
  firstBy softBefore (s.ecc.queue.filter fun q => pageActive .ecc s || bootRead q.id s)

/-- Decoder u is enabled and free. -/
def softFree (u : Nat) (s : State) : Bool := bitAt (regOf .ecc oEccSoftEn s) u && (softOf u s).isNone

/-- A decode starts on decoder u. -/
def softStart (u : Nat) (s : State) : State :=
  match softPick s with
  | some q =>
    if softFree u s then
      let w := cwOf q.id q.plane q.idx s
      setSoft u (some { req := q, since := s.cc, input := (w.map fun w => softInput w s).getD [] }) { s with ecc.queue := s.ecc.queue.filter fun r => !decide (r = q) }
    else s
  | none => s

/-- SOFT_DECODE_START (10 R245). -/
def execSoftDecodeStart (u : BitVec 5) (s : State) : Out := fin (softStart u.toNat s)

/-- The decode on decoder u ends; one whose tag has committed writes nothing back (10 R247). While ECC is disabled no
other ends, but one of BOOT_FETCH (10 R253). -/
def softOver (u : Nat) (flips : List Nat) (s : State) : State :=
  match softOf u s with
  | some r =>
    if r.dropped then setSoft u none s
    else if !(pageActive .ecc s || bootRead r.req.id s) then s
    else softEnd r.req flips (setSoft u none s)
  | none => s

/-- SOFT_DECODE_END (10 R245). -/
def execSoftDecodeEnd (u : BitVec 5) (flips : List Nat) (s : State) : Out := fin (softOver u.toNat flips s)

/-! ### LADDER_RETEST (11 R274) -/

/-- Every undecoded codeword of a tag has a stripe group. -/
def allStriped (t : Nat) (s : State) : Bool :=
  (tagOf t s).todo.all fun w => (stripeGroup (paDie (ePaddr (tagOf t s).entry)) w.plane s).isSome

/-- The held tag whose turn the ladder unit's retest is: of those due the first in key order, and one in a cc (11 R274). -/
def retestNext (s : State) : Option Nat :=
  if s.lvl.retestAt = some s.cc then none
  else (firstBy (fun (a b : Nat × TagRow) =>
      sortsBefore a.2.key (idRank a.1 s) a.2.order b.2.key (idRank b.1 s) b.2.order)
    (s.ops.tags.filter fun e => e.2.ladderHeld.any fun due => decide (due ≤ s.cc))).map (·.1)

/-- The ladder unit applies R273 to a held tag again: a rung that fits ends the hold (counter 9), any other result
leaves it held until the next retest. -/
def retest (t : Nat) (s : State) : State :=
  let x := tagOf t s
  let s := { s with lvl.retestAt := some s.cc }
  let n := ladderNext x.entry x.key x.rung x.todo.length (allStriped t s) s
  let s := if n.2 = 0 then s else raiseEvt .lvl 5 (bumpBy .lvl 7 n.2 s)
  match n.1 with
  | .run q =>
    let page := stagedPage t s
    let s := bump .lvl 9 (modTag t (fun x => { x with ladderHeld := none }) s)
    if q = 5 then
      let r := startRebuild 64 t (modTag t (fun x => { x with rung := 5, attempt := 0, maxRung := max x.maxRung 5 }) s)
      if r.2 then r.1 else rungOver t page r.1
    else queueSense false t page q 0 s
  | _ => modTag t (fun x => { x with ladderHeld := some (s.cc + retestCc s) }) s

/-- A retest of a held tag takes place when its turn has come. -/
def ladderRetest (t : Nat) (s : State) : State := if retestNext s = some t then retest t s else s

/-- The ladder unit's retest of a cc (11 R274). -/
def ladderTick (s : State) : State :=
  match retestNext s with
  | some t => retest t s
  | none => s

/-- LADDER_RETEST (11 R274). -/
def execLadderRetest (t : TagId) (s : State) : Out := fin (ladderRetest t.toNat s)

end Sys2Proof.Machine
end

