-- ==== Sys2Proof/Machine/DiskPort.lean ====
section
/-!
DEFINITION. The disk stream ports (12 R286 to R301) and the commands of TMB that both the tracker and a port see
(06 R135 to R139): ticks, samples, wedge decisions, the release of sectors, capture.
-/

namespace Sys2Proof.Machine

/-! ### Loss of sync (12 R286, R290) -/

/-- The open tags that hold a record of a port, and the one whose sector is open. -/
def recordTags (a : Nat) (s : State) : List Nat :=
  (((dspOf a s).recs.filter fun r => !r.dead).map (·.tag)
    ++ (match (dspOf a s).open_ with
      | some o => if o.rec_.dead || !tagOpen o.rec_.tag s then [] else [o.rec_.tag]
      | none => [])).dedup

/-- Every DESTAGE of a port that holds a record is dealt with (12 R290): its tag commits, its records are freed, the
open sector is dropped without a skip beat: no data and no skip beat for any of their sectors (12 R303). -/
def flushPort (a st rank : Nat) (s : State) : State :=
  let ts := recordTags a s
  let s := modDsp a (fun d => { d with recs := [], open_ := none, tx := .none }) s
  ts.foldl (fun s t => if st = stUnderrun then endTag t st rank s else commitTag t st rank s) s

/-- VALID falls: SYNC_LOST, its error with the last valid index, and R290. -/
def syncLost (a lastIdx : Nat) (s : State) : State :=
  let s := modDsp a (fun d => { d with valid := false, goodRun := 0, ofsSet := false }) s
  flushPort a stUnderrun rankOwn (raiseErr (dspPage a) 0x0102 lastIdx (raiseEvt (dspPage a) 2 s))

/-- What a change of TMB's state does to port a: was says that its SYNC.VALID stood before, with an index. -/
def syncAfter (a : Nat) (was : Bool) (idx : Nat) (s : State) : State :=
  if was && (decide (s.tmb.state ≠ .locked) || !syncValid a s) then syncLost a idx s else s

/-- A change of TMB, followed by the loss of sync that it brings. -/
def withSync (f : State → State) (s : State) : State :=
  let t := f s
  syncAfter 1 (syncValid 1 s) (syncIndex 1 s) (syncAfter 0 (syncValid 0 s) (syncIndex 0 s) t)

/-! ### Ticks of a port (12 R286) -/

/-- Distance of a pad time, less OFS_EST, from a frame start. -/
def startDist (x : Int) (b : Nat) : Nat := (x - Int.ofNat b).natAbs

/-- The frame whose start lies nearest to a pad time less OFS_EST: the running one, the one before or the one after. -/
def nearestFrame (tau ofs : Nat) (s : State) : Word32 :=
  let x := Int.ofNat tau - Int.ofNat ofs
  let b := frameStart s
  let d0 := startDist x b
  if startDist x (b - s.tmb.prevLen) < d0 then s.tmb.frame - 1
  else if startDist x (b + s.tmb.frameLen) < d0 then s.tmb.frame + 1
  else s.tmb.frame

/-- A tick joins the ticks of port a that wait for a decision. -/
def addTick (a : Nat) (f : Word32) (tau : Nat) (s : State) : State :=
  modDsp a (fun d => { d with ticks := d.ticks ++ [{ frame := f, tau := tau, at_ := s.cc }] }) s

/-- A frame has been decided for a port. -/
def frameDecided (a : Nat) (f : Word32) (s : State) : Bool :=
  !frameLater f s.tmb.frame && !(dspOf a s).frames.any fun x => decide (x.1 = f)

/-- A tick of the other actuator (12 R286): the first since VALID fell sets OFS_EST from its own phase; a second tick
for a frame, decided or not, ends VALID. -/
def otherTick (s : State) : State :=
  if tmbRuns s = false then s
  else
    let a := 1 - refAct s
    let tau := s.cc - 2
    let s := if (dspOf a s).ofsSet then s
      else modDsp a (fun d => { d with ofs := (tickPlace s).2.1, ofsSet := true }) s
    let f := nearestFrame tau (dspOf a s).ofs s
    let twice := ((dspOf a s).ticks.any fun t => decide (t.frame = f)) || (dspOf a s).ticked.contains f
    let s := if frameDecided a f s then s else addTick a f tau s
    if twice then
      if (dspOf a s).valid then syncLost a (dspOf a s).index s else modDsp a (fun d => { d with goodRun := 0 }) s
    else s

/-- NON_REFERENCE_WEDGE_TICK (12 R286). -/
def execNonReferenceWedgeTick (s : State) : Out := fin (otherTick s)

/-- A tick of the reference actuator: the tracker's tick, and the port's for its own frame unless that frame has one. -/
def refTick (s : State) : State :=
  let s := withSync wedgeTick s
  match s.tmb.pend with
  | none => s
  | some t =>
    if tmbRuns s = false ∨ t.at_ ≠ s.cc ∨ (dspOf (refAct s) s).ticks.any (fun x => decide (x.frame = t.own)) = true then s
    else addTick (refAct s) t.own t.tau s

/-- WEDGE_TICK (06 R135). -/
def execWedgeTick (s : State) : Out := fin (refTick s)

/-! ### Samples (02 R44) -/

/-- The sample goes to the last tick when that one still waits for it. -/
def giveSample (p : BitVec 44) : List DTick → List DTick
  | [] => []
  | [t] => [if t.sample.isNone then { t with sample := some p } else t]
  | t :: r => t :: giveSample p r

/-- The ticks of a port once a sample has come: one that comes too late for its tick is not taken (02 R45). -/
def sampledTicks (p : BitVec 44) (wait now : Nat) (l : List DTick) : List DTick :=
  match l.getLast? with
  | some t => if now ≤ t.at_ + wait then giveSample p l else l
  | none => l

/-- A new servo_pos sample of actuator a: LAST_POS; the tracker decides its pending tick, without the sample when that
comes later than SAMPLE_WAIT (02 R45). -/
def servoSample (a : Nat) (p : BitVec 44) (s : State) : State :=
  let s := modDsp a (fun d => { d with lastPos := p, posValid := true,
                                       ticks := sampledTicks p (sampleWait s) s.cc d.ticks }) s
  if a = refAct s then
    let s := { s with tmb.lastPos := p }
    if tmbRuns s = false then s else withSync (decideTick (if sampleLate s then none else some p)) s
  else s

/-- SERVO_SAMPLE (02 R44). -/
def execServoSample (a : ActId) (pos : BitVec 44) (s : State) : Out := fin (if corePowered s then servoSample a.toNat pos s else s)

/-- SAMPLE_WAIT_EXPIRY (06 R135): the pending tick is decided without a sample. -/
def execSampleWaitExpiry (s : State) : Out := fin (if waitOver s then withSync (decideTick none) s else s)

/-- MISS (06 R137). -/
def execMiss (s : State) : Out := fin (if missDue s then withSync takeMiss s else s)

/-- HOLD_EXPIRED (06 R139): HOLD to FREERUN, event 2. -/
def execHoldExpired (s : State) : Out :=
  fin (if holdOver s then withSync (fun s => raiseEvt .tmb 2 (freeRun s)) s else s)

/-- ACQUIRE_TIMEOUT (06 R139). -/
def execAcquireTimeout (s : State) : Out := fin (if acquireOver s then withSync (setTrk .freerun) s else s)

/-- FRAME_WRITE (06 R144): FRAME takes a value while the tracker is OFF. -/
def frameWrite (f : Word32) (s : State) : State :=
  if s.tmb.state = .off then { s with tmb.frame := f } else raiseErr .tmb 0x0100 (trkCode s.tmb.state) s

/-- FRAME_WRITE (06 R144). -/
def execFrameWrite (frame : Word32) (s : State) : Out := fin (csrDo .tmb (frameWrite frame) s)

/-- PLAN_OVERRUN (06 R141). -/
def execPlanOverrun (s : State) : Out := fin (planOverrun s)

/-- CHECKPOINT_MISS (06 R142). -/
def execCheckpointMiss (b : BurId) (s : State) : Out := fin (checkpointMiss b.toNat s)

/-! ### Resolution (12 R289, R290) -/

/-- DL_FRAME + LEAD_FR of a record's entry. -/
def resolveFrame (a : Nat) (r : Rec) (s : State) : Word32 :=
  r.dl + BitVec.ofNat 32 (regFld (dspPage a) oDspConfig 0 8 s)

/-- A record of a tag that is not resolved and whose frame of resolution has begun. -/
def recDue (a t : Nat) (s : State) (r : Rec) : Bool :=
  decide (r.tag = t) && r.frame.isNone && !frameLater (resolveFrame a r s) s.tmb.frame && decide (s.tmb.state ≠ .off)

/-- The entries of a tag on a port that are to be resolved, by their first records; the tag may have committed and be in
use again. -/
def resolveDue (a t : Nat) (s : State) : List Rec :=
  ((dspOf a s).recs.filter (recDue a t s)).foldl (fun l r => if l.any fun x => decide (x.base = r.base) then l else l ++ [r]) []

/-- The sectors of an entry get their frames: P is the next frame of wedge WEDGE (12 R289). -/
def setFrames (a : Nat) (q : Rec) (s : State) : State :=
  let w := max 1 (wedges s)
  let p := s.tmb.frame + BitVec.ofNat 32 ((q.first + w - syncIndex a s % w) % w)
  modDsp a (fun d => { d with recs := d.recs.map fun r =>
    if r.base = q.base ∧ r.frame.isNone = true then { r with frame := some (p + BitVec.ofNat 32 (r.wedge - q.first)) } else r }) s

/-- Resolution without sync: STREAM_UNDERRUN, CAUSE 6 for every sector of the entry, no beat (12 R290). -/
def notSynced (a : Nat) (q : Rec) (s : State) : State :=
  let mine := fun (r : Rec) => decide (r.base = q.base) && r.frame.isNone
  let rs := (dspOf a s).recs.filter mine
  let s := bumpBy (dspPage a) 6 rs.length s
  let s := modDsp a (fun d => { d with recs := d.recs.filter fun r => !mine r }) s
  if q.dead then s else endTag q.tag stUnderrun rankOwn (holdInfo a 6 false q.tag q.sector q.first s)

/-- The planned frame of an entry is found. -/
def resolveEntry (a : Nat) (s : State) (q : Rec) : State := if syncValid a s then setFrames a q s else notSynced a q s

/-- DESTAGE_RESOLVE: at the start of DL_FRAME + LEAD_FR. -/
def destageResolve (t : Nat) (s : State) : State :=
  let s := (resolveDue 0 t s).foldl (resolveEntry 0) s
  (resolveDue 1 t s).foldl (resolveEntry 1) s

/-- DESTAGE_RESOLVE (12 R289). -/
def execDestageResolve (t : TagId) (s : State) : Out := fin (destageResolve t.toNat s)

/-! ### Release (12 R293 to R296) -/

/-- Record a goes before record b: sector frame, sector number, consumption. -/
def recBefore (a b : Rec) : Bool :=
  match a.frame, b.frame with
  | some f, some g =>
    if f = g then decide (a.sector < b.sector) || (decide (a.sector = b.sector) && decide (a.order < b.order))
    else frameLater g f
  | _, _ => false

/-- The sector presented next: the first of the resolved records. -/
def nextRec (a : Nat) (s : State) : Option Rec := firstBy recBefore ((dspOf a s).recs.filter fun r => r.frame.isSome)

/-- Checks 1 to 4 on a sample, with the wedge index expected; 0 when all pass (12 Table 12.3). -/
def sampleCheck (r : Rec) (wedge : Nat) (pos : Option (BitVec 44)) : Nat :=
  match pos with
  | none => 2
  | some p =>
    if !posValid p then 2
    else if posStale p then 3
    else if posDefect p then 4
    else if posHead p ≠ r.head ∨ posTrack p ≠ r.track ∨ posWedge p ≠ wedge then 1
    else 0

/-- The codeword that holds a sector, as its slot's index. -/
def recSlot (r : Rec) : Nat := r.cw0 + r.pos * r.size / 4096

/-- The slot of a sector, once its bytes stand in it. -/
def fullSlot (a : Nat) (r : Rec) (s : State) : Option Slot :=
  (dspOf a s).slots.find? fun z => decide (z.tag = r.tag) && decide (z.idx = recSlot r) && z.data.isSome

/-- Every byte of the sector stands in its slot. -/
def slotFull (a : Nat) (r : Rec) (s : State) : Bool := (fullSlot a r s).isSome

/-- The bytes of the sector. -/
def recBytes (a : Nat) (r : Rec) (s : State) : List Byte :=
  ((((fullSlot a r s).bind (·.data)).getD []).drop (r.pos * r.size % 4096)).take r.size

/-- The hold checks of Table 12.3 at the release point of a sector. -/
def holdCheck (a : Nat) (r : Rec) (pos : Option (BitVec 44)) (s : State) : Nat :=
  let c := sampleCheck r r.wedge pos
  if c ≠ 0 then c
  else if (dspOf a s).sent.any fun x => decide (some x.1 = r.frame) && decide (x.2 = r.sector) then 7
  else if !slotFull a r s then 5
  else 0

/-- A record is freed at its release point (12 R288), remembered for the duplicate check. -/
def freeRec (a : Nat) (r : Rec) (s : State) : State :=
  let f := r.frame.getD 0
  modDsp a (fun d => { d with recs := d.recs.filter fun x => !decide (x.order = r.order),
                              sent := (d.sent.filter fun x => decide (x.1 = f)) ++ [(f, r.sector)] }) s

/-- A held sector (12 R294): its cause is counted, the first in HOLD_INFO, its tag commits STREAM_UNDERRUN. -/
def holdSector (a cause : Nat) (cont : Bool) (r : Rec) (wedge : Nat) (s : State) : State :=
  let s := raiseEvt (dspPage a) 0 (bump (dspPage a) cause s)
  let s := holdInfo a cause cont r.tag r.sector wedge s
  endTag r.tag stUnderrun rankOwn s

/-- The release point of a sector: skipped when its tag has committed (counter 8), held by a check, or opened. -/
def releaseRec (a : Nat) (r : Rec) (pos : Option (BitVec 44)) (s : State) : State :=
  let c := holdCheck a r pos s
  let b := recBytes a r s
  let s := freeRec a r s
  if r.dead then modDsp a (fun d => { d with tx := .skip }) (bump (dspPage a) 8 s)
  else if c ≠ 0 then modDsp a (fun d => { d with tx := .skip }) (holdSector a c false r r.wedge s)
  else
    let n := startBytes a r.head r.zone r.sector s
    let o : OpenSector := { rec_ := r, done := 0, upTo := n, bytes := b, nextWedge := r.wedge + 1, nextFrame := r.frame.getD 0 + 1 }
    modDsp a (fun d => { d with tx := .data, open_ := some o }) s

/-- The next sector is presented once its decision has been taken and fmt_tx is idle (12 R293). -/
def releaseNext (a : Nat) (s : State) : State :=
  let d := dspOf a s
  if d.open_.isSome ∨ d.tx ≠ .none then s
  else match nextRec a s with
    | some r => match r.dec with
      | some pos => releaseRec a r pos s
      | none => s
    | none => s

/-- A continuation at the decision of its wedge (12 R295): resumed, or closed by a skip beat. -/
def continueSector (a : Nat) (o : OpenSector) (pos : Option (BitVec 44)) (s : State) : State :=
  let w := o.nextWedge % max 1 (wedges s)
  let c := sampleCheck o.rec_ w pos
  if c = 0 then
    let n := contBytes a o.rec_.head o.rec_.zone o.nextWedge (o.rec_.size - o.done) s
    let o := { o with upTo := o.done + n, nextWedge := o.nextWedge + 1, nextFrame := o.nextFrame + 1, cont := none }
    modDsp a (fun d => { d with tx := .data, open_ := some o }) s
  else
    modDsp a (fun d => { d with tx := .skip }) (holdSector a c true o.rec_ w s)

/-! ### Capture (12 R298, R299) -/

/-- A stage's capture begins at a decision: its wedge, a usable sample, its head and track. -/
def captureStarts (e : Entry) (wedge : Nat) (pos : Option (BitVec 44)) : Bool :=
  match pos with
  | none => false
  | some p => posUsable p && decide (wedge = eWedge e) && decide (posHead p = eHead e) && decide (posTrack p = eTrack e)

/-- Sectors of a stage still to be captured, by position. -/
def stageLeft (t : Nat) (s : State) : List Nat :=
  let e := (tagOf t s).entry
  let z := zSize (eAct e) (eHead e) (eZone e) s
  let m := ((progOf t s).map (·.user)).getD []
  (List.range (eSectors e)).filter fun i => !(m.any fun x => decide (x.1 = i * z))

/-- A wedge carries bytes of a sector. -/
def sectorOn (e : Entry) (n w : Nat) (s : State) : Bool :=
  let a := eAct e
  let z := zSize a (eHead e) (eZone e) s
  let st := startWedge a (eHead e) (eZone e) n s
  decide (st = w)
  || wedgeCarries a (eHead e) (eZone e) n w s 513 (st + 1) (z - startBytes a (eHead e) (eZone e) n s)

/-- A decision breaks a capture: its wedge carries bytes still to come, and its sample is unusable or elsewhere. -/
def captureBreaks (t wedge : Nat) (pos : Option (BitVec 44)) (s : State) : Bool :=
  let e := (tagOf t s).entry
  (match pos with
    | none => true
    | some p => !posUsable p || decide (posHead p ≠ eHead e) || decide (posTrack p ≠ eTrack e) || decide (posWedge p ≠ wedge))
  && (stageLeft t s).any fun i => sectorOn e (eSector e + i) wedge s

/-- A capture breaks (12 R299): granules released, event 5, counter 15, armed for the next pass. -/
def breakCapture (a t : Nat) (s : State) : State :=
  let s := dropProg t s
  let s := modTag t (fun x => { x with dataLeft := progPages x.entry s * 16384 }) s
  bump (dspPage a) 15 (raiseEvt (dspPage a) 5
    (modDsp a (fun d => { d with armed := d.armed.map fun x => if x.tag = t then { x with capturing := false } else x }) s))

/-- What a wedge decision does to one armed stage. -/
def captureDecision (a wedge : Nat) (pos : Option (BitVec 44)) (s : State) (x : Armed) : State :=
  let e := (tagOf x.tag s).entry
  if x.capturing then (if captureBreaks x.tag wedge pos s then breakCapture a x.tag s else s)
  else if captureStarts e wedge pos then
    modDsp a (fun d => { d with armed := d.armed.map fun y => if y.tag = x.tag then { y with capturing := true } else y }) s
  else s

/-! ### Wedge decisions (12 R286, R287) -/

/-- The frame of port a that is decided next, and its start. -/
def decidable_ (a : Nat) (s : State) : Option (Word32 × Nat) := (dspOf a s).frames.head?

/-- The sample of the decision of a frame that is due: some of it, or of its absence; none while it is not due. -/
def decisionOf (a : Nat) (f : Word32) (start : Nat) (s : State) : Option (Option (BitVec 44)) :=
  match (dspOf a s).ticks.find? fun t => decide (t.frame = f) with
  | some t =>
    if t.sample.isSome then some t.sample else if t.at_ + sampleWait s ≤ s.cc then some none else none
  | none => if start + ofsEst a s + sampleWait s ≤ s.cc then some none else none

/-- Ticks assigned to a frame. -/
def ticksOf (a : Nat) (f : Word32) (s : State) : List DTick := (dspOf a s).ticks.filter fun t => decide (t.frame = f)

/-- SYNC of the other actuator after the decision of frame f (12 R286). The step of a sample is counted from the index
of the frame before, predicted or read (log entry 29). -/
def syncDecision (a : Nat) (f : Word32) (start : Nat) (pos : Option (BitVec 44)) (s : State) : State :=
  let d := dspOf a s
  let w := max 1 (wedges s)
  let ts := ticksOf a f s
  let usable := pos.any posUsable
  let idx := if usable then (pos.map posWedge).getD 0 else ((d.lastIdx.map (· + 1)).getD 0) % w
  let step := d.lastIdx.map fun l => (idx + w * 4096 - l) % w
  let badStep := usable && step.any fun x => !decide (x = 1 % w)
  let bad := decide (ts.length ≠ 1) || badStep
  let s := if bad && d.valid then syncLost a d.index s else s
  let good := !bad && usable && decide (s.tmb.state = .locked) && d.lastIdx.isSome
  let run := if good then d.goodRun + 1 else 0
  let ofs := match usable, ts.head? with
    | true, some t => t.tau - start
    | _, _ => (dspOf a s).ofs
  modDsp a (fun x => { x with lastIdx := if usable || d.lastIdx.isSome then some idx else none,
                              index := indexNow idx f s,
                              goodRun := run, valid := x.valid || (decide (8 ≤ run) && decide (s.tmb.state = .locked)),
                              ofs := ofs }) s

/-- The wedge decision of the oldest frame of a port that is not decided (12 R287): continuation, release, capture. -/
def wedgeDecision (a : Nat) (s : State) : State :=
  match decidable_ a s with
  | none => s
  | some (f, start) =>
    match decisionOf a f start s with
    | none => s
    | some pos =>
      let s := if a = refAct s then s else syncDecision a f start pos s
      let w := wedgeOf a f s
      let s := modDsp a (fun d =>
        { d with frames := d.frames.tail,
                 ticked := if d.ticks.any fun t => decide (t.frame = f) then (f :: d.ticked).take 4 else d.ticked,
                 ticks := d.ticks.filter fun t => !decide (t.frame = f),
                 decision := some { frame := f, sample := pos, wedge := w },
                 recs := d.recs.map fun r => if r.frame = some f then { r with dec := some pos } else r }) s
      let s := match (dspOf a s).open_ with
        | some o =>
          if o.nextFrame = f then
            (if (dspOf a s).tx = .none then continueSector a o pos s
             else if (dspOf a s).tx = .data then modDsp a (fun d => { d with open_ := some { o with cont := some pos } }) s
             else s)
          else s
        | none => s
      let s := if pageActive (dspPage a) s then (dspOf a s).armed.foldl (captureDecision a w pos) s else s
      releaseNext a s

/-- WEDGE_DECISION (12 R287). -/
def execWedgeDecision (a : ActId) (s : State) : Out := fin (wedgeDecision a.toNat s)

/-! ### Beats of fmt_tx (12 R292, R295, R296) -/

/-- The outputs fmt_tx_* of a port (02 Table 2.10): a skip beat is the first and last of its sector, with data zero and
nbytes 0 (12 R294); a data beat carries the next 8 bytes of the open sector, sos on its first beat and eos on its last,
whose 8 bytes nbytes 0 means (12 R295). -/
def fmtTx (a : Nat) (s : State) : FmtTx :=
  match (dspOf a s).tx, (dspOf a s).open_ with
  | .skip, _ => { valid := true, data := 0, sos := true, eos := true, nbytes := 0 }
  | .data, some o =>
    { valid := true, data := BitVec.ofNat 64 (leNat ((o.bytes.drop o.done).take 8)), sos := decide (o.done = 0),
      eos := decide (o.rec_.size ≤ o.done + 8), nbytes := 0 }
  | _, _ => { valid := false, data := 0, sos := false, eos := false, nbytes := 0 }

/-- fmt_rx_ready of a port: high in every cc out of reset, whatever its ENABLE holds (12 R301). -/
def fmtRxReady (a : Nat) (s : State) : Bool := pageAnswers (dspPage a) s

/-- Whether a slot still serves a sector: one that waits for release. -/
def slotWanted (a : Nat) (r : Rec) (s : State) : Bool :=
  (dspOf a s).recs.any fun x => decide (x.tag = r.tag) && !x.dead && decide (recSlot x = recSlot r)

/-- The last byte of a sector has been accepted: counter 0, its slot is freed with the last sector it holds, and the
tag commits with the last sector of its entry (12 R296). -/
def sectorSent (a : Nat) (r : Rec) (s : State) : State :=
  let s := bump (dspPage a) 0 s
  let s := modDsp a (fun d => { d with open_ := none, tx := .none }) s
  let s := if slotWanted a r s then s
    else modDsp a (fun d => { d with slots := d.slots.filter fun z =>
      !(decide (z.tag = r.tag) && decide (z.idx = recSlot r)) }) s
  if (dspOf a s).recs.any fun x => decide (x.tag = r.tag) && !x.dead then s
  else commitTag r.tag (okStatus r.tag s) rankOwn s

/-- The open sector reaches its end or a split point. -/
def sectorPart (a : Nat) (o : OpenSector) (s : State) : State :=
  if o.rec_.size ≤ o.done then releaseNext a (sectorSent a o.rec_ s)
  else
    let s := modDsp a (fun d => { d with tx := .none, open_ := some { o with cont := none } }) s
    match o.cont with
    | some pos => continueSector a o pos s
    | none => s

/-- The beat on offer when the tag of the open sector committed has been accepted (02 R31): a skip beat follows,
unless it was the sector's last (log entry 6). -/
def closeSector (a : Nat) (o : OpenSector) (s : State) : State :=
  if o.rec_.size ≤ o.done then
    releaseNext a (bump (dspPage a) 0 (modDsp a (fun d => { d with open_ := none, tx := .none }) s))
  else modDsp a (fun d => { d with tx := .skip }) s

/-- The formatter accepts a beat: a skip beat ends its sector, a data beat carries up to 8 bytes. -/
def fmtTxBeat (a : Nat) (s : State) : State :=
  match (dspOf a s).tx, (dspOf a s).open_ with
  | .none, _ => s
  | .skip, _ => releaseNext a (modDsp a (fun d => { d with tx := .none, open_ := none }) s)
  | .data, none => s
  | .data, some o =>
    let o := { o with done := min o.upTo (o.done + 8) }
    let s := modDsp a (fun d => { d with open_ := some o }) s
    if o.closing then closeSector a o s
    else if o.done = o.upTo then sectorPart a o s
    else s

/-- FMT_TX_BEAT (12 R295). -/
def execFmtTxBeat (a : ActId) (s : State) : Out := fin (fmtTxBeat a.toNat s)

/-! ### Sectors on fmt_rx (12 R298 to R300) -/

/-- Number of the j-th sector received since a decision, in the zone of an entry. -/
def rxSector (e : Entry) (wedge j : Nat) (s : State) : Nat :=
  let a := eAct e
  let n := zPlen a (eHead e) (eZone e) s
  wedge / n * zSpp a (eHead e) (eZone e) s + patFirst a (eHead e) (eZone e) (wedge % n) s + j - 1

/-- Sectors that start in a wedge in the zone of an entry. -/
def rxCount (e : Entry) (wedge : Nat) (s : State) : Nat :=
  patCount (eAct e) (eHead e) (eZone e) (wedge % zPlen (eAct e) (eHead e) (eZone e) s) s

/-- RX_PROTOCOL: event 4, error with the wedge, counter 17 (12 R299). -/
def rxProtocol (a wedge : Nat) (s : State) : State :=
  bump (dspPage a) 17 (raiseErr (dspPage a) 0x0100 (wedge % 4096) (raiseEvt (dspPage a) 4 s))

/-- The armed stage that captures and claims the j-th sector since a decision, the first admitted. -/
def rxClaim (a wedge j : Nat) (s : State) : Option Nat :=
  ((dspOf a s).armed.find? fun x =>
    let e := (tagOf x.tag s).entry
    let n := rxSector e wedge j s
    x.capturing && decide (eSector e ≤ n) && decide (n < eSector e + eSectors e)).map (·.tag)

/-- The granules of the codeword that a sector begins in are requested when its first byte arrives (12 R300, 10 R249),
and with the first grant a QUEUED STAGE is ISSUED (DESIGN CHOICE, log entry 39). False when DPT refuses. -/
def stageGrant (t off : Nat) (s : State) : State × Bool :=
  let e := (tagOf t s).entry
  let g := cwGran (paDie (ePaddr e)) s
  let early := decide (eClass e = clsEarly)
  let held := ((progOf t s).map (·.user)).getD []
  if held.any fun x => decide (x.1 / 4096 = off / 4096) then (s, true)
  else if !pageActive .dpt s || !(if early then grantEarly g s else grantOther g s) then (s, false)
  else
    let s := match progOf t s with
      | some _ => modProg t (fun p => { p with granules := p.granules + g }) s
      | none => { s with dpt.progs := s.dpt.progs ++ [{ id := t, granules := g, early := early }] }
    (modTag t (fun x => { x with state := .issued }) (notePeak (bump .dpt 0 s)), true)

/-- The last sector of a stage has been captured: it leaves the armed stages, its last codewords are encoded, and it
goes on as a PROGRAM (12 R300). -/
def stageDone (a t : Nat) (s : State) : State :=
  let s := modDsp a (fun d => { d with armed := d.armed.filter fun x => !decide (x.tag = t) }) s
  let n := progPages (tagOf t s).entry s * 16384
  progComplete t (armNext a (if pageActive .ecc s then encodeRange t 0 n s else s))

/-- A sector is captured at a position of its stage. -/
def captureSector (a t n : Nat) (bytes : List Byte) (s : State) : State :=
  let e := (tagOf t s).entry
  let off := (n - eSector e) * zSize a (eHead e) (eZone e) s
  let r := stageGrant t off s
  if r.2 then
    let s := bump (dspPage a) 13 r.1
    let s := stageBytes t off bytes s
    if stageLeft t s = [] then stageDone a t s else s
  else
    let s := raiseEvt (dspPage a) 1 (bump .dpt 2 r.1)
    armNext a (commitTag t stOverflow rankOwn s)

/-- A sector arrives whole on fmt_rx. While the port is disabled it is discarded (12 R301). -/
def fmtRxSector (a : Nat) (bytes : List Byte) (bad : Bool) (s : State) : State :=
  if !pageActive (dspPage a) s then s
  else match (dspOf a s).decision with
    | none => bump (dspPage a) 14 s
    | some d =>
      let j := d.rx + 1
      let s := modDsp a (fun x => { x with decision := some { d with rx := j } }) s
      let excess := (dspOf a s).armed.any fun x => x.capturing && decide (rxCount (tagOf x.tag s).entry d.wedge s < j)
      if excess then rxProtocol a d.wedge s
      else match rxClaim a d.wedge j s with
        | none => bump (dspPage a) 14 s
        | some t =>
          let e := (tagOf t s).entry
          if bytes.length ≠ zSize a (eHead e) (eZone e) s then breakCapture a t (rxProtocol a d.wedge s)
          else if bad then breakCapture a t s
          else captureSector a t (rxSector e d.wedge j s) bytes s

/-- FMT_RX_SECTOR (12 R298). -/
def execFmtRxSector (a : ActId) (bytes : List Byte) (bad : Bool) (s : State) : Out :=
  fin (fmtRxSector a.toNat bytes bad s)

/-! ### The firefly pulse (02 R46) -/

/-- ff_pulse[a] toggles: out of reset, TMB out of OFF, the port enabled, 128 cc after the last toggle; the
first toggle is counted from cc 0 (DESIGN CHOICE, log entry 34). A port that is disabled stops it, as reset does (12
R303). -/
def ffDue (a : Nat) (s : State) : Bool :=
  pageActive (dspPage a) s && decide (s.tmb.state ≠ .off) && decide ((dspOf a s).ffAt + 128 ≤ s.cc)

/-- The toggle. -/
def ffToggle (a : Nat) (s : State) : State :=
  modDsp a (fun d => { d with ffAt := s.cc }) { s with pins.ffPulse := s.pins.ffPulse ^^^ BitVec.ofNat 2 (2 ^ a) }

/-- FIREFLY_PULSE (02 R46). -/
def execFireflyPulse (a : ActId) (s : State) : Out := fin (if ffDue a.toNat s then ffToggle a.toNat s else s)

/-! ### The start of a frame (12 R286) -/

/-- A new frame begins for a port: it waits for its decision, and the index of the current frame moves on. -/
def portFrame (a : Nat) (s : State) : State :=
  modDsp a (fun d => { d with frames := d.frames ++ [(s.tmb.frame, s.cc)],
                              index := (d.index + 1) % max 1 (wedges s) }) s

/-- CTRL.ENABLE of a port becomes 0 (12 R290, R301, R303): R290, and captures end; its stages wait to be armed again. -/
def disablePort (a : Nat) (s : State) : State :=
  let s := flushPort a stUnderrun rankOwn s
  let ts := (dspOf a s).armed.map (·.tag)
  let s := ts.foldl (fun s t => modTag t (fun x => { x with dataLeft := progPages x.entry s * 16384 }) (dropProg t s)) s
  modDsp a (fun d => { d with armed := [], armWait := ts ++ d.armWait }) s

/-- CTRL.ENABLE of a port becomes 1: the stages that wait are armed in admission order. -/
def enablePort (a : Nat) (s : State) : State :=
  (List.range (min 256 (dspOf a s).armWait.length)).foldl (fun s _ => armNext a s) s

end Sys2Proof.Machine
end

