-- ==== Sys2Proof/Machine/Losses.lean ====
section
/-!
DEFINITION. What ends operations from outside: a reset of a die (07 R400), a die that leaves service (14 R335, 08 R173)
and the loss of a channel (07 R163, 08 R191).
-/

namespace Sys2Proof.Machine

/-! ### Reset of a die (07 R400, Table 7.2) -/

/-- The planes of an operation on which it reads for an id. -/
def idPlanes (o : DieOp) (id : Nat) (s : State) : Nat :=
  ((planesOf o.planes).filter fun p => !(wantedIdx o.kind id p s).isEmpty).foldl (fun a p => a + 2 ^ p) 0

/-- The sense of an operation enters the queues of its die again for one of its ids, at the id's key. -/
def requeueSense (d : Nat) (o : DieOp) (s : State) (id : Nat) : State :=
  if idPlanes o id s = 0 then s
  else
    enqueue d { id := id, kind := o.kind, planes := idPlanes o id s, block := o.block, page := o.page, slc := o.slc,
                rung := o.rung, attempt := o.attempt, cls := idRank id s, key := (tagOf id s).key,
                order := (tagOf id s).order } s

/-- An operation that a reset of its die has ended: a sense is issued again, any other operation is lost. -/
def endByReset (d : Nat) (s : State) (o : DieOp) : State :=
  if o.dropped then s
  else if readKind o.kind then o.ids.foldl (requeueSense d o) s
  else if o.kind = .tempGet then s
  else failOps o.ids stChannelLost rankOwn s

/-- The data-outs of a die that wait or are planned. -/
def waitingOuts (d : Nat) (s : State) : List Xfer :=
  let c := dieChannel d
  let mine := fun (x : Xfer) => decide (x.die = d % 32) && decide (x.kind ≠ 1)
  (candsOf c s).filter mine
  ++ (match planOf c s with
      | some p => (p.entries.filter fun e => !e.past && mine e.x).map (·.x)
      | none => [])

/-- The sense that a data-out belongs to, as its codewords remember it. -/
def outSense (d : Nat) (x : Xfer) (s : State) : Option DieOp :=
  match x.cws with
  | [] => none
  | i :: _ => (cwAt x.id d x.plane i s).map fun c =>
      { kind := if c.member || isJob x.id then .jobRead else .sense, ids := [x.id], planes := 2 ^ x.plane,
        block := c.block, page := c.page, slc := c.slc, rung := c.rung, attempt := c.attempt, key := x.key,
        inArray := false, since := 0, ran := 0, pollAt := 0, dropped := false }

/-- A sense joins others: one of the same operation takes its planes too. -/
def joinSense (l : List DieOp) (o : DieOp) : List DieOp :=
  if l.any fun x => decide ({ x with planes := o.planes } = o) then
    l.map fun x => if { x with planes := o.planes } = o then { x with planes := x.planes ||| o.planes } else x
  else l ++ [o]

/-- The senses whose data-outs wait on a die. -/
def outSenses (d : Nat) (s : State) : List DieOp :=
  ((waitingOuts d s).filterMap fun x => outSense d x s).foldl joinSense []

/-- Every operation that stands on a die; an abandoned data-in waits in staging and does not (07 R149). -/
def dieOps (d : Nat) (s : State) : List DieOp :=
  let x := dieOf d s
  x.run.toList ++ x.held.toList ++ (x.dataIn.map (·.1)).toList

/-- The die stands idle, without operation and without load; what waits in its queues stays. -/
def stopDie (d : Nat) (s : State) : State :=
  let s := clearLoad d s
  modDie d (fun x => { x with state := .idle, suspErase := false, suspCount := 0, threshRaised := false,
                              run := none, held := none, suspSince := 0, suspLate := false, dataIn := none,
                              abandoned := none, resetWanted := false, suspTaken := false }) (setLevels d none s)

/-- Transfers of a die that have not started go (07 R162). -/
def dropDieXfers (d : Nat) (s : State) : State :=
  (((waitingOuts d s).map (·.id)).dedup).foldl (fun s t => dropXfers t d s) s

/-- A reset command has reached a die (07 R400); the levels set on it are no longer current (11 R257). -/
def dieReset (d : Nat) (s : State) : State :=
  let ops := dieOps d s
  let outs := if (dieOf d s).run.any fun o => readKind o.kind then []
    else outSenses d s
  let x := dieOf d s
  let s := stopDie d (dropDieXfers d s)
  let s := if x.abandoned.isSome then
      modDie d (fun y => { y with abandoned := x.abandoned, suspCount := x.suspCount, threshRaised := x.threshRaised }) s
    else s
  outs.foldl (endByReset d) (ops.foldl (endByReset d) s)

/-! ### A die leaves service (14 R335) -/

/-- An array operation runs or is suspended on a die. -/
def arrayBusy (d : Nat) (s : State) : Bool :=
  (dieOf d s).held.isSome || (dieOf d s).run.any (·.inArray)

/-- A die leaves PRESENT: its tags commit DIE_QUARANTINED, rebuilds lose it, a running operation is to be reset, and
QUARANTINE is raised. -/
def dieLeaves (d : Nat) (s : State) : State :=
  let s := loseMembers d (failOps (tagsOnDie d s) stQuarantined rankOwn (raiseEvt .map 2 s))
  if arrayBusy d s then wantReset d s else s

/-- A roster entry takes a state (14 Table 14.1). -/
def rosterMove (d : Nat) (st : RosterState) (cause : Nat) (s : State) : State :=
  let r := rosterOf d s
  let s := setRoster d { r with state := st, qcause := cause } s
  if r.state = .present ∧ st ≠ .present then dieLeaves d s else s

/-- MAP quarantines a die (14 Table 14.1): QCAUSE 1 time-out, 2 rail, 3 HOLD; MAP counter 4. A die without an entry has
no state to change. -/
def quarantine (d cause : Nat) (s : State) : State :=
  if (rosterOf d s).valid then rosterMove d .quarantined cause (bump .map 4 s) else s

/-- A die is still busy at twice its maximum array time (08 R173): CHN event 3, counter 5, error DIE_TIMEOUT; reset LUN
is to be issued, and MAP quarantines the die. -/
def timeOut (d : Nat) (s : State) : State :=
  let p := chnPage (dieChannel d)
  let s := raiseErr p 0x0101 (d % 32) (raiseEvt p 3 (bump p 5 s))
  wantReset d (quarantine d 1 s)

/-! ### Loss of a channel (07 R163, 08 R191) -/

/-- A raw command ends with a result (09 R224, R225). -/
def rawEnd (result : Nat) (s : State) : State :=
  raiseEvt .sec 2 { s with sec := { s.sec with rawBusy := false, rawResult := result } }

/-- Channel, volume and LUN of the raw command. -/
def rawChannel (s : State) : Nat := regFld .sec oSecRawAddr 40 7 s
def rawVolume (s : State) : Nat := regFld .sec oSecRawAddr 47 3 s
def rawLun (s : State) : Nat := regFld .sec oSecRawAddr 50 2 s
def rawDie (s : State) : Nat := rawChannel s * 32 + rawVolume s * 4 + rawLun s

/-- A raw command on the channel ends CHANNEL_LOST (09 R225). -/
def loseRaw (c : Nat) (s : State) : State := if s.sec.rawBusy ∧ rawChannel s = c then rawEnd 7 s else s

/-- The dies of a channel of which SCH or a rebuild knows something. -/
def knownDies (c : Nat) (s : State) : List Nat :=
  ((s.sch.dies.map (·.1) ++ s.lvl.rebuilds.flatMap fun r => r.await.map (·.1)).filter
    fun d => decide (dieChannel d = c)).dedup

/-- The tags that wait for a channel (07 R163): those in the queues of its dies, and those that no die, bus or fabric
action has served yet, as a CENSUS or an ERASE whose intent is not recorded. -/
def queuedOn (c : Nat) (s : State) : List Nat :=
  (((s.sch.dies.filter fun e => decide (dieChannel e.1 = c)).flatMap fun e =>
    (e.2.queue.filter fun it => it.kind ≠ .jobRead || isJob it.id).map (·.id))
   ++ (tagsOnChannel c s).filter fun t => decide ((tagOf t s).state = .queued)).dedup

/-- The tags queued on a channel commit CHANNEL_LOST, and rebuilds lose the members queued there (07 R163). -/
def loseQueued (c : Nat) (s : State) : State :=
  let ds := (knownDies c s).filter fun d => (dieOf d s).queue.any fun it => isMemberOp it.kind it.id
  ds.foldl (fun s d => loseMembers d s) (failOps (queuedOn c s) stChannelLost rankOwn s)

/-- The channel is no longer this XF128's: every open tag that addresses it commits CHANNEL_LOST (05 Table 5.5), SCH
forgets its plan and its dies' operations, and nothing more happens on its bus. -/
def leaveChannel (c : Nat) (s : State) : State :=
  let s := failOps (tagsOnChannel c s) stChannelLost rankOwn s
  let s := (knownDies c s).foldl (fun s d => stopDie d (loseMembers d s)) s
  let s := loseRaw c (setPlan c none (setCands c [] s))
  let s := abortChannel c { s with sch.toPlan := s.sch.toPlan.filter fun k => !decide (k = c) }
  let s := modThr (chanBur c) (chanThr c) (fun t => { t with cmdq := [] }) s
  modChan c (fun x => { x with act := none, busyTo := 0, onFifo := false, ceWord := 0, selPend := false, retrain := [], census := none, strangerCheck := false,
                               take := none, takeLost := false, rel := none, disabling := false, early := none, poll := none,
                               setUp := none, volume := none, turns := [], freeAt := s.cc, dp := none }) s

end Sys2Proof.Machine
end

