-- ==== Sys2Proof/Machine/Journal.lean ====
section
/-!
DEFINITION. The writing of the erase journal (14 R350 to R354): batches close, pages are written and end, confirmations
fall due; and the last-words record.
-/

namespace Sys2Proof.Machine

/-- JRNL_CFG.WAIT_US in cc. -/
def jrnlWait (s : State) : Nat := usCc (regFld .map oMapJrnlCfg 16 16 s)

/-- A page that only confirms (14 R351). -/
def writeConfirm (s : State) : State :=
  if jrnlWrites s then jrnlWrite (nextPageWith [] s) s else s

/-- The forming batch is to close (14 R350). -/
def batchFull (s : State) : Bool :=
  decide (s.map.jrnl = .running)
  && (decide (64 ≤ s.map.forming.length)
      || (!s.map.forming.isEmpty && decide (s.map.formingAt + jrnlWait s ≤ s.cc)))

/-- It closes with at most 64 intents and is written as soon as a page can be. -/
def closeForming (s : State) : State :=
  let s := { s with map := { s.map with closed := s.map.closed ++ [s.map.forming.take 64],
                                        forming := s.map.forming.drop 64, formingAt := s.cc } }
  jrnlGoOn s

/-- An intent whose DONE bit a page has carried. -/
def carried (dones : List (Word32 × Nat)) (q : Word32) (i : Intent × Nat) : Intent :=
  if dones.contains (q, i.2) then { i.1 with written := true, live := false } else i.1

/-- The completion of an erase that waited for its DONE bit. -/
def releaseHeld (s : State) (t : Nat) : State :=
  if (tagOf t s).state = .committed then completeTag t s else s

/-- The page's DONE bits are on record; a batch all of whose intents are is over (14 R351, R352). -/
def recordDones (dones : List (Word32 × Nat)) (s : State) : State :=
  let held := (s.map.batches.flatMap fun b => (b.intents.zipIdx.filter fun i => dones.contains (b.seq, i.2)
    && i.1.live).map (·.1.tag))
  let bs := s.map.batches.map fun b => { b with intents := b.intents.zipIdx.map (carried dones b.seq) }
  held.foldl releaseHeld { s with map.batches := bs.filter fun b => !b.intents.all (·.written) }

/-- Intents confirmed whose DONE bit no page has carried yet. -/
def pendingDones (s : State) : List Intent :=
  s.map.batches.flatMap fun b => b.intents.filter fun i => i.done && !i.written

/-- The cc of the oldest of them (14 R351). -/
def confirmSince (s : State) : Option Nat :=
  match pendingDones s with
  | [] => none
  | i :: l => some (l.foldl (fun m j => min m j.doneAt) i.doneAt)

/-- The last-words record is written: the completions that wait for a DONE bit are released, those of a page that was
given up among them (14 R354). -/
def lastWordsWritten (p : JPage) (s : State) : State :=
  let s := recordDones p.dones { s with map.jpage := none }
  let waits := fun (i : Intent) => i.live && i.done && !i.written
  let ts := (s.map.closed.flatten.filter waits).map (·.tag)
  let s := { s with map.closed := s.map.closed.map fun l => l.filter fun i => !waits i }
  ts.foldl releaseHeld s

/-- The erase of a recorded intent enters the queues of its die (14 R350). -/
def queueErase (s : State) (i : Intent) : State :=
  let d := paDie (ePaddr (tagOf i.tag s).entry)
  if i.live ∧ (tagOf i.tag s).state = .queued ∧ ((dieOf d s).queue.any fun it => decide (it.id = i.tag)) = false then
    enqueue d (entryItem i.tag .erase s) s
  else s

/-- A page has been recorded: MAP counters 8 and 9, JRNL_DEGRADED when one program failed (14 R350). -/
def pageRecorded (p : JPage) (s : State) : State :=
  let s := if p.res0 = some true ∧ p.res1 = some true then s else raiseEvt .map 7 s
  let s := bumpBy .map 9 p.intents.length (bump .map 8 s)
  let s := { s with map := { s.map with
    jpage := none,
    batches := if p.intents.isEmpty then s.map.batches else s.map.batches ++ [{ seq := p.seq, intents := p.intents }] } }
  p.intents.foldl queueErase (recordDones p.dones s)

/-- Neither program passed: once more at the next page, or the journal fails (14 R353). -/
def pageLost (p : JPage) (s : State) : State :=
  if p.second then
    let s := { s with map := { s.map with
      jpage := none, jrnl := .failed, jfirst := false,
      closed := if p.intents.isEmpty then s.map.closed else p.intents :: s.map.closed } }
    raiseErr .map 0x0104 p.seq.toNat (raiseEvt .map 8 s)
  else jrnlPut { p with second := true } s

/-- The outcome of a page whose two programs have ended; none while one runs. -/
def pageResult (p : JPage) : Option Bool :=
  match p.res0, p.res1 with
  | some a, some b => some (a || b)
  | _, _ => none

/-- A page in writing, other than the last-words record, has ended (14 R350, R353). -/
def jrnlPageDone (s : State) : State :=
  match s.map.jpage with
  | none => s
  | some p =>
    match p.lastWords, pageResult p with
    | false, some true => jrnlGoOn (pageRecorded p s)
    | false, some false => pageLost p s
    | _, _ => s

/-- The page in writing is given up: its programs are dropped and its intents wait again. -/
def abandonPage (s : State) : State :=
  let js := (s.map.jobs.filter fun e => match e.2 with
    | some (.jrnlProg _) => true
    | _ => false).map (·.1)
  let s := js.foldl (fun s id => dropJob id (dropWork id s)) s
  match s.map.jpage with
  | none => s
  | some p => { s with map := { s.map with
      jpage := none, closed := if p.intents.isEmpty then s.map.closed else p.intents :: s.map.closed } }

/-- The last-words record is written at the next page of both journal dies (14 R354). A page that was still in writing
is given up. -/
def writeLastWords (s : State) : State :=
  let s := abandonPage s
  jrnlWrite { nextPageWith [] s with lastWords := true } s

end Sys2Proof.Machine
end

