-- ==== Sys2Proof/Machine/Reset.lean ====
section
/-!
DEFINITION. Block resets (16 R377 to R382): what a level keeps, how sources are taken and merged, and the commands POR,
SYS_RESET, SW_WARM, SW_COLD, FUSE_PAR and RESET_RELEASE.
-/

namespace Sys2Proof.Machine

/-! ### What a reset leaves (16 Table 16.1) -/

/-- A byte of the read-level window, which an L2 reset keeps. -/
def levelByte (e : Nat × Byte) : Bool := decide (0x400000 ≤ e.1 ∧ e.1 < 0x600000)

/-- The pins after a reset is taken: rail_en, the straps and the levels that others drive stay (02 R24, R29, R48). -/
def resetPins (p : Pins) : Pins := { p with pfailDone := false, ffPulse := 0, fabIdle := 0 }

/-- Blank spares that stand for ROM words stay blank; patch words are unwritten after a reset anyway (09 R214). -/
def romBlank (l : List Nat) : List Nat := l.filter fun x => decide (x % 8192 < if x / 8192 = 64 then 6144 else 1536)

/-- The memories that a reset keeps (01 Table 1.10, 16 R387): the read-level tables across L2, and retained memory
across L2 and where keepMem holds. -/
def keepsClass (lvl : Nat) (keepMem : Bool) (cls : Nat) : Bool :=
  (decide (cls = 5) && decide (lvl = 2)) || (decide (cls = 7) && (decide (lvl = 2) || keepMem))

/-- The block after a reset of level 2 or 3; keepMem keeps retained memory whatever the level (13 R325). The remap
table, the wake comparator and the blown fuses stand outside the domains that a reset reaches (17 R398, 13 R325,
09 R220). -/
def wiped (lvl : Nat) (keepMem : Bool) (s : State) : State :=
  { pending := s.pending, cc := s.cc, free := s.free, pins := resetPins s.pins,
    peer := { driven := false },
    win := if lvl = 2 then s.win.filter levelByte else [],
    lvl := { locked := decide (lvl = 2) && s.lvl.locked },
    sec := { burned := s.sec.burned },
    pwr := { wakeCfg := s.pwr.wakeCfg },
    mem := { remap := s.mem.remap, blank := romBlank s.mem.blank,
             upsets := s.mem.upsets.filter fun u => keepsClass lvl keepMem u.cls,
             valid := s.mem.valid.filter fun e => keepsClass lvl keepMem (e.1 / 2 ^ 20) },
    rst := { s.rst with rmem := if keepsClass lvl keepMem 7 then s.rst.rmem else [] } }

/-- Bit of a source code in CAUSE.SOURCES (16 Table 16.2). -/
def srcBit (code : Nat) : Byte := BitVec.ofNat 8 (2 ^ code)

/-- BKP[2] as a reset is taken: COUNT, SOURCES, FRAME[15:0] (16 Table 16.4). -/
def resetRecord (count : Nat) (src : Byte) (frame : Nat) : Word32 :=
  BitVec.ofNat 32 (fieldAt 24 (satTo 255 count) + fieldAt 16 src.toNat + frame % 65536)

/-- Neither asserted nor releasing (16 R379, R380). -/
def resetIdle (s : State) : Bool := decide (s.rst.phase = .done)

/-- D1 has not been released since the assertion: a further source merges without a restart (16 R380). -/
def beforeD1 (s : State) : Bool :=
  decide (s.rst.phase = .asserted) || (decide (s.rst.phase = .releasing) && decide (s.rst.step = 0))

/-- The information registers that a source brings (16 R389). -/
def withInfo (wd ue : Option Word32) (r : Rst) : Rst :=
  { r with wdogInfo := wd.getD r.wdogInfo, ueInfo := ue.getD r.ueInfo }

/-- A new reset (16 R378, R386): it is taken in this cc, BKP[2] is written, the assertion begins. -/
def newReset (code lvl : Nat) (pin keepMem : Bool) (frame : Nat) (wd ue : Option Word32) (s : State) : State :=
  let n := fieldOf (bkpOf 2 s).toNat 24 8
  let s := setBkp 2 (resetRecord (n + 1) (srcBit code) frame) s
  let s := wiped lvl keepMem s
  { s with rst := withInfo wd ue { s.rst with phase := .asserted, began := s.cc, since := s.cc, pin := pin,
                                              step := 0, groups := 0, sources := srcBit code, first := code, level := lvl, wdogInfo := 0,
                                              ueInfo := 0, parReset := false } }

/-- A source that fires while a reset is asserted or releasing (16 R380): SOURCES collects it, the level is the
deepest, and of the sources of the cc in which the reset was taken the lowest code is FIRST; after D1 the assertion
starts again from its beginning. A pin that falls before D1 keeps the reset asserted until it is released, and that
release samples the straps (16 R382, 02 R29). -/
def mergeReset (code lvl : Nat) (pin : Bool) (wd ue : Option Word32) (s : State) : State :=
  let l := max s.rst.level lvl
  let src := s.rst.sources ||| srcBit code
  let early := beforeD1 s
  let n := fieldOf (bkpOf 2 s).toNat 24 8
  let s := setBkp 2 (resetRecord n src (bkpOf 2 s).toNat) s
  let s := wiped l false s
  let r := withInfo wd ue { s.rst with sources := src, level := l,
                                       first := if s.rst.began = s.cc then min s.rst.first code else s.rst.first }
  if early then
    { s with rst := { r with phase := if pin then .asserted else r.phase, pin := r.pin || pin } }
  else { s with rst := { r with phase := .asserted, since := s.cc, pin := pin, step := 0, groups := 0 } }

/-- A source of Table 16.2 fires (16 R378, R380). -/
def takeReset (code lvl : Nat) (pin : Bool) (wd ue : Option Word32) (s : State) : State :=
  if resetIdle s then newReset code lvl pin false s.tmb.frame.toNat wd ue s else mergeReset code lvl pin wd ue s

/-- Level of a source that FUSE_MAP chooses: bit i of the map, and L3 after FUSE_BAD (16 R378, R379). -/
def fuseLevel (i : Nat) (s : State) : Nat := if s.rst.fuseBad || bitAt s.rst.fuses.toNat i then 3 else 2

/-- Odd parity over FUSE_MAP[7:0] holds (16 R379). -/
def fusesOdd (f : Byte) : Bool := decide (((List.range 8).filter fun i => bitAt f.toNat i).length % 2 = 1)

/-! ### POR and SYS_RESET -/

/-- por_n falls (16 R377, R378): an L3 that also resets the always-on domain; every rail_en bit goes low, the levels
that the board drives stay, and CAUSE is that of a power-on. -/
def powerOn (s : State) : State :=
  { pending := s.pending, cc := s.cc, free := s.free, sec := { burned := s.sec.burned }, peer := { driven := false },
    pins := { pfailWarn := s.pins.pfailWarn, pfailFell := s.pins.pfailFell, railPgood := s.pins.railPgood },
    rst := { phase := .asserted, began := s.cc, since := s.cc, pin := true, step := 0, groups := 0 } }

/-- POR (16 R377). -/
def execPor (s : State) : Out := fin (powerOn s)

/-- The aon_clk period, at 32,768 Hz, that a cc belongs to. -/
def aonPeriod (cc : Nat) : Nat := cc * 32768 / (Config.ccPerUs * 1000000)

/-- The reset that is under way is a wake of this aon_clk period. -/
def wokeNow (s : State) : Bool :=
  !resetIdle s && decide (s.rst.first = 7) && decide (aonPeriod s.rst.began = aonPeriod s.cc)

/-- sys_reset_n falls (16 R378): the level of FUSE_MAP.SYS; out of RETAIN and CICADA an L3. It wins over a wake_req of
the same aon_clk period: SYS is then the source in place of WAKE, and WAKE_STAT.VALID is 0. -/
def sysReset (s : State) : State :=
  if wokeNow s then
    let s := { s with rst := { s.rst with sources := s.rst.sources &&& ~~~(srcBit 7), first := 1 }, pwr.wakeStat := 0 }
    mergeReset 1 3 true none none s
  else takeReset 1 (if corePowered s then fuseLevel 0 s else 3) true none none s

/-- SYS_RESET (16 R378). -/
def execSysReset (s : State) : Out := fin (sysReset s)

/-! ### SW_RESET (16 R378, R389) -/

/-- RST.SW_RESET as written with KEY and LEVEL: SW_WARM, SW_COLD, or the error SW_KEY. -/
def swReset (key level : Nat) (s : State) : State :=
  if key = 0x6D3A ∧ level = 2 then takeReset 2 2 false none none s
  else if key = 0x6D3A ∧ level = 3 then takeReset 3 3 false none none s
  else raiseErr .rst 0x0100 (fieldAt 16 level + key) s

/-- SW_WARM: a write of SW_RESET with the correct KEY and LEVEL 2 (16 R378). -/
def execSwWarm (s : State) : Out := fin (csrDo .rst (swReset 0x6D3A 2) s)

/-- SW_COLD: a write of SW_RESET with the correct KEY and LEVEL 3 (16 R378). -/
def execSwCold (s : State) : Out := fin (csrDo .rst (swReset 0x6D3A 3) s)

/-! ### FUSE_PAR (16 R379) -/

/-- The latched map holds a value of even parity while no reset is asserted or releasing, or in the cc in which one is
taken (16 R379, R380): an L3, unless the fuses have already been found bad at rest. -/
def fuseParity (latched : Byte) (s : State) : State :=
  if (resetIdle s || decide (s.rst.began = s.cc)) && corePowered s && !fusesOdd latched && !s.rst.fuseBad then
    let s := takeReset 6 3 false none none { s with rst := { s.rst with fuses := latched } }
    { s with rst := { s.rst with parReset := true } }
  else s

/-- FUSE_PAR (16 R379). -/
def execFusePar (latched : Byte) (s : State) : Out := fin (fuseParity latched s)

/-! ### RESET_RELEASE (16 R382) -/

/-- The straps are sampled (02 R29); a reserved value is reported by GLB (02 Table 2.5). -/
def sampleStraps (boot clk peer : BitVec 2) (s : State) : State :=
  let s := { s with pins := { s.pins with strapBoot := boot, strapClk := clk, strapPeer := peer } }
  if boot = 3 ∨ peer = 3 then
    raiseErr .glb 0x0005 (fieldAt 4 peer.toNat + fieldAt 2 clk.toNat + boot.toNat) s
  else s

/-- The fuses are sensed (16 R379, R382): PAR_OK, and FUSE_BAD when they still fail parity after FUSE_PAR. -/
def senseFuses (fuses : Byte) (s : State) : State :=
  let bad := s.rst.parReset && !fusesOdd fuses
  let s := { s with rst := { s.rst with fuses := fuses, parOk := fusesOdd fuses, fuseBad := s.rst.fuseBad || bad } }
  if bad then raiseErr .rst 0x0101 fuses.toNat s else s

/-- Sensing and release begin. -/
def beginRelease (boot clk peer : BitVec 2) (fuses : Byte) (s : State) : State :=
  let strap := s.rst.pin
  let s := { s with rst := { s.rst with phase := .releasing, since := s.cc, pin := false, step := 0, groups := 0 } }
  senseFuses fuses (if strap then sampleStraps boot clk peer s else s)

/-- The assertion may end: the release of a pin is the command itself, any other reset lasts 64 cc. -/
def assertionOver (s : State) : Bool :=
  decide (s.rst.phase = .asserted) && (s.rst.pin || decide (s.rst.since + 64 ≤ s.cc))

/-- RESET_RELEASE (16 R382). -/
def execResetRelease (boot clk peer : BitVec 2) (fuses : Byte) (s : State) : Out :=
  fin (if assertionOver s then beginRelease boot clk peer fuses s else s)

end Sys2Proof.Machine
end

