-- ==== Sys2Proof/Machine/PowerFail.lean ====
section
/-!
DEFINITION. The power-fail sequence (13 R327 to R329, Table 13.6): its beginning, its steps and their limits.
-/

namespace Sys2Proof.Machine

/-! ### Paired pages (05 R126, 08 Table 8.6) -/

/-- The page whose program makes the page of a program durable: page + PAIR_DIST where PAIR_RULE is 1, the entry is not
in SLC mode and the page lies in the block (log entry 13). -/
def pairPage (e : Entry) (s : State) : Option Nat :=
  let a := progAddr e
  let p := dieProf (paDie a) s
  let q := paPage a + pfPairDist p s
  if pfPairRule p s = 1 ∧ pfPairDist p s ≠ 0 ∧ slcOn e (paDie a) s = false ∧ q < pfPages p s then some q else none

/-- Planes of a program. -/
def progPlanes (e : Entry) : Nat := if eOpcode e = opCopy then eDstPmask e else ePmask e

/-- An operation programs flash. -/
def progOp (o : Nat) : Bool := [opProgram, opStage, opCopy].contains o

/-- Row y programs the paired page of row x on some plane. -/
def pairs (x y : TagRow) (s : State) : Bool :=
  match pairPage x.entry s with
  | none => false
  | some q =>
    progOp (eOpcode y.entry) && decide (paDie (progAddr y.entry) = paDie (progAddr x.entry))
    && decide (paBlock (progAddr y.entry) = paBlock (progAddr x.entry)) && decide (paPage (progAddr y.entry) = q)
    && decide (progPlanes y.entry &&& progPlanes x.entry ≠ 0)

/-- The confirm cycle of the paired program of row x has been issued. -/
def pairConfirmed (x : TagRow) (s : State) : Bool :=
  s.ops.tags.any fun e => e.2.confirmed && decide (e.2.state ≠ .committed) && pairs x e.2 s

/-! ### BKP[1] (13 R329) -/

/-- STEP codes (13 Table 13.6). -/
def pfCode : PfStep → Nat
  | .none => 0
  | .stop => 1
  | .drain => 2
  | .lastWords => 3
  | .done => 4

/-- BKP[1] as the sequence stands. -/
def pfRecord (s : State) : Word32 :=
  BitVec.ofNat 32 (2 ^ 31 + fieldAt 28 (pfCode s.pwr.step) + fieldAt 27 (bit s.pwr.lwOk)
    + fieldAt 26 (bit s.pwr.drainCut) + s.pwr.pfFrame.toNat % 65536)

/-- It is written. -/
def pfWrite (s : State) : State := setBkp 1 (pfRecord s) s

/-! ### STOP (13 R327, R328) -/

/-- The channel is this XF128's to command. -/
def ownsBus (c : Nat) (s : State) : Bool :=
  decide ((chanOf c s).own = .owned) || decide ((chanOf c s).own = .releasing)

/-- An erase of the XF128 runs in the array, or its cycles are on the bus. -/
def erasing (d : Nat) (s : State) (o : DieOp) : Bool :=
  (decide (o.kind = .erase) || decide (o.kind = .jobErase)) && (o.inArray || actOn d s)

/-- An erase runs or is suspended on a die, or its LUN is left in data-in. -/
def pfResets (d : Nat) (s : State) : Bool :=
  let x := dieOf d s
  (x.dataIn.any fun o => decide (o.2 ≠ 0) || actOn d s) || x.abandoned.isSome
  || x.run.any (erasing d s) || x.held.any fun o => decide (o.kind = .erase) || decide (o.kind = .jobErase)

/-- The dies to which PFAIL_RESET issues reset LUN. -/
def pfResetDies (s : State) : List Nat :=
  (s.sch.dies.filter fun e => pfResets e.1 s && ownsBus (dieChannel e.1) s).map (·.1)

/-- A tag that the sequence lets go on: a program, STAGE or COPY whose confirm cycle has been issued; in PAIR_WAIT, one
whose paired program's has (13 R328). -/
def pfKeeps (x : TagRow) (s : State) : Bool :=
  x.confirmed && progOp (eOpcode x.entry) && (!decide (x.state = .pairWait) || pairConfirmed x s)

/-- The tags that commit POWER_FAIL_ABORT at STOP. -/
def pfAborted (s : State) : List Nat :=
  (s.ops.tags.filter fun e => decide (e.1 < 65536) && reachedNow e.1 rankPfail s && !pfKeeps e.2 s).map (·.1)

/-- The OK_EARLY programs that are lost at STOP. -/
def pfEarlyLost (s : State) : List Nat :=
  (s.ops.tags.filter fun e => isEarlyKey e.1 && !isJob e.1 && !e.2.confirmed).map (·.1)

/-- The sequence begins; its resets are PFAIL_RESET jobs of the Graver, one to a channel (09 Table 9.10). -/
def pfBegin (s : State) : State :=
  let rs := pfResetDies s
  let ts := pfAborted s
  let es := pfEarlyLost s
  let s := { s with pwr := { s.pwr with state := .pfail, step := .stop, pfAt := s.cc, stepAt := s.cc,
                                        pfFrame := s.tmb.frame, lwOk := false, drainCut := false, resetDies := rs } }
  let s := pfWrite (raiseEvt .pwr 7 (bump .pwr 9 s))
  let s := failOps ts stPowerFail rankPfail s
  let s := es.foldl (fun s id => failEarly id stPowerFail s) s
  let s := flushPort 1 stPowerFail rankPfail (flushPort 0 stPowerFail rankPfail s)
  let s := rs.foldl (fun s d => wantReset d s) s
  let s := ((rs.map dieChannel).dedup).foldl (fun s c => pushGraver s.eng.grvNext { plainJob 7 (c * 32) none ⟨0, 0⟩ s with profile := 0 } s) s
  (s.sch.dies.map (·.1)).foldl (fun s d => recheck d s) s

/-! ### The steps -/

/-- PFAIL_RESET has issued its resets. -/
def pfResetsOut (s : State) : Bool := s.pwr.resetDies.all fun d => !(dieOf d s).resetWanted

/-- A program of this XF128 runs: its confirm cycle has been issued and its status not read. -/
def programRuns (s : State) : Bool :=
  s.sch.dies.any fun e => (e.2.run.toList ++ e.2.held.toList).any fun o => isProgram o && o.inArray

/-- The sequence enters a step. -/
def pfEnter (k : PfStep) (s : State) : State := { s with pwr := { s.pwr with step := k, stepAt := s.cc } }

/-- DONE. -/
def pfDone (ok : Bool) (s : State) : State :=
  let s := pfEnter .done { s with pwr := { s.pwr with lwOk := ok, state := .pfailDone } }
  raiseEvt .pwr 8 { pfWrite s with pins.pfailDone := true, pins.pfailFell := true }

/-- LAST_WORDS begins: the record, or DONE at once when the journal is not RUNNING. -/
def pfLastWords (s : State) : State :=
  let s := pfEnter .lastWords s
  if s.map.jrnl = .running ∧ pageActive .map s = true then writeLastWords s else pfDone false s

/-- DRAIN ends: what still waits for a paired program that will not come is lost (log entry 14). -/
def pfDrainEnd (s : State) : State :=
  let ts := (s.ops.tags.filter fun e => decide (e.2.state = .pairWait)).map (·.1)
  pfLastWords (failOps ts stPowerFail rankPfail s)

/-- The record is written as soon as either program has passed; after both have failed it is tried once more (14 R353,
R354), and then given up. -/
def pfRecordEnd (s : State) : State :=
  match s.map.jpage with
  | none => s
  | some p =>
    if !p.lastWords then s
    else if p.res0 = some true ∨ p.res1 = some true then pfDone true (lastWordsWritten p s)
    else match pageResult p with
      | some _ =>
        if p.second then pfDone false { s with map.jpage := none } else jrnlWrite { p with second := true } s
      | none => s

/-- What the sequence does when the condition that its step waits for holds. -/
def pfStep (s : State) : State :=
  match s.pwr.step with
  | .stop => if pfResetsOut s then pfEnter .drain s else s
  | .drain => if programRuns s then s else pfDrainEnd s
  | .lastWords => pfRecordEnd s
  | _ => s

/-- The sequence moves on as far as it can. -/
def pfAdvance (s : State) : State := pfStep (pfStep (pfStep s))

/-! ### PFAIL_WARN (13 R327, Table 13.3) -/

/-- The sequence can begin: PWR released, none has begun, not in RETAIN or CICADA. -/
def pfCan (s : State) : Bool := corePowered s && stepReleased 7 s && decide (s.pwr.step = .none)

/-- pfail_warn is high. -/
def pfWarn (s : State) : State :=
  let s := { s with pins := { s.pins with pfailWarn := true, pfailFell := false } }
  if pfCan s then pfAdvance (pfBegin s) else s

/-- PFAIL_WARN (13 R327). -/
def execPfailWarn (s : State) : Out := fin (pfWarn s)

/-! ### DRAIN_LIMIT and LW_LIMIT (13 Table 13.6) -/

/-- Profiles assigned to roster dies. -/
def rosterProfiles (s : State) : List Nat := ((s.map.roster.filter fun e => e.2.valid).map (·.2.profile)).dedup

/-- The largest TPROG_MAX among them, in cc. -/
def maxProg (s : State) : Nat := maxOf ((rosterProfiles s).map fun p => pfProgMax p s)

/-- PF_STAT.TPF_US (13 R330). -/
def tpfUs (s : State) : Nat :=
  ceilDiv (maxProg s) Config.ccPerUs + regFld .pwr oPwrPfCfg 0 16 s + 50

/-- Tags whose program still runs. -/
def runningTags (s : State) : List Nat :=
  (s.sch.dies.flatMap fun e => (e.2.run.toList ++ e.2.held.toList).flatMap fun o =>
    if isProgram o && o.inArray then o.ids.filter fun t => !isJob t else []).dedup

/-- DRAIN has lasted longer than the longest program: what still runs commits POWER_FAIL_ABORT. -/
def drainLimit (s : State) : State :=
  if s.pwr.step = .drain ∧ s.pwr.pfAt + maxProg s ≤ s.cc then
    pfAdvance (pfDrainEnd (failOps (runningTags s) stPowerFail rankPfail { s with pwr.drainCut := true }))
  else s

/-- DRAIN_LIMIT (13 R327). -/
def execDrainLimit (s : State) : Out := fin (drainLimit s)

/-- LW_LIMIT_US has passed since LAST_WORDS began. -/
def lwLimit (s : State) : State :=
  if s.pwr.step = .lastWords ∧ s.pwr.stepAt + usCc (regFld .pwr oPwrPfCfg 0 16 s) ≤ s.cc then pfDone false s else s

/-- LW_LIMIT (13 R327). -/
def execLwLimit (s : State) : Out := fin (lwLimit s)

end Sys2Proof.Machine
end

