-- ==== Sys2Proof/Machine/Links.lean ====
section
/-!
DEFINITION. Channels, their bring-up, census and ownership, and the peer's messages as operations (08 R175 to R192,
14 R337 to R340); the threads that drive a channel (09 R201, R208).
-/

namespace Sys2Proof.Machine

/-! ### Threads (09 R195) -/

/-- The Burin thread of a channel takes jobs. -/
def burinServes (c : Nat) (s : State) : Bool := alive (thrOf (chanBur c) (chanThr c) s)

/-- It drives the channel: it takes jobs, and its GUEST handler has not left the channel to the Graver (09 R208). -/
def burinDrives (c : Nat) (s : State) : Bool :=
  burinServes c s && decide ((thrOf (chanBur c) (chanThr c) s).handler ≠ some 15)

/-- The Graver takes jobs other than those of BOOT_FETCH (09 R206, R222). -/
def gravServes (s : State) : Bool := (alive (thrOf 64 false s) || alive (thrOf 64 true s)) && !bootRuns s

/-- Both threads of the Burin of a channel are HELD. -/
def burinHeld (c : Nat) (s : State) : Bool :=
  decide ((thrOf (chanBur c) false s).state = .held) && decide ((thrOf (chanBur c) true s).state = .held)

/-- A Graver thread runs a guest job on a channel. -/
def guestOn (c : Nat) (s : State) : Bool :=
  [false, true].any fun k => running (thrOf 64 k s) && (thrOf 64 k s).job.any fun j => decide (j.channel = c)

/-- A channel is left to the Graver: it is OWNED or in TAKEOVER, and the Burin thread is in its GUEST handler or both
threads of the Burin are HELD (09 R208). -/
def guestLet (c : Nat) (s : State) : Bool :=
  decide ((chanOf c s).own = .owned ∨ (chanOf c s).own = .takeover)
  && (burinHeld c s || decide ((thrOf (chanBur c) (chanThr c) s).handler = some 15))

/-- The Graver drives a channel, for a job of its own on it: as a guest, or directly (09 R208). -/
def gravDrives (c : Nat) (s : State) : Bool := gravServes s && guestOn c s && guestLet c s

/-! ### Bus actions of the housekeeping -/

/-- The die on which an action's own cost counts, and that cost (13 R305, R306): MISC for a reset, feature or training
command, from its issue; READ for the read of a census. -/
def actCost (c : Nat) (a : BusAct) (s : State) : Option (Nat × Nat) :=
  let misc := fun (d : Nat) => some (d, costMisc d s)
  match a with
  | .resetLun d => misc d
  | .bringUp v => misc (c * 32 + v * 4)
  | .setUp v => misc (c * 32 + v * 4)
  | .zqLong v => misc (c * 32 + v * 4)
  | .train v => misc (c * 32 + v * 4)
  | .resetTargets v => misc (c * 32 + v * 4)
  | .levelSet d => misc d
  | .feature d => misc d
  | .readId d => some (d, dieCost d 0 s)
  | _ => none

/-- The die on which an action's MISC cost counts (13 R305): that of a reset, feature or training command. -/
def miscDie (c : Nat) (a : BusAct) : Option Nat :=
  match a with
  | .resetLun d => some d
  | .bringUp v => some (c * 32 + v * 4)
  | .setUp v => some (c * 32 + v * 4)
  | .zqLong v => some (c * 32 + v * 4)
  | .train v => some (c * 32 + v * 4)
  | .resetTargets v => some (c * 32 + v * 4)
  | .levelSet d => some d
  | _ => none

/-- Cycles per plane: opcode, address, and a cycle before the next plane; what stands behind the last plane's address
comes last. -/
def planeCycles (first more : Byte) (last : List PadCycle) (addr : Nat → List PadCycle) : List Nat → List PadCycle
  | [] => []
  | [p] => [.cmd first] ++ addr p ++ last
  | p :: r => [.cmd first] ++ addr p ++ [.cmd more] ++ planeCycles first more last addr r

/-- Cycles of the start of an array operation; the confirm cycle D0h of an erase follows at its end (05 R120). -/
def startCycles (d : Nat) (o : DieOp) (s : State) : List PadCycle :=
  (if o.slc then [.cmd (BitVec.ofNat 8 (pfSlcPrefix (dieProf d s) s))] else [])
  ++ (if o.kind = .erase ∨ o.kind = .jobErase then
        planeCycles 0x60 0xD1 [] (fun p => rowCycles d p o.block 0) (planesOf o.planes)
      else planeCycles 0x00 0x32 [.cmd 0x30] (fun p => fullCycles 0 d p o.block o.page) (planesOf o.planes))

/-- Feature cycles on a LUN: opcode, LUN, feature address. -/
def featCycles (op : Byte) (d fa : Nat) : List PadCycle :=
  [.cmd op, .addr (BitVec.ofNat 8 (d % 4)), .addr (BitVec.ofNat 8 fa)]

/-- Cycles of a feature operation: GET reads P1 to P4, SET writes them (08 R167). -/
def featureCycles (d : Nat) (o : DieOp) (s : State) : List PadCycle :=
  let e := (tagOf ((o.ids[0]?).getD 0) s).entry
  match o.kind with
  | .featSet => featCycles 0xD5 d (eFaddr e) ++ (leBytes 4 (eFeature e)).map PadCycle.din
  | .featGet => featCycles 0xD4 d (eFaddr e) ++ [.turn false, .dout 4]
  | _ => featCycles 0xD4 d (pfFaTemp (dieProf d s) s) ++ [.turn false, .dout 4]

/-- Where the band of a member read of rung 5 is kept: by its tag and its die. -/
def memberKey (id d : Nat) : Nat := id * 4096 + d

/-- The band of a sense: the one in force at the first action of the first sense of its rung, which the rest of that sense,
every later sense of the rung and every page of a CALIBRATE keeps; member reads of rung 5 have one per die (11 R258). -/
def opBand (d : Nat) (o : DieOp) (s : State) : Nat :=
  let id := (o.ids[0]?).getD 0
  let x := tagOf id s
  let later := decide (eOpcode x.entry = opCalibrate) && decide (o.page % max 1 (pfUnit (dieProf d s) s) ≠ 0)
  if o.needLevels ∧ o.attempt = 0 ∧ later = false then bandNow d s
  else if isMemberOp o.kind id then SMap.get (fun _ => 0) s.lvl.memberBand (memberKey id d)
  else x.band

/-- The rows of a sense keep its band. -/
def takeBand (d : Nat) (o : DieOp) (s : State) : State :=
  if readKind o.kind then
    let b := opBand d o s
    o.ids.foldl (fun s id =>
      if isMemberOp o.kind id then { s with lvl.memberBand := SMap.put (fun _ => 0) s.lvl.memberBand (memberKey id d) b }
      else modTag id (fun x => { x with band := b }) s) s
  else s

/-- The levels that a page on a die requires in a sense of a tag or job (11 R256, R257). -/
def wantedLevels (d page : Nat) (slc : Bool) (band id rung attempt : Nat) (s : State) : SetLevels :=
  let t := pageType d page slc s
  let n := if slc then 1 else (ptLevels d t s).length
  { element := readElement d page slc band s, ptype := if slc then 4 else t,
    offsets := senseOffsets (eLrow (tagOf id s).entry) rung attempt n s }

/-- The levels that the sense of an operation requires. -/
def opLevels (d : Nat) (o : DieOp) (s : State) : SetLevels :=
  wantedLevels d o.page o.slc (opBand d o s) ((o.ids[0]?).getD 0) o.rung o.attempt s

/-- A sense of a block that recovery examines (14 R356). -/
def rawSense (o : DieOp) (s : State) : Bool := o.ids.any fun t => rawJob t s

/-- A sense runs a LEVEL_SET first unless LEVELS_CURRENT is true (11 R256), which it never is for a block that recovery
examines (14 R356); none is issued while LVL is disabled, but for rungs 1 and 2 of BOOT_FETCH (11 R280, 09 R222). -/
def needsSet (d : Nat) (o : DieOp) (s : State) : Bool :=
  let boot := o.ids.any fun t => bootRead t s
  o.needLevels && (if boot then decide (o.rung ≠ 0) else pageActive .lvl s)
  && (rawSense o s || !decide (levelsOf d s = some (opLevels d o s)))

/-- The levels that an operation's read uses, each with the feature address at which it is set and its place (11
R256). -/
def levelSites (d : Nat) (o : DieOp) (s : State) : List (Nat × (Nat × Nat)) :=
  let fa := pfFaLevel (dieProf d s) s
  let b := opBand d o s
  let t := pageType d o.page o.slc s
  (if o.slc then [fa + 15] else (ptLevels d t s).map fun l => fa + l - 1).zip (readPlaces d o.page o.slc b s)

/-- RECOV_CFG.EV_LEVEL, signed. -/
def evLevel (s : State) : Int := signedOf 8 (regFld .map oMapRecovCfg 0 8 s)

/-- The value v of R256 for a place of a sense, its n-th level: clamp(E + o). The senses of BOOT_FETCH take E = 0
(09 R222), and those of a block that recovery examines the absolute value EV_LEVEL (14 R356). -/
def levelValue (o : DieOp) (place : Nat × Nat) (n : Nat) (s : State) : Int :=
  let boot := o.ids.any fun t => bootRead t s
  let lrow := eLrow (tagOf ((o.ids[0]?).getD 0) s).entry
  if rawSense o s then evLevel s
  else clampInt ((if boot then 0 else effLevel place s) + senseOffset lrow o.rung o.attempt n s) (-128) 127

/-- Cycles of a LEVEL_SET: D5h for each level, P1 = v and P2 to P4 zero (11 R256). -/
def levelCycles (d : Nat) (o : DieOp) (s : State) : List PadCycle :=
  (levelSites d o s).zipIdx.flatMap fun x =>
    featCycles 0xD5 d x.1.1
    ++ [.din (BitVec.ofNat 8 (ofSigned 8 (levelValue o x.1.2 x.2 s))), .din 0, .din 0, .din 0]

/-- The action that starts an operation on the bus. -/
def startAct (d : Nat) (o : DieOp) (s : State) : BusAct :=
  if needsSet d o s then .levelSet d else .arrayStart d

/-- Cycles of bring-up step 1 behind a position that has been reset: its ID and parameter page (08 R176; log entry 48). -/
def bringCycles : List PadCycle :=
  [.cmd 0x90, .addr 0, .turn false, .dout 4, .turn true, .cmd 0xEC, .addr 0, .turn false, .dout 256]

/-- Cycles of the set-up of a position that has an ID: its volume address, its interface and termination. -/
def setUpCycles (c v : Nat) (s : State) : List PadCycle :=
  let p := volProf c v s
  let f := fun (fa : Nat) (w : BitVec 32) =>
    [.cmd 0xEF, .addr (BitVec.ofNat 8 fa), .turn true] ++ (leBytes 4 w.toNat).map PadCycle.din
  (if pfVolSel p s then f 0x58 (BitVec.ofNat 32 (v % 4)) else [])
  ++ f (pfFaIface p s) (Config.ifaceParam (regFld (chnPage c) oChnBusCfg 0 2 s) (regFld (chnPage c) oChnBusCfg 4 2 s))
  ++ f (pfFaOdt p s) (Config.odtParam (regFld (chnPage c) oChnPadCfg 4 3 s))

/-- Cycles of the training of a volume; a retrain calibrates ZQ short with it (08 R176, R177). -/
def trainCycles (c v : Nat) (s : State) : List PadCycle :=
  let p := volProf c v s
  [.cmd (BitVec.ofNat 8 (pfTrainRd p s)), .cmd (BitVec.ofNat 8 (pfTrainWr p s))]
  ++ (if (chanOf c s).own = .takeover then [] else [.cmd 0xD9])

/-- Cycles of a raw command: its command, address and data-in cycles, and the data-out where it does not poll; then 70h
for each poll, and 00h with the data-out once a poll has shown the die ready (09 R224). -/
def rawCycles (s : State) : List PadCycle :=
  let w := regOf .sec oSecRawCmd s
  let n := fieldOf w 7 4
  if s.sec.rawSince = 0 then
    [.cmd (BitVec.ofNat 8 (fieldOf w 24 8))]
    ++ ((leBytes 5 (regOf .sec oSecRawAddr s)).take (fieldOf w 12 3)).map PadCycle.addr
    ++ (if bitAt w 11 then ((leBytes 8 (regOf .sec oSecRawData s)).take n).map PadCycle.din else [])
    ++ (if bitAt w 15 then [.cmd (BitVec.ofNat 8 (fieldOf w 16 8))] else [])
    ++ (if bitAt w 11 || bitAt w 6 then [] else [.turn false, .dout n])
  else if s.sec.rawOut then [.cmd 0x00, .turn false, .dout n]
  else [.cmd 0x70, .turn false, .dout 1]

/-- Row address with which an operation on a die polls its LUN (08 R171). -/
def pollRow (d : Nat) (s : State) : List PadCycle :=
  match (dieOf d s).run with
  | some o => rowCycles d (((planesOf o.planes)[0]?).getD 0) o.block o.page
  | none => rowCycles d 0 0 0

/-- The cycles of an action, by Table 8.2. -/
def actCycles (c : Nat) (a : BusAct) (s : State) : List PadCycle :=
  let run := fun (d : Nat) (f : DieOp → List PadCycle) => ((dieOf d s).run.map f).getD []
  match a with
  | .arrayStart d => run d fun o => startCycles d o s
  | .statusPoll d => [.cmd 0x78] ++ pollRow d s ++ [.turn false, .dout 1]
  | .suspendCmd d => [.cmd (BitVec.ofNat 8 (pfSuspOp (dieProf d s) s))]
  | .resumeCmd d => [.cmd (BitVec.ofNat 8 (pfResumeOp (dieProf d s) s))]
  | .transfer x => outCycles c x s
  | .resetLun d => [.cmd 0xFA] ++ rowCycles d 0 0 0
  | .bringUp _ => bringCycles
  | .setUp v => setUpCycles c v s
  | .zqLong _ => [.cmd 0xF9]
  | .train v => trainCycles c v s
  | .resetTargets _ => [.cmd 0xFC]
  | .readId _ => [.cmd 0x90, .addr 0, .turn false, .dout 4]
  | .feature d => run d fun o => featureCycles d o s
  | .levelSet d => run d fun o => levelCycles d o s
  | .raw _ => rawCycles s

/-- Jobs for the Burin thread of a channel, while it takes any (09 R203). -/
def giveJobs (c : Nat) (l : List Job) (s : State) : State :=
  if burinServes c s then l.foldl (fun s j => pushJob c j s) s else s

/-- A job of a kind for the operation on a die: its tag, address, planes and SLC_MODE; none for a Graver job's. -/
def opJob (kind d : Nat) (o : Option DieOp) (s : State) : List Job :=
  match o with
  | none => [plainJob kind d none ⟨0, 0⟩ s]
  | some o =>
    if o.ids.any isJob then []
    else
      let t := (o.ids[0]?).filter fun t => !isEarlyKey t
      let e := (tagOf ((o.ids[0]?).getD 0) s).entry
      [{ plainJob kind d t o.key s with
          id := o.ids[0]?, paddr := paddrOf d (((planesOf o.planes)[0]?).getD 0) o.block o.page, planes := o.planes,
          cwFirst := eCwFirst e, cwLast := eCwLast e, slc := o.slc }]

/-- The jobs of Table 9.9 that an action is presented as; array starts and feature actions are presented with their
start grant, transfers with their own start, and the actions of a Graver job belong to that job. -/
def actJobs (c : Nat) (a : BusAct) (s : State) : List Job :=
  match a with
  | .statusPoll d => if gravDrives c s then [] else opJob 4 d (dieOf d s).run s
  | .resumeCmd d => opJob 6 d (dieOf d s).held s
  | .levelSet d => opJob 9 d (dieOf d s).run s
  | .resetLun d => if gravDrives c s then [] else [plainJob 10 d none ⟨0, 0⟩ s]
  | .resetTargets v => if gravDrives c s then [] else [volJob 10 c v s]
  | .train v => if gravDrives c s then [] else [volJob 13 c v s, volJob 12 c v s]
  | _ => []

/-- The volume select that precedes an action is a job of its own (07 R156, 09 Table 9.9). -/
def selectJobs (c : Nat) (v : Option Nat) (s : State) : List Job :=
  match v with
  | some v => if (chanOf c s).volume = some v ∨ gravDrives c s = true then [] else [volJob 11 c v s]
  | none => []

/-- The volume that an action is preceded by: a raw command selects none that is not appointed (09 R224). -/
def goVolume (c : Nat) (a : BusAct) (s : State) : Option Nat :=
  match a with
  | .raw d => if (chanOf c s).appointed.getLsbD (dieVolume d) then some (dieVolume d) else none
  | _ => actVolume a

/-- An action begins on the bus of a channel: its MISC cost, a status poll's count (CHN counter 2), its job. -/
def goAct (c : Nat) (a : BusAct) (s : State) : State :=
  let s := match actCost c a s with
    | some (d, n) => addLoad d .misc n s
    | none => s
  let s := match a with
    | .statusPoll _ => bump (chnPage c) 2 s
    | _ => s
  let v := goVolume c a s
  beginAct c a v (actCycles c a s) (giveJobs c (selectJobs c v s ++ actJobs c a s) s)

/-- PHY clocks from one background ZQ update to the next, in cc (08 R175). -/
def zqPeriod : Nat := phyCc 16777216

/-- ZQ updates take place: the core domain has power and the block is not in Doze or waking from it. -/
def zqRuns (s : State) : Bool := corePowered s && !decide (s.pwr.state = .doze) && !decide (s.pwr.state = .waking)

/-- A bus gap of 8 PHY clocks has passed on a channel (08 R175). -/
def gapPassed (c : Nat) (s : State) : Bool :=
  busFree c s && decide ((chanOf c s).freeAt + phyCc 8 ≤ s.cc)

/-- A ZQ update of a channel takes UTRIM. -/
def takeTrim (c : Nat) (s : State) : State :=
  modChan c (fun x => { x with codes := BitVec.ofNat 24 (regOf (chnPage c) oChnUtrim s) }) s

/-- The codes of an update are applied in the gaps (08 R175). -/
def zqApply (s : State) : State :=
  if zqRuns s = false then s
  else ((s.chn.filter fun e => e.2.zqPend && gapPassed e.1 s).map (·.1)).foldl
    (fun s c => takeTrim c (modChan c (fun x => { x with zqPend := false }) s)) s

/-- The loads of the action in progress leave the modelled load. -/
def dropActLoad (c : Nat) (s : State) : State :=
  match (chanOf c s).act with
  | some (.transfer x, _) => dropLoad (c * 32 + x.die) .io s
  | some (a, _) => match actCost c a s with
    | some (d, _) => dropLoad d .misc s
    | none => s
  | none => s

/-- The loads of an action that has ended leave the modelled load; that of a reset stays until its dies report ready, at
the latest after the profile's TRST_MAX (13 R305; log entry 147). -/
def endActLoad (c : Nat) (s : State) : State :=
  match (chanOf c s).act with
  | some (.resetLun d, _) => timeLoad (s.cc + pfRstMax (dieProf d s) s) d s
  | some (.resetTargets v, _) =>
    timeLoad (s.cc + pfRstMax (volProf c v s) s) (c * 32 + v * 4) s
  | _ => dropActLoad c s

/-- The bus action of a channel has ended without contention (08 R192). -/
def clearAct (c : Nat) (s : State) : State :=
  modChan c (fun x => { x with act := none, collRun := 0, turnAt := some s.cc, turns := [], freeAt := s.cc }) (endActLoad c s)

/-! ### Positions and volumes (08 R170, R176) -/

/-- The volume positions that the CE_N lines can address: those of the profile of the lowest-numbered roster die, or
of P0. -/
def volPositions (c : Nat) (s : State) : List Nat :=
  let p := match rosterDies c s with
    | d :: _ => dieProf d s
    | [] => 0
  if pfVolSel p s then List.range 8 else [0, 4]

/-- The volumes of a bit mask. -/
def maskVols (m : BitVec 8) : List Nat := (List.range 8).filter fun v => m.getLsbD v

/-- BOOT_FETCH restricts the bring-up of CHN[0] to volume 0 (08 R188, 09 R222). -/
def bootOnly (c : Nat) (s : State) : Bool := decide (c = 0) && bootRuns s

/-- The positions that bring-up has still to visit. -/
def bringList (c : Nat) (s : State) : List Nat :=
  (volPositions c s).filter fun v => !(chanOf c s).trained.getLsbD v

/-- The appointed volumes whose ZQ calibration long is still to be issued (08 R176 step 2). -/
def zqList (c : Nat) (s : State) : List Nat :=
  (maskVols ((chanOf c s).appointed)).filter fun v => !(chanOf c s).trained.getLsbD v && !(chanOf c s).zqDone.getLsbD v

/-- The appointed volumes still to be trained. -/
def trainList (c : Nat) (s : State) : List Nat :=
  (maskVols (chanOf c s).appointed).filter fun v => !(chanOf c s).trained.getLsbD v

/-! ### Census (14 R337 to R340) -/

/-- Roster code of a position in a report: 0xE and 0xF without an entry. -/
def rosterCode (d : Nat) (id : Word32) (s : State) : Nat :=
  let r := rosterOf d s
  if r.valid then
    match r.state with
    | .expected => 0
    | .present => 1
    | .missing => 2
    | .stranger => 3
    | .quarantined => 4
  else if id = 0 then 14 else 15

/-- Compare mask of a die's ID (14 R338). -/
def idMask (d : Nat) (s : State) : Word32 :=
  if dieKnown d s then BitVec.ofNat 32 (pfIdMask (dieProf d s) s) else 0xFFFFFFFF

/-- Classification of a position by Table 14.2; a stranger check changes states through rows 3 and 4 alone
(14 R340). -/
def classifyDie (d : Nat) (id : Word32) (check : Bool) (s : State) : State :=
  let r := rosterOf d s
  let m := idMask d s
  if r.valid = false then
    if id = 0 then s else raiseEvt .map 1 (bump .map 3 s)
  else if id = 0 then
    rosterMove d .missing 0 (if r.state = .missing then s else bump .map 2 s)
  else if id &&& m ≠ r.id &&& m then
    rosterMove d .stranger 0 (raiseEvt .map 1 (bump .map 3 s))
  else if check then s
  else if r.hold then
    rosterMove d .quarantined 3 (if r.state = .quarantined then s else bump .map 4 s)
  else rosterMove d .present 0 (if r.state = .present then s else bump .map 1 s)

/-- Where the rows of a census stand: under its tag, or under 65,536 + c without one. -/
def censusKey (c : Nat) (t : Option Nat) : Nat := t.getD (65536 + c)

/-- The rows of a census. -/
def censusRows (c : Nat) (t : Option Nat) (s : State) : List (Word32 × Nat × Nat) :=
  SMap.get (fun _ => []) s.map.reports (censusKey c t)

/-- Write of them. -/
def setCensusRows (c : Nat) (t : Option Nat) (l : List (Word32 × Nat × Nat)) (s : State) : State :=
  { s with map.reports := SMap.put (fun _ => []) s.map.reports (censusKey c t) l }

/-- A census without a tag outside TAKEOVER is a stranger check. -/
def strangerKind (c : Nat) (t : Option Nat) (s : State) : Bool :=
  t.isNone && !decide ((chanOf c s).own = .takeover)

/-- The ID of a position has been read, or counts as all zeros. -/
def censusNote (c p : Nat) (id : Word32) (s : State) : State :=
  match (chanOf c s).census with
  | none => s
  | some (l, t) =>
    let d := c * 32 + p
    let before := rosterCode d id s
    let s := classifyDie d id (strangerKind c t s) s
    let s := setCensusRows c t (censusRows c t s ++ [(id, rosterCode d id s, before)]) s
    modChan c (fun x => { x with census := some (l.tail, t) }) s

/-- Roster dies of a channel in a state. -/
def dieCount (c : Nat) (st : RosterState) (s : State) : Nat :=
  ((rosterDies c s).filter fun d => decide ((rosterOf d s).state = st)).length

/-- The 8 bytes of a position in a report (14 R339). -/
def reportRow (r : Word32 × Nat × Nat) : List Byte :=
  leBytes 4 r.1.toNat ++ [BitVec.ofNat 8 r.2.1, BitVec.ofNat 8 r.2.2, 0, 0]

/-- The report of a CENSUS entry is written. -/
def writeReport (c t : Nat) (rows : List (Word32 × Nat × Nat)) (s : State) : State :=
  let b := rows.flatMap reportRow
  let a := eBuffer (tagOf t s).entry
  fabWrites (c % 4) a b 0 (.report t)
    (modTag t (fun x => { x with state := .issued, wrOut := x.wrOut + writeCount a b.length }) s)

/-- A census of a channel has ended: counter 0, CENSUS_DONE, CENSUS_STAT, its report; a takeover has done step 4. -/
def censusEnd (c : Nat) (s : State) : State :=
  match (chanOf c s).census with
  | none => s
  | some (_, t) =>
    let rows := censusRows c t s
    let alien := (rows.filter fun r => decide (r.2.1 = 15)).length
    let s := setCensusRows c t [] s
    let s := { s with map.censusStat := BitVec.ofNat 32 (2 ^ 31 + fieldAt 24 (c % 128)
        + fieldAt 18 (dieCount c .present s) + fieldAt 12 (dieCount c .missing s)
        + fieldAt 6 (dieCount c .stranger s + alien) + dieCount c .quarantined s) }
    let s := raiseEvt .map 0 (bump .map 0 s)
    let s := modChan c (fun x => { x with census := none,
                                          take := if x.own = .takeover ∧ t = none then none else x.take }) s
    match t with
    | some t => if tagOpen t s then writeReport c t rows s else s
    | none => s

/-- A die on which nothing of this XF128 stands. -/
def dieQuiet (d : Nat) (s : State) : Bool :=
  let x := dieOf d s
  decide (x.state = .idle) && x.run.isNone && x.held.isNone && x.dataIn.isNone && x.abandoned.isNone

/-- The first read of an entry's census makes its tag ISSUED (05 Table 5.2). -/
def censusIssued (t : Option Nat) (s : State) : State :=
  match t with
  | some t => modTag t (fun x => { x with state := if x.state = .queued then .issued else x.state }) s
  | none => s

/-- The census of a channel goes on: positions that are not read are passed, the next read begins when it can. -/
def censusGo (c : Nat) : Nat → State → State
  | 0, s => s
  | f + 1, s =>
    match (chanOf c s).census with
    | none => s
    | some ([], _) => censusEnd c s
    | some (p :: r, t) =>
      let d := c * 32 + p
      if t.any (fun t => !tagOpen t s) then
        setCensusRows c t [] (modChan c (fun x => { x with census := none }) s)
      else if strangerKind c t s && !decide ((rosterOf d s).state = .present ∧ (rosterOf d s).valid = true) then
        censusGo c f (modChan c (fun x => { x with census := some (r, t) }) s)
      else if !(chanOf c s).appointed.getLsbD (p / 4) then censusGo c f (censusNote c p 0 s)
      else if busFree c s && dieQuiet d s && gravDrives c s && fits c (.readId d) s then
        goAct c (.readId d) (censusIssued t s)
      else s

/-- The CENSUS entry that waits longest for a channel. -/
def waitingCensus (c : Nat) (s : State) : Option Nat :=
  (firstBy (fun (a b : Nat × TagRow) => decide (a.2.order < b.2.order))
    (s.ops.tags.filter fun e => decide (e.2.state = .queued) && decide (eOpcode e.2.entry = opCensus)
      && decide (paChannel (ePaddr e.2.entry) = c))).map (·.1)

/-- A census of a channel begins, as a job of the Graver. -/
def startCensus (c : Nat) (l : List Nat) (t : Option Nat) (key : Stamp) (s : State) : State :=
  let s := pushGraver (t.getD s.eng.grvNext) { plainJob 1 (c * 32) t key s with profile := 0 } s
  modChan c (fun x => { x with census := some (l, t) }) (setCensusRows c t [] s)

/-- A census that is wanted begins: step 4 of a takeover, an entry's, or a stranger check (14 R337). -/
def censusWanted (c : Nat) (s : State) : State :=
  let x := chanOf c s
  if x.census.isSome then s
  else if x.own = .takeover then
    if x.take = some .census then startCensus c (List.range 32) none (noneKey s) s else s
  else if x.own = .owned then
    match waitingCensus c s with
    | some t =>
      startCensus c (List.range 32) (some t) (tagOf t s).key s
    | none =>
      if x.strangerCheck then
        startCensus c (List.range 32) none (noneKey s) (modChan c (fun x => { x with strangerCheck := false }) s)
      else s
  else s

/-- A census begins or goes on; none runs while MAP is disabled (14 R359). -/
def censusRun (c : Nat) (s : State) : State := if pageActive .map s then censusGo c 34 (censusWanted c s) else s

/-! ### Takeover (08 R188) -/

/-- The takeover enters a step; bring-up is a job of the Graver (09 Table 9.10). -/
def enterStep (c : Nat) (k : TakeStep) (s : State) : State :=
  let s := modChan c (fun x => { x with take := some k, poll := none }) s
  match k with
  | .bring (v :: _) => pushGraver s.eng.grvNext { volJob 0 c v s with profile := 0, key := noneKey s } s
  | _ => s

/-- A step with nothing left gives way to the next, the end of a volume's reset to the next volume; the bring-up of the
boot die waits for the rest of its channel. -/
def takeSkip (c : Nat) (s : State) : State :=
  match (chanOf c s).take, (chanOf c s).poll with
  | some (.resets (_ :: r)), some [] => modChan c (fun x => { x with take := some (.resets r), poll := none }) s
  | some (.resets []), _ => enterStep c (.bring (bringList c s)) s
  | some (.bring []), _ => enterStep c (.zq (zqList c s)) s
  | some (.zq []), _ => enterStep c (.training (trainList c s)) s
  | some (.training []), _ => if bootOnly c s then s else enterStep c .census s
  | _, _ => s

/-- The next action of the reset of a volume: the synchronous reset, then 78h polls of each LUN, or the reset LUN of one
that has timed out; none while no poll is due or when every LUN has shown ready (08 R188). -/
def resetAct (c v : Nat) (s : State) : Option BusAct :=
  match (chanOf c s).poll with
  | none => some (.resetTargets v)
  | some [] => none
  | some (d :: _) =>
    if (dieOf d s).resetWanted then some (.resetLun d)
    else if (chanOf c s).pollAt ≤ s.cc then some (.statusPoll d)
    else none

/-- The actions of bring-up step 1 on a position: its reset, then its ID, and its set-up where it has one (08 R176). -/
def bringAct (c v : Nat) (s : State) : Option BusAct :=
  if (chanOf c s).setUp = some v then some (.setUp v)
  else if (chanOf c s).poll = some [] then some (.bringUp v)
  else resetAct c v s

/-- What BOOT_FETCH does for volume 0 of CHN[0]: bring-up, ZQ calibration, training (09 R222 step 3). -/
def bootAct (v : Nat) (s : State) : Option BusAct :=
  if v = 0 ∧ bitAt (chanOf 0 s).trained.toNat 0 = false then bringAct 0 0 s
  else if (zqList 0 s).contains 0 then some (.zqLong 0)
  else if (trainList 0 s).contains 0 then some (.train 0)
  else none

/-- The action that the takeover asks for next, when somebody can perform it. -/
def takeAct (c : Nat) (s : State) : Option BusAct :=
  let grav := fun (a : Option BusAct) => if gravDrives c s then a else none
  match (chanOf c s).take with
  | some (.resets (v :: _)) => if burinDrives c s || gravDrives c s then resetAct c v s else none
  | some (.bring (v :: _)) => if bootOnly c s then bootAct v s else grav (bringAct c v s)
  | some (.zq (v :: _)) => if bootOnly c s then bootAct 1 s else grav (some (.zqLong v))
  | some (.training (v :: _)) => if bootOnly c s then bootAct 1 s else grav (some (.train v))
  | _ => none

/-- The takeover of a channel goes on as far as it can. -/
def takeGo (c : Nat) (s : State) : State :=
  if (chanOf c s).own = .takeover ∧ busFree c s = true then
    let s := takeSkip c (takeSkip c (takeSkip c (takeSkip c s)))
    match takeAct c s with
    | some a => goAct c a s
    | none => censusRun c s
  else s

/-- The LUNs of a volume. -/
def volLuns (c v : Nat) : List Nat := (List.range 4).map (c * 32 + v * 4 + ·)

/-- A synchronous reset of a volume has ended: every LUN behind it is reset, and each is to be polled until it shows ready
(08 R176, R188; log entry 50). -/
def targetsReset (c v : Nat) (s : State) : State :=
  let s := (volLuns c v).foldl (fun s d => dieReset d s) s
  modChan c (fun x => { x with poll := some (volLuns c v), pollSince := s.cc, pollAt := s.cc + wbCc c s }) s

/-- The next LUN of the volume; with the last one ready the cost of its reset ends (13 R305). -/
def pollNext (c : Nat) (s : State) : State :=
  let s := match (chanOf c s).poll with
    | some [d] => readyLoad (d / 4 * 4) s
    | _ => s
  modChan c (fun x => { x with poll := x.poll.map List.tail }) s

/-- A poll of a LUN after the reset of its volume has ended. One that shows ready is done; past TRST_MAX it meets R173
in reset-all-targets and is passed over in bring-up. -/
def takePolled (c d : Nat) (st : Byte) (s : State) : State :=
  let p := dieProf d s
  if st.getLsbD (pfRdyBit p s) then pollNext c s
  else if (chanOf c s).pollSince + pfRstMax p s ≤ s.cc then
    match (chanOf c s).take with
    | some (.resets _) => timeOut d s
    | _ => pollNext c s
  else modChan c (fun x => { x with pollAt := max s.cc ((x.pollAt + pfPollInt p s)) }) s

/-- A reset LUN has ended; in reset-all-targets the next LUN follows. -/
def lunReset (c d : Nat) (s : State) : State :=
  let s := dieReset d s
  if ((chanOf c s).poll.bind (·.head?)) = some d then pollNext c s else s

/-- A position is done in bring-up step 1. -/
def bringNext (c : Nat) (s : State) : State :=
  modChan c (fun x => { x with poll := none, setUp := none, take := match x.take with
    | some (.bring (_ :: r)) => some (.bring r)
    | k => k }) s

/-- The ID of a position has been read: one that reads as zeros is silent and is not appointed, the others are set up. -/
def broughtUp (c v : Nat) (data : List Byte) (s : State) : State :=
  if data.all fun b => decide (b = 0) then
    bringNext c (modChan c (fun x => { x with appointed := x.appointed &&& ~~~(BitVec.ofNat 8 (2 ^ v)) }) s)
  else modChan c (fun x => { x with setUp := some v }) s

/-- A position has been appointed and set up. -/
def setUpOver (c v : Nat) (s : State) : State :=
  bringNext c (modChan c (fun x => { x with appointed := x.appointed ||| BitVec.ofNat 8 (2 ^ v) }) s)

/-- ZQ calibration long of a volume has ended. -/
def zqOver (c v : Nat) (s : State) : State :=
  modChan c (fun x => { x with
    zqDone := x.zqDone ||| BitVec.ofNat 8 (2 ^ v),
    take := match x.take with
      | some (.zq (w :: r)) => if w = v then some (.zq r) else some (.zq (w :: r))
      | k => k }) s

/-- Training of a volume has ended: read delay, write delay, eye (08 R176, R177). In bring-up an eye of 0 is
TRAIN_FAIL, and the volume is not appointed (log entry 15); in a retrain an eye below EYE_MIN is TRAIN_MARGIN. -/
def trained (c v : Nat) (data : List Byte) (s : State) : State :=
  let rd := (data[0]?).getD 0
  let wr := (data[1]?).getD 0
  let eye := (data[2]?).getD 0
  let m := BitVec.ofNat 8 (2 ^ v)
  let s := modChan c (fun x => { x with
    train := SMap.put (fun _ => {}) x.train v { valid := true, rd := rd, wr := wr, eye := eye },
    trained := x.trained ||| m }) s
  if (chanOf c s).own = .takeover then
    let s := modChan c (fun x => { x with take := match x.take with
      | some (.training (w :: r)) => if w = v then some (.training r) else some (.training (w :: r))
      | k => k }) s
    if eye = 0 then
      raiseErr (chnPage c) 0x0102 v (modChan c (fun x => { x with appointed := x.appointed &&& ~~~m }) s)
    else s
  else
    let s := bump (chnPage c) 4 (modChan c (fun x => { x with retrain := x.retrain.filter fun w => !decide (w = v) }) s)
    if eye.toNat < regFld (chnPage c) oChnRetrain 16 8 s then raiseEvt (chnPage c) 4 s else s

/-! ### Ownership (08 R182, R187) -/

/-- A peer is strapped. -/
def peerStrapped (s : State) : Bool := decide (s.pins.strapPeer = 1) || decide (s.pins.strapPeer = 2)

/-- This XF128 is senior on a channel. -/
def seniorOn (c : Nat) (s : State) : Bool :=
  if s.pins.strapPeer = 1 then decide (c % 2 = 0)
  else if s.pins.strapPeer = 2 then decide (c % 2 = 1)
  else true

/-- Bit of a channel in PEER.SHARED, taken at a rise of its CTRL.ENABLE. -/
def sharedBit (c : Nat) (s : State) : Bool :=
  peerStrapped s && bitAt (regOf .peer (oPeerShared + 4 * (c / 32)) s) (c % 32)

/-- Bit of a channel in PEER.YIELD. -/
def yieldBit (c : Nat) (s : State) : Bool := bitAt (regOf .peer (oPeerYield + 4 * (c / 32)) s) (c % 32)

/-- A shared channel. -/
def shared (c : Nat) (s : State) : Bool := (chanOf c s).shared

/-- A change of ownership state. -/
def setOwn (c : Nat) (o : Own) (s : State) : State := modChan c (fun x => { x with own := o, ownSince := s.cc }) s

/-- TAKEOVER is entered: the pads are driven, the takeover begins; clean skips reset-all-targets. -/
def enterTakeover (c : Nat) (lost clean : Bool) (s : State) : State :=
  let s := modChan c (fun x => { x with
    own := .takeover, ownSince := s.cc, driven := true, early := none, poll := none, setUp := none, volume := none, takeLost := lost,
    take := some (.resets (if clean then [] else maskVols x.appointed)) }) s
  takeGo c s

/-- The channel becomes FOREIGN: what stood on it is lost, its pads are released. -/
def goForeign (c : Nat) (dirty : Bool) (s : State) : State :=
  let s := leaveChannel c (dropActLoad c s)
  setOwn c .foreign (modChan c (fun x => { x with driven := false, dirty := x.dirty || dirty }) s)

/-- RELEASING is entered: no new starts, the queued tags are lost (07 R163), a raw command ends (09 R225), the threads
abandon their jobs on it (09 R210). -/
def enterReleasing (c : Nat) (k : RelKind) (s : State) : State :=
  let s := setOwn c .releasing (modChan c (fun x => { x with rel := some k }) s)
  abortChannel c (loseQueued c (loseRaw c s))

/-! ### Messages (08 R183, R184) -/

/-- One bit of the CRC-8. -/
def crc8Bit (c : Nat) (b : Bool) : Nat := let t := c * 2 % 256; if (128 ≤ c) != b then t ^^^ 7 else t

/-- CRC-8 over the n lowest bits of a word, the highest first. -/
def crc8 : Nat → Nat → Nat → Nat
  | 0, _, c => c
  | n + 1, v, c => crc8 n v (crc8Bit c (bitAt v n))

/-- The CRC of a message holds. -/
def crcGoodMsg (m : Word64) : Bool := decide (crc8 56 (m.toNat / 256) 0 = m.toNat % 256)

/-- Fields of a message (08 Table 8.7). -/
def msgType (m : Word64) : Nat := fieldOf m.toNat 60 4
def msgSeq (m : Word64) : Nat := fieldOf m.toNat 56 4
def msgQuarter (m : Word64) : Nat := fieldOf m.toNat 54 2
def msgForce (m : Word64) : Bool := bitAt m.toNat 48
def msgMask (m : Word64) : Nat := fieldOf m.toNat 16 32
def msgClean (m : Word64) : Bool := bitAt m.toNat 9
def msgGranted (m : Word64) : Bool := bitAt m.toNat 8

/-- A message is laid out, its CRC added. -/
def mkMsg (type seq quarter mask : Nat) (force clean granted : Bool) : Word64 :=
  let v := fieldAt 52 type + fieldAt 48 (seq % 16) + fieldAt 46 quarter + fieldAt 40 (bit force) + fieldAt 8 mask
    + fieldAt 1 (bit clean) + bit granted
  BitVec.ofNat 64 (fieldAt 8 v + crc8 56 v 0)

/-- Two messages say the same but for their channels: a CLAIM takes the SEQ of the one it joins. -/
def sameMsg (a b : Word64) : Bool :=
  decide (msgType a = msgType b) && decide (msgType a ≠ 4) && (decide (msgType a = 1) || decide (msgSeq a = msgSeq b))
  && decide (msgQuarter a = msgQuarter b) && decide (msgForce a = msgForce b) && decide (msgClean a = msgClean b)
  && decide (msgGranted a = msgGranted b)

/-- The message queued in this cc, and still queued, that another one joins (08 R184). -/
def joinedMsg (m : Word64) (s : State) : Option Word64 :=
  if s.peer.freshAt = s.cc then
    s.peer.fresh.find? fun x => sameMsg x m && (s.peer.txq.contains x || s.peer.txWait.contains x)
  else none

/-- A message with the channels of another added. -/
def joinMsg (x m : Word64) : Word64 :=
  mkMsg (msgType x) (msgSeq x) (msgQuarter x) (msgMask x ||| msgMask m) (msgForce x) (msgClean x) (msgGranted x)

/-- A message is queued behind the others; with 16 in the queue a HEARTBEAT_INFO is dropped and any other waits. -/
def queueMsg (m : Word64) (s : State) : State :=
  if s.peer.txq.length < 16 then { s with peer.txq := s.peer.txq ++ [m] }
  else if msgType m = 4 then s
  else { s with peer.txWait := s.peer.txWait ++ [m] }

/-- A message is sent off: channels whose state changes in one cc with the same outcome share one (08 R184). While
PEER is disabled none is sent (08 R185). -/
def sendMsg (m : Word64) (s : State) : State :=
  if !pageActive .peer s then s
  else match joinedMsg m s with
    | some x =>
      let f := fun y => if y = x then joinMsg x m else y
      { s with peer := { s.peer with txq := s.peer.txq.map f, txWait := s.peer.txWait.map f, fresh := s.peer.fresh.map f } }
    | none =>
      let old := if s.peer.freshAt = s.cc then s.peer.fresh else []
      queueMsg m { s with peer := { s.peer with fresh := old ++ [m], freshAt := s.cc } }

/-- The mask of the channels of a quarter. -/
def quarterMask (q : Nat) (cs : List Nat) : Nat :=
  (cs.filter fun c => decide (c / 32 = q)).foldl (fun a c => a + 2 ^ (c % 32)) 0

/-- Channels with one outcome share one message per quarter. -/
def sendFor (cs : List Nat) (mk : Nat → Nat → Word64) (s : State) : State :=
  (List.range 4).foldl (fun s q =>
    if quarterMask q cs = 0 then s else sendMsg (mk q (quarterMask q cs)) s) s

/-- A CLAIM for channels of one quarter: they enter CLAIMING. -/
def claimQuarter (force : Bool) (q : Nat) (cs : List Nat) (s : State) : State :=
  if cs.isEmpty then s
  else
    let n := s.peer.seq
    let m := mkMsg 1 n q (quarterMask q cs) force false false
    let joined := (joinedMsg m s).isSome && pageActive .peer s
    let s := cs.foldl (fun s c => setOwn c .claiming s) s
    sendMsg m (if joined then s else { s with peer.seq := (n + 1) % 16 })

/-- CLAIMs for channels. -/
def claimAll (force : Bool) (cs : List Nat) (s : State) : State :=
  (List.range 4).foldl (fun s q => claimQuarter force q (cs.filter fun c => decide (c / 32 = q)) s) s

/-- GRANTs for channels. -/
def grantAll (seq : Nat) (granted clean : Bool) (cs : List Nat) (s : State) : State :=
  sendFor cs (fun q m => mkMsg 2 seq q m false clean granted) s

/-- RELEASEs for channels. -/
def releaseAll (clean : Bool) (cs : List Nat) (s : State) : State :=
  sendFor cs (fun q m => mkMsg 3 0 q m false clean false) s

/-! ### CTRL.ENABLE of a channel (08 Table 8.8) -/

/-- An array operation of this XF128 runs or is suspended on a die of the channel. -/
def arrayOn (c : Nat) (s : State) : Bool :=
  s.sch.dies.any fun e => decide (dieChannel e.1 = c) && arrayBusy e.1 s

/-- CTRL.ENABLE has become 1. A rise while the pads wait to be released ends that wait (log entry 16). -/
def chanRise (c : Nat) (s : State) : State :=
  if (chanOf c s).disabling then modChan c (fun x => { x with disabling := false }) s
  else
    let s := modChan c (fun x => { x with shared := sharedBit c s }) s
    if (chanOf c s).own ≠ .foreign then s
    else if !shared c s then enterTakeover c false false s
    else if seniorOn c s then claimAll false [c] s
    else s

/-- CTRL.ENABLE has become 0: FOREIGN, once no die has an array operation of this XF128; no message. -/
def chanFall (c : Nat) (s : State) : State :=
  if arrayOn c s then modChan c (fun x => { x with disabling := true }) s else goForeign c false s

/-! ### Collisions (08 R191, R192) -/

/-- The other channel of the pair. -/
def pairOf (c : Nat) : Nat := if c % 2 = 0 then c + 1 else c - 1

/-- A channel goes to HALTED. -/
def haltChan (c : Nat) (s : State) : State := setOwn c .halted s

/-- Everything a COLLISION does but the choice of the next state. -/
def collide (c : Nat) (early : Bool) (pads : BitVec 17) (s : State) : State :=
  let s := leaveChannel c (dropActLoad c (loseQueued c s))
  let s := modChan c (fun x => { x with
    driven := false, dirty := true, collRun := satTo 255 (x.collRun + 1),
    contLast := BitVec.ofNat 32 (2 ^ 31 + fieldAt 30 (bit early) + pads.toNat) }) s
  raiseEvt (chnPage c) 0 (bump (chnPage c) 1 s)

/-- The pair collides together: this channel collides while the other is in BACKOFF, which includes a COLLISION of the
same cc there, or has become FOREIGN or HALTED by a COLLISION of this cc. -/
def pairHit (c : Nat) (s : State) : Bool :=
  let x := chanOf (pairOf c) s
  decide (x.own = .backoff)
  || (decide (x.ownSince = s.cc) && bitAt x.contLast.toNat 31 && decide (0 < x.collRun)
      && (decide (x.own = .foreign) || decide (x.own = .halted)))

/-- COLLISION on a channel (08 R191, R192); a channel whose CTRL.ENABLE is 0 is then FOREIGN (08 Table 8.8). -/
def collision (c : Nat) (early : Bool) (pads : BitVec 17) (s : State) : State :=
  let pair := pairHit c s
  let on := pageActive (chnPage c) s && !(chanOf c s).disabling
  let s := collide c early pads s
  let s := if pair then
      let s := haltChan c (haltChan (pairOf c) s)
      raiseEvt (chnPage (pairOf c)) 1 (raiseEvt (chnPage c) 1 s)
    else s
  if regFld (chnPage c) oChnContCfg 0 4 s ≤ (chanOf c s).collRun then
    raiseErr (chnPage c) 0x0100 pads.toNat (raiseEvt (chnPage c) 2 (haltChan c s))
  else if pair then s
  else if (!shared c s || seniorOn c s) && on then setOwn c .backoff s
  else setOwn c .foreign s

/-! ### Codes (08 R175, R178) -/

/-- One field of the codes in use: clamp(FTRIM + UTRIM). -/
def codeField (lo : Nat) (f u : Nat) : Nat :=
  fieldAt lo (ofSigned 8 (clampInt (signedOf 8 (fieldOf f lo 8) + signedOf 8 (fieldOf u lo 8)) (-128) 127))

/-- The codes in use on a channel: with UTRIM as the last ZQ update took it. -/
def trimCodes (c : Nat) (s : State) : BitVec 24 :=
  let f := (Config.ftrim c).toNat
  let u := (chanOf c s).codes.toNat
  BitVec.ofNat 24 (codeField 0 f u + codeField 8 f u + codeField 16 f u)

end Sys2Proof.Machine
end

