-- ==== Sys2Proof/Machine/Idle.lean ====
section
/-!
DEFINITION. STATUS.IDLE of each page (03 R66), as the chapter of the page states it.
-/

namespace Sys2Proof.Machine

/-- No operation of this XF128 stands on a die and none waits in its queues. -/
def dieEmpty (x : Die) : Bool :=
  decide (x.state = .idle) && x.run.isNone && x.held.isNone && x.dataIn.isNone && x.abandoned.isNone && x.queue.isEmpty

/-- 04: no ring outside IDLE, no write-back outstanding. -/
def rifIdle (s : State) : Bool := s.rif.rings.all fun e => decide (e.2.state = .idle) && e.2.wbOut.isEmpty

/-- 05: every tag FREE, no OK_EARLY program running. -/
def opsIdle (s : State) : Bool := !s.ops.tags.any fun e => decide (e.1 < 1000000)

/-- 07: every queue empty, every die IDLE. -/
def schIdle (s : State) : Bool := s.sch.dies.all fun e => e.2.queue.isEmpty && decide (e.2.state = .idle)

/-- 08 R193: no bus action queued, in a command FIFO or in progress, no raw command, no operation on a die. -/
def chanIdle (c : Nat) (s : State) : Bool :=
  let x := chanOf c s
  busFree c s && !(s.sec.rawBusy && decide (rawChannel s = c)) && x.take.isNone && x.census.isNone && x.retrain.isEmpty && !x.strangerCheck && (candsOf c s).isEmpty
  && (planWaits (planOf c s)).isEmpty
  && s.sch.dies.all fun e => !decide (dieChannel e.1 = c) || dieEmpty e.2

/-- 08: the outgoing queue is empty, no channel CLAIMING, RELEASING or TAKEOVER. -/
def peerIdle (s : State) : Bool :=
  s.peer.txq.isEmpty && s.peer.txWait.isEmpty
  && s.chn.all fun e => !decide (e.2.own = .claiming) && !decide (e.2.own = .releasing) && !decide (e.2.own = .takeover)

/-- 10: no granule held. -/
def dptIdle (s : State) : Bool :=
  (s.dpt.cws.all fun c => decide (c.gRead + c.gAcc = 0)) && s.dpt.progs.all fun p => decide (p.granules = 0)

/-- 10: no codeword in an encoder, a decoder or the pool queue. -/
def eccIdle (s : State) : Bool :=
  s.ecc.queue.isEmpty && (s.ecc.correct.all fun e => e.2.isEmpty) && s.ecc.running.all fun e => e.2.isNone

/-- 11: no LEVEL_LOAD and no CALIBRATE runs. -/
def lvlIdle (s : State) : Bool :=
  !s.lvl.loadBusy
  && !s.ops.tags.any fun e => decide (eOpcode e.2.entry = opCalibrate) && tagOpen e.1 s && decide (e.2.state ≠ .fenced)

/-- 12: no record, no slot, no stage armed. -/
def dspIdle (a : Nat) (s : State) : Bool :=
  (dspOf a s).recs.isEmpty && (dspOf a s).slots.isEmpty && (dspOf a s).armed.isEmpty

/-- A group is in RAMP or SETTLE. -/
def railsMoving (s : State) : Bool :=
  s.pwr.groups.any fun e => decide (e.2.rail = .ramp) || decide (e.2.rail = .settle)

/-- 13: every L_g 0, no start held, no group in RAMP or SETTLE, the sequence not running. -/
def pwrIdle (s : State) : Bool := decide (loadTotal s = 0) && !anyHeld s && !railsMoving s && !pfRunning s

/-- A MAP command or a rewrite runs (14). -/
def mapBusy (s : State) : Bool :=
  decide (s.map.state = .loading) || decide (s.map.state = .writing) || s.map.write.isSome || s.map.recover.isSome
  || s.map.jinit.isSome || s.map.jfirst

/-- 14: no command, census, stranger check, journal write or recovery, and no erase waits for the journal. -/
def mapIdle (s : State) : Bool :=
  !mapBusy s && s.map.jpage.isNone && s.map.forming.isEmpty && (s.map.closed.all fun l => l.isEmpty)
  && s.chn.all fun e => e.2.census.isNone && !e.2.strangerCheck

/-- 09: no load, burn or raw command. -/
def secIdle (s : State) : Bool := s.sec.load.isNone && s.sec.burnTo.isNone && !s.sec.rawBusy

/-- What a page does at the moment, beside what it only holds or has queued (03 R66, STATUS.BUSY). -/
def pageWorks (p : Page) (s : State) : Bool :=
  match p with
  | .rif => s.rif.actPending || s.rif.rings.any fun e =>
      e.2.polling || e.2.ctxRead || e.2.headRead || decide (e.2.pfAwait ≠ 0) || !e.2.wbOut.isEmpty || !e.2.cplOut.isEmpty
      || decide (e.2.state = .fnResetting)
  | .ops => s.ops.tags.any fun e => decide (e.1 < 1000000)
      && (decide (65536 ≤ e.1) || decide (e.2.state = .issued) || decide (e.2.state = .pairWait))
  | .sch => s.sch.dies.any fun e => decide (e.2.state ≠ .idle) && decide (e.2.state ≠ .suspended)
  | .chn c => (chanOf c.toNat s).act.isSome || (chanOf c.toNat s).take.isSome
  | .peer => decide (s.cc < s.peer.linkFree)
  | .bur b => running (thrOf b.toNat false s) || running (thrOf b.toNat true s)
  | .grv => running (thrOf 64 false s) || running (thrOf 64 true s)
  | .dpt => s.dpt.cws.any fun c => c.bytes.isEmpty || decide (c.wrOut ≠ 0)
  | .ecc => (s.ecc.correct.any fun e => !e.2.isEmpty) || s.ecc.running.any fun e => e.2.isSome
  | .dsp a => decide ((dspOf a.toNat s).tx ≠ .none) || (dspOf a.toNat s).decision.isSome
  | .pwr => decide (loadTotal s ≠ 0) || railsMoving s || pfRunning s
  | .map => mapBusy s || s.map.jpage.isSome || s.chn.any fun e => e.2.census.isSome
  | _ => true

/-- STATUS.IDLE of a page; of those whose chapter states nothing it is always 1. -/
def pageIdle (p : Page) (s : State) : Bool :=
  match p with
  | .rif => rifIdle s
  | .ops => opsIdle s
  | .tmb => decide (s.tmb.state = .off)
  | .sch => schIdle s
  | .chn c => chanIdle c.toNat s
  | .peer => peerIdle s
  | .bur b => engineIdle b.toNat s
  | .grv => engineIdle 64 s
  | .sec => secIdle s
  | .dpt => dptIdle s
  | .ecc => eccIdle s
  | .lvl => lvlIdle s
  | .dsp a => dspIdle a.toNat s
  | .pwr => pwrIdle s
  | .map => mapIdle s
  | .mem => s.mem.scrub.isNone
  | .glb => true
  | .irq => true
  | .irqt _ => true
  | .note => true
  | .rst => true

end Sys2Proof.Machine
end

