-- ==== Sys2Proof/Machine/Rails.lean ====
section
/-!
DEFINITION. Rail groups (13 R316, R317, Table 13.2), what PWR does at a frame tick (13 R310 to R313), and BOOT_FETCH,
which asks for the rail of G0 (09 R222).
-/

namespace Sys2Proof.Machine

/-! ### Rail states (13 R316) -/

/-- Codes of GROUP_STAT.RAIL. -/
def railCode : RailState → Nat
  | .off => 0
  | .ramp => 1
  | .settle => 2
  | .on => 3
  | .fault => 4

/-- A group takes a rail state. -/
def setRail (g : Nat) (r : RailState) (s : State) : State :=
  modGroup g (fun x => { x with rail := r, since := s.cc }) s

/-- rail_en of a group. -/
def driveRail (g : Nat) (on : Bool) (s : State) : State :=
  let m := BitVec.ofNat 8 (2 ^ g)
  { s with pins.railEn := if on then s.pins.railEn ||| m else s.pins.railEn &&& ~~~m }

/-- Some group is in RAMP. -/
def rampRuns (s : State) : Bool := s.pwr.groups.any fun e => decide (e.2.rail = .ramp)

/-- rail_pgood of a group. -/
def pgood (g : Nat) (s : State) : Bool := s.pins.railPgood.getLsbD g

/-- RAMP begins; with rail_pgood high it gives way to SETTLE at once. -/
def rampUp (g : Nat) (s : State) : State :=
  let s := driveRail g true (modGroup g (fun x => { x with onWait := false }) s)
  setRail g (if pgood g s then .settle else .ramp) s

/-- The waiting ON commands are served in ascending order while no group is in RAMP. -/
def rampNext (s : State) : State :=
  (List.range 8).foldl (fun s g => if !rampRuns s && (groupOf g s).onWait then rampUp g s else s) s

/-- RAIL_CMD ON taken for a group in OFF or FAULT. -/
def railOn (g : Nat) (s : State) : State := rampNext (modGroup g (fun x => { x with onWait := true }) s)

/-- A refused rail command (13 R317). -/
def railRefused (g cmd : Nat) (s : State) : State := raiseErr .pwr 0x0102 (fieldAt 8 cmd + g) s

/-- RAIL_FAULT: event 5, counter 8, error; kind 0 time-out, 1 power good lost. -/
def railFault (g kind : Nat) (s : State) : State :=
  raiseErr .pwr 0x0101 (fieldAt 4 kind + g) (raiseEvt .pwr 5 (bump .pwr 8 s))

/-- RAIL_CMD ON (13 R316, R317). -/
def cmdOn (g : Nat) (s : State) : State :=
  if !pageActive .pwr s then s
  else match (groupOf g s).rail with
    | .off => railOn g s
    | .fault => railOn g s
    | _ => railRefused g 1 s

/-- A channel of the group is enabled, or a tag outside FREE addresses a die of the group. -/
def groupBusy (g : Nat) (s : State) : Bool :=
  ((List.range 16).any fun i => (hdrOf (chnPage (16 * g + i)) s).enable)
  || s.ops.tags.any fun e => decide (e.1 < 65536) && (entryDies e.2.entry).any fun d => decide (dieGroup d = g)

/-- RAIL_CMD OFF (13 R317). -/
def cmdOff (g : Nat) (s : State) : State :=
  if !pageActive .pwr s then s
  else match (groupOf g s).rail with
    | .on => if groupBusy g s then railRefused g 2 s else setRail g .off (driveRail g false s)
    | .fault => setRail g .off (driveRail g false (modGroup g (fun x => { x with onWait := false }) s))
    | .off => modGroup g (fun x => { x with onWait := false }) s
    | _ => railRefused g 2 s

/-- rail_pgood rises. -/
def pgoodRise (g : Nat) (s : State) : State :=
  let s := { s with pins.railPgood := s.pins.railPgood ||| BitVec.ofNat 8 (2 ^ g) }
  if (groupOf g s).rail = .ramp then rampNext (setRail g .settle s) else s

/-- The roster dies of a group. -/
def groupDies (g : Nat) (s : State) : List Nat :=
  (s.map.roster.filter fun e => e.2.valid && decide (dieGroup e.1 = g)).map (·.1)

/-- Open tags that address a die of a group. -/
def groupTags (g : Nat) (s : State) : List Nat :=
  (s.ops.tags.filter fun e => decide (e.1 < 65536) && tagOpen e.1 s
    && (entryDies e.2.entry).any fun d => decide (dieGroup d = g)).map (·.1)

/-- rail_pgood falls. -/
def pgoodFall (g : Nat) (s : State) : State :=
  let s := { s with pins.railPgood := s.pins.railPgood &&& ~~~(BitVec.ofNat 8 (2 ^ g)) }
  if (groupOf g s).rail = .settle ∨ (groupOf g s).rail = .on then
    if pfRunning s then setRail g .fault (failOps (groupTags g s) stPowerFail rankPfail s)
    else
      let s := (groupDies g s).foldl (fun s d => quarantine d 2 s) s
      setRail g .fault (railFault g 1 s)
  else s

/-- TIMEOUT_US has passed in RAMP. -/
def rampOver (g : Nat) (s : State) : Bool :=
  decide ((groupOf g s).rail = .ramp)
  && decide ((groupOf g s).since + usCc (regFld .pwr oPwrRailCfg 0 16 s) ≤ s.cc)

/-- The ramp has failed. -/
def rampFail (g : Nat) (s : State) : State := rampNext (setRail g .fault (railFault g 0 (driveRail g false s)))

/-- SETTLE_US has passed in SETTLE. -/
def settleOver (g : Nat) (s : State) : Bool :=
  decide ((groupOf g s).rail = .settle) && pgood g s
  && decide ((groupOf g s).since + usCc (regFld .pwr oPwrRailCfg 16 16 s) ≤ s.cc)

/-- The group is ON: RAIL_UP. -/
def railIsUp (g : Nat) (s : State) : State := raiseEvt .pwr 6 (setRail g .on s)

/-- The state that PWR takes from rail_en and rail_pgood after a reset (13 R316). -/
def adoptRail (g : Nat) (s : State) : State :=
  setRail g (if !s.pins.railEn.getLsbD g then .off else if pgood g s then .on else .ramp) s

/-! ### Telemetry (13 R310 to R313) -/

/-- The sample as GROUP_STAT.CODE and, unless the input is open, GROUP_LOAD.MEAS show it (02 R50): it is recorded
whether or not PWR is enabled. -/
def recordSample (g code : Nat) (s : State) : State :=
  let ma := satTo 65535 (code * regFld .pwr (oPwrGain + 4 * g) 0 16 s / 256)
  modGroup g (fun x => { x with code := code, meas := if code = 4095 then x.meas else ma }) s

/-- A sample of a group: 0xFFF is an open input (13 R311). While PWR is not enabled it takes no part in the accounts
(13 R332). -/
def senseSample (g code : Nat) (s : State) : State :=
  if !pageAnswers .pwr s then s
  else
  let s := recordSample g code s
  if !pageActive .pwr s then s
  else if code = 4095 then
    let s := modGroup g (fun x => { x with sample := none, openSeen := true, fallback := true, fbCause := 1,
                                           goodRun := 0 }) s
    raiseEvt .pwr 2 (bump .pwr 5 s)
  else modGroup g (fun x => { x with sample := some code, openSeen := false }) s

/-- Over-current (13 R312): ma is the valid sample of the closed frame, m the limit that was in force in it. -/
def overCurrent (m g ma : Nat) (s : State) : State :=
  if m * 110 < ma * 100 then
    let s := modGroup g (fun x => { x with ocRun := satTo 15 (x.ocRun + 1) }) (bump .pwr 3 s)
    if 2 ≤ (groupOf g s).ocRun ∧ (groupOf g s).throttle = false then
      raiseErr .pwr 0x0103 (fieldAt 16 ma + g) (raiseEvt .pwr 1 (bump .pwr 4
        (modGroup g (fun x => { x with throttle := true }) s)))
    else s
  else modGroup g (fun x => { x with ocRun := 0, throttle := x.throttle && decide (m < ma) }) s

/-- Model drift (13 R313). -/
def modelDrift (g ma : Nat) (s : State) : State :=
  let pct := regFld .pwr oPwrTeleCfg 0 8 s
  if regFld .pwr (oPwrBudget + 4 * g) 16 16 s = 0 ∧ (groupOf g s).avg * (100 + pct) < ma * 100 then
    if regFld .pwr oPwrTeleCfg 16 8 s ≤ (groupOf g s).driftRun + 1 then
      raiseEvt .pwr 4 (bump .pwr 7 (modGroup g (fun x => { x with driftRun := 0 }) s))
    else modGroup g (fun x => { x with driftRun := x.driftRun + 1 }) s
  else modGroup g (fun x => { x with driftRun := 0 }) s

/-- A frame that ended with a valid sample counts towards the end of fallback (13 R311). -/
def goodFrame (g : Nat) (s : State) : State :=
  let n := satTo 255 ((groupOf g s).goodRun + 1)
  if (groupOf g s).fallback ∧ regFld .pwr oPwrTeleCfg 24 8 s ≤ n then
    modGroup g (fun x => { x with goodRun := 0, fallback := false, fbCause := 0 }) s
  else modGroup g (fun x => { x with goodRun := n }) s

/-- A frame without a valid sample; one without any sample is MISSING (13 R311). -/
def badFrame (g : Nat) (s : State) : State :=
  if (groupOf g s).openSeen then modGroup g (fun x => { x with goodRun := 0, driftRun := 0 }) s
  else
    raiseEvt .pwr 3 (bump .pwr 6
      (modGroup g (fun x => { x with goodRun := 0, driftRun := 0, fallback := true, fbCause := 2 }) s))

/-- The tick for one group; len is the length of the closed frame, old the state before the tick. -/
def groupTick (len : Nat) (old : State) (g : Nat) (s : State) : State :=
  let s := accrue g s
  let s := modGroup g (fun x => { x with avg := satTo 65535 (x.acc / max 1 len) }) s
  let s := match (groupOf g s).sample with
    | some _ => goodFrame g (modelDrift g (groupOf g s).meas (overCurrent (measLimit g old) g (groupOf g s).meas s))
    | none => badFrame g s
  modGroup g (fun x => { x with sample := none, openSeen := false, acc := 0 }) s

/-- The tick of PWR. -/
def pwrTick (len : Nat) (old s : State) : State :=
  if pageActive .pwr s then (List.range 8).foldl (fun s g => groupTick len old g s) s else s

/-! ### BOOT_FETCH (09 R222) -/

/-- CHN[0] is enabled and its ownership begins (09 R222 step 2). -/
def bootChannel (s : State) : State :=
  let s := { s with sec := { s.sec with boot := .channelWait, bootOn := s.cc } }
  if (hdrOf (chnPage 0) s).enable then s
  else chanRise 0 (setHdr (chnPage 0) { hdrOf (chnPage 0) s with enable := true } s)

/-- Volume 0 of CHN[0] has been brought up. -/
def bootReady (s : State) : Bool :=
  (chanOf 0 s).trained.getLsbD 0 && (chanOf 0 s).appointed.getLsbD 0

/-- The fetch goes on as far as it can; it fails when G0 enters FAULT. -/
def bootStep (s : State) : State :=
  let faulted := decide ((groupOf 0 s).rail = .fault)
  match s.sec.boot with
  | .railWait =>
    match (groupOf 0 s).rail with
    | .on => bootChannel s
    | .fault => if (groupOf 0 s).onWait then s else bootFail s
    | _ => s
  | .channelWait => if faulted then bootFail s else if (chanOf 0 s).own = .takeover then { s with sec.boot := .bringUp } else s
  | .reading => if faulted then bootFail s else s
  | .bringUp => if faulted then bootFail s else if bootReady s ∧ (chanOf 0 s).own = .takeover then readBootPage 0 { s with sec.boot := .reading } else s
  | _ => s

/-- Every step whose condition holds. -/
def bootAdvance (s : State) : State := bootStep (bootStep (bootStep s))

/-- GLB.CTRL.ENABLE has become 1 for the first time after a reset with strap_boot 0b10: BOOT_FETCH starts. -/
def bootStart (s : State) : State :=
  if s.pins.strapBoot = 2 ∧ s.sec.boot = .notStarted then
    let s := pushGraver s.eng.grvNext (plainJob 8 0 none (noneKey s) s) { s with
      sec.boot := .railWait, sec.load := some { boot := true } }
    let s := modThr 64 false (fun t => { t with state := .run, pc := 0, stack := [] }) (bump .sec 0 s)
    if s.pins.strapPeer = 2 then bootFail s
    else
      let s := match (groupOf 0 s).rail with
        | .off => railOn 0 s
        | .fault => railOn 0 s
        | _ => s
      bootAdvance s
  else s

end Sys2Proof.Machine
end

