-- ==== Sys2Proof/Machine/PowerCommands.lean ====
section
/-!
DEFINITION. PWR's commands: current samples, rail commands and rail events, power states and wake (13 R311 to R325).
-/

namespace Sys2Proof.Machine

/-! ### Current samples and rails -/

/-- ISENSE_STROBE (13 R311, 02 R50). -/
def execIsenseStrobe (g : GroupId) (code : BitVec 12) (s : State) : Out := fin (senseSample g.toNat code.toNat s)

/-- RAIL_CMD_ON (13 R316). -/
def execRailCmdOn (g : GroupId) (s : State) : Out := fin (csrDo .pwr (fun s => bootAdvance (cmdOn g.toNat s)) s)

/-- RAIL_CMD_OFF (13 R317). -/
def execRailCmdOff (g : GroupId) (s : State) : Out := fin (csrDo .pwr (cmdOff g.toNat) s)

/-- RAIL_PGOOD_RISE (13 Table 13.2). -/
def execRailPgoodRise (g : GroupId) (s : State) : Out := fin (pgoodRise g.toNat s)

/-- RAIL_PGOOD_FALL (13 Table 13.2). -/
def execRailPgoodFall (g : GroupId) (s : State) : Out := fin (bootAdvance (pgoodFall g.toNat s))

/-- RAIL_TIMEOUT: a group has been in RAMP for TIMEOUT_US (13 Table 13.2). -/
def execRailTimeout (g : GroupId) (s : State) : Out :=
  fin (if rampOver g.toNat s then bootAdvance (rampFail g.toNat s) else s)

/-- RAIL_UP: SETTLE_US has passed with rail_pgood high (13 Table 13.2). -/
def execRailUp (g : GroupId) (s : State) : Out :=
  fin (if settleOver g.toNat s then bootAdvance (railIsUp g.toNat s) else s)

/-! ### Power states (13 R319 to R323) -/

/-- Codes of PSTATE.LAST_RESULT. -/
def resOk : Nat := 1
def resNotQuiet : Nat := 2
def resOwned : Nat := 3
def resPfail : Nat := 4
def resBadState : Nat := 5
def resMoving : Nat := 6

/-- A refused STATE_CMD (13 R319). -/
def stateRefused (r : Nat) (s : State) : State := raiseErr .pwr 0x0100 r { s with pwr.lastResult := r }

/-- The result of a command that the state does not accept. -/
def wrongState (s : State) : Nat :=
  if s.pwr.state = .pfail ∨ s.pwr.state = .pfailDone then resPfail else resBadState

/-- A takeover is in a step that the Graver performs (08 R188). -/
def gravStep (x : Chan) : Bool :=
  match x.take with
  | some (.resets _) => false
  | some _ => true
  | none => false

/-- No raw command and no Graver job runs or waits (13 R321). -/
def graverQuiet (s : State) : Bool :=
  !s.sec.rawBusy && !bootRuns s && s.map.recover.isNone && (s.map.jobs.all fun e => e.2.isNone)
  && s.eng.grvQueue.isEmpty
  && ([false, true].all fun k => (thrOf 64 k s).offered.isNone && !(running (thrOf 64 k s) && (thrOf 64 k s).job.isSome))
  && s.chn.all fun e => e.2.census.isNone && !gravStep e.2

/-- The first failing condition of R321, or OK. -/
def quietResult (s : State) : Nat :=
  if !(opsIdle s && schIdle s && dspIdle 0 s && dspIdle 1 s && graverQuiet s) then resNotQuiet
  else if railsMoving s then resMoving
  else resOk

/-- Every channel is FOREIGN or HALTED. -/
def noneOwned (s : State) : Bool :=
  s.chn.all fun e => decide (e.2.own = .foreign) || decide (e.2.own = .halted)

/-- The first failing condition of R323, or OK; messages in PEER's queue count as not quiet. -/
def sleepResult (s : State) : Nat :=
  let w := regOf .pwr oPwrWakeCfg s
  if bitAt w 63 = false ∧ bitAt w 62 = false then resBadState
  else if quietResult s ≠ resOk then quietResult s
  else if !noneOwned s then resOwned
  else if !(s.peer.txq.isEmpty && s.peer.txWait.isEmpty) then resNotQuiet
  else resOk

/-- A command is accepted: the state changes. -/
def enterPower (p : PState) (s : State) : State :=
  { s with pwr := { s.pwr with state := p, since := s.cc, lastResult := resOk } }

/-- STATE_CMD RUN: Doze ends (13 R322). -/
def cmdRun (s : State) : State :=
  if s.pwr.state = .doze then enterPower .waking s else stateRefused (wrongState s) s

/-- STATE_CMD DOZE (13 R321): counter 10, event 9. -/
def cmdDoze (s : State) : State :=
  if s.pwr.state ≠ .run then stateRefused (wrongState s) s
  else if quietResult s ≠ resOk then stateRefused (quietResult s) s
  else raiseEvt .pwr 9 (bump .pwr 10 (enterPower .doze s))

/-- STATE_CMD RETAIN or CICADA (13 R323). -/
def cmdSleep (cicada : Bool) (s : State) : State :=
  if s.pwr.state ≠ .run then stateRefused (wrongState s) s
  else if sleepResult s ≠ resOk then stateRefused (sleepResult s) s
  else enterPower .entering { s with pwr.toCicada := cicada }

/-- STATE_CMD_RUN (13 R322). -/
def execStateCmdRun (s : State) : Out := fin (csrDo .pwr cmdRun s)

/-- STATE_CMD_DOZE (13 R321). -/
def execStateCmdDoze (s : State) : Out := fin (csrDo .pwr cmdDoze s)

/-- STATE_CMD_RETAIN (13 R323). -/
def execStateCmdRetain (s : State) : Out := fin (csrDo .pwr (cmdSleep false) s)

/-- STATE_CMD_CICADA (13 R323). -/
def execStateCmdCicada (s : State) : Out := fin (csrDo .pwr (cmdSleep true) s)

/-- 2 µs after the cause, the block runs again (13 Table 13.3), and RIF consumes the SKIP NOPs it held (04 R88). -/
def wakingEnd (s : State) : State :=
  if s.pwr.state = .waking ∧ s.pwr.since + usCc 2 ≤ s.cc then
    takeSkips (raiseEvt .pwr 9 { s with pwr := { s.pwr with state := .run, since := s.cc } })
  else s

/-- WAKING_END (13 R322). -/
def execWakingEnd (s : State) : Out := fin (wakingEnd s)

/-- The switches open 256 cc after the command: WAKE_CFG stands in the wake comparator, the outputs take their values
of reset, and for CICADA retained memory loses its contents (13 R323, 01 Table 1.9). -/
def enteringEnd (s : State) : State :=
  if s.pwr.state = .entering ∧ s.pwr.since + 256 ≤ s.cc then
    let w := BitVec.ofNat 64 (regOf .pwr oPwrWakeCfg s)
    let cic := s.pwr.toCicada
    { (s.chn.map (·.1)).foldl (fun s c => modChan c (fun x => { x with driven := false }) s) s with
             pins := resetPins s.pins,
             fab := [],
             peer.driven := false,
             rst.rmem := if cic then [] else s.rst.rmem,
             pwr := { s.pwr with state := if cic then .cicada else .retain, since := s.cc, wakeCfg := w } }
  else s

/-- ENTERING_END (13 R323). -/
def execEnteringEnd (s : State) : Out := fin (enteringEnd s)

/-! ### Wake (13 R325) -/

/-- aon_clk periods since the switch opening, at 32,768 Hz. -/
def aonPeriods (s : State) : Nat := (s.cc - s.pwr.since) * 32768 / (Config.ccPerUs * 1000000)

/-- The wake timer has run out. -/
def timerDue (s : State) : Bool :=
  bitAt s.pwr.wakeCfg.toNat 63 && decide (fieldOf s.pwr.wakeCfg.toNat 0 32 ≤ aonPeriods s)

/-- The block wakes as an L3 release whose straps are sampled, with WAKE_STAT: cause, state left, periods. Like every
reset but those of the pins it stays asserted for 64 cc, and the sensing of the fuses begins behind them (16 R382). -/
def wake (cause : Nat) (boot clk peer : BitVec 2) (fuses : Byte) (s : State) : State :=
  let from_ := decide (s.pwr.state = .cicada)
  let stat := 2 ^ 63 + fieldAt 61 cause + fieldAt 60 (bit from_) + satTo 0xFFFFFFFF (aonPeriods s)
  let s := newReset 7 3 true (!from_) 0 none none s
  let s := beginRelease boot clk peer fuses { s with pwr.wakeStat := BitVec.ofNat 64 stat }
  { s with rst.since := s.cc + 64 }

/-- wake_req has been high for two periods while REQ_EN was 1. -/
def wakeReq (boot clk peer : BitVec 2) (fuses : Byte) (s : State) : State :=
  if !corePowered s && bitAt s.pwr.wakeCfg.toNat 62 then wake (if timerDue s then 3 else 1) boot clk peer fuses s else s

/-- WAKE_REQ (13 R325). -/
def execWakeReq (boot : BitVec 2) (clk : BitVec 2) (peer : BitVec 2) (fuses : Byte) (s : State) : Out :=
  fin (wakeReq boot clk peer fuses s)

/-- The count has reached WAKE_CFG.TICKS. -/
def wakeTimer (boot clk peer : BitVec 2) (fuses : Byte) (s : State) : State :=
  if !corePowered s && timerDue s then wake 2 boot clk peer fuses s else s

/-- WAKE_TIMER (13 R325). -/
def execWakeTimer (boot : BitVec 2) (clk : BitVec 2) (peer : BitVec 2) (fuses : Byte) (s : State) : Out :=
  fin (wakeTimer boot clk peer fuses s)

end Sys2Proof.Machine
end

