-- ==== Sys2Proof/Machine/StartUp.lean ====
section
/-!
DEFINITION. The release of the domains after a reset (16 R382 to R385, Table 16.3).
-/

namespace Sys2Proof.Machine

/-- cc from the start of fuse sensing at which step k is released (16 Table 16.3); step 4 is that of PHY group 7. -/
def stepOffset (k : Nat) : Nat :=
  match k with
  | 1 => 592
  | 2 => 656
  | 3 => 912
  | 4 => 976 + 4096 * 7
  | 5 => 33744
  | 6 => 33808
  | 7 => 33872
  | 8 => 33936
  | _ => 34000

/-- fab_live rises with D1; an idle input that is already high has been seen (02 R39). -/
def fabUp (s : State) : State :=
  (List.range 4).foldl (fun s p => setFab p { live := true, begun := s.pins.fabIdle.getLsbD p } s) s

/-- D1: the fabric ports, and the registers of PEER that depend on the strap (08 R182, R194). -/
def releaseD1 (s : State) : State :=
  let s := fabUp { s with peer.watched := s.cc }
  if peerStrapped s then
    let y := if s.pins.strapPeer = 1 then 0xAAAAAAAA else 0x55555555
    let s := (List.range 4).foldl (fun s k =>
      setReg .peer (oPeerYield + 4 * k) y (setReg .peer (oPeerShared + 4 * k) 0xFFFFFFFF s)) s
    (List.range 128).foldl (fun s c => modChan c (fun x => { x with shared := true }) s) s
  else s

/-- A PHY group is released: its codes are those of the ZQ calibration (08 R175, R178); with group 0 the peer
pads are driven and the heartbeat begins (02 R24, 08 R185). -/
def releaseGroup (g : Nat) (s : State) : State :=
  let s := { s with rst.groups := g + 1 }
  let s := (List.range 16).foldl (fun s i => takeTrim (16 * g + i) s) s
  let s := modGroup g (fun x => { x with zqDue := s.cc + zqPeriod }) s
  if g = 0 then { s with peer := { s.peer with hbAt := s.cc, driven := true } } else s

/-- The level of pfail_warn: high from its rise until pfail_done rises, and from then on, as the pin may fall (02 R49), a
free value at each release (log entry 117). -/
def pfailHigh (s : State) : Bool := s.pins.pfailWarn && !(s.pins.pfailFell && (freeNow s).getLsbD 0)

/-- D7: the rail states are taken from the pins (13 R316), a wake is reported (13 R325), and a pfail_warn that is high
starts the power-fail sequence (16 R385). -/
def releaseD7 (s : State) : State :=
  let s := (List.range 8).foldl (fun s g => adoptRail g s) s
  let s := if bitAt s.pwr.wakeStat.toNat 63 then raiseEvt .pwr 10 s else s
  let high := pfailHigh s
  let s := { (if s.pins.pfailFell then takeFree s else s) with pins.pfailWarn := high }
  if high && pfCan s then pfAdvance (pfBegin s) else s

/-- RELEASE.DONE (16 Table 16.3). -/
def releaseDone (s : State) : State := { s with rst := { s.rst with phase := .done } }

/-- D8: after any reset but a power-on, RST event 2 (16 Table 16.7). -/
def releaseD8 (s : State) : State := if bitAt s.rst.sources.toNat 0 then s else raiseEvt .rst 2 s

/-- Step k is released. -/
def releaseStep (k : Nat) (s : State) : State :=
  let s := { s with rst := { s.rst with step := k } }
  if k = 1 then releaseD1 s
  else if k = 7 then releaseD7 s
  else if k = 8 then releaseD8 s
  else s

/-- The offset of the next release: group after group between D3 and D5. -/
def nextOffset (s : State) : Nat :=
  if s.rst.step = 3 ∧ s.rst.groups < 8 then 976 + 4096 * s.rst.groups
  else if s.rst.step = 3 then stepOffset 5
  else stepOffset (s.rst.step + 1)

/-- The next domain in order. -/
def releaseNextDomain (s : State) : State :=
  if s.rst.step = 3 ∧ s.rst.groups < 8 then
    let g := s.rst.groups
    let s := releaseGroup g s
    if g = 7 then { s with rst := { s.rst with step := 4 } } else s
  else if s.rst.step = 8 then releaseDone s
  else releaseStep (s.rst.step + 1) s

/-- DOMAIN_RELEASE: at its offset the next domain or PHY group is released. -/
def domainRelease (s : State) : State :=
  if s.rst.phase = .releasing ∧ s.rst.since + nextOffset s ≤ s.cc then releaseNextDomain s else s

/-- DOMAIN_RELEASE (16 R382). -/
def execDomainRelease (s : State) : Out := fin (domainRelease s)

end Sys2Proof.Machine
end

