-- ==== Sys2Proof/Machine/Channel.lean ====
section
/-!
DEFINITION. The commands of CHN (08): contention, calibration and training, ownership commands and the ends of the
ownership states.
-/

namespace Sys2Proof.Machine

/-! ### Contention (08 R189 to R192) -/

/-- The comparator watches the pads: they are driven, and the block is not in Doze (13 R321). -/
def watched (c : Nat) (s : State) : Bool :=
  decide ((chanOf c s).own = .owned ∨ (chanOf c s).own = .releasing ∨ (chanOf c s).own = .takeover)
  && (chanOf c s).driven && !decide (s.pwr.state = .doze) && corePowered s && groupReleased (chanGroup c) s

/-- Blanking for 4 PHY clocks, within 4 cc, after the entry to TAKEOVER and after a turnaround (08 R190; log entry 49).
-/
def blanked (c : Nat) (s : State) : Bool :=
  let x := chanOf c s
  (decide (x.own = .takeover) && decide (s.cc < x.ownSince + 4))
  || (x.turnAt.toList ++ x.turns).any fun t => decide (t ≤ s.cc) && decide (s.cc < t + 4)

/-- Pads of a channel are in contention: a COLLISION, or EARLY_CONTENTION during blanking. -/
def contention (c : Nat) (pads : BitVec 17) (s : State) : State :=
  if !watched c s || decide (pads = 0) then s
  else if blanked c s then
    modChan c (fun x => { x with early := some pads, contLast := BitVec.ofNat 32 (2 ^ 30 + pads.toNat) }) s
  else collision c false pads s

/-- CONTENTION (08 R189). -/
def execContention (c : ChnId) (pads : BitVec 17) (s : State) : Out := fin (contention c.toNat pads s)

/-- The re-test after the end of blanking: contention that has gone counts in counter 0, any other is a COLLISION. -/
def earlyRetest (c : Nat) (pads : BitVec 17) (s : State) : State :=
  if (chanOf c s).early.isSome && watched c s && !blanked c s then
    let s := modChan c (fun x => { x with early := none }) s
    if pads = 0 then bump (chnPage c) 0 s else collision c true pads s
  else s

/-- EARLY_CONTENTION_RETEST (08 R190). -/
def execEarlyContentionRetest (c : ChnId) (pads : BitVec 17) (s : State) : Out := fin (earlyRetest c.toNat pads s)

/-! ### Calibration and training (08 R175 to R178, R193) -/

/-- The background ZQ update of a PHY group, when its period has passed: the new codes wait for a bus gap of each channel
(08 R175); in Doze and until its wake has ended there is none (13 R321, R322). -/
def zqUpdate (g : Nat) (s : State) : State :=
  if groupReleased g s && zqRuns s && decide ((groupOf g s).zqDue ≤ s.cc) then
    (List.range 16).foldl (fun s i => modChan (16 * g + i) (fun x => { x with zqPend := true }) s)
      (modGroup g (fun x => { x with zqDue := s.cc + zqPeriod }) s)
  else s

/-- ZQ_UPDATE (08 R175). -/
def execZqUpdate (g : GroupId) (s : State) : Out := fin (zqUpdate g.toNat s)

/-- RETRAIN.INTERVAL. -/
def retrainInterval (c : Nat) (s : State) : Nat := regFld (chnPage c) oChnRetrain 0 16 s

/-- Retrains are due on an OWNED channel (08 R177). -/
def retrainDue (c : Nat) (s : State) : Bool :=
  decide ((chanOf c s).own = .owned) && pageActive (chnPage c) s && decide (retrainInterval c s ≠ 0)
  && decide ((chanOf c s).retrainCount = 0) && !decide (s.pwr.state = .doze)

/-- INTERVAL frames have passed, counted from the entry to OWNED; a new INTERVAL counts from the next reload on (DESIGN
CHOICE, log entry 139). -/
def retrain (c : Nat) (s : State) : State :=
  if retrainDue c s then retrainAll c (modChan c (fun x => { x with retrainCount := retrainInterval c s }) s) else s

/-- RETRAIN (08 R177). -/
def execRetrain (c : ChnId) (s : State) : Out := fin (retrain c.toNat s)

/-- A write of 1 to RETRAIN.NOW. -/
def retrainNow (c : Nat) (s : State) : State :=
  if (chanOf c s).own = .owned ∧ pageActive (chnPage c) s = true then retrainAll c s else s

/-- RETRAIN_NOW (08 R177). -/
def execRetrainNow (c : ChnId) (s : State) : Out := fin (csrDo (.chn c) (retrainNow c.toNat) s)

/-- TRAIN_RES of a volume. -/
def trainWord (t : Train) : Nat := fieldAt 31 (bit t.valid) + fieldAt 16 t.rd.toNat + fieldAt 8 t.wr.toNat + t.eye.toNat

/-- A write of TRAIN_SEL takes the volume's results into TRAIN_RES. -/
def trainSel (c v : Nat) (s : State) : State :=
  setReg (chnPage c) oChnTrainRes (trainWord (SMap.get (fun _ => {}) (chanOf c s).train v))
    (setReg (chnPage c) oChnTrainSel v s)

/-- TRAIN_SEL (08 R193). -/
def execTrainSel (c : ChnId) (vol : BitVec 3) (s : State) : Out := fin (csrDo (.chn c) (trainSel c.toNat vol.toNat) s)

/-! ### OWN_CMD (08 Table 8.8) -/

/-- Codes of OWN_STAT.STATE. -/
def ownCode : Own → Nat
  | .foreign => 0
  | .claiming => 1
  | .owned => 2
  | .releasing => 3
  | .backoff => 4
  | .takeover => 5
  | .halted => 6

/-- An OWN_CMD that the state does not accept. -/
def ownIgnored (c : Nat) (s : State) : State := raiseErr (chnPage c) 0x0104 (ownCode (chanOf c s).own) s

/-- OWN_CMD CLAIM or FORCE_CLAIM. -/
def ownClaim (c : Nat) (force : Bool) (s : State) : State :=
  if !pageActive (chnPage c) s then ownIgnored c s
  else match (chanOf c s).own with
    | .foreign => if shared c s then claimAll force [c] s else ownIgnored c s
    | .halted => if shared c s then claimAll force [c] s else enterTakeover c false false s
    | _ => ownIgnored c s

/-- OWN_CMD RELEASE. -/
def ownRelease (c : Nat) (s : State) : State :=
  if !pageActive (chnPage c) s then ownIgnored c s
  else match (chanOf c s).own with
    | .owned => enterReleasing c .command s
    | .halted => setOwn c .foreign (if shared c s then releaseAll false [c] s else s)
    | _ => ownIgnored c s

/-- OWN_CMD_CLAIM (08 R187). -/
def execOwnCmdClaim (c : ChnId) (s : State) : Out := fin (csrDo (.chn c) (ownClaim c.toNat false) s)

/-- OWN_CMD_FORCE_CLAIM (08 R187). -/
def execOwnCmdForceClaim (c : ChnId) (s : State) : Out := fin (csrDo (.chn c) (ownClaim c.toNat true) s)

/-- OWN_CMD_RELEASE (08 R187). -/
def execOwnCmdRelease (c : ChnId) (s : State) : Out := fin (csrDo (.chn c) (ownRelease c.toNat) s)

/-! ### The ends of the ownership states -/

/-- CLAIM_TIMEOUT µs have passed without a GRANT: FOREIGN, PEER event 5. -/
def claimTimeout (c : Nat) (s : State) : State :=
  if (chanOf c s).own = .claiming ∧ (chanOf c s).ownSince + usCc (regFld .peer oPeerCfg 0 16 s) ≤ s.cc then
    raiseEvt .peer 5 (setOwn c .foreign s)
  else s

/-- CLAIM_TIMEOUT (08 R187). -/
def execClaimTimeout (c : ChnId) (s : State) : Out := fin (claimTimeout c.toNat s)

/-- 16 µs since the COLLISION: a CLAIM, or TAKEOVER of a private channel. -/
def backoffEnd (c : Nat) (s : State) : State :=
  if (chanOf c s).own = .backoff ∧ (chanOf c s).ownSince + usCc 16 ≤ s.cc then
    if shared c s then claimAll false [c] s else bootAdvance (enterTakeover c false false s)
  else s

/-- BACKOFF_END (08 R191). -/
def execBackoffEnd (c : ChnId) (s : State) : Out := fin (backoffEnd c.toNat s)

/-- RELEASING may be left: a voluntary release once no array operation of this XF128 runs or is suspended and the bus is
idle, a forced one once the bus is idle, at most 8,850 cc after it began. -/
def releaseReady (c : Nat) (s : State) : Bool :=
  match (chanOf c s).rel with
  | some .command => !arrayOn c s && busFree c s
  | some (.yielded _) => !arrayOn c s && busFree c s
  | some (.forcedClaim _) => busFree c s || decide ((chanOf c s).ownSince + 8850 ≤ s.cc)
  | some .forcedInfo => busFree c s || decide ((chanOf c s).ownSince + 8850 ≤ s.cc)
  | none => false

/-- The pads are released, and the peer is told as the release asks. -/
def releaseOver (c : Nat) (s : State) : State :=
  match (chanOf c s).rel with
  | some .command =>
    let s := goForeign c false s
    if shared c s then releaseAll (!(chanOf c s).dirty) [c] s else s
  | some (.yielded q) =>
    let s := goForeign c false s
    grantAll q true (!(chanOf c s).dirty) [c] s
  | some (.forcedClaim q) => grantAll q true false [c] (goForeign c true s)
  | some .forcedInfo => releaseAll false [c] (goForeign c true s)
  | none => s

/-- The channel leaves RELEASING, or a disabled channel whose array operations have ended becomes FOREIGN. -/
def releaseComplete (c : Nat) (s : State) : State :=
  if (chanOf c s).disabling then (if arrayOn c s then s else goForeign c false s)
  else if (chanOf c s).own = .releasing ∧ releaseReady c s = true then releaseOver c s
  else s

/-- RELEASE_COMPLETE (08 R187). -/
def execReleaseComplete (c : ChnId) (s : State) : Out := fin (releaseComplete c.toNat s)

/-- Some other channel that was entered through PEER_LOST is still in TAKEOVER. -/
def lostLeft (c : Nat) (s : State) : Bool :=
  s.chn.any fun e => decide (e.1 ≠ c) && decide (e.2.own = .takeover) && e.2.takeLost

/-- The takeover has ended (08 R188 step 5): OWNED, DIRTY cleared, OWN_CHANGE, counter 6; the last channel taken after
PEER_LOST raises TAKEOVER_DONE. -/
def takeoverEnd (c : Nat) (s : State) : State :=
  if (chanOf c s).own = .takeover ∧ (chanOf c s).take = none ∧ busFree c s = true then
    let lost := (chanOf c s).takeLost
    let s := setOwn c .owned (modChan c (fun x => { x with dirty := false, takeLost := false,
                                                           retrainCount := retrainInterval c s }) s)
    let s := raiseEvt (chnPage c) 5 (bump (chnPage c) 6 s)
    if lost && !lostLeft c s then raiseEvt .peer 2 s else s
  else s

/-- TAKEOVER_END (08 R188). -/
def execTakeoverEnd (c : ChnId) (s : State) : Out := fin (takeoverEnd c.toNat s)

end Sys2Proof.Machine
end

