-- ==== Sys2Proof/Machine/PeerLink.lean ====
section
/-!
DEFINITION. The commands of PEER (08 R183 to R187): messages received and sent, the heartbeat and the loss of the peer.
-/

namespace Sys2Proof.Machine

/-! ### Messages received -/

/-- PEER sends and accepts messages: enabled, with a peer strapped (08 R185, 02 Table 2.5). -/
def linkOn (s : State) : Bool := pageActive .peer s && peerStrapped s

/-- The shared channels that a message names. -/
def namedChans (m : Word64) (s : State) : List Nat :=
  ((List.range 32).filter fun i => bitAt (msgMask m) i && shared (32 * msgQuarter m + i) s).map (32 * msgQuarter m + ·)

/-- A frame that carries a message of a type with a good CRC is received: counter 1, LAST_RX, its effect. -/
def received (type : Nat) (m : Word64) (act : State → State) (s : State) : State :=
  if linkOn s && crcGoodMsg m && decide (msgType m = type) then
    act (bump .peer 1 { s with peer.lastRx := m })
  else s

/-- The channels of a list in an ownership state. -/
def inOwn (o : Own) (cs : List Nat) (s : State) : List Nat := cs.filter fun c => decide ((chanOf c s).own = o)

/-- A CLAIM (08 Table 8.8): FOREIGN, BACKOFF and junior CLAIMING channels are granted, OWNED ones are given up or
denied. -/
def takeClaim (m : Word64) (s : State) : State :=
  let cs := namedChans m s
  let q := msgSeq m
  let owned := inOwn .owned cs s
  let s := if owned.isEmpty then s else wakeDoze s
  let give := owned.filter fun c => msgForce m || yieldBit c s
  let deny := owned.filter fun c => !(msgForce m || yieldBit c s)
  let jun := (inOwn .claiming cs s).filter fun c => !seniorOn c s
  let back := inOwn .backoff cs s
  let free := inOwn .foreign cs s ++ jun
  let clean := free.filter fun c => !(chanOf c s).dirty
  let dirty := (free.filter fun c => (chanOf c s).dirty) ++ back
  let s := (jun ++ back).foldl (fun s c => setOwn c .foreign s) s
  let s := grantAll q true false dirty (grantAll q true true clean s)
  let s := grantAll q false false deny s
  if msgForce m then
    let s := if give.isEmpty then s else raiseEvt .rst 1 (bump .rst 0 s)
    give.foldl (fun s c => enterReleasing c (.forcedClaim q) (bump .peer 6 s)) s
  else give.foldl (fun s c => enterReleasing c (.yielded q) s) s

/-- CLAIM (08 R187). -/
def execClaim (msg : Word64) (s : State) : Out := fin (received 1 msg (takeClaim msg) s)

/-- A GRANT for channels in CLAIMING: TAKEOVER, or CLAIM_DENIED and FOREIGN. -/
def takeGrant (m : Word64) (s : State) : State :=
  let cs := inOwn .claiming (namedChans m s) s
  if msgGranted m then bootAdvance (cs.foldl (fun s c => enterTakeover c false (msgClean m) s) s)
  else
    let s := cs.foldl (fun s c => setOwn c .foreign s) s
    if cs.isEmpty then s else raiseEvt .peer 4 s

/-- GRANT (08 R187). -/
def execGrant (msg : Word64) (s : State) : Out := fin (received 2 msg (takeGrant msg) s)

/-- A RELEASE for FOREIGN channels: TAKEOVER. One for a disabled channel is ignored (DESIGN CHOICE, log entry 138). -/
def takeRelease (m : Word64) (s : State) : State :=
  let cs := (inOwn .foreign (namedChans m s) s).filter fun c => pageActive (chnPage c) s
  bootAdvance (cs.foldl (fun s c => enterTakeover c false (msgClean m) s) s)

/-- RELEASE (08 R187). -/
def execRelease (msg : Word64) (s : State) : Out := fin (received 3 msg (takeRelease msg) s)

/-- A HEARTBEAT_INFO (08 R186): channels that both own (OWN_MISMATCH; of them a junior gives up the OWNED), and
channels that the peer does not own while this XF128, senior there, holds them FOREIGN, the disabled ones left out
(DESIGN CHOICE, log entry 138). -/
def takeInfo (m : Word64) (s : State) : State :=
  let all := ((List.range 32).map (32 * msgQuarter m + ·)).filter fun c => shared c s
  let both := inOwn .owned (namedChans m s) s
  let held := both ++ inOwn .releasing (namedChans m s) s ++ inOwn .takeover (namedChans m s) s
  let s := if held.isEmpty then s else raiseEvt .peer 7 s
  let s := (both.filter fun c => !seniorOn c s).foldl (fun s c => enterReleasing c .forcedInfo (bump .peer 6 s)) s
  claimAll false ((inOwn .foreign all s).filter fun c =>
    !bitAt (msgMask m) (c % 32) && seniorOn c s && pageActive (chnPage c) s) s

/-- HEARTBEAT_INFO (08 R186). -/
def execHeartbeatInfo (msg : Word64) (s : State) : Out := fin (received 4 msg (takeInfo msg) s)

/-- Whether a TAKEOVER_NOTICE takes a channel away. -/
def noticeTakes (c : Nat) (s : State) : Bool :=
  match (chanOf c s).own with
  | .owned => true
  | .releasing => true
  | .claiming => true
  | .backoff => true
  | .takeover => !seniorOn c s
  | _ => false

/-- A TAKEOVER_NOTICE: its channels leave as by a forced release, without a GRANT; TAKEN_OVER. -/
def takeNotice (m : Word64) (s : State) : State :=
  let cs := (namedChans m s).filter fun c => noticeTakes c s
  let s := cs.foldl (fun s c => goForeign c true s) s
  if cs.isEmpty then s else raiseEvt .peer 3 s

/-- TAKEOVER_NOTICE (08 R187). -/
def execTakeoverNotice (msg : Word64) (s : State) : Out := fin (received 5 msg (takeNotice msg) s)

/-- A frame that is discarded: bad CRC or stop bit, counter 2; reserved TYPE, counter 3 (08 R183). -/
def msgError (m : Word64) (stop : Bool) (s : State) : State :=
  if !linkOn s then s
  else if !stop || !crcGoodMsg m then raiseEvt .peer 6 (bump .peer 2 s)
  else if msgType m = 0 ∨ 5 < msgType m then raiseEvt .peer 6 (bump .peer 3 s)
  else s

/-- MSG_ERROR (08 R183); stop is the level of the stop bit. -/
def execMsgError (msg : Word64) (stop : Bool) (s : State) : Out := fin (msgError msg stop s)

/-! ### Messages sent (08 R184, R186) -/

/-- Rank of a message on the link. -/
def msgRank (m : Word64) : Nat :=
  if msgType m = 5 then 0
  else if msgType m = 2 ∨ msgType m = 3 then 1
  else if msgType m = 1 then 2
  else 3

/-- A list without the first element equal to one. -/
def dropFirst (m : Word64) : List Word64 → List Word64
  | [] => []
  | x :: r => if x = m then r else x :: dropFirst m r

/-- The link is free: the message that goes first is sent; a waiting one takes its place in the queue. -/
def messageSend (s : State) : State :=
  match firstBy (fun a b => decide (msgRank a < msgRank b)) s.peer.txq with
  | none => s
  | some m =>
    if linkOn s && decide (s.peer.linkFree ≤ s.cc) then
      let s := { s with peer := { s.peer with txq := dropFirst m s.peer.txq ++ s.peer.txWait.take 1,
                                              txWait := s.peer.txWait.tail, lastTx := m, linkFree := s.cc + 510 } }
      let s := bump .peer 0 s
      if msgType m = 2 ∧ msgGranted m = true then bump .peer 5 s else s
    else s

/-- MESSAGE_SEND (08 R184). -/
def execMessageSend (s : State) : Out := fin (messageSend s)

/-- The channels of a quarter that this XF128 owns: OWNED, RELEASING or TAKEOVER, and shared. -/
def ownedOf (q : Nat) (s : State) : List Nat :=
  ((List.range 32).map (32 * q + ·)).filter fun c =>
    shared c s && decide ((chanOf c s).own = .owned ∨ (chanOf c s).own = .releasing ∨ (chanOf c s).own = .takeover)

/-- INFO_PERIOD µs have passed: a HEARTBEAT_INFO for the next quarter. -/
def infoSend (s : State) : State :=
  let per := regFld .peer oPeerCfg 16 8 s
  if linkOn s && decide (per ≠ 0) && decide (s.peer.infoDue ≤ s.cc) then
    let q := s.peer.quarter
    let s := { s with peer := { s.peer with quarter := (q + 1) % 4, infoDue := s.cc + usCc per } }
    sendMsg (mkMsg 4 0 q (quarterMask q (ownedOf q s)) false false false) s
  else s

/-- HEARTBEAT_INFO_SEND (08 R186). -/
def execHeartbeatInfoSend (s : State) : Out := fin (infoSend s)

/-! ### The heartbeat (08 R185) -/

/-- PEER_HB_OUT toggles every 0.5 µs from the release of PHY group 0 on. -/
def heartbeat (s : State) : State :=
  if corePowered s && groupReleased 0 s && decide (s.peer.hbAt + nsCc 500 ≤ s.cc) then
    { s with peer := { s.peer with hbOut := !s.peer.hbOut, hbAt := s.cc } }
  else s

/-- HEARTBEAT (08 R185). -/
def execHeartbeat (s : State) : Out := fin (heartbeat s)

/-- Edges in a row with no gap above 1.0 µs, this one included. -/
def edgeRun (s : State) : Nat :=
  match s.peer.lastEdge with
  | some t => if s.cc ≤ t + usCc 1 then s.peer.edges + 1 else 1
  | none => 1

/-- An edge on PEER_HB_IN: after eight regular ones a lost peer is back. -/
def hbEdge (s : State) : State :=
  if corePowered s && stepReleased 1 s && peerStrapped s then
    let n := satTo 8 (edgeRun s)
    let s := { s with peer := { s.peer with lastEdge := some s.cc, edges := n } }
    if pageActive .peer s && s.peer.lost && decide (8 ≤ n) then raiseEvt .peer 1 { s with peer.lost := false } else s
  else s

/-- PEER_HB_EDGE (08 R185). -/
def execPeerHbEdge (s : State) : Out := fin (hbEdge s)

/-- No edge for 3.0 µs (02 R53): since the last, or since PEER_HB_IN is watched. -/
def hbGone (s : State) : Bool :=
  decide (s.peer.lastEdge.getD s.peer.watched + usCc 3 ≤ s.cc)

/-- The shared channels that a loss of the peer hands to this XF128. -/
def lostChans (s : State) : List Nat :=
  (List.range 128).filter fun c => shared c s && pageActive (chnPage c) s
    && decide ((chanOf c s).own = .foreign ∨ (chanOf c s).own = .claiming ∨ (chanOf c s).own = .backoff)

/-- The peer is lost: PEER_LOST, counter 4; its channels are taken over, releases are called off. -/
def peerLost (s : State) : State :=
  if linkOn s && !s.peer.lost && hbGone s then
    let cs := lostChans s
    let rs := (s.chn.filter fun e => decide (e.2.own = .releasing)).map (·.1)
    let s := raiseEvt .peer 0 (bump .peer 4 { s with peer := { s.peer with lost := true, edges := 0 } })
    let s := sendFor cs (fun q m => mkMsg 5 0 q m false false false) s
    let s := rs.foldl (fun s c => setOwn c .owned (modChan c (fun x => { x with rel := none }) s)) s
    bootAdvance (cs.foldl (fun s c => enterTakeover c true false s) s)
  else s

/-- PEER_LOST (02 R53). -/
def execPeerLost (s : State) : Out := fin (peerLost s)

end Sys2Proof.Machine
end

