-- ==== Sys2Proof/Machine/RawGate.lean ====
section
/-!
DEFINITION. Raw commands (09 R223 to R225): the gate, the start or refusal of a command, its bus actions and its ends.
-/

namespace Sys2Proof.Machine

/-- Fields of RAW_CMD. -/
def rawCmd1 (s : State) : Nat := regFld .sec oSecRawCmd 24 8 s
def rawAcyc (s : State) : Nat := regFld .sec oSecRawCmd 12 3 s
def rawIn (s : State) : Bool := bitAt (regOf .sec oSecRawCmd s) 11
def rawLen (s : State) : Nat := regFld .sec oSecRawCmd 7 4 s
def rawWait (s : State) : Bool := bitAt (regOf .sec oSecRawCmd s) 6

/-- The gate closes: nothing has been written since it opened. -/
def closeGate (s : State) : State :=
  { s with sec := { s.sec with open_ := false, wrCmd := false, wrAddr := false, wrData := false } }

/-! ### UNLOCK (09 R223) -/

/-- UNLOCK_FAIL: counter 4, error with the key written. -/
def unlockFail (key : Nat) (s : State) : State :=
  raiseErr .sec 0x0101 key (bump .sec 4 { s with sec.unlockAt := none })

/-- A write to UNLOCK: a first key, the second key within 64 cc of it, or any other value; any write while the gate is
open closes it. -/
def unlock (key : Nat) (s : State) : State :=
  if s.sec.open_ then
    let s := closeGate s
    if key = 0x5C17 then { s with sec.unlockAt := some s.cc } else unlockFail key s
  else match s.sec.unlockAt with
    | none => if key = 0x5C17 then { s with sec.unlockAt := some s.cc } else unlockFail key s
    | some t =>
      if key = 0xA3E8 ∧ s.cc ≤ t + 64 then { s with sec := { s.sec with unlockAt := none, open_ := true } }
      else unlockFail key s

/-! ### Start (09 R224, R225) -/

/-- Some Graver thread is FAULTED, or the Graver is disabled. -/
def graverOff (s : State) : Bool :=
  !(hdrOf .grv s).enable || decide ((thrOf 64 false s).state = .faulted) || decide ((thrOf 64 true s).state = .faulted)

/-- The first RESULT that refuses the command; 0 when none does. -/
def rawCheck (s : State) : Nat :=
  if (chanOf (rawChannel s) s).own ≠ .owned then 2
  else if 5 < rawAcyc s ∨ 8 < rawLen s then 4
  else if arrayBusy (rawDie s) s then 3
  else if graverOff s then 5
  else 0

/-- The third of the three writes: the gate closes, the command is refused, or queued to the Graver as a RAW job
(counter 3). DESIGN CHOICE (log entry 140): one started while another still runs takes its place. -/
def rawGo (s : State) : State :=
  let s := closeGate s
  let r := rawCheck s
  if r ≠ 0 then rawEnd r s
  else
    let j := { plainJob 9 (rawDie s) none (noneKey s) s with profile := 0 }
    let s := bump .sec 3 (pushGraver s.eng.grvNext j s)
    { s with sec := { s.sec with rawBusy := true, rawResult := 0, rawStatus := 0, rawSince := 0, rawOut := false, rawAt := s.cc, rawNext := s.cc } }

/-- Offset of a raw register. -/
def rawOffset : RawReg → Nat
  | .cmd => oSecRawCmd
  | .addr => oSecRawAddr
  | .data => oSecRawData

/-- A write of a raw register: stored while the gate is open, else ignored with RAW_LOCKED. -/
def rawWrite (r : RawReg) (v : Nat) (s : State) : State :=
  if !s.sec.open_ then raiseErr .sec 0x0102 (rawOffset r) s
  else
    let s := setReg .sec (rawOffset r) v s
    let s := match r with
      | .cmd => { s with sec.wrCmd := true }
      | .addr => { s with sec.wrAddr := true }
      | .data => { s with sec.wrData := true }
    if s.sec.wrCmd && s.sec.wrAddr && s.sec.wrData then rawGo s else s

/-- Writable bits of a raw register. -/
def rawMask : RawReg → Nat
  | .cmd => 0xFFFFFFC0
  | .addr => 2 ^ 52 - 1
  | .data => 2 ^ 64 - 1

/-! ### Bus actions and ends -/

/-- The dies that the command's opcode resets: FAh the addressed LUN, FFh and FCh every LUN of the volume (07 R400). -/
def rawResets (s : State) : List Nat :=
  let d := rawDie s
  if rawCmd1 s = 0xFA then [d]
  else if rawCmd1 s = 0xFF ∨ rawCmd1 s = 0xFC then (List.range 4).map fun l => d / 4 * 4 + l
  else []

/-- Data-out overwrites the first DLEN bytes of RAW_DATA. -/
def rawTake (data : List Byte) (s : State) : State :=
  let n := min (rawLen s) data.length
  let old := leBytes 8 (regOf .sec oSecRawData s)
  setReg .sec oSecRawData (leNat (data.take n ++ old.drop n)) s

/-- The command has reached its data phase: data-out ends it too. -/
def rawFinish (data : List Byte) (s : State) : State := rawEnd 1 (if rawIn s then s else rawTake data s)

/-- A bus action of the raw command has ended: its cycles, with the data-out bytes where it does not poll; then one poll
with its status byte, and once bit 6 was 1 the data-out behind 00h (09 R224). -/
def rawAction (data : List Byte) (s : State) : State :=
  if s.sec.rawSince = 0 then
    let s := (rawResets s).foldl (fun s d => dieReset d s) s
    if rawWait s then { s with sec := { s.sec with rawSince := s.cc, rawNext := s.cc } } else rawFinish data s
  else if s.sec.rawOut then rawFinish data s
  else
    match data with
    | [] => s
    | b :: _ =>
      let s := { s with sec.rawStatus := b }
      if !b.getLsbD 6 then { s with sec.rawNext := s.sec.rawNext + nsCc 300 }
      else if rawIn s then rawFinish [] s
      else { s with sec := { s.sec with rawOut := true, rawNext := s.cc } }

/-- WAIT polls have run for 20 ms: TIMEOUT. -/
def rawTimeout (s : State) : State :=
  if s.sec.rawBusy ∧ s.sec.rawSince ≠ 0 ∧ s.sec.rawOut = false ∧ s.sec.rawSince + usCc 20000 ≤ s.cc then rawEnd 6 s else s

end Sys2Proof.Machine
end

