-- ==== Sys2Proof/Machine/Buses.lean ====
section
/-!
DEFINITION. What happens on dies and buses (07 R147 to R162, 08 R171 to R173): starts, data-in, suspend and resume,
status, transfers, the filling of free bus time and the end of a bus action.
-/

namespace Sys2Proof.Machine

/-! ### Start of an operation (07 R147, R148, 13 R307, R308) -/

/-- Two items are senses of tagged READ entries of the same page and sense (07 R148). -/
def merges (d : Nat) (a b : QItem) (s : State) : Bool :=
  let off := fun (it : QItem) => senseOffsets (eLrow (tagOf it.id s).entry) it.rung it.attempt 15 s
  decide (a.kind = .sense) && decide (b.kind = .sense) && decide (a.id ≠ b.id)
  && decide (idOp a.id s = opRead) && decide (idOp b.id s = opRead)
  && pfMpRead (dieProf d s) s
  && decide (a.block = b.block) && decide (a.page = b.page) && decide (a.slc = b.slc)
  && decide (a.rung = b.rung) && decide (a.attempt = b.attempt) && decide (off a = off b)

/-- The heads of the other plane queues that merge with an item. -/
def mergeSet (d : Nat) (it : QItem) (s : State) : List QItem :=
  (List.range 4).filterMap fun p =>
    if bitAt it.planes p then none
    else match planeHead d p s with
      | some b => if merges d it b s then some b else none
      | none => none

/-- What waits at the gate on a die sorts before another die's item (13 R308): SCH's choice there, else what it held. -/
def heldFirst (e : Nat) (d : Nat) (it : QItem) (s : State) : Bool :=
  match (chooseItem e s).orElse fun _ => (dieOf e s).heldItem with
  | some b => itemBefore b it || (!itemBefore it b && decide (e < d))
  | none => false

/-- The gate grants the start of an item: PWR disabled, a kind that is never held, or R307 and R308. -/
def granted (d : Nat) (it : QItem) (s : State) : Bool :=
  let c := opCost d it.kind it.slc s
  if !gatedKind it.kind || gateFreeJob it.id s then true
  else if pfRunning s then false
  else if !pageActive .pwr s then true
  else gateOpen (dieGroup d) c s
    && !(heldDies (dieGroup d) s).any fun e => decide (e ≠ d) && heldFirst e d it s

/-- The start is held: PWR counters 1 and, where the stagger alone holds it, 11. -/
def holdStart (d : Nat) (it : QItem) (s : State) : State :=
  if (dieOf d s).startWait.isSome then modDie d (fun x => { x with heldItem := some it }) s
  else
    let s := if onlyStagger (dieGroup d) (opCost d it.kind it.slc s) s then bump .pwr 11 s else s
    recheck d (modDie d (fun x => { x with startWait := some s.cc, heldItem := some it }) (bump .pwr 1 s))

/-- What a tag's row takes at the start of a sense: rung, attempt. -/
def startRow (it : QItem) (id : Nat) (s : State) : State :=
  modTag id (fun x => { x with state := if x.state = .queued then .issued else x.state, maxRung := max x.maxRung it.rung }) s

/-- Job kind of an item (09 Tables 9.9, 9.10): for the Graver's jobs that of their purpose. -/
def itemJob (it : QItem) (s : State) : Nat :=
  if isJob it.id then
    match jobOf it.id s with
    | some (.copyRead _ _) => 2
    | some (.copyErase _) => 2
    | some (.copyProg _ _) => 2
    | some (.jrnlProg _) => if gateFreeJob it.id s then 6 else 3
    | some (.jrnlErase _ _) => 3
    | some (.jrnlScan _ _ _) => 3
    | some (.recov _) => 4
    | some (.levelPage _) => 5
    | some (.bootPage _) => 8
    | none => 2
  else match it.kind with
    | .sense => 0
    | .jobRead => 0
    | .program => 2
    | .jobProgram => 2
    | .erase => 3
    | .jobErase => 3
    | .featGet => 7
    | .tempGet => 7
    | .featSet => 8

/-- The job that a start presents. -/
def startJobOf (d : Nat) (it : QItem) (planes : Nat) (s : State) : Job :=
  let e := (tagOf it.id s).entry
  { kind := itemJob it s, profile := dieProf d s, channel := dieChannel d, die := d,
    tag := if isJob it.id then none else some it.id, id := some it.id,
    paddr := paddrOf d (((planesOf planes)[0]?).getD 0) it.block it.page, planes := planes, cwFirst := eCwFirst e,
    cwLast := eCwLast e, slc := it.slc, key := it.key }

/-- It is presented to the Burin, or to the Graver; a program's jobs are its data-ins. -/
def present_ (d : Nat) (it : QItem) (planes : Nat) (s : State) : State :=
  if isJob it.id then pushGraver it.id (startJobOf d it planes s) s
  else if it.kind = .program then s
  else giveJobs (dieChannel d) [startJobOf d it planes s] s

/-- Pages that the data-in of an operation moves: planes times pages of the unit; one for a Graver job. -/
def inPages (d : Nat) (o : DieOp) (s : State) : Nat := planeCount o.planes * opUnit d o s

/-- Pages per plane of a data-in. -/
def inUnit (d : Nat) (o : DieOp) (s : State) : Nat := max 1 (inPages d o s / max 1 (planeCount o.planes))

/-- The job of a transfer: the data-out of its codewords, or the data-in of one page (09 Table 9.9); the transfers of a
Graver job belong to that. -/
def xferJob (c : Nat) (x : Xfer) (s : State) : List Job :=
  let d := c * 32 + x.die
  let tag := if isEarlyKey x.id then none else some x.id
  let out := (x.cws[0]?).bind fun i => (cwAt x.id d x.plane i s).map fun w => (w.block, w.page, w.slc)
  let inn := (dieOf d s).dataIn.map fun o => (o.1.block, o.1.page + x.page % max 1 (inUnit d o.1 s), o.1.slc)
  if isJob x.id then []
  else match (if x.kind = 1 then inn else out) with
    | some (b, g, m) =>
      [{ kind := if x.kind = 1 then 2 else 1, profile := dieProf d s, channel := c, die := d, tag := tag, id := some x.id,
         paddr := paddrOf d x.plane b g, planes := 2 ^ x.plane, cwFirst := (x.cws[0]?).getD 0,
         cwLast := if x.kind = 1 then 3 else (x.cws.getLast?).getD 0, slc := m, key := x.key }]
    | none => []

/-- A page of a data-in becomes a candidate: its data stands in staging (07 R152). -/
def addPage (d : Nat) (o : DieOp) (s : State) (n : Nat) : State :=
  match o.ids with
  | [] => s
  | id :: _ =>
    addCand (dieChannel d) { id := id, die := d % 32, plane := ((planesOf o.planes)[n / inUnit d o s]?).getD 0, kind := 1,
                             page := n, len := inCc d s, ready := s.cc, cls := idRank id s, key := o.key,
                             order := (tagOf id s).order } s

/-- The data-in of an operation begins at its first page. -/
def startIn (d : Nat) (o : DieOp) (s : State) : State :=
  (List.range (inPages d o s)).foldl (addPage d o)
    (modDie d (fun x => { x with dataIn := some (o, 0), abandoned := none }) s)

/-- Who may put an operation on the bus: the Burin for a tag's, the Graver for a job's, BOOT_FETCH on CHN[0]. -/
def drives (c : Nat) (ids : List Nat) (s : State) : Bool :=
  if ids.any isJob then gravDrives c s || bootOnly c s else burinDrives c s

/-- Die state while an operation of a kind stands before its array start. -/
def startState (k : DieOpKind) (old : DieState) : DieState :=
  match k with
  | .erase => old
  | .jobErase => old
  | .program => old
  | .jobProgram => old
  | _ => if old = .suspended then .suspended else .busy

/-- A feature operation: its cycles are one bus action, without an array start. -/
def featureKind (k : DieOpKind) : Bool :=
  match k with
  | .featGet => true
  | .featSet => true
  | .tempGet => true
  | _ => false

/-- The bus may take an action of some length now (07 R155). -/
def busTakes (c : Nat) (a : BusAct) (s : State) : Bool := busFree c s && fits c a s

/-- New starts are allowed on a channel: OWNED and enabled under SCH, or CHN[0] in BOOT_FETCH. -/
def mayStart (c : Nat) (s : State) : Bool := chanStarts c s || (bootOnly c s && decide ((chanOf c s).own = .takeover))

/-- The start of an item is granted: it and what merges with it leave the queues (SCH counters 6 and 8, PWR counter
0), its load counts, and its data-in begins or its command cycles wait for the bus. -/
def startItem (d : Nat) (it : QItem) (s : State) : State :=
  let ms := mergeSet d it s
  let all := it :: ms
  let planes := all.foldl (fun a b => a ||| b.planes) 0
  let s := bump .sch 8 (bumpBy .sch 6 ms.length s)
  let s := if pageActive .pwr s ∧ gatedKind it.kind = true then bump .pwr 0 (noteStart (dieGroup d) s) else s
  let s := present_ d it planes s
  let s := if featureKind it.kind then s else addLoad d .array (opCost d it.kind it.slc s) s
  let s := modDie d (fun x => { x with startWait := none, heldItem := none, queue := x.queue.filter fun q => !all.contains q }) s
  let s := all.foldl (fun s b => startRow b b.id s) s
  let o : DieOp := { kind := it.kind, ids := all.map (·.id), planes := planes, block := it.block, page := it.page,
                     slc := it.slc, rung := it.rung, attempt := it.attempt, key := it.key, inArray := false,
                     since := s.cc, ran := 0, pollAt := 0, dropped := false, needLevels := readKind it.kind }
  if isProgram o then
    startIn d o (modDie d (fun x => { x with suspCount := 0, threshRaised := false }) s)
  else modDie d (fun x => { x with run := some o, state := startState it.kind x.state }) s

/-- BOOT_FETCH's reads may start on die 0 although CHN[0] is still in TAKEOVER (09 R222). -/
def bootItem (d : Nat) (s : State) : Option QItem :=
  if d = 0 ∧ bootOnly 0 s = true ∧ dieQuiet 0 s = true ∧ outPending 0 s = false then
    (dieOf 0 s).queue.find? fun it => bootRead it.id s
  else none

/-- SCH's choice on a die, or BOOT_FETCH's. -/
def startChoice (d : Nat) (s : State) : Option QItem :=
  match bootItem d s with
  | some it => some it
  | none => chooseItem d s

/-! ### Data-in (07 R149) -/

/-- A data-in ends without confirm: its pages wait to be sent again, one suspend is counted. -/
def abandonIn (d : Nat) (o : DieOp) (s : State) : State :=
  let s := dropLoad d .array (modDie d (fun x => { x with dataIn := none, abandoned := some o, suspTaken := false }) s)
  countSuspend d o (o.ids.foldl (fun s t => dropXfers t d s) s)

/-- The thread has taken the SUSPEND request against a data-in that a trigger ends (07 R149, 09 R210). -/
def inEnds (d : Nat) (s : State) : Bool := inTriggered d s && (dieOf d s).suspTaken

/-- The abandoned data-in of a die may begin again. -/
def inAgain (d : Nat) (s : State) : Bool :=
  let x := dieOf d s
  x.abandoned.isSome && decide (x.state = .idle) && x.dataIn.isNone && !trigger d s && noRead d s
  && mayStart (dieChannel d) s && !pfRunning s

/-- The start that an abandoned data-in asks the gate for again: its grant left with it (13 R305, R307). -/
def restartItem (o : DieOp) (s : State) : QItem :=
  let id := (o.ids[0]?).getD 0
  { id := id, kind := o.kind, planes := o.planes, block := o.block, page := o.page, slc := o.slc, rung := o.rung,
    attempt := o.attempt, cls := idRank id s, key := o.key, order := (tagOf id s).order }

/-- The gate grants it, and it begins at its first page with its cost, or it is held (07 R149). -/
def restartIn (d : Nat) (s : State) : State :=
  match (dieOf d s).abandoned with
  | none => s
  | some o =>
    let it := restartItem o s
    if inAgain d s = false then s
    else if granted d it s then
      let s := if pageActive .pwr s then bump .pwr 0 (noteStart (dieGroup d) s) else s
      startIn d o (addLoad d .array (opCost d o.kind o.slc s)
        (modDie d (fun x => { x with startWait := none, heldItem := none }) s))
    else holdStart d it s

/-- A command cycle ends the cycles on the pads of a channel. -/
def lastCycle (c : Nat) (b : Byte) (s : State) : State := modChan c (fun x => { x with cycles := x.cycles ++ [.cmd b] }) s

/-- An operation still has a tag, an OK_EARLY program or a Graver job that wants it. -/
def opWanted (o : DieOp) (s : State) : Bool := !o.dropped && o.ids.any fun t => isJob t || tagOpen t s

/-- The confirm cycle of a program has been issued: its array works, its deadline can be withdrawn (05 R120), and the
granules of a NONE or STRICT program are free (10 Table 10.6). -/
def confirmProgram (d : Nat) (o : DieOp) (s : State) : State :=
  let o := { o with inArray := true, since := s.cc, ran := 0,
                    pollAt := s.cc + max (typOf o.kind d s) (wbCc (dieChannel d) s) }
  let s := modDie d (fun x => { x with dataIn := none, run := some o, state := .program }) s
  o.ids.foldl (fun s t =>
    let s := modTag t (fun x => { x with confirmed := true }) s
    if isEarlyKey t then s else dropProg t s) s

/-- Page n of the data-in of a die has left on the pads: with ENC the staged codewords, with RAND scrambled; the read
routine sets both (10 R243). Without ENC the spec states no bytes: free values. -/
def padPage (d n : Nat) (s : State) : State :=
  match (dieOf d s).dataIn with
  | none => s
  | some (o, _) =>
    let c := dieChannel d
    let dp := (chanOf c s).dp.getD 0xC00
    if bitAt dp 10 then
      let b := inBytes (bitAt dp 11) d o n (inUnit d o s) s
      modChan c (fun x => { x with lastIn := b }) s
    else
      let l := List.range (pageBytes d s)
      let b := l.map fun i => (Config.freeValue (s.free + i)).setWidth 8
      modChan c (fun x => { x with lastIn := b }) { s with free := s.free + l.length }

/-- Cycles of page n of a data-in: the SLC prefix where the program asks for it, 80h, its address and the page; 10h or
11h follows at its end (08 Table 8.2). -/
def inCycles (d n : Nat) (s : State) : List PadCycle :=
  match (dieOf d s).dataIn with
  | none => []
  | some (o, _) =>
    let p := dieProf d s
    let u := inUnit d o s
    let plane := ((planesOf o.planes)[n / u]?).getD 0
    (if o.slc then [.cmd (BitVec.ofNat 8 (pfSlcPrefix p s))] else [])
    ++ [.cmd 0x80] ++ fullCycles 0 d plane o.block (o.page + n % u) ++ [.turn true, .page (pageBytes d s)]

/-- A page of data-in has ended on a die: a trigger that stands ends the data-in with it and an expiry before the confirm
cycle leaves the array alone (07 R149, 05 R120), else 10h follows the last page, which starts the array, and 11h the
others. -/
def pageIn (d : Nat) (s : State) : State :=
  match (dieOf d s).dataIn with
  | none => s
  | some (o, n) =>
    if opWanted o s = false then dropLoad d .array (modDie d (fun x => { x with dataIn := none }) s)
    else if inEnds d s then abandonIn d o s
    else if inPages d o s ≤ n + 1 then confirmProgram d o (lastCycle (dieChannel d) 0x10 s)
    else modDie d (fun x => { x with dataIn := some (o, n + 1) }) (lastCycle (dieChannel d) 0x11 s)

/-! ### Suspend and resume (07 R157, R158, Table 7.2) -/

/-- The array operation has been told to suspend: SCH counter 4. -/
def suspendSent (d : Nat) (s : State) : State :=
  match (dieOf d s).run with
  | none => s
  | some o =>
    bump .sch 4 (modDie d (fun x => { x with
      state := .suspending, suspTaken := false, suspErase := !isProgram o, suspSince := s.cc, suspLate := false,
      run := some { o with pollAt := s.cc + max (pfPollInt (dieProf d s) s) (wbCc (dieChannel d) s) } }) s)

/-- The suspended operation of a die is to be resumed: no trigger stands, or it may be suspended no further; no read
runs. -/
def resumeWanted (d : Nat) (s : State) : Bool :=
  let x := dieOf d s
  match x.held with
  | none => false
  | some o =>
    decide (x.state = .suspended) && noRead d s && !jobGoesOn d s && (suspFrozen o s || !trigger d s)
    && !(pfRunning s && !isProgram o) && !x.resetWanted

/-- The resume command begins, with the operation's cost (13 R305). -/
def beginResume (d : Nat) (s : State) : State :=
  match (dieOf d s).held with
  | none => s
  | some o => goAct (dieChannel d) (.resumeCmd d) (addLoad d .array (opCost d o.kind o.slc s) s)

/-- The resume command has been issued: SCH counter 5. -/
def resumed (d : Nat) (s : State) : State :=
  match (dieOf d s).held with
  | none => s
  | some o =>
    let left := typOf o.kind d s - o.ran
    let o := { o with since := s.cc, pollAt := s.cc + max (max left (pfPollInt (dieProf d s) s)) (wbCc (dieChannel d) s) }
    recheck d (bump .sch 5 (modDie d (fun x => { x with
      held := none, run := some o, state := if isProgram o then .program else .erase }) s))

/-! ### The end of a die operation (05 Table 5.2, 07 Table 7.2) -/

/-- A tag whose function is being reset and whose opcode does not complete with its own status (04 Table 4.12
step 3). -/
def abortsAtEnd (t : Nat) (s : State) : Bool :=
  let x := tagOf t s
  tagOpen t s && decide (t < 65536) && (fnOf x.fn s).busy
  && !([opProgram, opStage, opCopy, opErase].contains (eOpcode x.entry))

/-- Such tags commit ABORTED_FN_RESET. -/
def abortEnds (ids : List Nat) (s : State) : State :=
  ids.foldl (fun s t => if abortsAtEnd t s then commitTag t stFnReset rankReset s else s) s

/-- The die stands free of the operation that has ended. -/
def opOver (d : Nat) (s : State) : State :=
  dropLoad d .array (modDie d (fun x =>
    { x with run := none, state := if x.state = .suspended then .suspended else .idle }) s)

/-- The data of a read is in the die: its transfers are ready now. -/
def outsReady (d : Nat) (s : State) : State :=
  modCands (dieChannel d) (fun l => l.map fun x =>
    if x.die = d % 32 ∧ x.kind ≠ 1 then { x with ready := min x.ready s.cc } else x) s

/-- The paired program of a tag in PAIR_WAIT has ended on some planes (05 R126). -/
def pairSettle (ok : Bool) (planes t : Nat) (s : State) : State :=
  if ok then
    let left := (tagOf t s).pairLeft &&& (15 - planes % 16)
    let s := modTag t (fun x => { x with pairLeft := left }) s
    if left = 0 then commitTag t (okStatus t s) rankOwn s else s
  else
    let e := (tagOf t s).entry
    autoGrow (paDie (progAddr e)) (progPlanes e) (paBlock (progAddr e)) (commitTag t stProgramFail rankOwn s)

/-- The tags in PAIR_WAIT whose pair is the program of a row. -/
def pairWaiters (y : TagRow) (s : State) : List Nat :=
  (s.ops.tags.filter fun e => decide (e.2.state = .pairWait) && pairs e.2 y s).map (·.1)

/-- The planes on which the paired page q of a program has not passed yet. -/
def pairOwed (d : Nat) (o : DieOp) (q : Nat) (s : State) : Nat :=
  ((planesOf o.planes).filter fun p => !s.ops.passed.contains (d, p, o.block, q)).foldl (fun m p => m + 2 ^ p) 0

/-- The pages of a program have passed; they are remembered where a lower page may wait for them (05 R126). -/
def notePassed (d : Nat) (o : DieOp) (s : State) : State :=
  if pfPairRule (dieProf d s) s ≠ 1 then s
  else
    let l := (planesOf o.planes).flatMap fun p => (List.range (opUnit d o s)).map fun k => (d, p, o.block, o.page + k)
    { s with ops.passed := s.ops.passed ++ l.filter fun x => !s.ops.passed.contains x }

/-- The blocks of an erase hold no page any more. -/
def forgetPassed (d : Nat) (o : DieOp) (s : State) : State :=
  { s with ops.passed := s.ops.passed.filter fun x =>
      !(decide (x.1 = d) && bitAt o.planes x.2.1 && decide (x.2.2.1 = o.block)) }

/-- A program of a tag or of an OK_EARLY program has ended (05 R126, R127, 14 R342). A lower page waits for the planes on
which its pair has not passed yet. -/
def programOver (d : Nat) (o : DieOp) (ok : Bool) (t : Nat) (s : State) : State :=
  let y := tagOf t s
  let ws := pairWaiters y s
  let owed := ((pairPage y.entry s).map fun q => pairOwed d o q s).getD 0
  let s :=
    if isEarlyKey t then (if ok then endEarly t s else failEarly t stProgramFail s)
    else if !ok then commitTag t stProgramFail rankOwn s
    else if owed = 0 then commitTag t (okStatus t s) rankOwn s
    else if tagOpen t s then bump .ops 12 (modTag t (fun x => { x with state := .pairWait, pairLeft := owed }) s)
    else s
  let s := if ok then notePassed d o s else autoGrow d o.planes o.block s
  ws.foldl (fun s w => pairSettle ok o.planes w s) s

/-- An erase of a tag has ended: its counts are written before it commits (14 R342, R358). -/
def eraseOver (d : Nat) (o : DieOp) (ok : Bool) (t : Nat) (s : State) : State :=
  let n := if regOf .map oMapEcBase s = 0 then 0 else planeCount o.planes
  let s := modTag t (fun x => { x with wrOut := x.wrOut + n }) (countErases d o.planes o.block (some t) s)
  let s := commitTag t (if ok then stOk else stEraseFail) rankOwn s
  if ok then s else autoGrow d o.planes o.block s

/-- The status of an array operation shows it done (08 R172): FAIL_BIT counts after programs and erases alone. -/
def opDone (d : Nat) (fail : Bool) (s : State) : State :=
  match (dieOf d s).run with
  | none => s
  | some o =>
    let susp := decide (0 < (dieOf d s).suspCount)
    let s := opOver d s
    let s := if susp && !readKind o.kind && !featureKind o.kind then bump .sch 9 s else s
    if o.dropped then s
    else match o.kind with
      | .sense => abortEnds o.ids (outsReady d s)
      | .jobRead => abortEnds o.ids (outsReady d s)
      | .program => o.ids.foldl (fun s t => programOver d o (!fail) t s) s
      | .erase => forgetPassed d o (o.ids.foldl (fun s t => eraseOver d o (!fail) t s) s)
      | .jobProgram => o.ids.foldl (fun s t => jobOpEnd t (!fail) s) s
      | .jobErase => forgetPassed d o (o.ids.foldl (fun s t => jobOpEnd t (!fail) s) s)
      | _ => s

/-- The array operation has been suspended (07 R159, Table 7.2). -/
def suspendedNow (d : Nat) (o : DieOp) (s : State) : State :=
  let o := { o with ran := o.ran + (s.cc - o.since) }
  let s := dropLoad d .array (modDie d (fun x => { x with run := none, held := some o, state := .suspended }) s)
  countSuspend d o s

/-- A status byte of a die is judged (08 R172). -/
def judgeStatus (d : Nat) (st : Byte) (s : State) : State :=
  match (dieOf d s).run with
  | none => s
  | some o =>
    let p := dieProf d s
    let ready := st.getLsbD (pfRdyBit p s)
    let fail := st.getLsbD (pfFailBit p s)
    if !ready then s
    else if (dieOf d s).state = .suspending ∧ st.getLsbD (pfSuspBit p s) = true then suspendedNow d o s
    else opDone d fail s

/-! ### Feature operations (08 R167, 11 R261) -/

/-- A temperature of a die has been read: P1, two's complement. -/
def tempRead (d : Nat) (data : List Byte) (s : State) : State :=
  let t := signedOf 8 ((data[0]?).getD 0).toNat
  bump .lvl 14 (modTemp d (fun x => { x with temp := some t, age := 0, owed := false, stale := false }) s)

/-- The bytes of a FEATURE_GET are written: P1 to P4, then zeros (04 R92). -/
def featureReport (d t : Nat) (data : List Byte) (s : State) : State :=
  let a := eBuffer (tagOf t s).entry
  let b := (data.take 4 ++ List.replicate 64 0).take 64
  let s := modTag t (fun x => { x with wrOut := x.wrOut + writeCount a b.length }) s
  fabWrites (dieChannel d % 4) a b 0 (.report t) s

/-- The feature cycles on a die have ended. -/
def featureOver (d : Nat) (data : List Byte) (s : State) : State :=
  match (dieOf d s).run with
  | none => s
  | some o =>
    let ends := !abortsAtEnd ((o.ids[0]?).getD 0) s
    let s := abortEnds o.ids (opOver d s)
    if o.dropped then s
    else match o.kind, o.ids with
      | .tempGet, _ => tempRead d data s
      | .featGet, t :: _ => if tagOpen t s then featureReport d t data s else s
      | .featSet, t :: _ => if ends then commitTag t stOk rankOwn s else s
      | _, _ => s

/-! ### The end of a bus action (09 R199) -/

/-- Command and address cycles have ended: the array works. An erase that nothing wants any more gets no confirm cycle:
its array is not touched (05 R120). -/
def arrayStarted (d : Nat) (s : State) : State :=
  match (dieOf d s).run with
  | none => s
  | some o =>
    if !readKind o.kind && !opWanted o s then freeDie d s
    else
      let o := { o with inArray := true, since := s.cc, pollAt := s.cc + max (typOf o.kind d s) (wbCc (dieChannel d) s) }
      let s := modDie d (fun x => { x with run := some o }) s
      if readKind o.kind then (if o.dropped then s else addOuts o d o.pollAt s)
      else
        let s := lastCycle (dieChannel d) 0xD0
          (modDie d (fun x => { x with state := .erase, suspCount := 0, threshRaised := false }) s)
        o.ids.foldl (fun s t => modTag t (fun x => { x with confirmed := true }) s) s

/-- A transfer has ended: a page of data-in, or a data-out whose codewords have all left the pads. -/
def transferOver (c : Nat) (x : Xfer) (s : State) : State :=
  let s := modChan c (fun w => { w with busyTo := s.cc }) s
  if x.kind = 1 then pageIn (c * 32 + x.die) (padPage (c * 32 + x.die) x.page s) else abortEnds [x.id] s

/-- What the end of an action means. -/
def actOver (c : Nat) (a : BusAct) (data : List Byte) (s : State) : State :=
  match a with
  | .arrayStart d => arrayStarted d s
  | .statusPoll d =>
    let b := (data[0]?).getD 0
    if (chanOf c s).own = .takeover ∧ (chanOf c s).poll.isSome = true then takePolled c d b s else judgeStatus d b s
  | .suspendCmd d => suspendSent d s
  | .resumeCmd d => resumed d s
  | .transfer x => transferOver c x s
  | .resetLun d => lunReset c d s
  | .bringUp v => broughtUp c v data s
  | .setUp v => setUpOver c v s
  | .train v => trained c v data s
  | .resetTargets v => targetsReset c v s
  | .zqLong v => zqOver c v s
  | .levelSet _ => s
  | .readId d => abortEnds (((chanOf c s).census.bind (·.2)).toList) (censusNote c (d % 32) (leWord data 0) s)
  | .feature d => featureOver d data s
  | .raw _ => rawAction data s

/-- The die of an action, if it addresses one. -/
def actDie (c : Nat) (a : BusAct) : Option Nat :=
  match a with
  | .arrayStart d => some d
  | .statusPoll d => some d
  | .suspendCmd d => some d
  | .resumeCmd d => some d
  | .resetLun d => some d
  | .readId d => some d
  | .feature d => some d
  | .raw d => some d
  | .transfer x => some (c * 32 + x.die)
  | _ => none

/-- A data-out with codewords still to come goes on. -/
def stillOut (a : BusAct) : Bool :=
  match a with
  | .transfer x => decide (x.kind ≠ 1) && !x.cws.isEmpty
  | _ => false

/-- The action in progress on a channel ends; what it was for goes on. -/
def endAct (c : Nat) (data : List Byte) (s : State) : State :=
  match (chanOf c s).act with
  | none => s
  | some (a, _) =>
    if stillOut a then s
    else
      let s := actOver c a data (clearAct c s)
      let s := match actDie c a with
        | some d => recheck d s
        | none => s
      let s := if (chanOf c s).own = .takeover then takeGo c s
        else if (chanOf c s).census.isSome then censusRun c s
        else s
      pfAdvance (bootAdvance s)

/-! ### Free bus time (07 R155) -/

/-- Dies of a channel that SCH knows. -/
def chanDies_ (c : Nat) (s : State) : List Nat :=
  (s.sch.dies.filter fun e => decide (dieChannel e.1 = c)).map (·.1)

/-- What stands on a die, for the order of suspends, resumes and starts. -/
def standOp (d : Nat) (s : State) : Option DieOp :=
  match (dieOf d s).run, (dieOf d s).held, (dieOf d s).dataIn with
  | some o, _, _ => some o
  | none, some o, _ => some o
  | none, none, x => x.map (·.1)

/-- The order of R146 of what stands on two dies: a suspend or resume command goes by the key of the operation that it
stops or continues (DESIGN CHOICE, log entry 135). -/
def standBefore (s : State) (a b : Nat) : Bool :=
  match standOp a s, standOp b s with
  | some x, some y =>
    let i := (x.ids[0]?).getD 0
    let j := (y.ids[0]?).getD 0
    sortsBefore x.key (idRank i s) (tagOf i s).order y.key (idRank j s) (tagOf j s).order
  | _, _ => false

/-- The first die of a list in key order. -/
def firstDie (l : List Nat) (s : State) : Option Nat := firstBy (standBefore s) l

/-- A suspend is requested for the operation of a die and still allowed: a trigger that has gone, or a cap reached, in
the cc of the safe point withdraws it (07 R161). The command is the SUSPEND handler's: the thread has taken the request
(09 R210). -/
def suspendDue (d : Nat) (s : State) : Bool :=
  decide ((chanOf (dieChannel d) s).own = .owned) && decide ((dieOf d s).state = .suspReq)
  && (dieOf d s).suspTaken && trigger d s && suspAllowed d s && busTakes (dieChannel d) (.suspendCmd d) s

/-- Order 1: the die whose suspend or resume command the bus takes first. -/
def suspendFirst (c : Nat) (s : State) : Option Nat :=
  firstDie ((chanDies_ c s).filter fun d =>
    (suspendDue d s || (resumeWanted d s && busTakes c (.resumeCmd d) s)) && burinDrives c s) s

/-- That command begins. -/
def goSuspend (c d : Nat) (s : State) : State :=
  if (dieOf d s).state = .suspReq then goAct c (.suspendCmd d) s else beginResume d s

/-- Order 2: the die whose array operation starts first. -/
def startFirst (c : Nat) (s : State) : Option Nat :=
  firstDie ((chanDies_ c s).filter fun d =>
    match (dieOf d s).run with
    | some o => !o.inArray && !featureKind o.kind && mayStart c s && drives c o.ids s && busTakes c (startAct d o s) s
    | none => false) s

/-- The elements whose levels a LEVEL_SET takes are read (17 R393, R394). -/
def readLevels (d : Nat) (o : DieOp) (s : State) : State :=
  (((levelSites d o s).map fun x => (x.2.1 - 0x400000) / 16).dedup).foldl (fun s i => readWord 5 i s) s

/-- The first action of an operation on a die begins: a LEVEL_SET where its sense needs one, else its command cycles.
The band and the levels are judged now (11 R257, R258). -/
def goStart (c d : Nat) (s : State) : State :=
  match (dieOf d s).run with
  | none => s
  | some o =>
    let a := startAct d o s
    let s := modDie d (fun x => { x with run := some { o with needLevels := false } }) (takeBand d o s)
    match a with
    | .levelSet _ =>
      let s := if rawSense o s then s else readLevels d o s
      setLevels d (if rawSense o s then none else some (opLevels d o s)) (goAct c a s)
    | _ => goAct c a s

/-- The volume that a retrain is due for. -/
def trainDue (c : Nat) (s : State) : Option Nat :=
  if (chanOf c s).own = .owned ∧ burinDrives c s = true ∧ s.pwr.state ≠ .doze then (chanOf c s).retrain.head? else none

/-- The resets, features, trainings and raw commands that wait for the bus of a channel, with the cc in which each was
presented. -/
def otherActs (c : Nat) (s : State) : List (Nat × BusAct) :=
  ((chanDies_ c s).filter fun d => (dieOf d s).resetWanted && (burinDrives c s || gravDrives c s)).map
    (fun d => ((dieOf d s).resetAt, .resetLun d))
  ++ (chanDies_ c s).filterMap (fun d => match (dieOf d s).run with
      | some o => if featureKind o.kind && !o.inArray && mayStart c s && burinDrives c s then some (o.since, .feature d)
        else none
      | none => none)
  ++ (trainDue c s).toList.map (fun v => ((chanOf c s).retrainAt, .train v))
  ++ (if s.sec.rawBusy ∧ rawChannel s = c ∧ (chanOf c s).own = .owned ∧ gravDrives c s = true ∧ s.sec.rawNext ≤ s.cc then
        [(s.sec.rawAt, .raw (rawDie s))] else [])

/-- Order 3: of these the first presented that the bus can take; of one cc a reset, then a feature action, then
training, then a raw command (log entry 44). -/
def otherFirstAct (c : Nat) (s : State) : Option BusAct :=
  (firstBy (fun a b => decide (a.1 < b.1)) ((otherActs c s).filter fun a => busTakes c a.2 s)).map (·.2)

/-- The bus may go to an action of orders 1 to 3. -/
def shortFirst (c : Nat) (s : State) : Option (State → State) :=
  match suspendFirst c s, startFirst c s, otherFirstAct c s with
  | some d, _, _ => some (goSuspend c d)
  | none, some d, _ => some (goStart c d)
  | none, none, some a => some (goAct c a)
  | none, none, none => none

/-- A status poll of a die is due (08 R171). -/
def pollIsDue (d : Nat) (s : State) : Bool :=
  match (dieOf d s).run with
  | some o => o.inArray && decide (o.pollAt ≤ s.cc) && drives (dieChannel d) o.ids s
      && busTakes (dieChannel d) (.statusPoll d) s
  | none => false

/-- The poll begins; the next one is due a POLL_INT later (08 R171). -/
def beginPoll (d : Nat) (s : State) : State :=
  goAct (dieChannel d) (.statusPoll d) (modDie d (fun x =>
    { x with run := x.run.map fun o => { o with pollAt := s.cc + pfPollInt (dieProf d s) s } }) s)

/-- Order 4: status polls that are due. -/
def fillPoll (c : Nat) (s : State) : Option (State → State) :=
  ((chanDies_ c s).find? fun d => pollIsDue d s).map fun d => beginPoll d

/-- The gate grants a held read of a die that works on a program or erase: it is held no more, so that its trigger can
form (07 R157). -/
def unhold (d : Nat) (s : State) : State :=
  match (dieOf d s).heldItem with
  | some it =>
    if (dieOf d s).startWait.isSome ∧ granted d it s = true then
      recheck d (modDie d (fun x => { x with startWait := none, heldItem := none }) s)
    else s
  | none => s

/-- SCH asks for the start of its choice on a die, and the gate grants or holds it; once granted, its command cycles
take the bus when nothing of a higher place in R155 does. -/
def startGrant (d : Nat) (s : State) : State :=
  match startChoice d s with
  | none => unhold d s
  | some it =>
    if granted d it s then
      let s := recheck d (startItem d it s)
      match (dieOf d s).run, shortFirst (dieChannel d) s with
      | some _, some f => f s
      | _, _ => s
    else holdStart d it s

/-- The die of a transfer stands ready for it. -/
def xferReady (c : Nat) (x : Xfer) (s : State) : Bool :=
  let d := c * 32 + x.die
  if x.kind = 1 then
    (match (dieOf d s).dataIn with
      | some (o, _) => o.ids.contains x.id && !o.dropped
      | none => false) && mayStart c s && drives c [x.id] s
  else (dieOf d s).run.isNone && drives c [x.id] s

/-- The granules of page n of a data-in are read out of staging (17 R393, R394). -/
def readPageData (d n : Nat) (s : State) : State :=
  match (dieOf d s).dataIn.bind fun o => o.1.ids.head? with
  | some id => (readStaged id (65536 + 4 * cwGran d s * n) (4 * cwGran d s) s).1
  | none => s

/-- A transfer begins, when DPT grants a data-out its space, with its jobs; a planned one has had its volume select in the
gap before it (07 R151, R156). -/
def startXfer (c : Nat) (x : Xfer) (planned : Bool) (s : State) : State × Bool :=
  let d := c * 32 + x.die
  let jobs := selectJobs c (some (dieVolume d)) s ++ xferJob c x s
  if x.kind = 1 then
    let sel := if planned then 0 else selectCc d s
    let t := s.cc + sel + (x.len - bytesCc c (pageBytes d s) s)
    let s := addLoadFrom t d .io (costIo d true s) (beginAct c (.transfer x) (some (dieVolume d)) (inCycles d x.page s) s)
    (readPageData d x.page (giveJobs c jobs (modChan c (fun w => { w with busyTo := s.cc + sel + x.len }) s)), true)
  else
    let r := startOut c x planned s
    (if r.2 then giveJobs c jobs r.1 else r.1, r.2)

/-- The stream tail of the frame has begun (07 R153). -/
def inTail (s : State) : Bool :=
  decide (streamRes s ≠ 0) && decide (s.tmb.periodEst ≤ s.tmb.phase + streamRes s)

/-- The candidates that late fill may start, in order. -/
def fillCands (c : Nat) (s : State) : List Xfer :=
  let l := sortBy xferBefore (candsOf c s)
  let l := if inTail s && l.any (fun x => decide (x.kind = 2) && readyInFrame x s) then l.filter fun x => decide (x.kind = 2) else l
  l.filter fun x => xferReady c x s && fits c (.transfer x) s

/-- Order 5: the first of some transfers that can begin; SCH counter 3. -/
def fillXfers (c : Nat) : List Xfer → State → State
  | [], s => s
  | x :: r, s =>
    let q := startXfer c x false s
    if q.2 then bump .sch 3 (modCands c (fun l => l.filter fun y => !decide (y = x)) q.1) else fillXfers c r q.1

/-- Data-ins that a trigger ends between two pages (07 R149). -/
def abandonIdle (c : Nat) (s : State) : State :=
  (chanDies_ c s).foldl (fun s d =>
    match (dieOf d s).dataIn with
    | some (o, _) => if inEnds d s && !actOn d s then recheck d (abandonIn d o s) else s
    | none => s) s

/-- The resets of PFAIL_RESET take the channel whatever the plan holds (09 R208). -/
def fillPfail (c : Nat) (s : State) : Option Nat :=
  if busFree c s then
    s.pwr.resetDies.find? fun d => decide (dieChannel d = c) && (dieOf d s).resetWanted && gravDrives c s
  else none

/-- The last-words starts take the channel whatever the plan holds (09 R208). -/
def fillWords (c : Nat) (s : State) : Option Xfer :=
  if busFree c s then
    (candsOf c s).find? fun x => gateFreeJob x.id s && decide (x.kind = 1) && xferReady c x s
  else none

/-- A channel on which this XF128 may issue bus actions. -/
def busServes (c : Nat) (s : State) : Bool :=
  corePowered s && groupReleased (chanGroup c) s
  && (decide ((chanOf c s).own = .owned) || decide ((chanOf c s).own = .releasing)
      || (decide ((chanOf c s).own = .takeover) && bootOnly c s))

/-- The first thing that R155 finds for the free bus of a channel. -/
def fillFirst (c : Nat) (s : State) : State :=
  let s := abandonIdle c s
  match shortFirst c s with
  | some f => f s
  | none =>
    let s := if (chanOf c s).own = .owned then censusRun c s else s
    if !busFree c s then s
    else match fillPoll c s with
      | some f => f s
      | none => fillXfers c (fillCands c s) s

/-- Free bus time of a channel is used (07 R155): the takeover's next action, the power-fail sequence's, or the first by
the order of R155. -/
def lateFill (c : Nat) (s : State) : State :=
  if !busFree c s then s
  else
    let s := takeGo c s
    if !busFree c s || !busServes c s then s
    else match fillPfail c s with
      | some d => goAct c (.resetLun d) s
      | none =>
        match fillWords c s with
        | some x => (startXfer c x false (modCands c (fun l => l.filter fun y => !decide (y = x)) s)).1
        | none => fillFirst c s

/-! ### Planned transfers (07 R154) -/

/-- The planned entry whose start offset has come; the channel's thread follows the plan that it has adopted (09
R213). -/
def entryDue (c : Nat) (s : State) : Option PlanEnt :=
  match planOf c s with
  | some p =>
    if planCurrent p s && p.adopted then p.entries.find? fun e => !e.past && decide (e.start ≤ s.tmb.phase) else none
  | none => none

/-- The entry is past. -/
def passEntry (c : Nat) (e : PlanEnt) (s : State) : State :=
  modPlan c (fun p => p.map fun p => { p with entries := p.entries.map fun y => if y = e then { y with past := true } else y }) s

/-- The entry's time is released, its transfer left to late fill; SCH counter 2. -/
def releaseEntry (c : Nat) (e : PlanEnt) (s : State) : State := bump .sch 2 (addCand c e.x (passEntry c e s))

/-- The transfer of the entry starts when the bus is free, the die ready and DPT grants; otherwise its time is
released. -/
def plannedStart (c : Nat) (s : State) : State :=
  match entryDue c s with
  | none => s
  | some e =>
    if busFree c s && busServes c s && xferReady c e.x s then
      let r := startXfer c e.x true (passEntry c e s)
      if r.2 then r.1 else bump .sch 2 (addCand c e.x r.1)
    else releaseEntry c e s

end Sys2Proof.Machine
end

