-- ==== Sys2Proof/Machine/Scheduler.lean ====
section
/-!
DEFINITION. The commands of the scheduler (07, 08 R171 to R173, 13 R307) and of the buses (09 R199, 10 R239).
-/

namespace Sys2Proof.Machine

/-- START_GRANT (13 R307): SCH's choice on a die starts, or the gate holds it. -/
def execStartGrant (d : DieId) (s : State) : Out := fin (startGrant d.toNat s)

/-- The resume command is issued when it is wanted and the bus takes it before any other (07 R155). -/
def resumeDie (d : Nat) (s : State) : State :=
  if resumeWanted d s && decide (suspendFirst (dieChannel d) s = some d) then beginResume d s else s

/-- RESUME (07 R158). -/
def execResume (d : DieId) (s : State) : Out := fin (resumeDie d.toNat s)

/-- DATA_IN_RESTART (07 R149). -/
def execDataInRestart (d : DieId) (s : State) : Out := fin (restartIn d.toNat s)

/-- PLANNED_TRANSFER_START (07 R154). -/
def execPlannedTransferStart (c : ChnId) (s : State) : Out := fin (plannedStart c.toNat s)

/-- LATE_FILL (07 R155). -/
def execLateFill (c : ChnId) (s : State) : Out := fin (lateFill c.toNat s)

/-- A die has been SUSPENDING for 2 × tSUS maximum: SCH event 3 and error SUSPEND_LATE with the die, once (07
Table 7.2). -/
def suspendLate (d : Nat) (s : State) : State :=
  let x := dieOf d s
  if x.state = .suspending ∧ x.suspLate = false ∧ x.suspSince + 2 * pfSusMax (dieProf d s) s ≤ s.cc then
    raiseErr .sch 0x0100 d (raiseEvt .sch 3 (modDie d (fun x => { x with suspLate := true }) s))
  else s

/-- SUSPEND_LATE (07 R160, Table 7.2). -/
def execSuspendLate (d : DieId) (s : State) : Out := fin (suspendLate d.toNat s)

/-- STATUS_POLL (08 R171). -/
def execStatusPoll (d : DieId) (s : State) : Out :=
  fin (if pollIsDue d.toNat s && (shortFirst (dieChannel d.toNat) s).isNone then beginPoll d.toNat s else s)

/-- Maximum array time of a kind of operation on a die (08 R173). -/
def maxOfKind (k : DieOpKind) (d : Nat) (s : State) : Nat :=
  let p := dieProf d s
  match k with
  | .sense => pfTrMax p s
  | .jobRead => pfTrMax p s
  | .program => pfProgMax p s
  | .jobProgram => pfProgMax p s
  | .erase => pfEraseMax p s
  | .jobErase => pfEraseMax p s
  | .featGet => pfTrMax p s
  | .featSet => pfTrMax p s
  | .tempGet => pfTrMax p s

/-- The operation of a die has worked in the array for twice its maximum. -/
def timedOut (d : Nat) (s : State) : Bool :=
  match (dieOf d s).run with
  | some o => o.inArray && decide (2 * maxOfKind o.kind d s ≤ o.ran + (s.cc - o.since)) && !(dieOf d s).resetWanted
  | none => false

/-- The die is reset and quarantined, and the tags of its operation commit DIE_QUARANTINED; rebuilds lose the member
that was read. -/
def dieTimeout (d : Nat) (s : State) : State :=
  match (dieOf d s).run with
  | none => s
  | some o =>
    if timedOut d s then
      let mine := o.ids.filter fun t => !isMemberOp o.kind t
      loseMembers d (failOps mine stQuarantined rankOwn (timeOut d s))
    else s

/-- DIE_TIMEOUT (08 R173). -/
def execDieTimeout (d : DieId) (s : State) : Out := fin (dieTimeout d.toNat s)

/-! ### The end of a bus action (09 R199, R200) -/

/-- A count that waits for queued actions to end: one of them has. -/
def anchorStep (t : Thread) (now : Nat) : Thread :=
  match t.anchored with
  | none => t
  | some (n, k) =>
    if k ≤ 1 then { t with anchored := none, timer := some (now + n) } else { t with anchored := some (n, k - 1) }

/-- What the end of an action gives a thread: the status byte it read, the start of a timer anchored to it. -/
def actionEnded (a : CmdAct) (data : List Byte) (now : Nat) (t : Thread) : Thread :=
  anchorStep { t with status := if a.act = 5 then (data[0]?).getD 0 else t.status } now

/-- It gives them to the Graver's threads that are guests on the channel. -/
def guestEnded (c : Nat) (a : CmdAct) (data : List Byte) (s : State) : State :=
  [false, true].foldl (fun s k =>
    if running (thrOf 64 k s) && (thrOf 64 k s).job.any (fun j => decide (j.channel = c)) then
      modThr 64 k (actionEnded a data s.cc) s
    else s) s

/-- A volume has been selected by the words of a routine: CHN counter 3 (07 R156, 08 R170). -/
def wordSelects (c v : Nat) (s : State) : State :=
  let s := modChan c (fun x => { x with volume := some v, selPend := false }) s
  bump (chnPage c) 3 s

/-- What an action of the command FIFO selects: the CE_N line it drives low, which is the volume itself where the
profile knows no volume select; else E1h with the volume address behind it (08 R170). -/
def noteSelect (c : Nat) (a : CmdAct) (s : State) : State :=
  match a.cycles with
  | [.ce m] =>
    let s := modChan c (fun x => { x with ceWord := m, selPend := false }) s
    if m ≠ 0 ∧ pfVolSel (volProf c (4 * (m - 1)) s) s = false then wordSelects c (4 * (m - 1)) s else s
  | [.cmd o] => modChan c (fun x => { x with selPend := decide (o = 0xE1) && decide (x.ceWord ≠ 0) }) s
  | [.addr v] =>
    if (chanOf c s).selPend then wordSelects c (4 * ((chanOf c s).ceWord - 1) + v.toNat % 4) s else s
  | _ => modChan c (fun x => { x with selPend := false }) s

/-- The pads of a channel are idle for its command FIFO, whose oldest action goes to them: its cycles, and with a data
action the DP bits of its word (09 R199, 10 R243). -/
def padsNext (c : Nat) (s : State) : State :=
  match cmdqOf c s with
  | [] => modChan c (fun x => { x with onFifo := false }) s
  | a :: _ => noteSelect c a (modChan c (fun x => { x with
      onFifo := true, cycles := a.cycles, dp := if a.act = 3 ∨ a.act = 4 then some a.dp else x.dp,
      turnAt := if a.act = 6 then some s.cc else x.turnAt }) s)

/-- The action of the command FIFO on the pads has ended: its place is free. -/
def popAction (c : Nat) (data : List Byte) (s : State) : State :=
  match cmdqOf c s with
  | [] => s
  | a :: r =>
    let s := modThr (chanBur c) (chanThr c) (fun t => { t with cmdq := r }) s
    let t := thrOf (chanBur c) (chanThr c) s
    if t.handler = some 15 ∨ t.state = .held then guestEnded c a data s
    else modThr (chanBur c) (chanThr c) (actionEnded a data s.cc) s

/-- A bus action has ended at the pads, one of the command FIFO or the cycles that what the channel does began with. The
next of the FIFO follows; with the FIFO empty, what the channel was doing has ended too (log entry 143). -/
def busEnd (c : Nat) (data : List Byte) (s : State) : State :=
  let s := padsNext c (if (chanOf c s).onFifo then popAction c data s else s)
  if (cmdqOf c s).isEmpty then modChan c (fun x => { x with dp := none }) (endAct c data s) else s

/-- BUS_ACTION_END (09 R199). -/
def execBusActionEnd (c : ChnId) (data : List Byte) (s : State) : Out := fin (busEnd c.toNat data s)

/-! ### Codewords (10 R239) -/

/-- The last byte of the next codeword of a data-out has left the pads. Where no decoder can take it, the rest of the
data-out is deferred as R154 states (10 R241, R253). -/
def codewordReceived (c : Nat) (raw : List Byte) (s : State) : State :=
  match (chanOf c s).act with
  | some (.transfer x, t) =>
    match x.cws with
    | [] => s
    | i :: r =>
      if x.kind = 1 then s
      else
        let d := c * 32 + x.die
        let go := fun l => modChan c (fun w => { w with act := some (.transfer { x with cws := l }, t) }) s
        if decodeDefers c x.id d x.plane i raw s then
          addCand c { x with len := outCc d x.cws.length s, ready := s.cc, stageWait := true } (go [])
        else codewordIn c x.id d x.plane i raw (go r)
  | _ => s

/-- CODEWORD_RECEIVED (10 R239). -/
def execCodewordReceived (c : ChnId) (bytes : List Byte) (s : State) : Out := fin (codewordReceived c.toNat bytes s)

end Sys2Proof.Machine
end

