-- ==== Sys2Proof/Machine/Micro.lean ====
section
/-!
DEFINITION. Microwords (09 R197 to R202, Tables 9.2 to 9.8): their fields, what makes a word fault, the conditions, and
what the fields of an executed word do.
-/

namespace Sys2Proof.Machine

/-! ### Fields (09 Table 9.2) -/

def mSeq (w : Nat) : Nat := fieldOf w 0 3
def mAddr (w : Nat) : Nat := fieldOf w 3 12
def mCond (w : Nat) : Nat := fieldOf w 15 6
def mArg (w : Nat) : Nat := fieldOf w 21 16
def mAct (w : Nat) : Nat := fieldOf w 37 4
def mCount (w : Nat) : Nat := fieldOf w 41 15
def mAnchor (w : Nat) : Bool := bitAt w 56
def mDp (w : Nat) : Nat := fieldOf w 57 14
def mImm (w : Nat) : Nat := fieldOf w 71 16
def mNote (w : Nat) : Nat := fieldOf w 87 4
def mSafe (w : Nat) : Bool := bitAt w 91
def mRes (w : Nat) : Nat := fieldOf w 92 35
def mImmOp (w : Nat) : Nat := fieldOf (mImm w) 12 4
def mReport (w : Nat) : Nat := fieldOf (mDp w) 2 2
def mCw (w : Nat) : Nat := fieldOf (mDp w) 0 2

/-- SEQ codes (09 Table 9.3). -/
def seqCont : Nat := 0
def seqJump : Nat := 1
def seqDispatch : Nat := 2
def seqCall : Nat := 3
def seqReturn : Nat := 4
def seqBrt : Nat := 5
def seqBrf : Nat := 6
def seqHalt : Nat := 7

/-- The word at a thread's PC, as a number. -/
def wordAt (e : Nat) (k : Bool) (s : State) : Nat :=
  (storeWord e (thrOf e k s).pc.toNat s).toNat

/-! ### Faults (09 R202) -/

/-- The 128 bits of a word have odd parity. -/
def wordOdd (w : Nat) : Bool := decide (((List.range 128).filter fun i => bitAt w i).length % 2 = 1)

/-- A BUS action of a reserved encoding (09 Table 9.5). -/
def busReserved (w : Nat) : Bool :=
  if mAct w = 1 then
    decide (fieldOf (mArg w) 11 4 ≠ 0) || (bitAt (mArg w) 15 && decide (4 < fieldOf (mArg w) 8 3))
  else if mAct w = 7 then decide (fieldOf (mArg w) 0 2 = 3)
  else decide (7 < mAct w)

/-- A combination of DP bits that is reserved (10 R243): ENC with DEC_HARD, DEC_SOFT or SENSE_ACC; DEC_HARD with
SENSE_ACC; STG_ALLOC with STG_REL. -/
def dpReserved (dp : Nat) : Bool :=
  (bitAt dp 10 && (bitAt dp 9 || bitAt dp 8 || bitAt dp 5)) || (bitAt dp 9 && bitAt dp 5) || (bitAt dp 13 && bitAt dp 12)

/-- A reserved encoding of any field (09 Tables 9.4 to 9.8). -/
def wordReserved (w : Nat) : Bool :=
  decide (mRes w ≠ 0) || decide (24 ≤ mCond w ∧ mCond w < 32) || decide (48 ≤ mCond w) || busReserved w
  || decide (mCw w = 3) || (decide (mReport w = 2) && decide (mImmOp w ≠ 5))
  || (decide (mNote w ≠ 1) && decide (7 < mImmOp w)) || decide (11 < mNote w) || dpReserved (mDp w)

/-- FAULT.CAUSE of a fetched word, 0 for none: 1 parity, 2 reserved, 3 stack overflow, 4 stack underflow. -/
def wordFault (w : Nat) (t : Thread) : Nat :=
  if !wordOdd w then 1
  else if wordReserved w then 2
  else if mSeq w = seqCall ∧ 8 ≤ t.stack.length then 3
  else if mSeq w = seqReturn ∧ t.stack = [] then 4
  else 0

/-- A thread faults at its word (09 R202): FAULT keeps the first, event 0, error; its open packet is closed. -/
def faultThr (e : Nat) (k : Bool) (cause : Nat) (s : State) : State :=
  let pc := (thrOf e k s).pc.toNat
  let v := BitVec.ofNat 32 (2 ^ 31 + fieldAt 28 cause + fieldAt 27 (bit k) + pc)
  let s := modEng e (fun x => { x with fault := if bitAt x.fault.toNat 31 then x.fault else v }) s
  let s := hwBit (enginePage e) oBurFault 31 s
  let s := modThr e k (fun t => { t with state := .faulted, first := false }) (noteClose e k true s)
  raiseErr (enginePage e) 0x0100 (fieldAt 13 cause + fieldAt 12 (bit k) + pc) (raiseEvt (enginePage e) 0 s)

/-! ### The job of a thread -/

/-- The job that a thread's words see: the second job register while a GUEST or SUSPEND handler runs. -/
def curJob (t : Thread) : Option Job :=
  match t.handler with
  | some h => if h = 14 then t.job else t.job2
  | none => t.job

/-- Channel of a thread: a Burin's own, the Graver's that of its guest job. -/
def thrChan (e : Nat) (k : Bool) (s : State) : Option Nat :=
  if e = 64 then (thrOf e k s).job.map (·.channel) else some (2 * e + bit k)

/-- The command FIFO of a thread's channel (09 R199). -/
def thrFifo (e : Nat) (k : Bool) (s : State) : List CmdAct :=
  match thrChan e k s with
  | some c => cmdqOf c s
  | none => []

/-- The last outcome of the codeword at the cursors, for the tag or Graver job that the thread works for (10 R239). -/
def cursorOut (t : Thread) (s : State) : CwOut :=
  match curJob t with
  | some j =>
    let r := SMap.get (fun _ => (0, .none)) (chanOf j.channel s).outs (t.planeCur * 4 + t.cwCur)
    if j.id = some r.1 then r.2 else .none
  | none => .none

/-- The levels that LVL requires for a job: those of the operation that runs on its die, else of the page it names
(11 R257); none for a block that recovery examines (14 R356). -/
def jobLevels (j : Job) (s : State) : Option SetLevels :=
  match (dieOf j.die s).run with
  | some o => if rawSense o s then none else some (opLevels j.die o s)
  | none => match j.id with
    | some id =>
      let x := tagOf id s
      if rawJob id s then none
      else some (wantedLevels j.die (paPage j.paddr) j.slc (bandNow j.die s) id x.rung x.attempt s)
    | none => none

/-- The data-in on a die is at the last page of its program unit. -/
def unitLast (d : Nat) (s : State) : Bool :=
  match (dieOf d s).dataIn with
  | some (o, n) => decide (inPages d o s ≤ n + 1)
  | none => false

/-- A request of R210 is pending for a thread. -/
def reqAny (e : Nat) (k : Bool) (s : State) : Bool :=
  let t := thrOf e k s
  t.abortPend || !t.preemptPend.isEmpty || (decide (e < 64) && (suspWanted (2 * e + bit k) s).isSome)

/-- A bit of the status register, at the place the job's profile names. -/
def statusBit (t : Thread) (f : Nat → State → Nat) (s : State) : Bool :=
  match curJob t with
  | some j => t.status.getLsbD (f j.profile s)
  | none => t.status.getLsbD (f 0 s)

/-- A property of the thread's job; false without one. -/
def jobIs (t : Thread) (p : Job → Bool) : Bool := (curJob t).any p

/-- COND (09 Table 9.4). -/
def condTrue (e : Nat) (k : Bool) (c : Nat) (s : State) : Bool :=
  let t := thrOf e k s
  match c with
  | 0 => true
  | 1 => t.timer.any (fun u => decide (s.cc < u))
  | 2 => decide (8 ≤ (thrFifo e k s).length)
  | 3 => (thrFifo e k s).isEmpty
  | 4 => statusBit t pfRdyBit s
  | 5 => statusBit t pfFailBit s
  | 6 => statusBit t pfSuspBit s
  | 7 => reqAny e k s
  | 8 => jobIs t (·.slc)
  | 9 => jobIs t (fun j => decide (1 < planeCount j.planes))
  | 10 => jobIs t (fun j => decide ((planesOf j.planes).getLast? = some t.planeCur))
  | 11 => jobIs t (fun j => unitLast j.die s)
  | 12 => jobIs t (fun j => decide ((chanOf j.channel s).volume ≠ some (dieVolume j.die)))
  | 13 => t.stageGrant
  | 14 => decide (cursorOut t s = .clean)
  | 15 => decide (cursorOut t s = .failed) || decide (cursorOut t s = .miscorrect)
  | 16 => decide (cursorOut t s = .erased)
  | 17 => decide (cursorOut t s = .echoBad)
  | 18 => t.rungFits
  | 19 => decide (t.loopCnt = 0)
  | 20 => jobIs t (fun j => decide (levelsOf j.die s ≠ none) && decide (levelsOf j.die s = jobLevels j s))
  | 21 => t.yielded
  | 22 => jobIs t (fun j => decide (t.cwCur = j.cwLast))
  | 23 => t.guestDone
  | n => if 32 ≤ n ∧ n < 48 then t.flags.getLsbD (n - 32) else false

/-! ### IMM (09 Table 9.7) -/

/-- LADDER_NEXT as a thread sees it: the rung that it chooses for the job's tag, if one fits (11 R273). -/
def rungChosen (t : Thread) (s : State) : Option Nat :=
  ((curJob t).bind (·.tag)).bind fun id =>
    let x := tagOf id s
    let d := paDie (ePaddr x.entry)
    let grp := x.todo.all fun w => (stripeGroup d w.plane s).isSome
    match (ladderNext x.entry x.key x.rung x.todo.length grp s).1 with
    | .run q => some q
    | _ => none

/-- RUNG_FITS after it; without a tag the answer is free (log entry 18). -/
def rungAnswer (t : Thread) (s : State) : Bool :=
  if ((curJob t).bind (·.tag)).isNone then (freeNow s).getLsbD 0 else (rungChosen t s).isSome

/-- The next plane of the job after the cursor; none behind the highest. -/
def nextPlane (t : Thread) : Option Nat :=
  (curJob t).bind fun j => (planesOf j.planes).find? fun p => decide (t.planeCur < p)

/-- The plane cursor moves to the next plane of the job; where there is none its value is free (log entry 18). -/
def planeStep (e : Nat) (k : Bool) (s : State) : State :=
  match nextPlane (thrOf e k s) with
  | some p => modThr e k (fun t => { t with planeCur := p }) s
  | none => takeFree (modThr e k (fun t => { t with planeCur := (freeNow s).toNat % 4 }) s)

/-- The IMM operation of a word whose NOTE is not 1. -/
def doImm (e : Nat) (k : Bool) (w : Nat) (s : State) : State :=
  let v := mImm w
  match mImmOp w with
  | 1 => modThr e k (fun t => { t with loopCnt := BitVec.ofNat 12 v }) s
  | 2 => modThr e k (fun t => { t with loopCnt := if t.loopCnt = 0 then 0 else t.loopCnt - 1 }) s
  | 3 => modThr e k (fun t => { t with flags := t.flags ||| BitVec.ofNat 16 (2 ^ (v % 16)) }) s
  | 4 => modThr e k (fun t => { t with flags := t.flags &&& ~~~(BitVec.ofNat 16 (2 ^ (v % 16))) }) s
  | 6 => planeStep e k s
  | 7 =>
    let a := rungAnswer (thrOf e k s) s
    let q := rungChosen (thrOf e k s) s
    let s := if ((curJob (thrOf e k s)).bind (·.tag)).isNone then takeFree s else s
    modThr e k (fun t => { t with rungFits := a, rung := q.getD t.rung }) s
  | _ => s

/-! ### BUS and TIMER (09 R199, R200) -/

/-- Opcode of a CMD action: [7:0], or the profile field that [10:8] names (09 Table 9.5). -/
def cmdOpcode (p arg : Nat) (s : State) : Nat :=
  if !bitAt arg 15 then fieldOf arg 0 8
  else match fieldOf arg 8 3 with
    | 0 => pfSlcPrefix p s
    | 1 => pfSuspOp p s
    | 2 => pfResumeOp p s
    | 3 => pfTrainRd p s
    | _ => pfTrainWr p s

/-- Address cycles of an ADDR action: column and row of the job at the cursors, row only, column only, or one value. -/
def addrCycles (t : Thread) (j : Job) (arg : Nat) (s : State) : List PadCycle :=
  let p := j.profile
  let row := rowCycles j.die t.planeCur (paBlock j.paddr) (paPage j.paddr)
  let col := (leBytes 2 (t.cwCur * codewordBytes (pfCodeB p s))).map PadCycle.addr
  match fieldOf arg 0 2 with
  | 0 => col ++ row
  | 1 => row
  | 2 => col
  | _ => [.addr (BitVec.ofNat 8 (fieldOf arg 8 8))]

/-- The cycles of a BUS action on the pads (09 Table 9.5); what names the job is empty without one. -/
def wordCycles (t : Thread) (act arg : Nat) (s : State) : List PadCycle :=
  let p := ((curJob t).map (·.profile)).getD 0
  match act with
  | 1 => [.cmd (BitVec.ofNat 8 (cmdOpcode p arg s))]
  | 2 => match curJob t with
    | some j => addrCycles t j arg s
    | none => if fieldOf arg 0 2 = 3 then [.addr (BitVec.ofNat 8 (fieldOf arg 8 8))] else []
  | 3 => [.dout (if arg = 0 then codewordBytes (pfCodeB p s) else arg)]
  | 4 => [.page (if arg = 0 then pfData p s + pfSpare p s else arg)]
  | 5 => [.dout 1]
  | 6 => [.turn (bitAt arg 0)]
  | 7 => [.ce (fieldOf arg 0 2)]
  | _ => []

/-- A BUS action joins the command FIFO of the thread's channel; with the FIFO empty and the pads idle it goes on to
them (09 R199). -/
def doBus (e : Nat) (k : Bool) (w : Nat) (s : State) : State :=
  if mAct w = 0 then s
  else
    let a : CmdAct := { act := mAct w, arg := mArg w, dp := mDp w, cycles := wordCycles (thrOf e k s) (mAct w) (mArg w) s }
    let s := match thrChan e k s with
      | some c =>
        let free := busFree c s
        let s := modThr (chanBur c) (chanThr c) (fun t => { t with cmdq := t.cmdq ++ [a] }) s
        if free then padsNext c s else s
      | none => s
    modThr e k (fun t => if t.handler.isSome then { t with handlerBus := true } else { t with yielded := false }) s

/-- The wait timer is loaded: it counts from this cc, or from the end of the last action queued. DESIGN CHOICE (log entry
141): with ANCHOR = 1 and no action queued it counts from this cc. -/
def doTimer (e : Nat) (k : Bool) (w : Nat) (s : State) : State :=
  if mCount w = 0 then s
  else
    let n := (thrFifo e k s).length
    modThr e k (fun t =>
      if mAnchor w ∧ n ≠ 0 then { t with timer := none, anchored := some (mCount w, n) }
      else { t with timer := some (s.cc + mCount w), anchored := none }) s

/-! ### DP (09 Table 9.6) -/

/-- DPT could grant the space of the transfer at the cursor: one codeword of a data-out, a page of a data-in (10 R249,
Table 10.6). -/
def stageAnswer (t : Thread) (s : State) : Bool :=
  match curJob t with
  | some j =>
    let g := cwGran j.die s
    (pageActive .dpt s || j.id.any fun id => bootRead id s) && (if j.kind = 2 then grantOther (4 * g) s else grantRead g s)
  | none => false

/-- STG_ALLOC for a data-in: its page stands in the granules granted when its data entered staging (10 R237), else it is
granted them here. -/
def allocIn (a : Bool) (j : Job) (s : State) : State × Bool :=
  if (j.id.bind fun id => progOf id s).isSome then (s, true)
  else if a then
    let p : ProgBuf := { id := j.id.getD 0, granules := 4 * cwGran j.die s, early := false }
    (notePeak (bump .dpt 0 { s with dpt.progs := s.dpt.progs ++ [p] }), true)
  else (bump .dpt 1 s, false)

/-- STG_ALLOC grants the codeword at the cursors of a data-out its granules, a data-in those of its page: DPT counters 0
and 1 (10 R249). -/
def stageAlloc (t : Thread) (s : State) : State × Bool :=
  let a := stageAnswer t s
  match curJob t with
  | some j =>
    if j.kind = 2 then allocIn a j s
    else match j.id.bind fun id => cwAt id j.die t.planeCur t.cwCur s with
    | some c =>
      if c.gRead ≠ 0 then (s, a)
      else if a then
        (notePeak (bump .dpt 0 (modCwAt c.id j.die t.planeCur t.cwCur (fun w => { w with gRead := cwGran j.die s }) s)), true)
      else (bump .dpt 1 s, false)
    | none => (s, a)
  | none => (s, a)

/-- STG_REL releases the granules of the codeword at the cursors, free once its writes have been answered (10 R250). -/
def stageRel (t : Thread) (s : State) : State :=
  match (curJob t).bind fun j => j.id.map fun id => (id, j.die) with
  | some (id, d) => reapCws (modCwAt id d t.planeCur t.cwCur (fun w => { w with sent := true, gAcc := 0 }) s)
  | none => s

/-- DEC_SOFT of a word without a data-out queues the codeword at the cursors for the soft pool, unless it waits or runs
there already (10 R244). -/
def decSoft (t : Thread) (s : State) : State :=
  match (curJob t).bind fun j => j.id.bind fun id => cwAt id j.die t.planeCur t.cwCur s with
  | some c =>
    let there := s.ecc.queue.any (fun q => decide (q.id = c.id) && decide (q.plane = c.plane) && decide (q.idx = c.idx))
      || s.ecc.running.any fun e => match e.2 with
        | some r => decide (r.req.id = c.id) && decide (r.req.plane = c.plane) && decide (r.req.idx = c.idx)
        | none => false
    if there then s else decodeSoft c.id c.die c.plane c.idx s
  | none => s

/-- A REPORT ends a step of the job: well, failed with the status of IMM, which OPS makes the tag's, or abandoned
(09 Table 9.6, 01 R19; log entry 145). -/
def doReport (e : Nat) (k : Bool) (w : Nat) (s : State) : State :=
  let t := thrOf e k s
  let s := if mReport w = 0 then s else modThr e k (fun t => { t with report := mReport w }) s
  if mReport w = 2 then
    match (curJob t).bind (·.id) with
    | some id => if tagOpen id s then failOps [id] (mImm w % 256) rankOwn s else s
    | none => s
  else s

/-- The data-path controls of a word (09 Table 9.6, 10 Table 10.5); those that name a data action go with it. The
conditions of the word see none of them. -/
def doDp (e : Nat) (k : Bool) (w : Nat) (s : State) : State :=
  let t := thrOf e k s
  let r := if bitAt (mDp w) 13 then stageAlloc t s else (s, t.stageGrant)
  let a := r.2
  let s := if bitAt (mDp w) 12 then stageRel t r.1 else r.1
  let s := if bitAt (mDp w) 8 && decide (mAct w ≠ 3) then decSoft t s else s
  let s := doReport e k w s
  modThr e k (fun t => { t with
    stageGrant := a,
    cwCur := if mCw w = 1 then (t.cwCur + 1) % 4
      else if mCw w = 2 then ((curJob t).map (·.cwFirst)).getD t.cwCur
      else t.cwCur }) s

/-! ### NOTE (09 Table 9.8, 15 R371 to R373) -/

/-- The halfword of a NOTE code that writes one. -/
def noteValue (e : Nat) (k : Bool) (w : Nat) (s : State) : BitVec 16 :=
  let t := thrOf e k s
  let j := curJob t
  match mNote w with
  | 1 => BitVec.ofNat 16 (mImm w)
  | 2 => BitVec.ofNat 16 ((j.bind (·.tag)).getD 0)
  | 3 => BitVec.ofNat 16 (fieldAt 15 (bit k) + ((j.map (·.die)).getD 0) % 4096)
  | 4 => BitVec.ofNat 16 (fieldAt 8 (((j.map fun j => j.kind * 16 + j.profile).getD 0) % 256) + t.status.toNat)
  | 5 => s.tmb.frame.extractLsb' 0 16
  | 6 => (stampOf e k s).1
  | 7 => (stampOf e k s).2
  | 10 => BitVec.ofNat 16 t.loopCnt.toNat
  | 11 => BitVec.ofNat 16 t.pc.toNat
  | _ => 0

/-- The NOTE action of a word. -/
def doNote (e : Nat) (k : Bool) (w : Nat) (s : State) : State :=
  if mNote w = 0 ∨ noteOn s = false then s
  else if mNote w = 8 then noteOpen e k s
  else if mNote w = 9 then noteClose e k false s
  else
    let s := if mNote w = 5 then takeStamp e k s else s
    noteWrite e (noteValue e k w s) s

/-- A Graver thread's BUS action waits until the channel is left to its guest job (09 R208; log entry 144). -/
def guestWaits (e : Nat) (k : Bool) (s : State) : Bool :=
  decide (e = 64) && (match (thrOf e k s).job with
    | some j =>
      !(guestLet j.channel s
        && (burinHeld j.channel s || decide ((thrOf (chanBur j.channel) (chanThr j.channel) s).job2 = some j)))
    | none => false)

/-- The word cannot execute: its BUS action finds the FIFO full, or its NOTE action meets the other thread's open
packet (09 Table 9.1); a guest's BUS action waits for its channel too. -/
def wordBlocked (e : Nat) (k : Bool) (w : Nat) (s : State) : Bool :=
  (decide (mAct w ≠ 0) && (decide (8 ≤ (thrFifo e k s).length) || guestWaits e k s))
  || (decide (mNote w ≠ 0) && noteBlocked e k s)

/-- The fields of a word but SEQ and SAFE, in the order of R198. -/
def doFields (e : Nat) (k : Bool) (w : Nat) (s : State) : State :=
  let s := if mNote w = 1 then s else doImm e k w s
  doNote e k w (doDp e k w (doTimer e k w (doBus e k w s)))

end Sys2Proof.Machine
end

