-- ==== Sys2Proof/Machine/Engines.lean ====
section
/-!
DEFINITION. The commands of the engines (09 R196 to R213): the presentation of jobs, the execution of a microword by
its SEQ, requests at safe points, the wait timer and the dispatch table.
-/

namespace Sys2Proof.Machine

/-! ### Whose turn it is (09 R196) -/

/-- A thread is ready: it runs, or what stalled it has ended. -/
def thrReady (e : Nat) (k : Bool) (s : State) : Bool :=
  match (thrOf e k s).state with
  | .run => true
  | .stall => !wordBlocked e k (wordAt e k s) s
  | _ => false

/-- The other thread of the engine goes first. -/
def otherFirst (e : Nat) (k : Bool) (s : State) : Bool :=
  let me := (thrOf e k s).first
  let other := (thrOf e (!k) s).first
  if me ≠ other then other
  else if me then k
  else decide ((engOf e s).lastCc = some (s.cc - 1)) && decide ((engOf e s).lastT1 = k)

/-- In Doze the engines' clock is gated: 64 cc after entry no thread executes a word (01 Table 1.9, 13 R321). -/
def dozeStops (s : State) : Bool := decide (s.pwr.state = .doze) && decide (s.pwr.since + 64 ≤ s.cc)

/-- A thread may have the engine's word of this cc. -/
def hasTurn (e : Nat) (k : Bool) (s : State) : Bool :=
  running (thrOf e k s) && pageAnswers (enginePage e) s && !dozeStops s && decide ((engOf e s).lastCc ≠ some s.cc)
  && !(thrReady e (!k) s && otherFirst e k s)

/-- The engine's word of this cc goes to a thread. -/
def takeTurn (e : Nat) (k : Bool) (s : State) : State :=
  modEng e (fun x => { x with lastCc := some s.cc, lastT1 := k }) s

/-! ### Safe points and requests (09 R209 to R212) -/

/-- A word has been executed: counters 0 and 1, and the distance to the last safe point with SAFE_GAP at the 257th word:
event 1, counter 7, error with thread and PC. -/
def countWord (e : Nat) (k safe : Bool) (pc : Nat) (s : State) : State :=
  let s := bump (enginePage e) (bit k) s
  let n := (thrOf e k s).safeDist + 1
  let s := modThr e k (fun t => { t with safeDist := if safe then 0 else min 257 n, safeAt := if safe then s.cc else t.safeAt,
                                         first := false }) s
  if n = 257 ∧ safe = false then
    raiseErr (enginePage e) 0x0101 (fieldAt 12 (bit k) + pc) (raiseEvt (enginePage e) 1 (bump (enginePage e) 7 s))
  else s

/-- A handler or a job begins at the entry of a kind. -/
def enterAt (e : Nat) (k : Bool) (kind prof : Nat) (s : State) : State :=
  modThr e k (fun t => { t with state := .run, pc := dispEntry (decide (e = 64)) (kind * 16 + prof) s, first := true,
                                safeDist := 0 }) s

/-- The ABANDON handler: the stack is emptied (counter 4). -/
def enterAbandon (e : Nat) (k : Bool) (s : State) : State :=
  let p := (((thrOf e k s).job).map (·.profile)).getD 0
  let s := modThr e k (fun t => { t with abortPend := false, stack := [], base := 0, handler := some 14,
                                         handlerBus := false }) s
  enterAt e k 14 p (bump (enginePage e) 4 s)

/-- The GUEST or SUSPEND handler with its job; the thread will return to where it was (counters 5 and 3). -/
def enterHandler (e : Nat) (k : Bool) (h : Nat) (j : Job) (s : State) : State :=
  let s := modThr e k (fun t => { t with
    stack := t.pc :: t.stack, base := t.stack.length + 1, handler := some h, handlerBus := false, job2 := some j,
    guestDone := if h = 15 then false else t.guestDone,
    preemptPend := if h = 15 then t.preemptPend.tail else t.preemptPend }) s
  enterAt e k h j.profile (bump (enginePage e) (if h = 15 then 5 else 3) s)

/-- At a safe point the request of the highest rank is taken, unless a handler runs; one that needs a return address
waits while the stack is full (log entry 20). The second result says that one was. -/
def takeRequest (e : Nat) (k : Bool) (s : State) : State × Bool :=
  let t := thrOf e k s
  if t.handler.isSome then (s, false)
  else if t.abortPend then (enterAbandon e k s, true)
  else if 8 ≤ t.stack.length then (s, false)
  else match t.preemptPend.head? with
    | some j => (enterHandler e k 15 j s, true)
    | none =>
      match (if e < 64 then suspWanted (2 * e + bit k) s else none) with
      | some d =>
        (enterHandler e k 5 (plainJob 5 d none ⟨0, 0⟩ s) (modDie d (fun x => { x with suspTaken := true }) s), true)
      | none => (s, false)

/-! ### Dispatch (09 R205, R206, R208) -/

/-- The Graver raises PREEMPT on the thread that drives the channel of a guest job. -/
def preemptFor (j : Job) (s : State) : State :=
  modThr (chanBur j.channel) (chanThr j.channel) (fun t => { t with preemptPend := t.preemptPend ++ [j] }) s

/-- Work of a Graver job is left: its bring-up, census, die operation, resets or raw command has not ended. -/
def guestLeft (j : Job) (s : State) : Bool :=
  let c := j.channel
  match j.kind with
  | 0 => decide ((chanOf c s).own = .takeover) && (match (chanOf c s).take with
      | some .census => false
      | some _ => true
      | none => false)
  | 1 => (chanOf c s).census.isSome
  | 7 => s.pwr.resetDies.any fun d => decide (dieChannel d = c) && (dieOf d s).resetWanted
  | 9 => s.sec.rawBusy && decide (rawChannel s = c)
  | _ => match j.id with
    | some id => (jobOf id s).isSome
    | none => false

/-- The guest job of a thread is over: its PREEMPT not taken yet is withdrawn, and the handler that yields the channel to
it sees GUEST_DONE. -/
def guestEnd (j : Job) (t : Thread) : Thread :=
  { t with preemptPend := t.preemptPend.erase j,
           guestDone := t.guestDone || (decide (t.handler = some 15) && decide (t.job2 = some j)) }

/-- A Graver thread is done with a guest job (COND GUEST_DONE). A job with work left is the oldest in the queue again
(log entry 51). -/
def guestOver (e : Nat) (k : Bool) (s : State) : State :=
  match (if e = 64 then (thrOf e k s).job else none) with
  | some j =>
    let s := modThr 64 k (fun t => { t with job := none }) s
    let s := modThr (chanBur j.channel) (chanThr j.channel) (guestEnd j) s
    if guestLeft j s then { s with eng.grvQueue := { id := j.id.getD 0, job := j } :: s.eng.grvQueue } else s
  | none => s

/-- A presented job is taken: the job register, the dispatch entry, counter 2. -/
def takeJob (e : Nat) (k : Bool) (j : Job) (s : State) : State :=
  let s := modThr e k (fun t => { t with job := some j, offered := none, report := 0 }) s
  let s := enterAt e k j.kind j.profile (bump (enginePage e) 2 s)
  if e = 64 then preemptFor j s else s

/-- The Graver job taken next: kinds 6 and 7 before all others, then the oldest; kind 8 only while BOOT_FETCH runs, and
then no other (09 R206). -/
def gravNext (l : List GravJob) (s : State) : Option GravJob :=
  if bootRuns s then l.find? fun q => decide (q.job.kind = 8)
  else match l.find? fun q => decide (q.job.kind = 6 ∨ q.job.kind = 7) with
    | some q => some q
    | none => l.find? fun q => decide (q.job.kind ≠ 8)

/-- A Graver thread at a DISPATCH word takes the job next in the queue, before which a job presented to it counts as the
oldest (09 R206). -/
def gravTake (k : Bool) (s : State) : Option Job × State :=
  let l := (match (thrOf 64 k s).offered with
    | some j => [{ id := j.id.getD 0, job := j : GravJob }]
    | none => []) ++ s.eng.grvQueue
  match gravNext l s with
  | some q => (some q.job, { modThr 64 k (fun t => { t with offered := none }) s with eng.grvQueue := l.erase q })
  | none => (none, s)

/-- The job that a thread at its DISPATCH word finds. -/
def jobFound (e : Nat) (k : Bool) (s : State) : Option Job × State :=
  if e = 64 then gravTake k s else ((thrOf e k s).offered, s)

/-- What follows a DISPATCH word: HELD when the engine stops, a request, a job, or the thread waits at the word. -/
def dispatch (e : Nat) (k : Bool) (s : State) : State :=
  let s := guestOver e k (modThr e k (fun t => { t with handler := if t.handler = some 14 then none else t.handler }) s)
  if (thrOf e k s).stopping then holdThr e k s
  else
    let r := takeRequest e k s
    if r.2 then r.1
    else match jobFound e k s with
      | (some j, s) => takeJob e k j s
      | (none, s) => modThr e k (fun t => { t with state := .idle }) s

/-! ### Execution of a word (09 R198) -/

/-- A word changes nothing; the thread stalls (counter 6). -/
def stallThr (e : Nat) (k : Bool) (s : State) : State :=
  bump (enginePage e) 6 (modThr e k (fun t => { t with state := .stall }) s)

/-- A thread executes the word at its PC, when it has the turn and the word's SEQ is the one of the command: the word
faults, stalls, or its fields act and the thread goes on as next says. -/
def execWord (seq e : Nat) (k : Bool) (next : Nat → Bool → State → State) (s : State) : State :=
  let w := wordAt e k s
  if hasTurn e k s && decide (mSeq w = seq) then
    let s := readWord 3 (e * 8192 + (thrOf e k s).pc.toNat) (takeTurn e k s)
    let cause := wordFault w (thrOf e k s)
    if cause ≠ 0 then faultThr e k cause s
    else if wordBlocked e k w s then stallThr e k s
    else
      let cond := condTrue e k (mCond w) s
      let s := modThr e k (fun t => { t with state := .run }) (doFields e k w s)
      next w cond s
  else s

/-- The word was executed; the thread goes on at an address, and at a safe point takes a request. -/
def goTo (e : Nat) (k : Bool) (w : Nat) (a : BitVec 12) (safe : Bool) (s : State) : State :=
  let s := countWord e k safe (thrOf e k s).pc.toNat s
  let s := modThr e k (fun t => { t with pc := a }) s
  if safe || mSafe w then (takeRequest e k s).1 else s

/-- PC + 1. -/
def nextPc (e : Nat) (k : Bool) (s : State) : BitVec 12 := (thrOf e k s).pc + 1

/-- ADDR. -/
def target (w : Nat) : BitVec 12 := BitVec.ofNat 12 (mAddr w)

/-- CONT (09 R198). -/
def execContWord (e : Engine) (k : Bool) (s : State) : Out :=
  fin (execWord seqCont e.num k (fun w _ s => goTo e.num k w (nextPc e.num k s) (mSafe w) s) s)

/-- JUMP (09 R198). -/
def execJumpWord (e : Engine) (k : Bool) (s : State) : Out :=
  fin (execWord seqJump e.num k (fun w _ s => goTo e.num k w (target w) (mSafe w) s) s)

/-- CALL: PC + 1 is pushed (09 R198). -/
def execCallWord (e : Engine) (k : Bool) (s : State) : Out :=
  fin (execWord seqCall e.num k (fun w _ s =>
    let r := nextPc e.num k s
    goTo e.num k w (target w) (mSafe w) (modThr e.num k (fun t => { t with stack := r :: t.stack }) s)) s)

/-- The RETURN that ends a GUEST or SUSPEND handler. -/
def endsHandler (t : Thread) : Bool :=
  (decide (t.handler = some 15) || decide (t.handler = some 5)) && decide (t.stack.length = t.base)

/-- RETURN: the popped address; at the end of a handler YIELDED says whether it used the bus, and a request still
pending is taken at once (09 R212). -/
def returnFrom (e : Nat) (k : Bool) (w : Nat) (s : State) : State :=
  let t := thrOf e k s
  let done := endsHandler t
  let a := (t.stack.head?).getD 0
  let s := modThr e k (fun t => { t with
    stack := t.stack.tail, handler := if done then none else t.handler,
    yielded := t.yielded || (done && t.handlerBus) }) s
  goTo e k w a (mSafe w || done) s

/-- RETURN (09 R198, R212). -/
def execReturnWord (e : Engine) (k : Bool) (s : State) : Out :=
  fin (execWord seqReturn e.num k (fun w _ s => returnFrom e.num k w s) s)

/-- BRT (09 R198). -/
def execBrtWord (e : Engine) (k : Bool) (s : State) : Out :=
  fin (execWord seqBrt e.num k (fun w c s =>
    goTo e.num k w (if c then target w else nextPc e.num k s) (mSafe w) s) s)

/-- BRF (09 R198). -/
def execBrfWord (e : Engine) (k : Bool) (s : State) : Out :=
  fin (execWord seqBrf e.num k (fun w c s =>
    goTo e.num k w (if c then nextPc e.num k s else target w) (mSafe w) s) s)

/-- HALT: event 2; an open packet is closed as aborted (09 R198, 15 R372). -/
def haltThr (e : Nat) (k : Bool) (s : State) : State :=
  let s := countWord e k false (thrOf e k s).pc.toNat s
  raiseEvt (enginePage e) 2 (modThr e k (fun t => { t with state := .halted }) (noteClose e k true s))

/-- HALT (09 R198). -/
def execHaltWord (e : Engine) (k : Bool) (s : State) : Out :=
  fin (execWord seqHalt e.num k (fun _ _ s => haltThr e.num k s) s)

/-- A thread that waits at its DISPATCH word takes a request or a job. -/
def dispatchIdle (e : Nat) (k : Bool) (s : State) : State :=
  if pageAnswers (enginePage e) s && !decide (s.pwr.state = .doze) && (reqAny e k s || (thrOf e k s).offered.isSome) then dispatch e k s else s

/-- DISPATCH (09 R205). -/
def execDispatchWord (e : Engine) (k : Bool) (s : State) : Out :=
  fin (if (thrOf e.num k s).state = .idle then dispatchIdle e.num k s
    else execWord seqDispatch e.num k (fun _ _ s =>
      dispatch e.num k (countWord e.num k true (thrOf e.num k s).pc.toNat s)) s)

/-! ### Jobs (09 R203, R206) -/

/-- A waiting job is presented to a thread that has none before it; a Graver job, to a thread that waits at its DISPATCH
word (09 R203, R206). -/
def jobPresent (e : Nat) (k : Bool) (s : State) : State :=
  let t := thrOf e k s
  if t.offered.isSome ∨ alive t = false ∨ pageAnswers (enginePage e) s = false then s
  else if e = 64 then
    match (if t.state = .idle then gravNext s.eng.grvQueue s else none) with
    | some q =>
      let s := { s with eng.grvQueue := s.eng.grvQueue.erase q }
      modThr e k (fun t => { t with offered := some q.job }) s
    | none => s
  else match t.waiting with
    | [] => s
    | j :: r => modThr e k (fun t => { t with waiting := r, offered := some j }) s

/-- JOB_PRESENT (09 R203). -/
def execJobPresent (e : Engine) (k : Bool) (s : State) : Out := fin (jobPresent e.num k s)

/-! ### The wait timer and the dispatch table -/

/-- WAIT_TIMER_EXPIRY (09 R200): the count has ended. -/
def timerExpiry (e : Nat) (k : Bool) (s : State) : State :=
  if (thrOf e k s).timer.any (fun u => decide (u ≤ s.cc)) then modThr e k (fun t => { t with timer := none }) s else s

def execWaitTimerExpiry (e : Engine) (k : Bool) (s : State) : Out := fin (timerExpiry e.num k s)

/-- DISP_SEL is written: DISP_VAL takes the dispatch entry (09 R204, R226). -/
def dispSel (e idx : Nat) (s : State) : State :=
  let g := decide (e = 64)
  let v := fieldAt 31 (bit (dispPatched g idx s).isSome) + (dispEntry g idx s).toNat
  setReg (enginePage e) oBurDispVal v (setReg (enginePage e) oBurDispSel idx s)

/-- DISP_SEL (09 R226). -/
def execDispSel (e : Engine) (idx : Byte) (s : State) : Out :=
  fin (csrDo (enginePage e.num) (dispSel e.num idx.toNat) s)

end Sys2Proof.Machine
end

