-- ==== Sys2Proof/Machine/Clock.lean ====
section
/-!
DEFINITION. What one cc of cclk does when no command waits.
-/

namespace Sys2Proof.Machine

/-- 64 cc after the entry into Doze every thread of an engine has come to a DISPATCH word and waits there (13 R321; log
entry 65). -/
def parkThreads (s : State) (e : Nat) : State :=
  [false, true].foldl (fun s k =>
    let t := thrOf e k s
    if !running t then s
    else if t.stopping then holdThr e k s
    else modThr e k (fun t => { t with state := .idle, handler := none }) s) s

/-- The clocks of the engines stop (01 Table 1.9). -/
def dozePark (s : State) : State :=
  if s.pwr.state = .doze ∧ s.cc = s.pwr.since + 64 then (s.eng.engines.map (·.1)).foldl parkThreads s else s

/-- A cc ends: the tags that it has aborted leave OPS, and what the power-fail sequence waits for may have come. -/
def endAborts (s : State) : State :=
  if s.ops.abortNow.isEmpty then s else pfAdvance (s.ops.abortNow.foldl finishAbort s)

/-- The count of cc moves; PWR counts the cc in which a start is held (13 Table 13.8, counter 2), and the completions of
the tags that committed in the cc fall due (01 R20); the ladder unit retests a held tag (11 R274); new ZQ codes are
applied in the bus gaps (08 R175); and the cc may flip bits of a protected unit (17 R391, log entry 149). -/
def ccTick (s : State) : State :=
  let s := zqApply (endAborts (ladderTick (if anyHeld s then bump .pwr 2 s else s)))
  let s := dozePark (flushDone { s with cc := s.cc + 1 })
  { s with mem.upsets := addUpset (Config.upset s.cc) s.mem.upsets }

/-- A planner whose plans are all published meets its checkpoint (06 R141, CKPT_STAT). -/
def plannerMet (s : State) : State :=
  if checkpointsDue s && pageActive .sch s && !s.tmb.planJudged && s.sch.toPlan.isEmpty then judgePlanner false s else s

/-- TMB.PHASE counts up to the last cc of the frame (06 R130); at offset PLAN_WINDOW the planner is judged. -/
def phaseTick (s : State) : State :=
  let s := ccTick s
  let s := { s with tmb.phase := s.tmb.phase + 1 }
  if s.tmb.phase = planWindow s then plannerMet s else s

/-- One cc of cclk (log entry 1): what ccTick says. While TMB runs and the core domain has power (01 Table 1.9) PHASE
moves with it, and in the last cc of a frame time stands until the command FRAME_TICK begins the next frame. -/
def clockTick (s : State) : State :=
  if tmbRuns s = false then ccTick s
  else if s.tmb.phase + 1 < s.tmb.frameLen then phaseTick s
  else s

end Sys2Proof.Machine
end

