-- ==== Sys2Proof/Machine/RingCommands.lean ====
section
/-!
DEFINITION. The commands of the fabric ports' flow control (02 R31, R39), of the poller and the contexts (04 R83 to
R86, R90, R98 to R107), of completions and of function resets (04 R111).
-/

namespace Sys2Proof.Machine

/-! ### CREDIT_RETURN, FAB_IDLE -/

/-- One credit of a stream, at most 63 unspent (02 R31). -/
def addCredit (k : FabStream) (f : FabPort) : FabPort :=
  match k with
  | .rq => { f with rq := satTo 63 (f.rq + 1) }
  | .wq => { f with wq := satTo 63 (f.wq + 1) }
  | .wd => { f with wd := satTo 63 (f.wd + 1) }

/-- A returned credit is spent at once where something waits for it. -/
def creditReturn (p : Nat) (k : FabStream) (s : State) : State :=
  if (fabOf p s).live then drain p (modFab p (addCredit k) s) else s

/-- CREDIT_RETURN (02 R31). -/
def execCreditReturn (p : PortId) (k : FabStream) (s : State) : Out := fin (creditReturn p.toNat k s)

/-- fab_idle[p] is high: requests may be put (02 R39). -/
def fabIdleSeen (p : PortId) (s : State) : State :=
  let s := { s with pins := { s.pins with fabIdle := s.pins.fabIdle ||| BitVec.ofNat 4 (2 ^ p.toNat) } }
  if (fabOf p.toNat s).live then drain p.toNat (modFab p.toNat (fun f => { f with begun := true }) s) else s

/-- FAB_IDLE (02 R39). -/
def execFabIdle (p : PortId) (s : State) : Out := fin (fabIdleSeen p s)

/-! ### POLL_DUE, HEAD_REREAD (04 R90, R101) -/

/-- A submission ring whose poll is due: nothing of it is being read or held (04 R101, R106); an outstanding prefetch read
holds it back too (DESIGN CHOICE, log entry 132). -/
def pollWaits (g : Ring) (s : State) : Bool :=
  rifPolls s && decide (g.state = .active) && !g.cq && !g.polling && !g.ctxRead && g.offer.isNone
  && g.partialUnit.isNone && decide (g.pfAwait = 0) && g.pfHeld.isNone && g.due.any fun t => decide (t ≤ s.cc)

/-- A full completion ring whose HEAD read is due (04 R90). -/
def headWaits (g : Ring) (s : State) : Bool :=
  pageAnswers .rif s && g.cq && (decide (g.state = .active) || decide (g.state = .fnResetting)) && !g.headRead
  && !g.ctxRead && g.headDue.any fun t => decide (t ≤ s.cc)

/-- Due time of a ring that waits for the poller. -/
def pollTime (g : Ring) : Nat := if g.cq then g.headDue.getD 0 else g.due.getD 0

/-- Ring a is served before ring b: earlier due time, then express, then the lower id (04 R101). -/
def pollBefore (a b : Nat × Ring) : Bool :=
  decide (pollTime a.2 < pollTime b.2)
  || (decide (pollTime a.2 = pollTime b.2)
      && ((a.2.express && !b.2.express) || (a.2.express == b.2.express && decide (a.1 < b.1))))

/-- The ring that the poller serves next, at most one each 2 cc (04 R101). -/
def pollPick (s : State) : Option Nat :=
  if s.rif.nextPoll ≤ s.cc then
    (firstBy pollBefore (s.rif.rings.filter fun e => pollWaits e.2 s || headWaits e.2 s)).map (·.1)
  else none

/-- The poll of a ring: with its context cached a 32-byte read of the unit at INDEX, RIF counter 0; otherwise its
context is read first (04 R84). -/
def pollRing (r : Nat) (s : State) : State :=
  let s := { s with rif := { s.rif with nextPoll := s.cc + 2 } }
  if (ringOf r s).cached then
    let g := ringOf r s
    let s := touchRing r (bump .rif 0 (modRing r (fun g => { g with polling := true, due := none }) s))
    readUnits r g.index 1 (fun _ => .poll r g.gen) s
  else fetchContext r false s

/-- A poll falls due and is the one that the poller serves. -/
def pollDue (r : Nat) (s : State) : State :=
  if pollPick s = some r ∧ (ringOf r s).cq = false then pollRing r s else s

/-- POLL_DUE (04 R101). -/
def execPollDue (r : RingId) (s : State) : Out := fin (pollDue r.toNat s)

/-- Word 14 of a full completion ring is read (04 R90). -/
def headReread (r : Nat) (s : State) : State :=
  if pollPick s = some r ∧ (ringOf r s).cq = true then
    let s := { s with rif := { s.rif with nextPoll := s.cc + 2 } }
    let s := modRing r (fun g => { g with headRead := true, headDue := none }) s
    fabRead (fnPort (ringOf r s).fn) { addr := ctxAddr r s + 56, len := 4, kind := 1, purpose := .head r } s
  else s

/-- HEAD_REREAD (04 R90). -/
def execHeadReread (r : RingId) (s : State) : Out := fin (headReread r.toNat s)

/-! ### POLL_DATA, ENTRY_UNIT_DATA, PREFETCH_DATA (04 R88, R102 to R105) -/

/-- The units that a read returned. -/
def unitsIn (q : RdReq) (beats : List (BitVec 512)) : List (List Word32) := unitsOf (q.len / 32) (readBytes q beats)

/-- Bit 31 of the first word of a unit. -/
def unitPhase (w : List Word32) : Bool := bitAt ((w[0]?).getD 0).toNat 31

/-- CUR_E of a ring after an empty poll: express rings never back off (04 R102). -/
def backOff (g : Ring) (s : State) : Nat := if g.express then g.curE else min (g.curE + 1) (max g.intervalE (idleCap s))

/-- An empty poll: RIF counter 1, back-off and the next due time (04 R102). -/
def emptyPoll (r : Nat) (s : State) : State :=
  let e := backOff (ringOf r s) s
  bump .rif 1 (modRing r (fun g => { g with curE := e, dirty := g.dirty || decide (e ≠ g.curE),
                                            due := some (s.cc + ringInterval e s) }) s)

/-- A found entry: CUR_E returns to its base, Doze ends, the entry is taken up, and the units after it are prefetched
(04 R102, R104, R105, 13 R322). -/
def foundPoll (r : Nat) (w : List Word32) (s : State) : State :=
  let g := ringOf r s
  let next := g.index + eLen { ring := r, unit := g.index, words := w } + 1
  let s := wakeDoze (modRing r (fun g => { g with curE := g.intervalE, dirty := g.dirty || decide (g.curE ≠ g.intervalE) }) s)
  let s := foundUnit r w s
  if (ringOf r s).state = .active then prefetchFrom r next s else s

/-- The unit at INDEX has been read. -/
def polledUnit (r : Nat) (w : List Word32) (s : State) : State :=
  if unitPhase w = (ringOf r s).phase then foundPoll r w s else emptyPoll r s

/-- Poll data returns. -/
def pollData (p : PortId) (tkt : BitVec 9) (beats : List (BitVec 512)) (stat : BitVec 2) (s : State) : State :=
  match readAt p tkt s with
  | some q =>
    match q.purpose with
    | .poll r gen =>
      if beatsMatch q beats then
        let s := readOver p tkt s
        if (ringOf r s).gen ≠ gen then s
        else
          let s := modRing r (fun g => { g with polling := false }) s
          if statOk stat then polledUnit r ((unitsIn q beats).headD []) s else ringError r 0x0B s
      else s
    | _ => s
  | none => s

/-- POLL_DATA (04 R102). -/
def execPollData (p : PortId) (tkt : BitVec 9) (beats : List (BitVec 512)) (stat : BitVec 2) (s : State) : Out :=
  fin (pollData p tkt beats stat s)

/-- Units by their number. -/
def keepUnits (first : Nat) (us : List (List Word32)) (m : SMap (List Word32)) : SMap (List Word32) :=
  (us.zipIdx first).foldl (fun m u => SMap.put (fun _ => []) m u.2 u.1) m

/-- Follow-on units of the entry at INDEX have come; with the last of them the entry is whole (04 R104); after
a NOP that is skipped a prefetched unit is taken up (04 R105). -/
def contUnits (r first : Nat) (us : List (List Word32)) (s : State) : State :=
  let s := modRing r (fun g => { g with got := keepUnits first us g.got }) s
  let g := ringOf r s
  match g.partialUnit with
  | none => s
  | some w =>
    let e : Entry := { ring := r, unit := g.index, words := w ++ g.got.flatMap (·.2) }
    if g.got.length < eLen e then s
    else if entryHeld r g.index (eLen e) s then modRing r (fun g => { g with partialUnit := none, got := [], due := none }) s
    else presentAll 64 r (entryReady r e s)

/-- Follow-on unit data returns. -/
def entryUnitData (p : PortId) (tkt : BitVec 9) (beats : List (BitVec 512)) (stat : BitVec 2) (s : State) : State :=
  match readAt p tkt s with
  | some q =>
    match q.purpose with
    | .units r gen first =>
      if beatsMatch q beats then
        let s := readOver p tkt s
        if (ringOf r s).gen ≠ gen then s
        else if statOk stat then contUnits r first (unitsIn q beats) s
        else ringError r 0x0B s
      else s
    | _ => s
  | none => s

/-- ENTRY_UNIT_DATA (04 R104). -/
def execEntryUnitData (p : PortId) (tkt : BitVec 9) (beats : List (BitVec 512)) (stat : BitVec 2) (s : State) : Out :=
  fin (entryUnitData p tkt beats stat s)

/-- The first units of a prefetch that carry the expected phase (04 R105). -/
def phaseRun (ph : Bool) : SMap (List Word32) → SMap (List Word32)
  | [] => []
  | u :: r => if unitPhase u.2 = ph then u :: phaseRun ph r else []

/-- A whole prefetch has come: its units are held from INDEX on, none under a hold; when all of them held entries
another read follows; the unit at INDEX is taken up (04 R105, R107). -/
def prefetchDone (r : Nat) (s : State) : State :=
  let g := ringOf r s
  let run := phaseRun g.phase g.pfGot
  let keep := run.filter fun u => decide (g.index ≤ u.1) && !unitHeld r u.1 s
  let all := decide (run.length = g.pfGot.length)
  let next := ((g.pfGot.getLast?).map (·.1 + 1)).getD (ringUnits g)
  let held := keep.foldl (fun m u => SMap.put (fun _ => []) m u.1 u.2) g.prefetched
  let s := setRing r { g with prefetched := held, pfGot := [], pfAwait := 0 } s
  presentAll 64 r (if all then prefetchFrom r next s else s)

/-- Prefetched units have come. -/
def prefetchUnits (r first : Nat) (us : List (List Word32)) (s : State) : State :=
  let s := modRing r (fun g => { g with pfGot := keepUnits first us g.pfGot, pfAwait := g.pfAwait - us.length }) s
  if (ringOf r s).pfAwait = 0 then prefetchDone r s else s

/-- Prefetch data returns. -/
def prefetchData (p : PortId) (tkt : BitVec 9) (beats : List (BitVec 512)) (stat : BitVec 2) (s : State) : State :=
  match readAt p tkt s with
  | some q =>
    match q.purpose with
    | .prefetch r gen first =>
      if beatsMatch q beats then
        let s := readOver p tkt s
        if (ringOf r s).gen ≠ gen then s
        else if statOk stat then prefetchUnits r first (unitsIn q beats) s
        else ringError r 0x0B s
      else s
    | _ => s
  | none => s

/-- PREFETCH_DATA (04 R105). -/
def execPrefetchData (p : PortId) (tkt : BitVec 9) (beats : List (BitVec 512)) (stat : BitVec 2) (s : State) : Out :=
  fin (prefetchData p tkt beats stat s)

/-! ### ACTIVATE and CONTEXT_DATA (04 R84, R86) -/

/-- An activation has its result; any but OK raises ACT_REFUSED (04 R86, Table 4.13). -/
def actEnd (result : Nat) (s : State) : State :=
  let r := s.rif.actRing
  let s := { s with rif := { s.rif with actPending := false, actResult := result } }
  if result = 0 then s else raiseErr .rif 0x0101 (fieldAt 24 result + r) (raiseEvt .rif 3 s)

/-- An activation begins: NOT_IDLE is judged at once, then the context is read on FAB[0] (04 R86). -/
def activate (r : Nat) (s : State) : State :=
  if s.rif.actPending then raiseErr .rif 0x0102 r s
  else
    let s := { s with rif := { s.rif with actPending := true, actRing := r } }
    if (ringOf r s).state = .idle then fetchContext r true s else actEnd 0x01 s

/-- ACTIVATE (04 R86). -/
def execActivate (r : RingId) (s : State) : Out := fin (csrDo .rif (activate r.toNat) s)

/-- Word n of a context image, and a field of it. -/
def ctxFld (w : List Word32) (n lo wd : Nat) : Nat := fieldOf ((w[n]?).getD 0).toNat lo wd

/-- The ring that a context image describes (04 Table 4.1). -/
def ctxRing (w : List Word32) : Ring :=
  { cq := decide (ctxFld w 0 31 1 = 1), express := decide (ctxFld w 0 30 1 = 1), size := ctxFld w 0 20 4,
    fn := ctxFld w 0 0 8, base := ctxFld w 1 0 32 + fieldAt 32 (ctxFld w 2 0 32), batchMax := ctxFld w 3 18 8,
    cqId := ctxFld w 3 0 18, vector := ctxFld w 3 0 11, pfDepth := ctxFld w 4 8 4, intervalE := ctxFld w 4 0 5,
    head := BitVec.ofNat 16 (ctxFld w 14 0 16) }

/-- The fields that must be zero are (04 Table 4.1, Table 4.3 code 0x05). -/
def ctxReservedOk (w : List Word32) : Bool :=
  let cq := decide (ctxFld w 0 31 1 = 1)
  decide (ctxFld w 0 24 6 = 0) && decide (ctxFld w 0 8 12 = 0)
  && !(cq && decide (ctxFld w 0 30 1 = 1))
  && (if cq then decide (ctxFld w 3 11 21 = 0) else decide (ctxFld w 3 26 6 = 0))
  && decide (ctxFld w 4 12 20 = 0) && decide (ctxFld w 4 5 3 = 0)
  && decide (ctxFld w 5 0 32 = 0) && decide (ctxFld w 6 0 32 = 0) && decide (ctxFld w 7 0 32 = 0)
  && decide (ctxFld w 10 0 32 = 0) && decide (ctxFld w 11 0 32 = 0) && decide (ctxFld w 12 0 32 = 0)
  && decide (ctxFld w 13 0 32 = 0) && decide (ctxFld w 14 16 16 = 0) && decide (ctxFld w 15 0 32 = 0)
  && (cq || decide (ctxFld w 14 0 16 = 0))

/-- BASE is aligned to the smaller of the ring's bytes and 4 KiB (04 R81). -/
def baseOk (g : Ring) : Bool := decide (g.base % min (ringUnits g * (if g.cq then 16 else 32)) 4096 = 0)

/-- Express rings in ACTIVE or ERROR (04 EXPRESS_COUNT). -/
def expressCount (s : State) : Nat :=
  (s.rif.rings.filter fun e => e.2.express && (decide (e.2.state = .active) || decide (e.2.state = .error))).length

/-- CQ_ID names an ACTIVE completion ring of the same function. -/
def cqOk (g : Ring) (s : State) : Bool :=
  let q := ringOf g.cqId s
  q.cq && decide (q.state = .active) && decide (q.fn = g.fn)

/-- A completion vector (15 R361). -/
def vectorOk (v : Nat) : Bool := decide (v = 0) || decide (512 ≤ v ∧ v ≤ 1071)

/-- The checks of Table 4.3 after the context has been read; 0 when all pass. -/
def actCheck (w : List Word32) (s : State) : Nat :=
  let g := ctxRing w
  if (fnOf g.fn s).enable = false then 0x02
  else if (fnOf g.fn s).busy then 0x03
  else if !ctxReservedOk w then 0x05
  else if g.size < 6 then 0x06
  else if !baseOk g then 0x07
  else if g.intervalE < (if g.cq || g.express then 7 else 10) ∨ 24 < g.intervalE then 0x08
  else if 8 < g.pfDepth ∨ (g.cq = true ∧ g.pfDepth ≠ 0) then 0x09
  else if g.express = true ∧ 64 ≤ expressCount s then 0x0A
  else if g.cq = false ∧ cqOk g s = false then 0x0B
  else if g.cq = true ∧ vectorOk g.vector = false then 0x0C
  else if g.cq = true ∧ g.head ≠ 0x8000 then 0x0D
  else 0

/-- The ring goes ACTIVE: INDEX 0, PHASE 1, CUR_E = INTERVAL_E, word 9 zero; words 8 and 9 are written back
(04 Table 4.2). Its first poll is due at once. -/
def goActive (r : Nat) (w : List Word32) (s : State) : State :=
  let old := ringOf r s
  let g := ctxRing w
  let s := setRing r { g with state := .active, phase := true, curE := g.intervalE, gen := old.gen + 1,
                              life := old.life + 1, wbOut := old.wbOut,
                              batchMax := if g.cq then 0 else g.batchMax, cqId := if g.cq then 0 else g.cqId,
                              vector := if g.cq then g.vector else 0, head := if g.cq then g.head else 0,
                              due := if g.cq then none else some s.cc } s
  actEnd 0 (writeBack r none (cacheRing r s))

/-- The context of an activation has been read (04 R86). -/
def actContext (r : Nat) (w : List Word32) (s : State) : State :=
  let c := actCheck w s
  if c = 0 then goActive r w s else actEnd c s

/-- A completion ring whose cached HEAD shows it full re-reads word 14 at once (04 R90). -/
def headNow (s : State) (g : Ring) : Ring :=
  if g.cq && cqFull g && g.headDue.isNone && !g.headRead then { g with headDue := some s.cc } else g

/-- A context that a poll, fetch or completion write needs has been read (04 R84): it enters the cache, with HEAD as
read, and the fetches that waited for it are issued. -/
def needContext (r : Nat) (w : List Word32) (s : State) : State :=
  let s := modRing r (fun g =>
    headNow s (if g.cq then { g with head := BitVec.ofNat 16 (ctxFld w 14 0 16) } else g)) s
  startFetches r (cacheRing r s)

/-- A context read has failed: FABRIC_CTX, or in a function reset a ring in error. -/
def contextLost (r : Nat) (s : State) : State :=
  if (ringOf r s).state = .fnResetting then modRing r (fun g => { g with wasErr := true }) s else ringError r 0x0C s

/-- The activation of ring r is pending. -/
def actAwaits (r : Nat) (s : State) : Bool := s.rif.actPending && decide (s.rif.actRing = r)

/-- A context read returns. A read of an activation that is pending no more is dropped, and so is that of a poll or
completion whose ring has gone IDLE; an activation of that ring waited for it and now reads the context. -/
def contextData (p : PortId) (tkt : BitVec 9) (beats : List (BitVec 512)) (stat : BitVec 2) (s : State) : State :=
  match readAt p tkt s with
  | some q =>
    match q.purpose with
    | .context r act =>
      if beatsMatch q beats then
        let s := modRing r (fun g => { g with ctxRead := false }) (readOver p tkt s)
        let w := wordsOf (readBytes q beats)
        if act then (if actAwaits r s then (if statOk stat then actContext r w s else actEnd 0x04 s) else s)
        else if (ringOf r s).state = .idle then (if actAwaits r s then fetchContext r true s else s)
        else if statOk stat then needContext r w s
        else contextLost r s
      else s
    | _ => s
  | none => s

/-- CONTEXT_DATA (04 R84). -/
def execContextData (p : PortId) (tkt : BitVec 9) (beats : List (BitVec 512)) (stat : BitVec 2) (s : State) : Out :=
  fin (contextData p tkt beats stat s)

/-! ### CONTEXT_WRITEBACK_RESPONSE (04 R83, R109) -/

/-- The RING_ERROR that waited for a write-back is reported. -/
def heldError (r : Nat) (report : Option Nat) (s : State) : State :=
  match report with
  | some c => reportRingError r c s
  | none => s

/-- A write-back has failed: an ACTIVE ring stops with FABRIC_CTX; of any other ring the page error alone reports the
stale copy (04 R109). -/
def staleCopy (r : Nat) (s : State) : State :=
  if (ringOf r s).state = .active then ringFault r 0x0C true s else raiseErr .rif 0x0100 (fieldAt 24 0x0C + r) s

/-- A write-back of a ring has its response: in the activation it belongs to, what it showed as consumed is shown
(04 R83), or the state in fabric memory is stale (04 R109). -/
def writtenBack (r life shows : Nat) (report : Option Nat) (ok : Bool) (s : State) : State :=
  let g := ringOf r s
  let now := decide (life = g.life)
  let s := setRing r { g with wbOut := g.wbOut.erase (life, shows),
                              shown := if ok && now then max g.shown shows else g.shown,
                              wbFailed := g.wbFailed || (now && !ok) } s
  let s := heldError r report s
  if ok then s else if now then staleCopy r s else raiseErr .rif 0x0100 (fieldAt 24 0x0C + r) s

/-- The response of a context write-back arrives. -/
def writebackResponse (p : PortId) (tkt : BitVec 9) (stat : BitVec 2) (s : State) : State :=
  match writeAt p tkt s with
  | some q =>
    match q.purpose with
    | .writeback r life shows report => writtenBack r life shows report (statOk stat) (writeOver p tkt s)
    | _ => s
  | none => s

/-- CONTEXT_WRITEBACK_RESPONSE (04 R83). -/
def execContextWritebackResponse (p : PortId) (tkt : BitVec 9) (stat : BitVec 2) (s : State) : Out :=
  fin (writebackResponse p tkt stat s)

/-! ### HEAD_DATA, POLL_DEMAND_UPDATE (04 R90, R103) -/

/-- HEAD as just read; a ring that is still full is read again after its interval. -/
def headRead (r : Nat) (v : BitVec 16) (s : State) : State :=
  let s := modRing r (fun g => { g with head := v, headRead := false }) s
  let g := ringOf r s
  if cqFull g then setRing r { g with headDue := some (s.cc + ringInterval g.curE s) } s else s

/-- Word 14 returns. -/
def headData (p : PortId) (tkt : BitVec 9) (beats : List (BitVec 512)) (stat : BitVec 2) (s : State) : State :=
  match readAt p tkt s with
  | some q =>
    match q.purpose with
    | .head r =>
      if beatsMatch q beats then
        let s := readOver p tkt s
        if statOk stat then headRead r (BitVec.ofNat 16 (leNat ((readBytes q beats).take 2))) s
        else ringError r 0x0D (modRing r (fun g => { g with headRead := false }) s)
      else s
    | _ => s
  | none => s

/-- HEAD_DATA (04 R90). -/
def execHeadData (p : PortId) (tkt : BitVec 9) (beats : List (BitVec 512)) (stat : BitVec 2) (s : State) : Out :=
  fin (headData p tkt beats stat s)

/-- 64 cc have passed since D was computed last (04 R103). -/
def pollDemandUpdate (s : State) : State :=
  if pageAnswers .rif s && decide (s.rif.demandDue ≤ s.cc) then updateDemand s else s

/-- POLL_DEMAND_UPDATE (04 R103). -/
def execPollDemandUpdate (s : State) : Out := fin (pollDemandUpdate s)

/-! ### COMPLETION_WRITE and its response (04 R83, R95 to R99, R109) -/

/-- The 16 bytes of a completion entry (04 Table 4.9). -/
def cplBytes (c : Cpl) (phase : Bool) : List Byte :=
  leBytes 4 (fieldAt 31 (bit phase) + fieldAt 16 (c.status % 256) + c.count % 65536) ++ leBytes 4 c.cookie.toNat
  ++ leBytes 4 c.frame.toNat ++ leBytes 4 (fieldAt 16 (c.tag % 65536) + fieldAt 8 (c.rung % 256) + c.maxbits % 256)

/-- The outcomes of the members of a completion are counted (05 R128). -/
def countCovers (c : Cpl) (s : State) : State :=
  c.covers.foldl (fun s t => countOutcome (tagOf t s).fn (tagOf t s).status (tagOf t s).refused s) s

/-- The write-back that a completion waits for has its response (04 R83); after a failed one it goes out in the
function reset only (04 R109). -/
def cplClear (c : Cpl) (s : State) : Bool :=
  let g := ringOf c.ring s
  decide (c.need ≤ g.shown) || (g.wbFailed && (decide (g.state = .fnResetting) || decide (g.state = .idle)))

/-- INDEX of a completion ring moves on one unit. -/
def advanceCq (g : Ring) : Ring :=
  if ringUnits g ≤ g.index + 1 then { g with index := 0, phase := !g.phase, dirty := true }
  else { g with index := g.index + 1, dirty := true }

/-- The completion that goes out next on a completion ring: the oldest that waits for no write-back, since one that
waits is not yet due (04 R83, R98) and one held past a failed write-back holds back no other (04 R109). -/
def cplNext (g : Ring) (s : State) : Option Cpl := g.cplDue.find? fun c => cplClear c s

/-- A completion is written at INDEX of its completion ring: RIF counters 3 and 4. A write that makes the ring full
makes the read of HEAD due at once (04 R90, R101). -/
def writeCpl (r : Nat) (c : Cpl) (s : State) : State :=
  let g := ringOf r s
  let s := countCovers c (if c.batch then bump .rif 4 (bump .rif 3 s) else bump .rif 3 s)
  let s := setRing r (headNow s { advanceCq g with cplDue := g.cplDue.erase c, cplOut := g.cplOut ++ [(g.index, c)] }) s
  fabWrite (fnPort g.fn)
    { addr := cplAddr g g.index, bytes := cplBytes c g.phase, kind := 1, purpose := .completion r g.index }
    (touchRing r s)

/-- A completion is discarded in a function reset (04 Table 4.12 step 4): RIF counter 8, its tags are released. -/
def discardCpl (c : Cpl) (s : State) : State := freeTags c.covers (countCovers c (bump .rif 8 s))

/-- The ring is being reset and was in ERROR, or is full by HEAD as last read (04 Table 4.12 step 4; DESIGN CHOICE, log
entry 37). -/
def cplDiscards (g : Ring) : Bool := decide (g.state = .fnResetting) && (g.wasErr || (g.cached && cqFull g))

/-- The completion due next on a completion ring is written, waits, or is discarded. -/
def completionWrite (r : Nat) (s : State) : State :=
  let g := ringOf r s
  match cplNext g s with
  | none => s
  | some c =>
    if g.cq = false ∨ pageAnswers .rif s = false ∨ ¬(g.state = .active ∨ g.state = .fnResetting) then s
    else if cplDiscards g then discardCpl c (setRing r { g with cplDue := g.cplDue.erase c } s)
    else if g.cached = false then fetchContext r false s
    else if cqFull g then setRing r (headNow s g) s
    else writeCpl r c s

/-- COMPLETION_WRITE (04 R98). -/
def execCompletionWrite (r : RingId) (s : State) : Out := fin (completionWrite r.toNat s)

/-- The completion written at a unit has its response: its tags are released and the VECTOR is raised (04 R97, R98).
A failed write loses it, and so does a failure of its ring by another cause meanwhile: its tags stay allocated until the
function is reset (04 R109). -/
def cplWritten (r u : Nat) (ok : Bool) (s : State) : State :=
  let g := ringOf r s
  match g.cplOut.find? fun e => decide (e.1 = u) with
  | none => s
  | some (_, c) =>
    let s := setRing r { g with cplOut := g.cplOut.filter fun e => !decide (e.1 = u) } s
    if g.state = .fnResetting ∧ (ok = false ∨ g.wasErr = true) then freeTags c.covers (bump .rif 8 s)
    else if ok = true ∧ g.state ≠ .error then raiseVector g.fn g.vector (freeTags c.covers s)
    else ringError r 0x0D (modRing r (fun g => { g with lost := g.lost ++ [c.covers] }) s)

/-- The response of a completion write arrives. -/
def completionWriteResponse (p : PortId) (tkt : BitVec 9) (stat : BitVec 2) (s : State) : State :=
  match writeAt p tkt s with
  | some q =>
    match q.purpose with
    | .completion r u => cplWritten r u (statOk stat) (writeOver p tkt s)
    | _ => s
  | none => s

/-- COMPLETION_WRITE_RESPONSE (04 R98). -/
def execCompletionWriteResponse (p : PortId) (tkt : BitVec 9) (stat : BitVec 2) (s : State) : Out :=
  fin (completionWriteResponse p tkt stat s)

/-! ### Function resets (04 R111) -/

/-- Rings of function f in some states. -/
def fnRings (f : Nat) (st : RingState → Bool) (s : State) : List Nat :=
  (s.rif.rings.filter fun e => decide (e.2.fn = f) && st e.2.state).map (·.1)

/-- ACTIVE or ERROR. -/
def stopsAtReset : RingState → Bool
  | .idle => false
  | .active => true
  | .error => true
  | .fnResetting => false

/-- One ring enters FN_RESETTING, with ERR_CAUSE 0 (04 Table 4.1): polls, fetches and prefetched entries are dropped,
a hold on it ends, its open batch closes, and the tags of lost completions are released (04 Table 4.12 steps 1 and 4,
R109). -/
def resetRing (r : Nat) (s : State) : State :=
  let s := dropFetches r s
  let s := if (s.rif.hold.map (·.1)) = some r then { s with rif := { s.rif with hold := none } } else s
  let lost := (ringOf r s).lost
  let s := modRing r (fun g => { g with state := .fnResetting, wasErr := decide (g.state = .error), errCause := 0,
                                        lost := [], dirty := true }) s
  closeBatch r (freeTags lost.flatten (bumpBy .rif 8 lost.length s))

/-- A die operation of tag t is in progress: on its array, in data-in, or on a bus (04 Table 4.12 steps 2 and 3). -/
def opInProgress (t : Nat) (s : State) : Bool :=
  (s.sch.dies.any fun e =>
    e.2.run.any (fun o => o.ids.contains t) || e.2.held.any (fun o => o.ids.contains t)
    || e.2.dataIn.any (fun o => o.1.ids.contains t))
  || s.chn.any fun e => match e.2.act with
      | some (.transfer x, _) => decide (x.id = t)
      | some (.readId _, _) => decide ((e.2.census.bind (·.2)) = some t)
      | _ => false

/-- The tags of a function without a die operation in progress commit ABORTED_FN_RESET (04 Table 4.12 step 2), those
included that an event of this cc has committed which R20 puts later. -/
def abortTags (f : Nat) (s : State) : State :=
  ((liveTags s).filter fun t => decide ((tagOf t s).fn = f) && reachedNow t rankReset s && !opInProgress t s).foldl
    (fun s t => commitTag t stFnReset rankReset s) s

/-- Completions that wait on the completion rings of f in ERROR are discarded (04 R109). -/
def discardDue (r : Nat) (s : State) : State :=
  let g := ringOf r s
  if g.cq && g.wasErr then g.cplDue.foldl (fun s c => discardCpl c s) (setRing r { g with cplDue := [] } s)
  else s

/-- A reset of function f begins (04 Table 4.12 steps 1 and 2). -/
def fnReset (f : Nat) (s : State) : State :=
  if (fnOf f s).busy then s
  else
    let rs := fnRings f stopsAtReset s
    let s := modFn f (fun x => { x with busy := true }) s
    let s := rs.foldl (fun s r => resetRing r s) s
    let s := rs.foldl (fun s r => discardDue r s) s
    let s := abortTags f s
    (s.sch.dies.map (·.1)).foldl (fun s d => recheck d s) s

/-- FN_RESET (04 R111). -/
def execFnReset (f : FnId) (s : State) : Out := fin (csrDo .rif (fnReset f.toNat) s)

/-- FN_RESETTING. -/
def isResetting : RingState → Bool
  | .fnResetting => true
  | _ => false

/-- A ring goes IDLE at the end of a function reset: STATE is written back, its context leaves the cache
(04 Table 4.2). -/
def idleRing (r : Nat) (s : State) : State :=
  let s := writeBack r none (modRing r (fun g => { g with state := .idle, errCause := 0, errIndex := 0 }) s)
  modRing r (fun g => { fn := g.fn, cq := g.cq, gen := g.gen + 1, life := g.life, wbOut := g.wbOut, ctxRead := g.ctxRead }) s

/-- No tag of the function remains (04 Table 4.12 step 5). -/
def fnResetDone (f : Nat) (s : State) : State :=
  if (fnOf f s).busy && !fnHasTag f s then
    let s := (fnRings f isResetting s).foldl (fun s r => idleRing r s) s
    raiseEvt .rif 2 (modFn f (fun x => { x with busy := false }) s)
  else s

/-- FN_RESET_DONE (04 R111). -/
def execFnResetDone (f : FnId) (s : State) : Out := fin (fnResetDone f.toNat s)

/-! ### INVAL_RANGE (04 R107) -/

/-- COUNT_M1 and FIRST as written. -/
def invalFields (count first : Nat) (s : State) : State :=
  setReg .rif oRifInvalRange (fieldAt 16 count + first) s

/-- What is being read of a ring is dropped when it returns; the follow-on units of the entry at INDEX are to be read
again. -/
def cutReads (r : Nat) (s : State) : State :=
  modRing r (fun g => { g with gen := g.gen + 1, polling := false, pfAwait := 0, pfGot := [], pfHeld := none, got := [],
                               fetchHeld := g.partialUnit.isSome }) s

/-- The hold drops the prefetched units in its range (RIF counter 7), what is offered there, and every read in flight,
whose data may be older than a rewrite. -/
def applyHold (r : Nat) (s : State) : State :=
  let g := ringOf r s
  let gone := (g.prefetched.filter fun u => unitHeld r u.1 s).length
  let s := bumpBy .rif 7 gone (setRing r { g with prefetched := g.prefetched.filter fun u => !unitHeld r u.1 s } s)
  let len := match g.offer, g.partialUnit with
    | some e, _ => eLen e
    | none, some w => eLen { ring := r, unit := g.index, words := w }
    | none, none => 0
  let g := ringOf r s
  if (g.offer.isSome || g.partialUnit.isSome) && entryHeld r g.index len s then
    let s := cutReads r s
    modRing r (fun g => { g with offer := none, partialUnit := none, due := none, fetchHeld := false }) s
  else if g.polling || decide (g.pfAwait ≠ 0) then
    startFetches r (modRing r (fun x => { x with due := if g.polling then some s.cc else x.due }) (cutReads r s))
  else s

/-- A hold is placed on the ring named in INVAL_RING, or refused (04 R107). COUNT_M1 and FIRST are stored
in either case (DESIGN CHOICE, log entry 38). -/
def invalHold (count first : Nat) (s : State) : State :=
  let r := regFld .rif oRifInvalRing 0 18 s
  let s := invalFields count first s
  let g := ringOf r s
  if g.state = .active ∧ s.rif.hold = none then
    let s := { s with rif := { s.rif with hold := some (r, first % ringUnits g, count + 1),
                                          invalStat := fieldAt 15 (bit g.phase) + g.index } }
    applyHold r s
  else raiseErr .rif 0x0103 r s

/-- INVAL_HOLD (04 R107). -/
def execInvalHold (count first : BitVec 15) (s : State) : Out :=
  fin (csrDo .rif (invalHold count.toNat first.toNat) s)

/-- The hold in place ends; its ring's next poll is due at once, and data read under the hold is dropped (04 R107). -/
def invalRelease (s : State) : State :=
  match s.rif.hold with
  | none => s
  | some (r, _, _) =>
    let s := { s with rif := { s.rif with hold := none } }
    if (ringOf r s).state = .active then
      let s := modRing r (fun g =>
        if g.offer = none ∧ g.partialUnit = none then { g with due := some s.cc } else g) (cutReads r s)
      presentAll 64 r (startFetches r s)
    else s

/-- INVAL_RELEASE: with RELEASE = 1 the other fields are ignored (04 R107). -/
def execInvalRelease (_count _first : BitVec 15) (s : State) : Out := fin (csrDo .rif invalRelease s)

end Sys2Proof.Machine
end

