-- ==== Sys2Proof/Machine/Operations.lean ====
section
/-!
DEFINITION. The commands of OPS: one per opcode that takes the entry a ring offers (05 R113 to R118), the commitment of
a FENCE (05 R123), expiry (05 R119, R120) and the registers EARLY_POP and TAG_SEL (05 R129).
-/

namespace Sys2Proof.Machine

/-! ### Taking an entry, by opcode (04 Table 4.7) -/

/-- READ (05 R116). -/
def execRead (r : RingId) (s : State) : Out := fin (takeEntry opRead r.toNat s)

/-- READ_MP (05 R116). -/
def execReadMp (r : RingId) (s : State) : Out := fin (takeEntry opReadMp r.toNat s)

/-- PROGRAM (05 R116). -/
def execProgram (r : RingId) (s : State) : Out := fin (takeEntry opProgram r.toNat s)

/-- ERASE: its intent joins the forming batch of the erase journal (14 R350). -/
def execErase (r : RingId) (s : State) : Out := fin (takeEntry opErase r.toNat s)

/-- DESTAGE: its sector records are allocated (12 R288). -/
def execDestage (r : RingId) (s : State) : Out := fin (takeEntry opDestage r.toNat s)

/-- STAGE: it is armed in admission order (12 R298). -/
def execStage (r : RingId) (s : State) : Out := fin (takeEntry opStage r.toNat s)

/-- COPY: its source read is queued (10 R237). -/
def execCopy (r : RingId) (s : State) : Out := fin (takeEntry opCopy r.toNat s)

/-- FENCE (05 R123). -/
def execFence (r : RingId) (s : State) : Out := fin (takeEntry opFence r.toNat s)

/-- NOP without SKIP: it commits OK at admission (05 R116, Table 5.5). -/
def execNop (r : RingId) (s : State) : Out := fin (takeEntry opNop r.toNat s)

/-- CENSUS (14 R339). -/
def execCensus (r : RingId) (s : State) : Out := fin (takeEntry opCensus r.toNat s)

/-- CALIBRATE (11 R264). -/
def execCalibrate (r : RingId) (s : State) : Out := fin (takeEntry opCalibrate r.toNat s)

/-- FEATURE_GET (04 R92, 08 R167). -/
def execFeatureGet (r : RingId) (s : State) : Out := fin (takeEntry opFeatureGet r.toNat s)

/-- FEATURE_SET (08 R167). -/
def execFeatureSet (r : RingId) (s : State) : Out := fin (takeEntry opFeatureSet r.toNat s)

/-- RAW: it gets the status PERMISSION (04 R93). -/
def execRaw (r : RingId) (s : State) : Out := fin (takeEntry opRaw r.toNat s)

/-! ### FENCE_COMMIT (05 R123) -/

/-- An admitted FENCE whose scope has committed commits OK, and the entries behind it are admitted in the order
taken. -/
def fenceCommit (t : Nat) (s : State) : State :=
  if ((tagOf t s).state = .queued ∨ (tagOf t s).state = .committed ∧ reachedNow t rankOwn s = true) ∧ eOpcode (tagOf t s).entry = opFence ∧ fenceClear t s = true then
    admitFenced (commitTag t stOk rankOwn s)
  else s

/-- FENCE_COMMIT (05 R123). -/
def execFenceCommit (t : TagId) (s : State) : Out := fin (fenceCommit t.toNat s)

/-! ### EXPIRY (05 R119, R120) -/

/-- The tag stands in the comparator and its deadline has been reached while TMB runs (01 R15, 06 R133). -/
def expires (t : Nat) (s : State) : Bool :=
  let x := tagOf t s
  tagOpen t s && x.armed && !x.withdrawn && decide (s.tmb.state ≠ .off) && reached (eDeadline x.entry) s

/-- The deadline of a tag is reached: DEADLINE_MISSED, or, once the confirm cycle of its program or erase has been
issued, the deadline is withdrawn. -/
def expire (t : Nat) (s : State) : State :=
  if expires t s then
    if (tagOf t s).confirmed then modTag t (fun x => { x with withdrawn := true, armed := false }) s
    else endTag t stMissed rankExpiry s
  else s

/-- EXPIRY (05 R119). -/
def execExpiry (t : TagId) (s : State) : Out := fin (expire t.toNat s)

/-! ### Registers (05 R114, R129) -/

/-- The oldest record of EARLY_LOG is removed; no effect when the log is empty. -/
def earlyPop (s : State) : State := { s with ops := { s.ops with earlyLog := s.ops.earlyLog.tail } }

/-- EARLY_POP (05 R129). -/
def execEarlyPop (s : State) : Out := fin (csrDo .ops earlyPop s)

/-- STATE codes (05 Table 5.1). -/
def tagStateCode : TagState → Nat
  | .free => 0
  | .fenced => 1
  | .queued => 2
  | .issued => 3
  | .pairWait => 4
  | .committed => 5

/-- A write of TAG_SEL: the row of the tag is taken into TAG_INFO0 to TAG_INFO3 (05 R114). A FREE tag shows zeros, and
STATUS is zero outside COMMITTED (DESIGN CHOICE, log entry 134). -/
def tagSel (t : Nat) (s : State) : State :=
  let x := tagOf t s
  let e := x.entry
  let s := readWord 1 t s
  let live := decide (x.state ≠ .free)
  let dl := live && decide (eClass e ≠ clsNone)
  let s := setReg .ops oOpsTagSel t s
  let s := setReg .ops oOpsTagInfo0 (if live then
    fieldAt 28 (tagStateCode x.state) + fieldAt 16 (eOpcode e) + fieldAt 8 (x.fn % 256) + eClass e else 0) s
  let s := setReg .ops oOpsTagInfo1 (if live then
    fieldAt 24 (if x.state = .committed then x.status % 256 else 0) + e.ring % 262144 else 0) s
  let s := setReg .ops oOpsTagInfo2 (if dl then (eDlFrame e).toNat else 0) s
  setReg .ops oOpsTagInfo3 (if dl then eDlFrac e else 0) s

/-- TAG_SEL (05 R114). -/
def execTagSel (t : TagId) (s : State) : Out := fin (csrDo .ops (tagSel t.toNat) s)

end Sys2Proof.Machine
end

