-- ==== Sys2Proof/Machine/Secure.lean ====
section
/-!
DEFINITION. The commands of SEC (09 R217 to R225): patch loads, the boot fetch's limit, the rollback fuses and the
raw-command gate.
-/

namespace Sys2Proof.Machine

/-- SEC's protected registers are closed: LOCK.LOCKED is 1 or CTRL.ENABLE is 0 (09 R221). -/
def secClosed (s : State) : Bool := (hdrOf .sec s).locked || !(hdrOf .sec s).enable

/-! ### Loads (09 R217, R218) -/

/-- Image address. -/
def loadAddr (s : State) : Nat := regOf .sec oSecLoadAddr s

/-- Bytes of the image are requested on FAB[0] as SEC DMA. -/
def loadFetch (off len : Nat) (s : State) : State :=
  let a := loadAddr s + off
  let s := { s with sec.load := s.sec.load.map fun l => { l with waiting := l.waiting + writeCount a len, got := [] } }
  fabReads 0 a len 2 (fun i => .load (off + i)) s

/-- A write of 1 to LOAD_START: refused while SEC is closed (LOCKED_WRITE) or a load runs (LOAD_BUSY), else a load
begins with its header: counter 0. -/
def loadStart (s : State) : State :=
  if secClosed s then errLocked .sec oSecLoadStart s
  else if s.sec.load.isSome then raiseErr .sec 0x0104 0 s
  else loadFetch 0 128 (bump .sec 0 { s with sec.load := some {} })

/-- LOAD_START (09 R217). -/
def execLoadStart (s : State) : Out := fin (csrDo .sec loadStart s)

/-- Nothing of the load is awaited any more: the header is judged and the body requested, or the image is complete. -/
def loadArrived (l : Load) (s : State) : State :=
  if l.result ≠ 1 then loadReject l.result s
  else match l.phase with
    | .header =>
      let h := loadImage l
      let r := loadHeader h s
      if r.2 then
        let s := loadFetch 128 (bodyLen h + 80) r.1
        { s with sec.load := s.sec.load.map fun l => { l with got := [(0, h)] } }
      else r.1
    | .body => { s with sec.load := some { l with phase := .verify } }
    | .verify => s

/-- Data of the image returns; a non-OKAY response makes the load end FABRIC once every response has come. -/
def loadData (p : PortId) (tkt : BitVec 9) (beats : List (BitVec 512)) (stat : BitVec 2) (s : State) : State :=
  match readAt p tkt s with
  | none => s
  | some q =>
    match q.purpose with
    | .load off =>
      if statOk stat && !beatsMatch q beats then s
      else
        let s := readOver p tkt s
        match s.sec.load with
        | none => s
        | some l =>
          if l.boot then s
          else
            let l := { l with waiting := l.waiting - 1 }
            let l := if statOk stat then { l with got := SMap.put (fun _ => []) l.got off (readBytes q beats) }
              else { l with result := 0x03 }
            let s := { s with sec.load := some l }
            if l.waiting = 0 then loadArrived l s else s
    | _ => s

/-- LOAD_DATA (09 R217). -/
def execLoadData (p : PortId) (tkt : BitVec 9) (beats : List (BitVec 512)) (stat : BitVec 2) (s : State) : Out :=
  fin (loadData p tkt beats stat s)

/-- The checks after the last byte have ended, and the load with them. -/
def loadVerifyEnd (s : State) : State :=
  match s.sec.load with
  | some l =>
    if l.phase = LoadPhase.verify then
      let c := bodyCheck (loadImage l)
      if c = 1 then loadAccept l s else loadReject c s
    else s
  | none => s

/-- LOAD_VERIFY_END (09 R218). -/
def execLoadVerifyEnd (s : State) : Out := fin (loadVerifyEnd s)

/-- Volume 0 of CHN[0] has not been brought up within 10 ms after G0 is ON (09 R222). -/
def bootTimeout (s : State) : State :=
  if (s.sec.boot = .channelWait ∨ s.sec.boot = .bringUp) ∧ s.sec.bootOn + usCc 10000 ≤ s.cc then bootFail s else s

/-- BOOT_FETCH_TIMEOUT (09 R222). -/
def execBootFetchTimeout (s : State) : Out := fin (bootTimeout s)

/-! ### Rollback fuses (09 R220) -/

/-- A write of n to ROLL_ADV is accepted. -/
def rollAccepts (n : Nat) (s : State) : Bool :=
  (s.sec.loadedBur || s.sec.loadedGrv) && decide (n ≤ s.sec.svn) && decide (rollCount s < n) && s.sec.burnTo.isNone

/-- A write to ROLL_ADV: LOCKED_WRITE while SEC is closed, ROLL_REFUSED, or a burn begins. -/
def rollAdv (n : Nat) (s : State) : State :=
  if secClosed s then errLocked .sec oSecRollAdv s
  else if rollAccepts n s then { s with sec.burnTo := some n }
  else raiseErr .sec 0x0103 n s

/-- ROLL_ADV (09 R220). -/
def execRollAdv (target : BitVec 7) (s : State) : Out := fin (csrDo .sec (rollAdv target.toNat) s)

/-- One fuse of the burn is blown; with the last ROLL_DONE is raised. -/
def fuseBurn (s : State) : State :=
  match s.sec.burnTo with
  | none => s
  | some n =>
    if corePowered s then
      let s := { s with sec.burned := s.sec.burned + 1 }
      if n ≤ rollCount s then raiseEvt .sec 3 { s with sec.burnTo := none } else s
    else s

/-- FUSE_BURN (09 R220). -/
def execFuseBurn (s : State) : Out := fin (fuseBurn s)

/-! ### The raw-command gate (09 R223 to R225) -/

/-- A write to UNLOCK: LOCKED_WRITE while SEC is closed. -/
def unlockWrite (key : Nat) (s : State) : State :=
  if secClosed s then errLocked .sec oSecUnlock s else unlock key s

/-- UNLOCK (09 R223). -/
def execUnlock (key : BitVec 16) (s : State) : Out := fin (csrDo .sec (unlockWrite key.toNat) s)

/-- RAW_START: a write of RAW_CMD, RAW_ADDR or RAW_DATA (09 R223, R224). -/
def execRawStart (reg : RawReg) (data : Word64) (s : State) : Out :=
  fin (csrDo .sec (rawWrite reg (data.toNat &&& rawMask reg)) s)

/-- RAW_WAIT_TIMEOUT (09 R225). -/
def execRawWaitTimeout (s : State) : Out := fin (rawTimeout s)

end Sys2Proof.Machine
end

