-- ==== Sys2Proof/Machine/LevelsCommands.lean ====
section
/-!
DEFINITION. The commands of LVL (11 R259 to R262): the load of the factory tables, their lock, temperature samples.
-/

namespace Sys2Proof.Machine

/-! ### The factory tables (11 R259, R260) -/

/-- LOAD_CTRL is written with START = 1: BLOCK and DIE are stored; ignored while a load runs, ended with RESULT LOCKED
while the lock is set, else the load begins with page 0. -/
def levelLoad (block d : Nat) (s : State) : State :=
  let v := fieldAt 12 block + d
  let s := setReg .lvl oLvlLoadCtrl v s
  if s.lvl.loadBusy then s
  else if s.lvl.locked then { s with lvl.loadResult := 2 }
  else readLevelPage 0 { s with lvl := { s.lvl with loadBusy := true, loadResult := 0, loadFrom := v, loadBytes := [] } }

/-- LEVEL_LOAD (11 R259). -/
def execLevelLoad (block : BitVec 14) (d : DieId) (s : State) : Out :=
  fin (csrDo .lvl (levelLoad block.toNat d.toNat) s)

/-- FACTORY_LOCK.LOCKED is set until the next L3 reset. -/
def lockFactory (s : State) : State := { s with lvl.locked := true }

/-- FACTORY_LOCK_SET (11 R260). -/
def execFactoryLockSet (s : State) : Out := fin (csrDo .lvl lockFactory s)

/-! ### Temperature (11 R261) -/

/-- Frames between samples of one die. -/
def tempInterval (s : State) : Nat := regFld .lvl oLvlTempCfg 0 8 s

/-- The frame is one in which LVL samples the die. -/
def tempFrame (f : Word32) (d : Nat) (s : State) : Bool :=
  decide (tempInterval s ≠ 0) && decide ((Int.ofNat f.toNat - Int.ofNat d) % Int.ofNat (tempInterval s) = 0)

/-- The roster entry of a die is PRESENT. -/
def diePresent (d : Nat) (s : State) : Bool := (rosterOf d s).valid && decide ((rosterOf d s).state = .present)

/-- A sample of the die is due in the running frame and has not been taken in it. -/
def tempDue (d : Nat) (s : State) : Bool :=
  let t := tempOf d s
  pageActive .lvl s && diePresent d s && decide (tempInterval s ≠ 0)
  && (t.owed || (tempFrame s.tmb.frame d s && decide (t.temp = none ∨ t.age ≠ 0)))

/-- The sample begins when the die is IDLE and the bus is free for it; no sample in Doze (13 R321). -/
def tempSample (d : Nat) (s : State) : State :=
  let c := dieChannel d
  if tempDue d s && dieQuiet d s && !outPending d s && mayStart c s && burinDrives c s && !decide (s.pwr.state = .doze)
      && busTakes c (.feature d) s then
    let o : DieOp := { kind := .tempGet, ids := [], planes := 0, block := 0, page := 0, slc := false, rung := 0,
                       attempt := 0, key := ⟨0, 0⟩, inArray := false, since := s.cc, ran := 0, pollAt := 0,
                       dropped := false }
    let s := pushJob c (plainJob 7 d none ⟨0, 0⟩ s) s
    goAct c (.feature d) (modDie d (fun x => { x with run := some o, state := .busy }) s)
  else s

/-- TEMP_SAMPLE (11 R261). -/
def execTempSample (d : DieId) (s : State) : Out := fin (tempSample d.toNat s)

/-- TEMP_INFO of a die. -/
def tempInfo (d : Nat) (s : State) : Nat :=
  let t := tempOf d s
  fieldAt 31 (bit t.temp.isSome) + fieldAt 24 (bandNow d s % 4) + fieldAt 8 (satTo 65535 t.age)
  + ofSigned 8 (t.temp.getD 0)

/-- TEMP_SEL is written: TEMP_INFO takes the die. -/
def tempSel (d : Nat) (s : State) : State := setReg .lvl oLvlTempInfo (tempInfo d s) (setReg .lvl oLvlTempSel d s)

/-- TEMP_SEL (11 R280). -/
def execTempSel (d : DieId) (s : State) : Out := fin (csrDo .lvl (tempSel d.toNat) s)

end Sys2Proof.Machine
end

