-- ==== Sys2Proof/Machine/MapCommands.lean ====
section
/-!
DEFINITION. The commands of MAP (14): loads, writes and conflicts of the map, marks, the roster, the journal and
recovery.
-/

namespace Sys2Proof.Machine

/-! ### MAP_CMD (14 R347, MAP_CMD) -/

/-- Results. -/
def mapOk : Nat := 1
def mapBadState : Nat := 2
def mapBadConfig : Nat := 3
def mapIsBusy : Nat := 4
def mapBadSource : Nat := 5
def mapFactory : Nat := 6
def mapFull : Nat := 7

/-- A command is refused: LAST_RESULT and error CMD_REFUSED. -/
def mapRefuse (cmd r : Nat) (s : State) : State :=
  raiseErr .map 0x0100 (fieldAt 8 cmd + r) { s with map.lastResult := r }

/-- A command is accepted. -/
def mapAccept (s : State) : State := { s with map.lastResult := mapOk }

/-- EMPTY or FAILED. -/
def mapUnset (s : State) : Bool := decide (s.map.state = .empty) || decide (s.map.state = .failed)

/-- The copy dies are PRESENT and in three rail groups. -/
def copiesPlaced (s : State) : Bool :=
  let d := fun k => locDie (copyLoc k s)
  ([0, 1, 2].all fun k => diePresent (d k) s)
  && decide (dieGroup (d 0) ≠ dieGroup (d 1)) && decide (dieGroup (d 1) ≠ dieGroup (d 2))
  && decide (dieGroup (d 0) ≠ dieGroup (d 2))

/-- Two journal locations lie on two channels and name dies that are PRESENT. -/
def jrnlPlaced (i j : Nat) (s : State) : Bool :=
  let a := locDie (jrnlLoc i s)
  let b := locDie (jrnlLoc j s)
  decide (dieChannel a ≠ dieChannel b) && diePresent a s && diePresent b s

/-- A command is judged: BAD_STATE while MAP is disabled, BUSY, BAD_STATE, then its own result; 0 runs it (log entry
21). -/
def mapCommand (cmd : Nat) (stateOk : Bool) (own : Nat) (run : State → State) (s : State) : State :=
  if !pageActive .map s then mapRefuse cmd mapBadState s
  else if mapBusy s then mapRefuse cmd mapIsBusy s
  else if !stateOk then mapRefuse cmd mapBadState s
  else if own ≠ 0 then mapRefuse cmd own s
  else run (mapAccept s)

/-- Copies 0 to 2 are read (14 R344). -/
def mapLoadRun (s : State) : State :=
  let s := { s with map := { s.map with state := .loading, copies := [], valid := 0 } }
  readCopyPage 2 0 (readCopyPage 1 0 (readCopyPage 0 0 s))

/-- CMD LOAD. -/
def mapLoad (s : State) : State :=
  mapCommand 1 (mapUnset s)
    (if regOf .map oMapImgBase s = 0 ∨ copiesPlaced s = false then mapBadConfig else 0) mapLoadRun s

/-- MAP_LOAD (14 R347). -/
def execMapLoad (s : State) : Out := fin (csrDo .map mapLoad s)

/-- The working map is empty, GEN as written. -/
def mapInitRun (s : State) : State :=
  renewMarks 0 { s with map := { s.map with state := .ready, marks := [], disputed := [], added := [], addedAt := [] } }

/-- CMD INIT. -/
def mapInit (s : State) : State := mapCommand 2 (mapUnset s) 0 mapInitRun s

/-- MAP_INIT (14 R347). -/
def execMapInit (s : State) : Out := fin (csrDo .map mapInit s)

/-- Copies are written from a snapshot of the working map, one at a time (14 R349). -/
def writeCopies (todo : List Nat) (rewrite : Bool) (s : State) : State :=
  startCopy { s with
    map.copyOk := 0,
    map.write := some { entries := s.map.marks, todo := todo, pages := 0, erased := false, failed := false,
                        rewrite := rewrite } }

/-- GEN + 1; WRITING. -/
def mapWriteRun (s : State) : State :=
  writeCopies [0, 1, 2] false (hwBit .map oMapGen 0 { s with map := { s.map with gen := s.map.gen + 1, state := .writing } })

/-- CMD WRITE. -/
def mapWrite (s : State) : State :=
  mapCommand 3 (decide (s.map.state = .ready)) (if copiesPlaced s then 0 else mapBadConfig) mapWriteRun s

/-- MAP_WRITE (14 R349). -/
def execMapWrite (s : State) : Out := fin (csrDo .map mapWrite s)

/-- The working map is settled by source k, a copy's entries with the marks added since the load, or by UNION; all three
copies are written (14 R348). -/
def mapResolveRun (k : Nat) (s : State) : State :=
  let marks := if k = 3 then s.map.marks else s.map.added.foldl (fun l w => putMark w l) (copyOf k s).entries
  writeCopies [0, 1, 2] false
    (renewMarks 0 { s with map := { s.map with marks := marks, disputed := [], state := .writing } })

/-- CMD RESOLVE. -/
def mapResolve (k : Nat) (s : State) : State :=
  mapCommand 4 (decide (s.map.state = .conflict))
    (if k ≠ 3 ∧ s.map.valid.getLsbD k = false then mapBadSource
      else if copiesPlaced s then 0 else mapBadConfig)
    (mapResolveRun k) s

/-- MAP_RESOLVE (14 R348). -/
def execMapResolve (arg : BitVec 2) (s : State) : Out := fin (csrDo .map (mapResolve arg.toNat) s)

/-- A recovery begins with the first page of the first journal die. -/
def mapRecoverRun (peer : Bool) (s : State) : State :=
  scanPage peer 0 0 0 { s with map.recover := some { peer := peer } }

/-- CMD RECOVER: ARG 0 while the journal is STOPPED, ARG 1 for the peer's; 2 and 3 are reserved (03 R65). -/
def mapRecover (arg : Nat) (s : State) : State :=
  if 1 < arg then errReserved .map oMapMapCmd 0 s
  else
    let i := 2 * arg
    mapCommand 5 (decide (arg = 1) || decide (s.map.jrnl = .stopped)) (if jrnlPlaced i (i + 1) s then 0 else mapBadConfig)
      (mapRecoverRun (decide (arg = 1))) s

/-- MAP_RECOVER (14 R355). -/
def execMapRecover (arg : BitVec 2) (s : State) : Out := fin (csrDo .map (mapRecover arg.toNat) s)

/-- Both blocks of both journal dies are erased; a page in writing is given up, its intents wait again (14 R353). -/
def jrnlInitRun (s : State) : State :=
  let js := (s.map.jobs.filter fun e => match e.2 with
    | some (.jrnlErase _ _) => true
    | _ => false).map (·.1)
  let s := js.foldl (fun s id => dropJob id (dropWork id s)) (abandonPage s)
  let s := { s with map := { s.map with jrnl := .stopped, jfirst := false, jinit := some 4 } }
  [(0, 0), (0, 1), (1, 0), (1, 1)].foldl (fun s x =>
    let l := jrnlLoc x.1 s
    startJob (.jrnlErase x.1 x.2) .jobErase (locDie l) (locPlane l) (locBlock l + x.2) 0 true 0 0 0 s) s

/-- CMD JRNL_INIT. -/
def jrnlInit (s : State) : State := mapCommand 6 true (if jrnlPlaced 0 1 s then 0 else mapBadConfig) jrnlInitRun s

/-- JRNL_INIT (14 R353). -/
def execJrnlInit (s : State) : Out := fin (csrDo .map jrnlInit s)

/-! ### Resolution of a load (14 R346, R348) -/

/-- The valid copies of a load. -/
def validCopies (s : State) : List Nat := [0, 1, 2].filter fun k => (copyOf k s).valid

/-- The generations of two copies lie exactly 2^31 apart. -/
def gensApart (v : List Nat) (s : State) : Bool :=
  v.any fun i => v.any fun j => frameUndecidable (copyOf i s).gen (copyOf j s).gen

/-- The copies of v than which none in v is later. -/
def topCopies (v : List Nat) (s : State) : List Nat :=
  v.filter fun i => !v.any fun j => frameLater (copyOf j s).gen (copyOf i s).gen

/-- Equal LENGTH and CRC. -/
def copiesSame (l : List Nat) (s : State) : Bool :=
  l.all fun i => l.all fun j => decide ((copyOf i s).len = (copyOf j s).len) && decide ((copyOf i s).crc = (copyOf j s).crc)

/-- A mark joins a union of copies; the factory kind wins. -/
def unionMark (l : List Word32) (w : Word32) : List Word32 :=
  match markIn (markKey w) l with
  | some o => if markKind o = 1 then l else putMark w l
  | none => putMark w l

/-- Conflict: the union of every valid copy; a mark that is not in each of them with the same kind is disputed. -/
def mapConflict (v : List Nat) (s : State) : State :=
  let all := (v.flatMap fun k => (copyOf k s).entries).foldl unionMark []
  let open' := all.filter fun w => !v.all fun k => (copyOf k s).entries.contains w
  renewMarks 0 { s with map := { s.map with state := .conflict, marks := all, disputed := open', added := [],
                                            addedAt := [] } }

/-- The winners' map is taken; the losers are rewritten. -/
def mapTake (t : List Nat) (s : State) : State :=
  let c := copyOf (t.headD 0) s
  let m := { s.map with
    state := .ready, marks := c.entries, disputed := [], added := [], addedAt := [], gen := c.gen }
  let s := raiseEvt .map 3 (hwBit .map oMapGen 0 (renewMarks 0 { s with map := m }))
  let losers := [0, 1, 2].filter fun k => !t.contains k
  if losers.isEmpty then s else writeCopies losers true s

/-- VALID bits of the copies. -/
def validBits (v : List Nat) : BitVec 3 := BitVec.ofNat 3 (v.foldl (fun a k => a + 2 ^ k) 0)

/-- Every copy of the load has been judged: R346. -/
def copiesResolved (s : State) : State :=
  if s.map.state = .loading ∧ [0, 1, 2].all (fun k => (copyOf k s).judged) = true then
    let v := validCopies s
    let t := topCopies v s
    let s := { s with map.valid := validBits v }
    if v = [] then raiseEvt .map 4 { s with map.state := .failed }
    else if gensApart v s ∨ t = [] ∨ copiesSame t s = false then mapConflict v s
    else mapTake t s
  else s

/-- COPIES_RESOLVED (14 R346). -/
def execCopiesResolved (s : State) : Out := fin (copiesResolved s)

/-- The last copy has been written or has failed: READY; DIRTY is cleared when all three wrote, unless marks have
changed meanwhile (14 R349). -/
def copiesWritten (s : State) : State :=
  match s.map.write with
  | some w =>
    if w.todo = [] then
      let all := !w.failed && !w.rewrite
      { s with map := { s.map with
        write := none, state := if s.map.state = .writing then .ready else s.map.state,
        dirty := if all then w.changed else s.map.dirty } }
    else s
  | none => s

/-- COPIES_WRITTEN (14 R349). -/
def execCopiesWritten (s : State) : Out := fin (copiesWritten s)

/-! ### The end of a recovery (14 R355, R357) -/

/-- Records of a class. -/
def classCount (k : Nat) (l : List (Nat × Nat × Nat × Nat × Nat × Nat)) : Nat :=
  (l.filter fun x => decide (x.2.2.2.1 = k)).length

/-- The 8 bytes of a record. -/
def recovBytes (x : Nat × Nat × Nat × Nat × Nat × Nat) : List Byte :=
  leBytes 4 (markWord x.1 x.2.1 x.2.2.2.1 x.2.2.1).toNat ++ leBytes 4 (fieldAt 16 x.2.2.2.2.1 + x.2.2.2.2.2)

/-- RECOV_STAT. -/
def recovStat (found : Bool) (l : List (Nat × Nat × Nat × Nat × Nat × Nat)) : Word64 :=
  BitVec.ofNat 64 (2 ^ 63 + fieldAt 60 (if found then 1 else 2) + fieldAt 33 (classCount 3 l)
    + fieldAt 22 (classCount 2 l) + fieldAt 11 (classCount 1 l) + classCount 0 l)

/-- The page that a recovery writes: it confirms every intent of the open batches found (14 R355). -/
def recoveredPage (x : Recover) (s : State) : JPage :=
  let l := openSeqs x.pages
  { nextPageWith [] s with carries := l.map (·.1),
                           dones := l.flatMap fun q => (List.range q.2).map fun i => (q.1, i) }

/-- The own journal goes on behind its newest page with a page that only confirms; RUNNING follows it (14 R355). -/
def journalResumes (x : Recover) (s : State) : State :=
  match x.peer, x.newest with
  | false, some (q, blk, page) =>
    let s := jrnlAdvance { s with map := { s.map with jblock := decide (blk = 1), jnext := page, jseq := q } }
    jrnlPut (recoveredPage x s) { s with map.jfirst := true }
  | _, _ => s

/-- Every block has been examined or skipped: the report, RECOV_STAT, RECOVER_DONE. -/
def recoverDone (s : State) : State :=
  match s.map.recover with
  | some x =>
    if x.scanned ∧ x.todo = [] then
      let s := { s with map := { s.map with recover := none, recovStat := recovStat x.newest.isSome x.done } }
      let b := x.done.flatMap recovBytes
      let s := if b.isEmpty then s else fabWrites 0 (regOf .map oMapReportAddr s) b 0 .map s
      journalResumes x (raiseEvt .map 9 s)
    else s
  | none => s

/-- RECOVER_DONE (14 R357). -/
def execRecoverDone (s : State) : Out := fin (recoverDone s)

/-! ### Marks (14 R342) -/

/-- A mark is added by MARK_CMD: counter 5 for a new grown mark. -/
def markAdd (d plane kind block : Nat) (s : State) : State :=
  if !pageActive .map s then mapRefuse 0xF mapBadState s
  else
    let new := (markIn (blockKey d plane block) s.map.marks).isNone
    let r := addMark (markWord d plane kind block) s
    if r.2 then
      let s := mapAccept r.1
      if kind = 2 ∧ new = true then bump .map 5 s else s
    else { r.1 with map.lastResult := mapFull }

/-- A mark is removed; a factory mark stays (FACTORY_MARK). -/
def markRemove (d plane block : Nat) (s : State) : State :=
  let k := blockKey d plane block
  let keep := fun (l : List Word32) => l.filter fun w => !decide (markKey w = k)
  if !pageActive .map s then mapRefuse 0xF mapBadState s
  else match markIn k s.map.marks with
    | none => mapAccept s
    | some w =>
      if markKind w = 1 then mapRefuse 0xF mapFactory s
      else mapAccept (mapChanged <| renewMarks (marksBefore k s / 2) { s with map := { s.map with
        marks := keep s.map.marks, added := keep s.map.added, disputed := keep s.map.disputed,
        addedAt := SMap.put (fun _ => 0) s.map.addedAt k 0 } })

/-- MARK_ADD_GROWN (14 R342). -/
def execMarkAddGrown (d : DieId) (plane : BitVec 2) (block : BitVec 14) (s : State) : Out :=
  fin (csrDo .map (markAdd d.toNat plane.toNat 2 block.toNat) s)

/-- MARK_ADD_FACTORY (14 R342). -/
def execMarkAddFactory (d : DieId) (plane : BitVec 2) (block : BitVec 14) (s : State) : Out :=
  fin (csrDo .map (markAdd d.toNat plane.toNat 1 block.toNat) s)

/-- MARK_REMOVE (14 R342). -/
def execMarkRemove (d : DieId) (plane : BitVec 2) (block : BitVec 14) (s : State) : Out :=
  fin (csrDo .map (markRemove d.toNat plane.toNat block.toNat) s)

/-! ### The roster (14 R336) -/

/-- A tag that addresses a die is outside FREE. -/
def dieTagged (d : Nat) (s : State) : Bool :=
  s.ops.tags.any fun e => decide (e.1 < 65536) && decide (e.2.state ≠ .free) && (entryDies e.2.entry).contains d

/-- A write of ROSTER_ENT for a die (14 R336). The word of an accepted write is stored anew, so that a word that had
failed beyond correction serves again (17 R391); a refused write stores nothing. -/
def rosterPut (d : Nat) (v : Word64) (s : State) : State :=
  let old := rosterOf d s
  let new : Roster := { old with valid := v.getLsbD 63, hold := v.getLsbD 59, profile := fieldOf v.toNat 52 4,
                                 id := v.extractLsb' 0 32 }
  let changes := decide (new.valid ≠ old.valid ∨ new.profile ≠ old.profile ∨ new.id ≠ old.id)
  let renewed := renewRoster d s
  if changes then
    if dieTagged d s then raiseErr .map 0x0102 d s else rosterMove d .expected 0 (setRoster d new renewed)
  else
    let s := setRoster d new renewed
    if new.hold = true ∧ old.hold = false ∧ old.valid = true ∧ old.state = .present then quarantine d 3 s else s

/-- Die that ROSTER_SEL names. -/
def rosterSel (s : State) : Nat := regFld .map oMapRosterSel 0 12 s

/-- ROSTER_WRITE (14 R336): a write of ROSTER_ENT for the die that ROSTER_SEL names. -/
def rosterWrite (v : Word64) (s : State) : State := rosterPut (rosterSel s) v s

def execRosterWrite (value : Word64) (s : State) : Out := fin (csrDo .map (rosterWrite value) s)

/-! ### The journal (14 R350, R351) -/

/-- The forming batch closes when it is full or its time has come; a batch that waits is written as soon as it can. -/
def batchClose (s : State) : State := if batchFull s then closeForming s else jrnlGoOn s

/-- JRNL_BATCH_CLOSE (14 R350). -/
def execJrnlBatchClose (s : State) : Out := fin (batchClose s)

/-- A page is due for the oldest pending confirmation: with a batch when one can be written, else one that only
confirms. -/
def confirmDue (s : State) : State :=
  match confirmSince s with
  | none => s
  | some t =>
    if t + jrnlWait s ≤ s.cc then
      let r := writeBatch s
      if r.map.jpage.isSome then r else writeConfirm s
    else s

/-- JRNL_CONFIRM_DUE (14 R351). -/
def execJrnlConfirmDue (s : State) : Out := fin (confirmDue s)

/-- JRNL_PAGE_DONE (14 R350, R353); the power-fail sequence goes on with its record (13 Table 13.6). -/
def execJrnlPageDone (s : State) : Out := fin (pfAdvance (jrnlPageDone s))

end Sys2Proof.Machine
end

