-- ==== Sys2Proof/Machine/Interrupts.lean ====
section
/-!
DEFINITION. The commands of the interrupt pages (15 R364 to R368): claim, completion, unwinding and the fault line.
-/

namespace Sys2Proof.Machine

/-! ### Claim (15 R364) -/

/-- A source enters service for a target: it leaves pending, and its ID and priority go onto the stack. -/
def claimSource (t id : Nat) (s : State) : State :=
  let v := srcFor t id s
  let s := setSrcFor t id { v with edge := false, serving := some t } s
  let w := t * 16 + (targetOf t s).stack.length
  let s := setValid 4 w (clearUpsets 4 w (modTarget t (fun x => { x with stack := (id, v.prio) :: x.stack }) s))
  bump (irqtPage t) 0 (bump .irq 0 s)

/-- No source is deliverable: counted as spurious. -/
def claimSpurious (t : Nat) (s : State) : State := bump (irqtPage t) 1 (bump .irq 1 s)

/-- Value of IRQT.CLAIM for a claim: the deliverable source with its priority, or 2,047. -/
def claimValue (t : Nat) (s : State) : Nat :=
  match claimPick t s with
  | some id => fieldAt 16 (srcFor t id s).prio + id
  | none => 2047

/-- State after a claim. -/
def claimTake (t : Nat) (s : State) : State :=
  match claimPick t s with
  | some id => claimSource t id s
  | none => claimSpurious t s

/-- A read of IRQT[t].CLAIM; the register lies in the upper half of its doubleword (02 R41, 15 IRQT.CLAIM). -/
def claimRead (t : Nat) (s : State) : State :=
  if pageAnswers (irqtPage t) s then
    let s := dropLatches (irqtPage t) s
    csrOk (BitVec.ofNat 64 (fieldAt 32 (claimValue t s))) (claimTake t s)
  else csrErr s

/-- CLAIM_READ (15 R364). -/
def execClaimRead (t : TgtId) (s : State) : Out := fin (claimRead t.toNat s)

/-! ### Completion (15 R365 to R367) -/

/-- A source leaves service; an edge held meanwhile, or a level that is high, makes it pending again. -/
def endService (t : Nat) (s : State) (e : Nat × Nat) : State :=
  setSrcFor t e.1 { srcFor t e.1 s with serving := none } s

/-- A nesting fault: the stack stays, NEST records the top ID, or 0 of an empty stack, and the ID written. -/
def nestFault (t id : Nat) (s : State) : State :=
  let top := match (targetOf t s).stack with
    | [] => 0
    | (i, _) :: _ => i
  let s := modTarget t (fun x => { x with sticky := true, expected := top, written := id }) s
  bump (irqtPage t) 2 (bump .irq 2 (hwBit (irqtPage t) oIrqtNest 31 s))

/-- A write of an ID to COMPLETE. -/
def completeId (t id : Nat) (s : State) : State :=
  if id = 0 ∨ id = 2047 then s
  else match (targetOf t s).stack with
    | [] => nestFault t id s
    | e :: r =>
      let s := readWord 4 (t * 16 + r.length) s
      if e.1 = id then endService t (modTarget t (fun x => { x with stack := r }) s) e else nestFault t id s

/-- COMPLETE (15 R365). -/
def execComplete (t : TgtId) (id : BitVec 11) (s : State) : Out :=
  fin (csrDo (irqtPage t.toNat) (completeId t.toNat id.toNat) s)

/-- Every entry of the stack leaves service, from the top down. -/
def unwindStack (t : Nat) (s : State) : State :=
  (targetOf t s).stack.foldl (endService t) (modTarget t (fun x => { x with stack := [] }) s)

/-- UNWIND (15 R367). -/
def execUnwind (t : TgtId) (s : State) : Out := fin (csrDo (irqtPage t.toNat) (unwindStack t.toNat) s)

/-- NEST.STICKY is cleared, unless a nesting fault of the same cc has set it (03 R74). -/
def clearSticky (t : Nat) (s : State) : State :=
  if hwSet (irqtPage t) oIrqtNest 31 s then s else modTarget t (fun x => { x with sticky := false }) s

/-- STICKY_CLEAR (15 R367). -/
def execStickyClear (t : TgtId) (s : State) : Out := fin (csrDo (irqtPage t.toNat) (clearSticky t.toNat) s)

/-! ### The fault line (15 R368) -/

/-- FATAL.FORCE: LATCHED is set with FIRST 0; a latch that stands keeps what it recorded. -/
def fatalForce (s : State) : State :=
  if s.irq.latched then s else { s with irq := { s.irq with latched := true, first := 0 } }

/-- FATAL_FORCE (15 R368). -/
def execFatalForce (s : State) : Out := fin (csrDo .irq fatalForce s)

/-- W1C of LATCHED: it clears only while no FATAL source is pending or in service. -/
def fatalClear (s : State) : State :=
  if (fatalSource s).isNone then { s with irq := { s.irq with latched := false } } else s

/-- FATAL_CLEAR (15 R368). -/
def execFatalClear (s : State) : Out := fin (csrDo .irq fatalClear s)

end Sys2Proof.Machine
end

