-- ==== Sys2Proof/Machine/Notes.lean ====
section
/-!
DEFINITION. The commands of NOTE (15 R374, R375): reads of the note FIFOs and the read point's commands.
-/

namespace Sys2Proof.Machine

/-- NOTE.SEL.ENGINE. -/
def noteSel (s : State) : Nat := regFld .note oNoteSel 0 7 s

/-- NOTE.CFG.AUTO_REL. -/
def autoRel (s : State) : Bool := decide (regFld .note oNoteCfg 0 1 s = 1)

/-- Engines in the order in which SEL = 127 looks for readable halfwords: from the one after the last served, wrapping
after 64. -/
def noteOrder (s : State) : List Nat := (List.range 65).map fun i => (s.note.lastServed + 1 + i) % 65

/-- Engine that a read serves. -/
def noteEngine (s : State) : Option Nat :=
  let has := fun e => decide (0 < readable (fifoOf e s))
  if noteSel s = 127 then (noteOrder s).find? has
  else if noteSel s ≤ 64 ∧ has (noteSel s) = true then some (noteSel s)
  else none

/-- Halfwords up to the next length halfword. -/
def untilLength : List NoteHw → List NoteHw
  | [] => []
  | h :: r => if h.len then [] else h :: untilLength r

/-- The halfwords that a read of a FIFO returns: at most three readable ones, and a length halfword only as the
first. -/
def noteTake (f : NoteFifo) : List NoteHw :=
  match (f.stages.drop f.read).take (min 3 (readable f)) with
  | [] => []
  | h :: r => h :: untilLength r

/-- Value of NOTE.READ for halfwords of an engine. -/
def noteWord (e : Nat) (l : List NoteHw) : Nat :=
  let data := l.foldr (fun h a => h.val.toNat + 65536 * a) 0
  let start := match l with
    | [] => false
    | h :: _ => h.len
  fieldAt 56 e + fieldAt 53 (bit (l.any fun h => h.lost)) + fieldAt 52 (bit start) + fieldAt 48 (2 * l.length) + data

/-- The read point moves past k stages; AUTO_REL releases them. -/
def noteAdvance (k : Nat) (auto : Bool) (f : NoteFifo) : NoteFifo :=
  if auto then
    { f with stages := f.stages.take f.read ++ f.stages.drop (f.read + k),
             open_ := f.open_.map fun o => (o.1 - k, o.2) }
  else { f with read := f.read + k }

/-- Value that a read of NOTE.READ returns; 0 when nothing is readable. -/
def noteReadValue (s : State) : Nat :=
  match noteEngine s with
  | some e => noteWord e (noteTake (fifoOf e s))
  | none => 0

/-- A consuming read: counter 2. -/
def noteConsume (s : State) : State :=
  match noteEngine s with
  | some e =>
    let k := (noteTake (fifoOf e s)).length
    let s := bump .note 2 (modFifo e (noteAdvance k (autoRel s)) s)
    { s with note := { s.note with lastServed := e } }
  | none => s

/-- A read of NOTE.READ with strobe 0xFF (15 R374). -/
def noteRead (s : State) : State :=
  if pageAnswers .note s then
    let s := dropLatches .note s
    csrOk (BitVec.ofNat 64 (noteReadValue s)) (noteConsume s)
  else csrErr s

/-- NOTE_READ (15 R374). -/
def execNoteRead (s : State) : Out := fin (noteRead s)



/-! ### NOTE.CMD (15 R375) -/

/-- A command on the FIFO that SEL names; with AUTO_REL = 1 or SEL = 127 it is ignored and MODE_ERROR latched. -/
def noteCommand (op : Nat) (f : NoteFifo → NoteFifo) (s : State) : State :=
  if autoRel s ∨ noteSel s = 127 then raiseErr .note 0x0100 op s else modFifo (noteSel s) f s

/-- MARK records the read point. -/
def fifoMark (f : NoteFifo) : NoteFifo := { f with mark := some f.read }

/-- REWIND moves the read point back to the mark; without one it has no effect. -/
def fifoRewind (f : NoteFifo) : NoteFifo := { f with read := f.mark.getD f.read }

/-- RELEASE frees every stage before the read point and moves the mark to it. -/
def fifoRelease (f : NoteFifo) : NoteFifo :=
  { f with stages := f.stages.drop f.read, read := 0, mark := f.mark.map fun _ => 0,
           open_ := f.open_.map fun o => (o.1 - f.read, o.2) }

/-- NOTE_MARK (15 R375). -/
def execNoteMark (s : State) : Out := fin (csrDo .note (noteCommand 1 fifoMark) s)

/-- NOTE_REWIND (15 R375). -/
def execNoteRewind (s : State) : Out := fin (csrDo .note (noteCommand 2 fifoRewind) s)

/-- NOTE_RELEASE (15 R375). -/
def execNoteRelease (s : State) : Out := fin (csrDo .note (noteCommand 3 fifoRelease) s)

end Sys2Proof.Machine
end

