-- ==== Sys2Proof/Machine/Memory.lean ====
section
/-!
DEFINITION. MEM (17): what an error beyond correction does, the scrubber, remaps by command, and the commands of the
page; the words themselves stand in MemWords.
-/

namespace Sys2Proof.Machine

/-! ### Uncorrectable errors (17 R394) -/

/-- Classes 1 to 4: a spare is captured, and the reset source MEM_UE fires (16 Table 16.2). -/
def memReset (cls idx : Nat) (s : State) : State :=
  let r := captureSpare cls idx 0 s
  let s := if cls = 3 ∧ r.2 = true then { r.1 with mem.blank := idx :: r.1.mem.blank } else r.1
  takeReset 5 (fuseLevel 2 s) false none (some (BitVec.ofNat 32 (2 ^ 31 + fieldAt 28 cls + idx))) s

/-- What an error beyond correction does beside being counted (17 R394); that of classes 5 to 7 lasts as long as the
upset stands in the word. -/
def ueEffect (cls idx : Nat) (s : State) : State :=
  match cls with
  | 0 => ueStaging idx s
  | 5 => s
  | 6 => s
  | 7 => s
  | _ => memReset cls idx s

/-- MEM_UE (17 R394): an uncorrectable error in a word of classes 1 to 4. -/
def execMemUe (cls : BitVec 3) (addr : BitVec 24) (s : State) : Out :=
  fin (if corePowered s ∧ 1 ≤ cls.toNat ∧ cls.toNat ≤ 4 ∧ memWord cls.toNat addr.toNat = true then
      memReset cls.toNat addr.toNat s
    else s)

/-! ### The scrubber (17 R397) -/

/-- The end of a scrub: the summary and SCRUB_DONE. -/
def scrubEnd (x : Scrub) (s : State) : State :=
  raiseEvt .mem 4 { s with mem := { s.mem with
    scrub := none, sumValid := true, sumWords := x.words, sumCorr := x.corr, sumUnc := x.unc, firstFail := x.first } }

/-- The scrub stands at the next index that names a word; without one it ends. -/
def scrubNext (x : Scrub) (s : State) : State :=
  match nextWord x.cls x.next (x.next + x.left) with
  | some j => { s with mem := { s.mem with scrub := some { x with next := j, left := x.left - (j - x.next) } } }
  | none => scrubEnd x s

/-- START: ignored with an error while a scrub runs, and without effect while MEM is disabled. -/
def scrubStart (s : State) : State :=
  if s.mem.scrub.isSome then raiseErr .mem 0x0101 0 s
  else if !memOn s then s
  else
    scrubNext { cls := regFld .mem oMemScrubCfg 28 3 s, next := regFld .mem oMemScrubCfg 0 24 s,
                left := regFld .mem oMemScrubCnt 0 24 s } s

/-- A write of COUNT; 0 is reserved and leaves the field (03 R65). -/
def scrubCount (count : Nat) (s : State) : State :=
  if count = 0 then errReserved .mem oMemScrubCnt 0 s else setReg .mem oMemScrubCnt count s

/-- SCRUB_START (17 R397): a write of SCRUB_CNT with START and a count. -/
def execScrubStart (count : BitVec 24) (s : State) : Out :=
  fin (csrDo .mem (fun s => scrubStart (scrubCount count.toNat s)) s)

/-- What the scrubber counts of a word with the upsets found in it. -/
def scrubTally (i : Nat) (found : List Upset) (x : Scrub) : Scrub :=
  let n := (found.filter (·.beyond)).length
  { x with words := x.words + 1, next := i + 1, left := x.left - 1, corr := satTo 65535 (x.corr + (found.length - n)),
           unc := satTo 65535 (x.unc + n), first := if found.isEmpty then x.first else some (x.first.getD i) }

/-- What has flipped in a word since the last cc, as an upset: an uncorrectable one names no byte, which is a free value. -/
def newUpset (cls idx : Nat) (found : ScrubFind) (s : State) : Option Upset :=
  match found with
  | .clean => none
  | .corrected byte_ bit_ =>
    some { cls := cls, idx := idx, unit := if cls = 0 then 0 else byte_.toNat % wordUnits cls, beyond := false,
           bit_ := bit_.toNat, mask := BitVec.ofNat 8 (2 ^ bit_.toNat) }
  | .uncorrectable =>
    let n := (freeNow s).toNat
    some { cls := cls, idx := idx, unit := n % wordUnits cls, beyond := true, bit_ := 0, mask := BitVec.ofNat 8 (n / 64) }

/-- The scrubber reads its next word; an invalid one is counted and not checked. A reset that an error brings ends the
scrub. -/
def scrubRead (new : ScrubFind) (s : State) : State :=
  match s.mem.scrub with
  | some x =>
    if !memOn s then s
    else
      let l := addUpset (newUpset x.cls x.next new s) s.mem.upsets
      let s := { (if new = .uncorrectable then takeFree s else s) with mem.upsets := l }
      let found := if wordValid x.cls x.next s then upsetsOf x.cls x.next s else []
      let s := found.foldl findUpset s
      let s := if found.any (·.beyond) then ueEffect x.cls x.next s else s
      if s.mem.scrub.isSome then scrubNext (scrubTally x.next found x) s else s
  | none => s

/-- SCRUB_READ (17 R397). -/
def execScrubRead (found : ScrubFind) (s : State) : Out := fin (scrubRead found s)

/-! ### Remaps by command (17 R398) -/

/-- A context that reads as zero; the poller's own state of the ring stays. -/
def zeroContext (r : Ring) : Ring :=
  { r with state := .idle, cq := false, express := false, size := 0, fn := 0, base := 0, batchMax := 0, cqId := 0,
           vector := 0, pfDepth := 0, intervalE := 0, curE := 0, phase := false, index := 0, errCause := 0,
           errIndex := 0, head := 0 }

/-- A stack entry, counted from the bottom, reads as zero. -/
def zeroEntry (i : Nat) (l : List (Nat × Nat)) : List (Nat × Nat) := (l.reverse.set i (0, 0)).reverse

/-- 32 bytes of a string read as zero. -/
def zeroGranule (g : Nat) (b : List Byte) : List Byte :=
  (b.take (32 * g)) ++ List.replicate (min 32 (b.length - 32 * g)) 0 ++ b.drop (32 * g + 32)

/-- A granule of staging reads as zero: of a codeword read, or of program data, whose codewords stand one behind the
other. -/
def zeroStaging (idx : Nat) (s : State) : State :=
  match granuleHolder idx s with
  | none => s
  | some (id, k) =>
    if k < 65536 then
      { s with dpt.cws := s.dpt.cws.map fun c =>
          if c.id = id ∧ c.plane * 4 + c.idx = k / 256 then { c with bytes := zeroGranule (k % 256) c.bytes } else c }
    else
      let g := max 1 (cwGran (paDie (ePaddr (tagOf id s).entry)) s)
      let i := (k - 65536) / g
      modProg id (fun p => { p with
        cws := SMap.put (fun _ => []) p.cws i (zeroGranule ((k - 65536) % g) (SMap.get (fun _ => []) p.cws i)) }) s

/-- The two marks of a word of the working map are gone. -/
def zeroMarks (w : Nat) (s : State) : State :=
  renewMarks w { s with map := { s.map with marks := s.map.marks.take (2 * w) ++ s.map.marks.drop (2 * w + 2) } }

/-- The valid bit of a word is 0. -/
def unsetValid (cls idx : Nat) (s : State) : State :=
  { s with mem.valid := SMap.put noValid s.mem.valid (wordKey cls idx) 0 }

/-- A word whose place a spare takes that starts invalid reads as zero (17 R392, R398). -/
def zeroWord (cls idx : Nat) (s : State) : State :=
  let s := clearUpsets cls idx s
  match cls with
  | 0 => zeroStaging idx s
  | 1 => unsetValid 1 idx (setTag idx {} s)
  | 2 => match contextRing idx s with
    | some r => modRing r zeroContext s
    | none => s
  | 3 => { s with mem.blank := idx :: s.mem.blank }
  | 4 => unsetValid 4 idx (modTarget (idx / 16) (fun t => { t with stack := zeroEntry (idx % 16) t.stack }) s)
  | 5 => unsetValid 5 idx (setWinBytes (0x400000 + 16 * idx) (List.replicate 16 0) s)
  | 6 => match rosterWord idx with
    | some d => unsetValid 8 d (setRoster d {} s)
    | none => zeroMarks (markWordAt idx) s
  | _ => unsetValid 7 idx (setRmem idx 0 s)

/-- A write of REMAP_CMD. -/
def remapCmd (cls idx : Nat) (s : State) : State :=
  if memWord cls idx then
    let r := captureSpare cls idx 2 s
    if r.2 then zeroWord cls idx r.1 else r.1
  else s

/-- REMAP_CMD (17 R398). -/
def execRemapCmd (cls : BitVec 3) (index : BitVec 24) (s : State) : Out :=
  fin (csrDo .mem (remapCmd cls.toNat index.toNat) s)

/-! ### Commands of the log and of BKP[0] -/

/-- LOG_CTRL.CLEAR: empty, with fresh parity. -/
def logClear (s : State) : State := { s with mem := { s.mem with log := [], logBad := false } }

/-- LOG_CLEAR (17 R395). -/
def execLogClear (s : State) : Out := fin (csrDo .mem logClear s)

/-- BKP_CLR.LOG_LOST clears only when the log has been cleared since the failure, and not in the cc of the failure
(03 R74). -/
def logLostClear (s : State) : State := if s.mem.logBad || hwSet .mem oMemBkpClr 31 s then s else clearBkp0 31 s

/-- LOG_LOST_CLEAR (17 R396). -/
def execLogLostClear (s : State) : Out := fin (csrDo .mem logLostClear s)

/-- CE_TOTAL_CLEAR (17 R399). -/
def execCeTotalClear (s : State) : Out := fin (csrDo .mem clearCeTotal s)

/-- An entry of the log fails parity: every entry is invalid, BKP[0].LOG_LOST is set. -/
def logParity (s : State) : State := setBkp0 31 { s with mem := { s.mem with log := [], logBad := true } }

/-- LOG_PARITY_FAIL (17 R396): MEM checks all 16 entries, valid or not. -/
def execLogParityFail (_entry : BitVec 4) (s : State) : Out :=
  fin (if pageAnswers .mem s then logParity s else s)

end Sys2Proof.Machine
end

