-- ==== Sys2Proof/Machine/Tick.lean ====
section
/-!
DEFINITION. The frame tick (01 R11, 06 R130, R138): what begins and ends with a frame in every page; the frame
watchdog (06 R143); the publication and adoption of plans (07 R150, 09 R213); the snapshots of SCH (07 R165).
-/

namespace Sys2Proof.Machine

/-! ### Checkpoints of the Burins (06 R142) -/

/-- The Burin thread that drives a channel. -/
def chanThread (c : Nat) (s : State) : Thread := thrOf (chanBur c) (chanThr c) s

/-- The thread of a channel has stopped for good: HALTED or FAULTED. -/
def threadDead (c : Nat) (s : State) : Bool :=
  decide ((chanThread c s).state = .halted) || decide ((chanThread c s).state = .faulted)

/-- The thread of a channel takes part in checkpoints: IDLE, RUN or STALL. -/
def threadServes (c : Nat) (s : State) : Bool :=
  decide ((chanThread c s).state = .idle) || running (chanThread c s)

/-- The thread of a channel has not met its part of the checkpoint of the frame that ends. A thread of a disabled page
and a HELD one owe none; one whose channel was not planned met it at the frame start unless it had stopped. -/
def threadLate (c : Nat) (s : State) : Bool :=
  (hdrOf (enginePage (chanBur c)) s).enable && !s.tmb.adopted.getLsbD c && (threadDead c s || (s.sch.planned.contains c && threadServes c s))

/-- The Burins that have not reached their checkpoint when a frame ends. -/
def lateBurins (s : State) : BitVec 64 :=
  if checkpointsDue s then
    (List.range 64).foldl (fun m b => if threadLate (2 * b) s || threadLate (2 * b + 1) s then
        m ||| BitVec.ofNat 64 (2 ^ b) else m) 0
  else 0

/-- Channels that SCH plans in the frame that begins (07 R150). -/
def planChannels (s : State) : List Nat :=
  if pageActive .sch s then
    (List.range 128).filter fun c =>
      (decide ((chanOf c s).own = .owned) || decide ((chanOf c s).own = .releasing)) && pageActive (chnPage c) s
  else []

/-- Channels without a plan whose thread meets its part at the frame start. -/
def metAtStart (s : State) : BitVec 128 :=
  (List.range 128).foldl (fun m c => if threadServes c s && !s.sch.planned.contains c then
      m ||| BitVec.ofNat 128 (2 ^ c) else m) 0

/-- Checkpoints at a frame start: the Burins late for the frame that has ended, the channels to be planned anew. -/
def checkpointTick (s : State) : State :=
  let late := lateBurins s
  let plan := planChannels s
  let s := { s with sch := { s.sch with toPlan := plan, planned := plan } }
  let t := s.tmb
  { s with tmb := { t with ckptPrev := t.ckptMiss, ckptMiss := 0, ckptOwed := late, planJudged := false,
                               adopted := metAtStart s } }

/-! ### TMB at the tick -/

/-- A write of REF_ACT reaches its frame start: FREERUN, the next tick is FIRST (06 Table 6.2). A tick that
waits for its sample is dropped, neither decided nor counted (DESIGN CHOICE, log entry 41). -/
def changeRef (s : State) : State :=
  let s := setTrk .freerun s
  { s with tmb := { s.tmb with wedgeValid := false, prevTick := none, lastUsable := none, pend := none,
                               holdPrev := none } }

/-- The fields that take effect at the tick become those last written. -/
def tickFields (s : State) : State :=
  let r := refAct s
  let s := applyTick s
  if refAct s = r then s else changeRef s

/-- The number, scale and length of the frame that begins (06 R130, R131, R138): counter 0. -/
def nextFrame (s : State) : State :=
  let len := coastLen s
  let t := s.tmb
  bump .tmb 0 { s with tmb := { t with frame := t.frame + 1, phase := 0, prevLen := t.frameLen,
                                       periodEst := t.nextEst.getD len, nextEst := none, lenLog := [],
                                       frameLen := t.nextLen.getD len, nextLen := none,
                                       wedgeIndex := if t.wedgeValid then (t.wedgeIndex + 1) % max 1 (wedges s)
                                         else t.wedgeIndex,
                                       idleFrames := t.idleFrames + 1 } }

/-- A frame start in LOCKED and HOLD waits for its tick (06 R137). -/
def noteFrameStart (s : State) : State :=
  if inService s ∧ s.tmb.takenFor ≠ some s.tmb.frame then
    { s with tmb.starts := s.tmb.starts ++ [(s.tmb.frame, s.cc)] }
  else s

/-! ### LVL at the tick (11 R261, R262) -/

/-- A sample that the frame just ending owed and that was not taken is retried. -/
def oweSamples (s : State) : State :=
  (s.map.roster.map (·.1)).foldl (fun s d => if tempDue d s then modTemp d (fun t => { t with owed := true }) s else s) s

/-- TEMP_BANDS: lower threshold of a band, and HYST. -/
def bandFloor (b : Nat) (s : State) : Int := signedOf 8 (regFld .lvl oLvlTempBands (8 * (b - 1)) 8 s)
def bandHyst (s : State) : Int := Int.ofNat (regFld .lvl oLvlTempBands 24 8 s)

/-- The highest band whose lower threshold a temperature has reached. -/
def bandReached (t : Int) (s : State) : Nat :=
  if bandFloor 3 s ≤ t then 3 else if bandFloor 2 s ≤ t then 2 else if bandFloor 1 s ≤ t then 1 else 0

/-- The band falls one at a time while the temperature lies below its floor by more than HYST. -/
def bandFall (t : Int) (s : State) : Nat → Nat
  | 0 => 0
  | b + 1 => if t < bandFloor (b + 1) s - bandHyst s then bandFall t s b else b + 1

/-- The band that follows a band at a temperature. -/
def nextBand (t : Int) (b : Nat) (s : State) : Nat :=
  if b < bandReached t s then bandReached t s else bandFall t s b

/-- The tick for one die that has a reading: age, TEMP_STALE, and its band, which a stale die keeps (11 R262). -/
def tempTick (s : State) (d : Nat) : State :=
  let t := tempOf d s
  match t.temp with
  | none => s
  | some x =>
    let here := diePresent d s
    let age := if here then satTo 65535 (t.age + 1) else t.age
    let late := here && decide (regFld .lvl oLvlTempCfg 16 16 s < age) && !t.stale
    let b := if t.stale || late then t.sel
      else some (nextBand x (t.sel.getD (regFld .lvl oLvlTempCfg 8 2 s)) s)
    let s := modTemp d (fun t => { t with old := t.sel, sel := b, age := age, stale := t.stale || late }) s
    if late then raiseErr .lvl 0x0101 d s else s

/-- The tick for every die with a reading. -/
def lvlTick (s : State) : State := (s.lvl.temps.map (·.1)).foldl tempTick s

/-! ### OPS and CHN at the tick -/

/-- Tags whose deadline lies in the current or the next frame enter the expiry comparator (05 R119). -/
def armTag (s : State) (t : Nat) : State :=
  let x := tagOf t s
  if tagOpen t s ∧ eClass x.entry ≠ clsNone ∧ x.withdrawn = false ∧ ¬(x.state = .fenced ∧ x.unwatched = true)
      ∧ dueSoon x.entry s = true then
    setTag t { x with armed := true } s
  else s

/-- The tick of OPS. -/
def opsTick (s : State) : State := (liveTags s).foldl armTag s

/-- Frames until the next retrain of a channel count down (08 R177). -/
def chnTick (s : State) : State :=
  (s.chn.map (·.1)).foldl (fun s c => modChan c (fun x => { x with retrainCount := x.retrainCount - 1 }) s) s

/-! ### The tick -/

/-- A frame begins. -/
def beginFrame (s : State) : State :=
  let len := s.tmb.frameLen
  let old := s
  let s := oweSamples (plannerMet (planOverrun s))
  let s := withSync (fun s => nextFrame (tickFields (ccTick s))) s
  let s := checkpointTick (noteFrameStart s)
  opsTick (chnTick (portFrame 1 (portFrame 0 (lvlTick (pwrTick len old s)))))

/-- The running frame has come to its end. -/
def frameOver (s : State) : Bool :=
  tmbRuns s && decide (s.tmb.frameLen ≤ s.tmb.phase + 1)

/-- FRAME_TICK (01 R11). -/
def execFrameTick (s : State) : Out := fin (if frameOver s then beginFrame s else s)

/-- FRAME_WATCHDOG (06 R143): in the cc after the second miss in a row. -/
def execFrameWatchdog (s : State) : Out :=
  fin (match s.rst.wdogFired with
    | some w =>
      if corePowered s then takeReset 4 (fuseLevel 1 s) false (some w) none { s with rst.wdogFired := none } else s
    | none => s)

/-! ### Plans -/

/-- The plan of a channel for the running frame is published, from offset 16 on (01 Table 1.4) and by offset
PLAN_WINDOW. -/
def planPublish (c : Nat) (s : State) : State :=
  if s.sch.toPlan.contains c ∧ pageActive .sch s = true ∧ 16 ≤ s.tmb.phase ∧ s.tmb.phase ≤ planWindow s then
    let s := publish c s
    { s with sch.toPlan := s.sch.toPlan.filter fun k => !decide (k = c) }
  else s

/-- PLAN_PUBLISH (07 R150). -/
def execPlanPublish (c : ChnId) (s : State) : Out := fin (planPublish c.toNat s)

/-- cc of the publication of a channel's plan, or of the frame start where it was discarded. -/
def publishedAt (c : Nat) (s : State) : Nat :=
  match planOf c s with
  | some p => if p.frame = s.tmb.frame then p.since else frameStart s
  | none => frameStart s

/-- A thread waits at a DISPATCH word, or has met a safe point after a cc. -/
def safeSince (t : Thread) (cc : Nat) : Bool := decide (t.state = .idle) || (running t && decide (cc < t.safeAt))

/-- The thread of a channel adopts the plan of the running frame, or takes notice that it was discarded. -/
def planAdopt (c : Nat) (s : State) : State :=
  if s.sch.planned.contains c ∧ s.sch.toPlan.contains c = false ∧ safeSince (chanThread c s) (publishedAt c s) = true then
    modPlan c (fun p => p.map fun p => { p with adopted := true })
      { s with tmb.adopted := s.tmb.adopted ||| BitVec.ofNat 128 (2 ^ c) }
  else s

/-- PLAN_ADOPT (09 R213). -/
def execPlanAdopt (c : ChnId) (s : State) : Out := fin (planAdopt c.toNat s)

/-! ### Snapshots (07 R165) -/

/-- Tag of a planned transfer; of one that has none the spec states no value. -/
def planTag (id : Nat) (s : State) : Nat := if id < 65536 then id else (freeNow s).toNat % 65536

/-- PLAN_ENT of an entry. -/
def planEnt (e : PlanEnt) (s : State) : Nat :=
  2 ^ 63 + fieldAt 58 e.x.kind + fieldAt 53 e.x.die + fieldAt 49 (2 ^ e.x.plane) + fieldAt 32 (e.x.len % 65536)
  + fieldAt 16 (planTag e.x.id s) + e.start % 65536

/-- PLAN_INFO of a channel. -/
def planInfo (c : Nat) (s : State) : Nat :=
  match planOf c s with
  | some p => 2 ^ 31 + fieldAt 30 (bit p.carried) + fieldAt 16 p.entries.length + p.frame.toNat % 65536
  | none => 0

/-- Entry k of the snapshot. -/
def putPlanEnt (c : Nat) (s : State) (k : Nat) : State :=
  let v := match (planOf c s).bind fun p => p.entries[k]? with
    | some e => planEnt e s
    | none => 0
  takeFree (setReg .sch (oSchPlanEnt + 8 * k) v s)

/-- PLAN_SEL is written: the plan in force on the channel goes into PLAN_INFO and PLAN_ENT. -/
def planSel (c : Nat) (s : State) : State :=
  (List.range 16).foldl (putPlanEnt c) (setReg .sch oSchPlanInfo (planInfo c s) (setReg .sch oSchPlanSel c s))

/-- PLAN_SEL (07 R165). -/
def execPlanSel (c : ChnId) (s : State) : Out := fin (csrDo .sch (planSel c.toNat) s)

/-- STATE codes of DIE_INFO. -/
def dieCode : DieState → Nat
  | .idle => 0
  | .busy => 1
  | .program => 2
  | .erase => 3
  | .suspReq => 4
  | .suspending => 5
  | .suspended => 6

/-- DIE_INFO of a die. SUSP_COUNT keeps the count of the last program or erase until another begins (DESIGN CHOICE, log
entry 137). -/
def dieInfo (d : Nat) (s : State) : Nat :=
  let x := dieOf d s
  fieldAt 28 (dieCode x.state) + fieldAt 27 (bit (decide (4 ≤ dieCode x.state) && x.suspErase)) + x.suspCount % 2 ^ 24

/-- DIE_QDEPTH of a die. -/
def dieDepth (d : Nat) (s : State) : Nat :=
  (List.range 4).foldl (fun a p =>
    a + fieldAt (8 * p) (satTo 255 ((dieOf d s).queue.filter fun i => bitAt i.planes p).length)) 0

/-- DIE_SEL is written: the die goes into DIE_INFO and DIE_QDEPTH. -/
def dieSel (d : Nat) (s : State) : State :=
  setReg .sch oSchDieQdepth (dieDepth d s) (setReg .sch oSchDieInfo (dieInfo d s) (setReg .sch oSchDieSel d s))

/-- DIE_SEL (07 R165). -/
def execDieSel (d : DieId) (s : State) : Out := fin (csrDo .sch (dieSel d.toNat) s)

end Sys2Proof.Machine
end

