-- ==== Sys2Proof/Machine/Views.lean ====
section
/-!
DEFINITION. What a read of each register shows (03 R63, R64, R66 and the register tables of 04 to 17): the header, the
fields that live elsewhere in the state, and for every other register its plain value.
-/

namespace Sys2Proof.Machine

/-! ### The header (03 R66) -/

/-- CAPS of each page (03 R66 and the last rule of each chapter); L1_OK of GLB is 0 (03 Table 3.2). -/
def pageCaps : Page → Nat
  | .glb => Config.glbCaps.toNat / 2 * 2
  | .tmb => 0x00020719
  | .rif => 0x00120515
  | .ops => 0x0010061B
  | .sch => 0x00080415
  | .dpt => 0x00100311
  | .ecc => 0x00200217
  | .lvl => 0x0020061F
  | .dsp _ => 0x00400625
  | .pwr => 0x00080B19
  | .map => 0x00030A1B
  | .irq => 0x00080108
  | .irqt _ => 0x00400006
  | .note => 0x00410208
  | .rst => 0x00100302
  | .mem => 0x00080624
  | .sec => 0x0040040A
  | .peer => 0x0080080E
  | .grv => 0x20000311
  | .bur _ => 0x08000311
  | .chn _ => 0x0011060F

/-- CAPS.EVT_COUNT. -/
def evtCount (p : Page) : Nat := fieldOf (pageCaps p) 8 8

/-- CAPS.CNT_COUNT. -/
def cntCount (p : Page) : Nat := fieldOf (pageCaps p) 1 7

/-- CAPS.L1_OK. -/
def l1Ok (p : Page) : Bool := bitAt (pageCaps p) 0

/-- STATUS: BUSY while it executes work, never together with IDLE; ERROR while an error is latched (03 R66, R68). -/
def statusOf (p : Page) (s : State) : Nat :=
  fieldAt 2 (bit (!pageIdle p s && pageWorks p s)) + fieldAt 1 (bit (decide ((hdrOf p s).errCode ≠ 0))) + bit (pageIdle p s)

/-- EVT_RAW: the levels that are high, and the events raised in this cc. -/
def evtRaw (p : Page) (s : State) : Nat :=
  (List.range 32).foldl (fun a i => a + fieldAt i (bit (levelEvt p i s || (nowOf p s).evts.getLsbD i))) 0

/-- A register of the header. -/
def hdrView (p : Page) (off : Nat) (s : State) : Nat :=
  let h := hdrOf p s
  if off = 0x000 then fieldAt 16 (pageKind p) + pageInst p
  else if off = 0x004 then 0x102
  else if off = 0x008 then pageCaps p
  else if off = 0x00C then fieldAt 1 (bit h.freeze) + bit h.enable
  else if off = 0x010 then statusOf p s
  else if off = 0x014 then evtRaw p s
  else if off = 0x018 then h.evtMask.toNat
  else if off = 0x01C then h.evtPend.toNat
  else if off = 0x020 then fieldAt 24 h.more.toNat + h.errCode.toNat
  else if off = 0x024 then h.errInfo.toNat
  else if off = 0x028 then h.errFrame.toNat
  else if off = 0x02C then h.cntSel.toNat
  else if off = 0x030 then (if h.cntSel.toNat < cntCount p then cntOf p h.cntSel.toNat s else 0)
  else if off = 0x038 then h.scratch.toNat
  else if off = 0x03C then bit h.locked
  else 0

/-! ### Indexed registers -/

/-- Index of an offset in a bank of n registers that begins at an offset; none where it lies outside. -/
def bankIdx (base n off : Nat) : Option Nat :=
  if base ≤ off ∧ off < base + 4 * n ∧ (off - base) % 4 = 0 then some ((off - base) / 4) else none

/-- 32 bits of a predicate over numbers from 32k on. -/
def bits32 (k : Nat) (f : Nat → Bool) : Nat :=
  (List.range 32).foldl (fun a i => a + fieldAt i (bit (f (32 * k + i)))) 0

/-! ### The pages -/

/-- GLB (03). -/
def glbView (off : Nat) (s : State) : Nat :=
  if off = oGlbStrap then fieldAt 4 s.pins.strapPeer.toNat + fieldAt 2 s.pins.strapClk.toNat + s.pins.strapBoot.toNat
  else regOf .glb off s

/-- Function that FN_SEL selects. -/
def fnSel (s : State) : Nat := regFld .rif oRifFnSel 0 8 s

/-- RIF (04). -/
def rifView (off : Nat) (s : State) : Nat :=
  if off = oRifPollDemand then s.rif.demand
  else if off = oRifPollStretch then s.rif.stretch % 65536
  else if off = oRifActResult then fieldAt 31 (bit s.rif.actPending) + fieldAt 8 s.rif.actRing + s.rif.actResult
  else if off = oRifFnCtrl then bit (fnOf (fnSel s) s).enable
  else if off = oRifFnOps then (fnOf (fnSel s) s).ops.toNat
  else if off = oRifInvalRing then fieldAt 31 (bit s.rif.hold.isSome) + regOf .rif oRifInvalRing s
  else if off = oRifInvalStat then s.rif.invalStat
  else if off = oRifExpressCount then expressCount s
  else match bankIdx oRifFnChan 4 off with
    | some k => fieldOf (fnOf (fnSel s) s).chan.toNat (32 * k) 32
    | none =>
      match bankIdx oRifFnBusy 8 off with
      | some k => bits32 k fun f => (fnOf f s).busy
      | none => regOf .rif off s

/-- EARLY_LOG: the oldest record (05 R127). -/
def earlyView (s : State) : Nat :=
  match s.ops.earlyLog with
  | [] => 0
  | e :: _ => fieldAt 63 1 + fieldAt 48 e.status + fieldAt 40 e.fn + e.paddr

/-- OPS (05). -/
def opsView (off : Nat) (s : State) : Nat :=
  if off = oOpsTagsFree then tagsFree s
  else if off = oOpsTagsLow then s.ops.low
  else if off = oOpsEarlyLog then earlyView s
  else if off = oOpsEarlyCount then s.ops.earlyLog.length
  else match bankIdx oOpsFnaCnt 8 off with
    | some k => fnaOf (regFld .ops oOpsFnaSel 0 8 s) k s
    | none => regOf .ops off s

/-- TMB (06). -/
def tmbView (off : Nat) (s : State) : Nat :=
  let t := s.tmb
  if off = oTmbFrame then t.frame.toNat
  else if off = oTmbPhase then t.phase
  else if off = oTmbPeriodEst then t.periodEst
  else if off = oTmbFrameLen then t.frameLen
  else if off = oTmbInteg then t.integ
  else if off = oTmbPreset then t.preset
  else if off = oTmbTrkStat then
    fieldAt 29 (trkCode t.state) + fieldAt 25 t.acqCount + fieldAt 24 (bit (integClamped s)) + fieldAt 16 t.run
      + ofSigned 16 t.lastErr
  else if off = oTmbWedge then fieldAt 31 (bit t.wedgeValid) + t.wedgeIndex
  else if off = oTmbLastPos then t.lastPos.toNat
  else if off = oTmbTickStamp then fieldAt 16 t.stampFrame.toNat + t.stampPhase
  else if off = oTmbCkptStat then fieldAt 31 (bit t.planLast) + fieldAt 30 (bit t.planPrev) + t.unpub
  else if off = oTmbCkptMiss then t.ckptMiss.toNat
  else regOf .tmb off s

/-- SCH (07). -/
def schView (off : Nat) (s : State) : Nat :=
  if off = oSchStarveInfo then s.sch.starve.toNat else regOf .sch off s

/-- CHN (08). -/
def chnView (c off : Nat) (s : State) : Nat :=
  let x := chanOf c s
  if off = oChnFtrim then (Config.ftrim c).toNat
  else if off = oChnOwnStat then
    fieldAt 28 (ownCode x.own) + fieldAt 27 (bit (seniorOn c s)) + fieldAt 26 (bit x.shared) + fieldAt 25 (bit x.dirty)
      + x.collRun
  else if off = oChnContLast then x.contLast.toNat
  else regOf (chnPage c) off s

/-- PEER_HB_IN has shown an edge in the last 3.0 µs (08 R185). -/
def hbSeen (s : State) : Bool := s.peer.lastEdge.any fun t => decide (s.cc ≤ t + usCc 3)

/-- PEER (08). -/
def peerView (off : Nat) (s : State) : Nat :=
  if off = oPeerLink then
    fieldAt 31 (bit (hbSeen s)) + fieldAt 30 (bit s.peer.lost) + min 15 (s.peer.txq.length + s.peer.txWait.length)
  else if off = oPeerLastRx then s.peer.lastRx.toNat
  else if off = oPeerLastTx then s.peer.lastTx.toNat
  else regOf .peer off s

/-- Codes of Table 9.1. -/
def thrCode : ThrState → Nat
  | .held => 0
  | .idle => 1
  | .run => 2
  | .stall => 3
  | .halted => 4
  | .faulted => 5

/-- THR_STAT of a thread (09 R226). -/
def thrStat (e : Nat) (k : Bool) (s : State) : Nat :=
  let t := thrOf e k s
  fieldAt 28 (thrCode t.state) + fieldAt 27 (bit (decide (e ≠ 64) && (suspWanted (2 * e + bit k) s).isSome))
    + fieldAt 26 (bit t.abortPend) + fieldAt 25 (bit !t.preemptPend.isEmpty) + fieldAt 24 (bit t.handler.isSome)
    + fieldAt 20 t.stack.length + fieldAt 12 (min 255 t.safeDist) + t.pc.toNat

/-- THR_JOB of a thread; the Graver's carries CHANNEL (09 R226). -/
def thrJob (e : Nat) (k : Bool) (s : State) : Nat :=
  match (thrOf e k s).job with
  | none => 0
  | some j =>
    fieldAt 28 (j.kind % 16) + fieldAt 24 j.profile + fieldAt 16 (if e = 64 then j.channel else 0) + j.tag.getD 0 % 65536

/-- Actions in the command FIFO of a thread's channel: a Burin thread's own, for the Graver that of the channel it is a
guest on (09 R226). -/
def fifoShown (e : Nat) (k : Bool) (s : State) : Nat :=
  if e = 64 then
    match (if running (thrOf 64 k s) then (thrOf 64 k s).job else none) with
    | some j => (thrOf (chanBur j.channel) (chanThr j.channel) s).cmdq.length
    | none => 0
  else (thrOf e k s).cmdq.length

/-- BUR and GRV (09). -/
def engView (e off : Nat) (s : State) : Nat :=
  let a := thrOf e false s
  let b := thrOf e true s
  if off = oBurThrStat then thrStat e false s
  else if off = oBurThrStat + 4 then thrStat e true s
  else if off = oBurThrJob then thrJob e false s
  else if off = oBurThrJob + 4 then thrJob e true s
  else if off = oBurFault then (engOf e s).fault.toNat
  else if off = oBurFlags then fieldAt 16 b.flags.toNat + a.flags.toNat
  else if off = oBurLoopCnt then fieldAt 16 b.loopCnt.toNat + a.loopCnt.toNat
  else if off = oBurLastStatus then fieldAt 8 b.status.toNat + a.status.toNat
  else if off = oBurCmdq then fieldAt 16 (fifoShown e true s) + fifoShown e false s
  else regOf (enginePage e) off s

/-- SEC (09). -/
def secView (off : Nat) (s : State) : Nat :=
  let x := s.sec
  if off = oSecLoadStat then
    fieldAt 31 (bit x.load.isSome) + fieldAt 30 (bit x.loadedGrv) + fieldAt 29 (bit x.loadedBur) + fieldAt 16 x.svn
      + x.result
  else if off = oSecRollback then fieldAt 31 (bit x.burnTo.isSome) + rollCount s
  else if off = oSecKeyHash then Config.keyHash.toNat % 2 ^ 32
  else if off = oSecRawStat then
    fieldAt 31 (bit x.rawBusy) + fieldAt 30 (bit x.open_) + fieldAt 29 (bit x.wrCmd) + fieldAt 28 (bit x.wrAddr)
      + fieldAt 27 (bit x.wrData) + fieldAt 8 x.rawResult + x.rawStatus.toNat
  else regOf .sec off s

/-- DPT (10). -/
def dptView (off : Nat) (s : State) : Nat :=
  if off = oDptOcc then occAll s
  else if off = oDptOccRead then occRead s
  else if off = oDptOccEarly then occEarly s
  else if off = oDptPeak then s.dpt.peak
  else regOf .dpt off s

/-- ECC (10). -/
def eccView (off : Nat) (s : State) : Nat :=
  if off = oEccSoftStat then fieldAt 16 (softBusy s) + s.ecc.queue.length
  else if off = oEccSoftWait then min 0xFFFFFF (softWait s)
  else regOf .ecc off s

/-- LVL (11). -/
def lvlView (off : Nat) (s : State) : Nat :=
  let x := s.lvl
  if off = oLvlFactoryLock then bit x.locked
  else if off = oLvlLoadStat then fieldAt 31 (bit x.loadBusy) + fieldAt 28 x.loadResult + x.loadElems
  else if off = oLvlCalLast then x.calLast.toNat
  else if off = oLvlNoiseStat then x.noiseStat.toNat
  else if off = oLvlLastEcho then x.lastEcho.toNat
  else regOf .lvl off s

/-- The stage that captures on a port (12 R298). -/
def capturingStage (a : Nat) (s : State) : Option Nat := ((dspOf a s).armed.find? fun x => x.capturing).map (·.tag)

/-- DSP (12). -/
def dspView (a off : Nat) (s : State) : Nat :=
  let d := dspOf a s
  if off = oDspSync then
    fieldAt 31 (bit (syncValid a s)) + fieldAt 30 (bit (decide (refAct s = a))) + fieldAt 16 (syncIndex a s)
      + (if refAct s = a then 0 else d.ofs)
  else if off = oDspSlots then fieldAt 16 d.slots.length + (d.slots.filter fun x => x.data.isSome).length
  else if off = oDspSched then freeRecs a s
  else if off = oDspArmed then d.armed.length
  else if off = oDspLastTrack then fieldAt 31 (bit d.posValid) + (if d.posValid then posTrack d.lastPos else 0)
  else if off = oDspLastPos then d.lastPos.toNat
  else if off = oDspHoldInfo then d.holdInfo.toNat
  else if off = oDspRxStat then
    match capturingStage a s with
    | some t => fieldAt 31 1 + t
    | none => 0
  else regOf (dspPage a) off s

/-- STATE codes of PSTATE (13 Table 13.3). -/
def pstateCode : PState → Nat
  | .run => 0
  | .doze => 1
  | .waking => 2
  | .entering => 3
  | .pfail => 4
  | .pfailDone => 5
  | .retain => 6
  | .cicada => 7

/-- Starts held now in a group (13 GROUP_MODEL.HELD). -/
def heldIn (g : Nat) (s : State) : Nat :=
  (s.sch.dies.filter fun e => decide (dieGroup e.1 = g) && e.2.startWait.isSome).length

/-- GROUP_STAT of a group (13). -/
def groupStat (g : Nat) (s : State) : Nat :=
  let x := groupOf g s
  fieldAt 29 (railCode x.rail) + fieldAt 28 (bit x.fallback) + fieldAt 26 x.fbCause + fieldAt 25 (bit x.throttle)
    + fieldAt 24 (bit (decide (0 < heldIn g s))) + fieldAt 20 (min 15 x.ocRun) + x.code

/-- PWR (13). -/
def pwrView (off : Nat) (s : State) : Nat :=
  if off = oPwrGlobalLoad then satTo (2 ^ 19 - 1) (loadTotal s)
  else if off = oPwrPstate then fieldAt 29 (pstateCode s.pwr.state) + s.pwr.lastResult
  else if off = oPwrWakeStat then s.pwr.wakeStat.toNat
  else if off = oPwrPfStat then
    fieldAt 29 (pfCode s.pwr.step) + fieldAt 28 (bit s.pwr.lwOk) + fieldAt 27 (bit s.pwr.drainCut) + satTo 65535 (tpfUs s)
  else match bankIdx oPwrGroupStat 8 off with
    | some g => groupStat g s
    | none =>
      match bankIdx oPwrGroupLoad 8 off with
      | some g => fieldAt 16 (groupOf g s).meas + satTo 65535 (loadOf g s)
      | none =>
        match bankIdx oPwrGroupModel 8 off with
        | some g => fieldAt 16 (satTo 65535 (heldIn g s)) + (groupOf g s).avg
        | none => regOf .pwr off s

/-- STATE codes of MAP_STAT (14 Table 14.5) and JRNL_STAT. -/
def mapCode : MapState → Nat
  | .empty => 0
  | .loading => 1
  | .ready => 2
  | .conflict => 3
  | .writing => 4
  | .failed => 5

/-- JRNL_STAT.STATE (14). -/
def jrnlCode : JrnlState → Nat
  | .stopped => 0
  | .running => 1
  | .failed => 2

/-- Roster states (14 Table 14.1). -/
def rosterStateCode : RosterState → Nat
  | .expected => 0
  | .present => 1
  | .missing => 2
  | .stranger => 3
  | .quarantined => 4

/-- ROSTER_ENT of a die (14 R333, R336). -/
def rosterView (d : Nat) (s : State) : Nat :=
  let r := rosterOf d s
  fieldAt 63 (bit r.valid) + fieldAt 60 (rosterStateCode r.state) + fieldAt 59 (bit r.hold) + fieldAt 56 r.qcause
    + fieldAt 52 r.profile + r.id.toNat

/-- Intents in the forming batch, at most 64; while the journal is not RUNNING an admitted erase is none yet (14 R350). -/
def formingCount (s : State) : Nat := if s.map.jrnl = .running then min 64 s.map.forming.length else 0

/-- MAP (14). -/
def mapView (off : Nat) (s : State) : Nat :=
  let x := s.map
  if off = oMapMapStat then
    fieldAt 29 (mapCode x.state) + fieldAt 26 x.valid.toNat + fieldAt 23 x.copyOk.toNat + fieldAt 22 (bit x.dirty)
      + fieldAt 21 (bit (mapBusy s)) + x.lastResult
  else if off = oMapGen then x.gen.toNat
  else if off = oMapEntries then x.marks.length
  else if off = oMapJrnlStat then
    fieldAt 30 (jrnlCode x.jrnl) + fieldAt 29 (bit x.jblock) + fieldAt 26 (openBatches s) + fieldAt 19 (formingCount s)
      + x.jnext
  else if off = oMapJrnlSeq then x.jseq.toNat
  else if off = oMapRecovStat then x.recovStat.toNat
  else if off = oMapCensusStat then x.censusStat.toNat
  else if off = oMapRosterEnt then rosterView (rosterSel s) s
  else regOf .map off s

/-- SRC_CFG of a shared source; an ID that names none reads zero (15). -/
def srcCfgView (id : Nat) (s : State) : Nat :=
  if sharedId id then
    fieldAt 31 (bit (srcOf id s).fatal) + fieldAt 16 (srcOf id s).targets.toNat + fieldAt 8 (bit (edgeId id))
      + (srcOf id s).prio
  else 0

/-- SRC_STAT of a shared source (15). -/
def srcStatView (id : Nat) (s : State) : Nat :=
  if sharedId id then
    fieldAt 31 (bit (srcPending 0 id s)) + fieldAt 30 (bit (srcOf id s).serving.isSome)
      + fieldAt 29 (bit (levelInput 0 id s)) + fieldAt 24 ((srcOf id s).serving.getD 0)
  else 0

/-- IRQ (15). -/
def irqView (off : Nat) (s : State) : Nat :=
  let sel := regFld .irq oIrqSrcSel 0 11 s
  if off = oIrqSrcCfg then srcCfgView sel s
  else if off = oIrqSrcStat then srcStatView sel s
  else if off = oIrqFatal then fieldAt 31 (bit s.irq.latched) + s.irq.first
  else match bankIdx oIrqPend 32 off with
    | some k => bits32 k fun id => sharedId id && srcPending 0 id s
    | none => regOf .irq off s

/-- STACK_ENT: entry i from the bottom (15). -/
def stackEnt (t i : Nat) (s : State) : Nat :=
  match (targetOf t s).stack.reverse[i]? with
  | some e => fieldAt 31 1 + fieldAt 16 e.2 + e.1
  | none => 0

/-- PSRC_CFG of a private source; a reserved ID reads zero (15). -/
def psrcView (t id : Nat) (s : State) : Nat :=
  if privateId id then
    fieldAt 31 (bit (srcPending t id s)) + fieldAt 30 (bit (privOf t id s).serving.isSome) + fieldAt 8 (bit (edgeId id))
      + (privOf t id s).prio
  else 0

/-- IRQT (15); CLAIM shows what a claim would take. -/
def irqtView (t off : Nat) (s : State) : Nat :=
  let x := targetOf t s
  let p := irqtPage t
  if off = oIrqtClaim then claimValue t s
  else if off = oIrqtRunning then fieldAt 16 x.stack.length + runningLevel t s
  else if off = oIrqtStackEnt then stackEnt t (regFld p oIrqtStackSel 0 4 s) s
  else if off = oIrqtNest then fieldAt 31 (bit x.sticky) + fieldAt 16 x.expected + x.written
  else if off = oIrqtPsrcCfg then psrcView t (1024 + regFld p oIrqtPsrcSel 0 6 s) s
  else match bankIdx oIrqtPpend 2 off with
    | some k => bits32 k fun i => privateId (1024 + i) && srcPending t (1024 + i) s
    | none => regOf p off s

/-- STAT of the engine that SEL names; with SEL = 127 it reads zero (15 NOTE.STAT). -/
def noteStat (s : State) : Nat :=
  if noteSel s = 127 then 0
  else
    let f := fifoOf (noteSel s) s
    fieldAt 31 (bit (decide (32 ≤ f.stages.length))) + fieldAt 30 (bit f.overrun) + fieldAt 29 (bit f.open_.isSome)
      + fieldAt 28 (bit f.mark.isSome) + fieldAt 16 f.stages.length + fieldAt 8 (f.stages.length - f.read)

/-- NOTE (15); READ shows what a read would return. -/
def noteView (off : Nat) (s : State) : Nat :=
  if off = oNoteRead then noteReadValue s
  else if off = oNoteStat then noteStat s
  else match bankIdx oNoteAvail 3 off with
    | some k => bits32 k fun e => decide (e ≤ 64) && decide (0 < readable (fifoOf e s))
    | none => regOf .note off s

/-- RST (16). -/
def rstView (off : Nat) (s : State) : Nat :=
  let r := s.rst
  if off = oRstCause then fieldAt 16 r.sources.toNat + fieldAt 8 r.first + r.level
  else if off = oRstWdogInfo then r.wdogInfo.toNat
  else if off = oRstUeInfo then r.ueInfo.toNat
  else if off = oRstFuseMap then fieldAt 31 (bit r.parOk) + r.fuses.toNat
  else if off = oRstRelease then fieldAt 31 (bit (decide (r.phase = .done))) + fieldAt 4 (r.groups - 1) + r.step
  else if off = oRstRmemData then rmemWord (regFld .rst oRstRmemSel 0 13 s) s
  else match bankIdx oRstBkp 16 off with
    | some k => (bkpOf k s).toNat
    | none => regOf .rst off s

/-- LOG_ENT: entry i of the error log, the oldest first (17 R395). -/
def logView (i : Nat) (s : State) : Nat :=
  match s.mem.log[i]? with
  | some e =>
    fieldAt 63 1 + fieldAt 62 (bit e.ue) + fieldAt 59 e.cls + fieldAt 56 e.bit_ + fieldAt 50 e.byte_ + fieldAt 24 e.index
      + e.frame.toNat
  | none => 0

/-- REMAP_ENT of a spare (17 R398). -/
def remapView (cls slot : Nat) (s : State) : Nat :=
  match spareOf cls slot s with
  | some (why, idx) => fieldAt 31 1 + fieldAt 29 why + idx
  | none => 0

/-- MEM (17). -/
def memView (off : Nat) (s : State) : Nat :=
  let m := s.mem
  if off = oMemLogEnt then logView (regFld .mem oMemLogSel 0 4 s) s
  else if off = oMemLogCtrl then m.log.length
  else if off = oMemBkpClr then fieldOf (bkpOf 0 s).toNat 29 3 * 2 ^ 29
  else if off = oMemScrubSum0 then
    fieldAt 63 (bit m.scrub.isSome) + fieldAt 62 (bit m.sumValid) + fieldAt 32 m.sumWords + fieldAt 16 m.sumCorr + m.sumUnc
  else if off = oMemScrubSum1 then
    match m.firstFail with
    | some i => fieldAt 31 1 + i
    | none => 0
  else if off = oMemRemapEnt then remapView (regFld .mem oMemRemapSel 3 3 s) (regFld .mem oMemRemapSel 0 3 s) s
  else regOf .mem off s

/-- What a register at an offset beyond the header shows; a reserved offset and a write-only register read zero
(03 R61, R63). -/
def regView (p : Page) (off : Nat) (s : State) : Nat :=
  match p with
  | .glb => glbView off s
  | .tmb => tmbView off s
  | .rif => rifView off s
  | .ops => opsView off s
  | .sch => schView off s
  | .dpt => dptView off s
  | .ecc => eccView off s
  | .lvl => lvlView off s
  | .dsp a => dspView a.toNat off s
  | .pwr => pwrView off s
  | .map => mapView off s
  | .irq => irqView off s
  | .irqt t => irqtView t.toNat off s
  | .note => noteView off s
  | .rst => rstView off s
  | .mem => memView off s
  | .sec => secView off s
  | .peer => peerView off s
  | .grv => engView 64 off s
  | .bur b => engView b.toNat off s
  | .chn c => chnView c.toNat off s

/-- Value of the register at a page offset. -/
def pageView (p : Page) (off : Nat) (s : State) : Nat := if off < 64 then hdrView p off s else regView p off s

end Sys2Proof.Machine
end

