-- ==== Sys2Proof/Machine/Enable.lean ====
section
/-!
DEFINITION. What a change of CTRL.ENABLE does (03 R66 and the GLB page; 06 Table 6.2, 08 Table 8.8, 09 Table 9.1, 12 R290,
13 R332), and the subsystem reset (03 R71, R72).
-/

namespace Sys2Proof.Machine

/-! ### TMB (06 R133, Table 6.2) -/

/-- The fields of one page that take effect at the tick become those last written. -/
def applyOwnTick (p : Page) (s : State) : State :=
  { s with regsEff := (pageRegs p).foldl (fun m d => (List.range d.cnt).foldl (fun m k =>
      let a := pageAddr p (d.off + d.step * k)
      SMap.put regReset m a (SMap.get regReset s.regs a)) m) s.regsEff }

/-- TMB leaves OFF: the resumed frame keeps FRAME and PHASE, takes PERIOD_EST = SYN_PERIOD and the length
max(SYN_PERIOD, PHASE + 4), and nothing of the ticks before is remembered (log entry 42); the fields of TMB marked
"at tick" are those last written (log entry 124). -/
def tmbOn (s : State) : State :=
  let s := setTrk .freerun (applyOwnTick .tmb (accrueAll s))
  { s with tmb := { s.tmb with periodEst := synPeriod s, frameLen := max (synPeriod s) (s.tmb.phase + 4),
                               nextLen := none, nextEst := none, lenLog := [], prevTick := none, lastUsable := none,
                               pend := none, holdPrev := none, takenFor := none, acqCount := 0, missRun := 0, backRun := 0 } }

/-- TMB goes OFF: FRAME and PHASE hold, and a tick that waits for its sample is forgotten. -/
def tmbOff (s : State) : State :=
  let s := setTrk .off (accrueAll s)
  { s with tmb := { s.tmb with pend := none } }

/-! ### PWR (13 R332) -/

/-- PWR becomes enabled: the accounts and the samples of the frame begin. -/
def pwrOn (s : State) : State :=
  (List.range 8).foldl (fun s g => modGroup g (fun x => { x with acc := 0, accAt := s.cc, sample := none, openSeen := false }) s) s

/-- PWR becomes disabled: nothing is accounted any more and no start is held. -/
def pwrOff (s : State) : State :=
  let s := (List.range 8).foldl (fun s g => modGroup g (fun x => { x with load := [], starts := [], acc := 0 }) s) s
  (s.sch.dies.map (·.1)).foldl (fun s d => modDie d (fun x => { x with startWait := none, heldItem := none }) s) s

/-! ### Engines (09 Table 9.1) -/

/-- ENABLE of an engine has become 1. -/
def engineOn (e : Nat) (s : State) : State := enableThr e true (enableThr e false s)

/-- ENABLE of an engine has become 0; the Graver thread of a running BOOT_FETCH goes on (09 R222). -/
def engineOff (e : Nat) (s : State) : State :=
  disableThr e true (if e = 64 ∧ bootRuns s = true then s else disableThr e false s)

/-! ### The pages -/

/-- ENABLE of a page has become 1, and has effect. -/
def enableRise (p : Page) (s : State) : State :=
  match p with
  | .tmb => withSync tmbOn s
  | .rif => resumeFetches s
  | .dsp a => enablePort a.toNat s
  | .pwr => pwrOn s
  | .grv => engineOn 64 s
  | .bur b => engineOn b.toNat s
  | .chn c => chanRise c.toNat s
  | .map => jrnlResume s
  | _ => s

/-- ENABLE of a page has become 0, or has no effect any more. -/
def enableFall (p : Page) (s : State) : State :=
  match p with
  | .tmb => withSync tmbOff s
  | .dsp a => disablePort a.toNat s
  | .pwr => pwrOff s
  | .grv => engineOff 64 s
  | .bur b => engineOff b.toNat s
  | .chn c => chanFall c.toNat s
  | _ => s

/-- A change of ENABLE of a page. -/
def enableEdge (p : Page) (now : Bool) (s : State) : State := if now then enableRise p s else enableFall p s

/-- The pages whose ENABLE is 1 and that GLB.CTRL.ENABLE governs (03, the GLB page). -/
def governed (s : State) : List Page :=
  (s.hdr.filter fun e => e.2.enable).filterMap fun e => (pageAt e.1).filter fun p => !servicePage p

/-- GLB.CTRL.ENABLE has changed: every governed page sees its ENABLE rise or fall; a first rise may start BOOT_FETCH
(09 R222). -/
def globalEdge (now : Bool) (s : State) : State :=
  let ps := governed s
  let s := if now then bootStart s else s
  bootAdvance (ps.foldl (fun s p => enableEdge p now s) s)

/-- CTRL is written: FREEZE and ENABLE (03 R66). -/
def ctrlWrite (p : Page) (freeze enable : Bool) (s : State) : State :=
  let was := (hdrOf p s).enable
  let s := setHdr p { hdrOf p s with freeze := freeze, enable := enable } s
  if was = enable then s
  else if p = .glb then globalEdge enable s
  else if servicePage p = false ∧ (hdrOf .glb s).enable = true then bootAdvance (enableEdge p enable s)
  else s

/-! ### Subsystem reset (03 R71, R72, Table 3.5) -/

/-- A subsystem reset is taken: STATUS.IDLE is 1, and no tag waits in SCH (07 R165). -/
def l1Free (p : Page) (s : State) : Bool :=
  pageIdle p s && match p with
    | .sch => s.sch.cands.all (fun e => e.2.isEmpty) && s.sch.plans.all (fun e => (planWaits e.2).isEmpty) && s.sch.dies.all fun e => dieEmpty e.2
    | _ => true

/-- One register: the RW-L fields stay, the others take their reset value. -/
def l1Reg (p : Page) (d : RegDesc) (s : State) (k : Nat) : State :=
  let off := d.off + d.step * k
  let keep := BitVec.ofNat 64 d.rwl
  setReg p off (mergeBits keep (BitVec.ofNat 64 (regResetOf p off)) (BitVec.ofNat 64 (regOf p off s))).toNat s

/-- The plain registers of a page. TRAIN_RES is among the training results that CHN keeps (08 R193). -/
def l1Regs (p : Page) (s : State) : State :=
  ((pageRegs p).filter fun d => !(decide (pageKind p = 21) && decide (d.off = oChnTrainRes))).foldl
    (fun s d => (List.range d.cnt).foldl (l1Reg p d) s) s

/-- The header: ENABLE, EVT_MASK, SCRATCH and LOCK stay. -/
def l1Hdr (h : Hdr) : Hdr :=
  { enable := h.enable, evtMask := h.evtMask, scratch := h.scratch, locked := h.locked }

/-- A thread after a subsystem reset of its engine: HELD; jobs that wait and actions queued to the bus stay. -/
def l1Thread (t : Thread) : Thread := { waiting := t.waiting, offered := t.offered, cmdq := t.cmdq }

/-- Both threads return to HELD and then start as Table 9.1 says; store and dispatch table stay (09 R226). -/
def l1Engine (e : Nat) (s : State) : State :=
  let s := noteClose e true true (noteClose e false true s)
  startEngine (modEng e (fun x => { x with t0 := l1Thread x.t0, t1 := l1Thread x.t1, fault := 0 }) s) e

/-- A rail group keeps its rail state alone (13 R332). -/
def l1Group (x : Group) : Group := { rail := x.rail, since := x.since, onWait := x.onWait, accAt := x.accAt }

/-- What a page holds beside its plain registers. -/
def l1State (p : Page) (s : State) : State :=
  match p with
  | .rif =>
    let kept := s.rif.rings.filter fun e => decide (e.2.gen ≠ 0 ∨ e.2.life ≠ 0)
    let old : List (Nat × Ring) := kept.map fun e => (e.1, { gen := e.2.gen, life := e.2.life })
    let s : State := { s with rif := { rings := old, fns := s.rif.fns, useSeq := s.rif.useSeq,
                                       demandDue := s.rif.demandDue, nextPoll := s.rif.nextPoll } }
    (s.rif.fns.map (·.1)).foldl (fun s f => modFn f (fun x => { x with busy := false }) s) s
  | .ops =>
    let jobs := s.ops.tags.filter fun e => decide (1000000 ≤ e.1)
    { s with ops := { tags := jobs, taken := s.ops.taken, earlyNext := s.ops.earlyNext } }
  | .tmb => { s with tmb := { frame := s.tmb.frame, phase := s.tmb.phase } }
  | .sch => { s with sch := { dies := s.sch.dies.filterMap fun e =>
                                if e.2.resetWanted then some (e.1, { resetWanted := true, resetAt := e.2.resetAt }) else none } }
  | .chn c => modChan c.toNat (fun x => { x with contLast := 0 }) s
  | .grv => l1Engine 64 s
  | .bur b => l1Engine b.toNat s
  | .dpt => { s with dpt := { s.dpt with peak := 0 } }
  | .lvl => { s with lvl := { locked := s.lvl.locked, current := s.lvl.current, rebuilds := s.lvl.rebuilds,
                                   valley := s.lvl.valley } }
  | .dsp a => modDsp a.toNat (fun d => { frames := d.frames, decision := d.decision, recNext := d.recNext,
                                         open_ := d.open_, tx := d.tx, armWait := d.armWait, replans := d.replans,
                                         ffAt := d.ffAt }) s
  | .pwr =>
    let s := (s.pwr.groups.map (·.1)).foldl (fun s g => modGroup g l1Group s) s
    let s := { s with pwr := { s.pwr with lastResult := 0, wakeStat := 0 } }
    if s.pwr.state = .pfail ∨ s.pwr.state = .pfailDone then s else { s with pwr.state := .run }
  | .map => { s with map := { s.map with lastResult := 0, valid := 0, copyOk := 0, recovStat := 0, censusStat := 0 } }
  | _ => s

/-- The subsystem reset of a page. -/
def l1Run (p : Page) (s : State) : State :=
  let s := l1State p (l1Regs p s)
  setHdr p (l1Hdr (hdrOf p s)) s

end Sys2Proof.Machine
end

