-- ==== Sys2Proof/Machine/Registers.lean ====
section
/-!
DEFINITION. Writes of the 32-bit and 64-bit registers of the pages (03 R63 to R71, and the register tables of 04 to 17):
stores of the plain fields, and the registers whose write acts.
-/

namespace Sys2Proof.Machine

/-! ### Plain stores (03 R63, R65, R70) -/

/-- Mask of the field at bit lo of width w. -/
def fieldMask (lo w : Nat) : Word64 := BitVec.ofNat 64 (fieldAt lo (2 ^ w - 1))

/-- Bits of a register that a write may store: RW, and RW-L while the page is not locked. -/
def writeMask (p : Page) (d : RegDesc) (s : State) : Word64 :=
  if (hdrOf p s).locked then BitVec.ofNat 64 d.rw else BitVec.ofNat 64 (d.rw ||| d.rwl)

/-- Whether a field of a written value is a reserved encoding. -/
def badField (v : Nat) (f : FieldRange) : Bool :=
  !f.ok.any fun r => decide (r.1 ≤ fieldOf v f.lo f.width) && decide (fieldOf v f.lo f.width ≤ r.2)

/-- The fields of a register that are to be stored and hold a reserved encoding. -/
def badFields (p : Page) (off : Nat) (mask : Word64) (v : Nat) : List FieldRange :=
  (pageRanges p).filter fun f => decide (f.off = off) && badField v f && decide (fieldMask f.lo f.width &&& mask ≠ 0)

/-- A write reaches RW-L fields of a locked page: LOCKED_WRITE (03 R70). -/
def lockCheckReg (p : Page) (d : RegDesc) (off : Nat) (s : State) : State :=
  if (hdrOf p s).locked ∧ d.rwl ≠ 0 then errLocked p off s else s

/-- A store that leaves some fields, each with RESERVED_VALUE, and stores the others. -/
def storeBut (p : Page) (d : RegDesc) (off v : Nat) (bad : List FieldRange) (s : State) : State :=
  let mask := bad.foldl (fun m f => m &&& ~~~(fieldMask f.lo f.width)) (writeMask p d s)
  let old := BitVec.ofNat 64 (regOf p off s)
  let s := setReg p off (mergeBits mask old (BitVec.ofNat 64 v)).toNat s
  bad.foldl (fun s f => errReserved p off f.lo s) (lockCheckReg p d off s)

/-- A store of a plain register. -/
def storeReg (p : Page) (off v : Nat) (s : State) : State :=
  match regAt p off with
  | some d => storeBut p d off v (badFields p off (writeMask p d s) v) s
  | none => s

/-- A write that acts unless the page is locked (RW-L fields whose value lives elsewhere). -/
def unlessLocked (p : Page) (off : Nat) (act : State → State) (s : State) : State :=
  if (hdrOf p s).locked then errLocked p off s else act s

/-- An action that writing 1 to a bit starts, unless the block has set that bit in this cc (03 R74). -/
def onClear (p : Page) (off i v : Nat) (act : State → State) (s : State) : State :=
  if bitAt v i && !hwSet p off i s then act s else s

/-- W1C of one bit of a register's plain value. -/
def clearRegBit (p : Page) (off i v : Nat) (s : State) : State :=
  if bitAt v i && !hwSet p off i s then
    setReg p off (BitVec.ofNat 64 (regOf p off s) &&& ~~~(BitVec.ofNat 64 (2 ^ i))).toNat s
  else s

/-- An action that bit i of a write starts (W1S). -/
def onBit (i v : Nat) (act : State → State) (s : State) : State := if bitAt v i then act s else s

/-! ### GLB and the header -/

/-- EVT_MASK: bits from EVT_COUNT upward are reserved. -/
def maskWrite (p : Page) (v : Nat) (s : State) : State :=
  setHdr p { hdrOf p s with evtMask := BitVec.ofNat 32 (v % 2 ^ evtCount p) } s

/-- W1C of EVT_PEND; an event raised in the same cc stays, and a bit whose level still holds is set again
(03 R67). -/
def pendWrite (p : Page) (v : Nat) (s : State) : State :=
  setHdr p { hdrOf p s with evtPend := (hdrOf p s).evtPend &&& (~~~(BitVec.ofNat 32 v) ||| (nowOf p s).evts) } s

/-- W1C of STATUS.ERROR: ERR_CODE with MORE, ERR_INFO and ERR_FRAME are cleared (03 R66); errors of the same cc are
latched as new ones, the lowest code first (03 R68). -/
def errorWrite (p : Page) (s : State) : State :=
  let n := nowOf p s
  setHdr p (if n.errs = 0 then { hdrOf p s with errCode := 0, more := 0, errInfo := 0, errFrame := 0 }
    else { hdrOf p s with errCode := n.code, more := BitVec.ofNat 8 (satTo 255 (n.errs - 1)), errInfo := n.info,
                          errFrame := s.tmb.frame, errCc := s.cc }) s

/-- Counter i of a page is set by software, unless it has counted in this cc (03 R74). -/
def cntSet (p : Page) (i v : Nat) (s : State) : State :=
  swCount p i (cntOf p i s) (fun s => setHdr p { hdrOf p s with cnt := SMap.put (fun _ => 0) (hdrOf p s).cnt i v } s) s

/-- CNT_VAL: the selected counter; ignored when no counter is selected (03 R66, R69). -/
def cntWrite (p : Page) (v : Nat) (s : State) : State :=
  if (hdrOf p s).cntSel.toNat < cntCount p then cntSet p (hdrOf p s).cntSel.toNat v s else s

/-- CTRL: with L1_RESET the subsystem reset, which leaves FREEZE 0 (03 Table 3.5, R74), and ENABLE as written; else
FREEZE and ENABLE as written. -/
def ctrlReg (p : Page) (v : Nat) (s : State) : State :=
  if bitAt v 2 && l1Ok p then ctrlWrite p false (bitAt v 0) (l1Run p s)
  else ctrlWrite p (bitAt v 1) (bitAt v 0) s

/-- A register of the header (03 R66). -/
def hdrWrite (p : Page) (off v : Nat) (s : State) : State :=
  if off = 0x00C then ctrlReg p v s
  else if off = 0x010 then onBit 1 v (errorWrite p) s
  else if off = 0x018 then maskWrite p v s
  else if off = 0x01C then pendWrite p v s
  else if off = 0x02C then setHdr p { hdrOf p s with cntSel := BitVec.ofNat 7 v } s
  else if off = 0x030 then cntWrite p v s
  else if off = 0x038 then setHdr p { hdrOf p s with scratch := BitVec.ofNat 32 v } s
  else if off = 0x03C then onBit 0 v (fun s => setHdr p { hdrOf p s with locked := true } s) s
  else s

/-! ### RIF, OPS, TMB, SCH -/

/-- CTX_BASE is not written while any ring is not IDLE (04 CTX_BASE). -/
def ctxBaseWrite (v : Nat) (s : State) : State :=
  if s.rif.rings.all fun e => decide (e.2.state = .idle) then storeReg .rif oRifCtxBase v s
  else errLocked .rif oRifCtxBase s

/-- INVAL_RANGE (04 R107). -/
def invalWrite (v : Nat) (s : State) : State :=
  if bitAt v 31 then invalRelease s else invalHold (fieldOf v 16 15) (fieldOf v 0 15) s

/-- RIF (04). -/
def rifWrite (off v : Nat) (s : State) : State :=
  let f := fnSel s
  if off = oRifCtxBase then ctxBaseWrite v s
  else if off = oRifActivate then activate (v % 2 ^ 18) s
  else if off = oRifFnReset then fnReset (v % 256) s
  else if off = oRifFnCtrl then unlessLocked .rif off (modFn f fun x => { x with enable := bitAt v 0 }) s
  else if off = oRifFnOps then
    unlessLocked .rif off (modFn f fun x => { x with ops := BitVec.ofNat 20 (v &&& 0xF03FF) }) s
  else if off = oRifInvalRange then invalWrite v s
  else match bankIdx oRifFnChan 4 off with
    | some k =>
      unlessLocked .rif off (modFn f fun x =>
        let m := BitVec.ofNat 128 (fieldAt (32 * k) (2 ^ 32 - 1))
        { x with chan := (x.chan &&& ~~~m) ||| BitVec.ofNat 128 (fieldAt (32 * k) (v % 2 ^ 32)) }) s
    | none => storeReg .rif off v s

/-- OPS (05). -/
def opsWrite (off v : Nat) (s : State) : State :=
  if off = oOpsTagsLow then onBit 31 v (fun s => { s with ops.low := tagsFree s }) s
  else if off = oOpsTagSel then tagSel (v % 65536) s
  else if off = oOpsFnaHit then clearRegBit .ops off 31 v s
  else if off = oOpsEarlyPop then onBit 0 v earlyPop s
  else match bankIdx oOpsFnaCnt 8 off with
    | some k => fnaWrite (regFld .ops oOpsFnaSel 0 8 s) k v s
    | none => storeReg .ops off v s

/-- PERIOD_MIN and PERIOD_MAX: a value beyond the other's last written value is reserved, too. -/
def periodWrite (off v : Nat) (s : State) : State :=
  let f : FieldRange := ⟨off, 0, 17, []⟩
  let x := fieldOf v 0 17
  let cross := if off = oTmbPeriodMin then decide (regFld .tmb oTmbPeriodMax 0 17 s < x)
    else decide (x < regFld .tmb oTmbPeriodMin 0 17 s)
  match regAt .tmb off with
  | some d =>
    if cross ∧ (hdrOf .tmb s).locked = false then storeBut .tmb d off v [f] s else storeReg .tmb off v s
  | none => s

/-- TMB (06). -/
def tmbWrite (off v : Nat) (s : State) : State :=
  if off = oTmbFrame then frameWrite (BitVec.ofNat 32 v) s
  else if off = oTmbPeriodMin ∨ off = oTmbPeriodMax then periodWrite off v s
  else storeReg .tmb off v s

/-- SCH (07). -/
def schWrite (off v : Nat) (s : State) : State :=
  if off = oSchPlanSel then planSel (v % 128) s
  else if off = oSchDieSel then dieSel (v % 4096) s
  else if off = oSchStarveInfo then
    onClear .sch off 63 v (fun s => { s with sch.starve := s.sch.starve &&& ~~~(BitVec.ofNat 64 (2 ^ 63)) }) s
  else
    let s := storeReg .sch off v s
    if off = oSchEraseSusp ∨ off = oSchProgSusp then recheckAll s else s

/-! ### CHN and the engines -/

/-- The fields of a BUS_CFG write that hold a reserved encoding (08 Table 8.1, 03 R65): MODE 3; DIV 0 and 1 with MODE 0,
and with them MODE itself while DIV holds no rate of NV-DDR3 (log entry 46). -/
def busCfgBad (p : Page) (d : RegDesc) (v : Nat) (s : State) : List FieldRange :=
  let old := regOf p oChnBusCfg s
  let none3 := decide (v % 4 = 3)
  let mode := if none3 then old % 4 else v % 4
  let div := decide (mode = 0) && decide (fieldOf v 4 2 < 2)
  let m : FieldRange := ⟨oChnBusCfg, 0, 2, [(0, 2)]⟩
  let r : FieldRange := ⟨oChnBusCfg, 4, 2, [(2, 3)]⟩
  ((if none3 || (div && decide (fieldOf old 4 2 < 2)) then [m] else []) ++ (if div then [r] else [])).filter
    fun f => decide (fieldMask f.lo f.width &&& writeMask p d s ≠ 0)

/-- BUS_CFG and TIMING are not written while ENABLE is 1: CFG_BUSY (08). -/
def busWrite (c off v : Nat) (s : State) : State :=
  let p := chnPage c
  if (hdrOf p s).enable then raiseErr p 0x0103 off (if (hdrOf p s).locked then errLocked p off s else s)
  else if off = oChnBusCfg then
    match regAt p off with
    | some d => storeBut p d off v (busCfgBad p d v s) s
    | none => s
  else storeReg p off v s

/-- OWN_CMD (08 Table 8.8). -/
def ownWrite (c v : Nat) (s : State) : State :=
  match v % 4 with
  | 1 => ownClaim c false s
  | 2 => ownRelease c s
  | 3 => ownClaim c true s
  | _ => s

/-- CHN (08). -/
def chnWrite (c off v : Nat) (s : State) : State :=
  if off = oChnBusCfg ∨ off = oChnTiming0 ∨ off = oChnTiming1 then busWrite c off v s
  else if off = oChnTrainSel then trainSel c (v % 8) s
  else if off = oChnRetrain then onBit 31 v (retrainNow c) (storeReg (chnPage c) off v s)
  else if off = oChnOwnCmd then ownWrite c v s
  else storeReg (chnPage c) off v s

/-- BUR and GRV (09). -/
def engWrite (e off v : Nat) (s : State) : State :=
  if off = oBurFault then
    onClear (enginePage e) off 31 v (modEng e fun x => { x with fault := x.fault &&& ~~~(BitVec.ofNat 32 (2 ^ 31)) }) s
  else if off = oBurDispSel then dispSel e (v % 256) s
  else storeReg (enginePage e) off v s

/-- SEC (09). -/
def secWrite (off v : Nat) (s : State) : State :=
  if off = oSecLoadStart then (if bitAt v 0 then loadStart s else if secClosed s then errLocked .sec oSecLoadStart s else s)
  else if off = oSecRollAdv then rollAdv (v % 128) s
  else if off = oSecUnlock then unlockWrite (v % 65536) s
  else if off = oSecRawCmd then rawWrite .cmd (v &&& rawMask .cmd) s
  else if off = oSecRawAddr then rawWrite .addr (v &&& rawMask .addr) s
  else if off = oSecRawData then rawWrite .data (v &&& rawMask .data) s
  else storeReg .sec off v s

/-! ### DPT, LVL, DSP, PWR -/

/-- DPT (10). -/
def dptWrite (off v : Nat) (s : State) : State :=
  if off = oDptPeak then onBit 31 v (fun s => { s with dpt.peak := occAll s }) s else storeReg .dpt off v s

/-- TEMP_BANDS: a write that breaks T1 < T2 < T3 leaves the three (11 TEMP_BANDS). -/
def bandsWrite (v : Nat) (s : State) : State :=
  let t := fun i => signedOf 8 (fieldOf v (8 * i) 8)
  if t 0 < t 1 ∧ t 1 < t 2 then storeReg .lvl oLvlTempBands v s
  else match regAt .lvl oLvlTempBands with
    | some d =>
      let bad := badFields .lvl oLvlTempBands (writeMask .lvl d s) v
      let bad := if (hdrOf .lvl s).locked then bad else ⟨oLvlTempBands, 0, 24, []⟩ :: bad
      storeBut .lvl d oLvlTempBands v bad s
    | none => s

/-- LVL (11). -/
def lvlWrite (off v : Nat) (s : State) : State :=
  if off = oLvlFactoryLock then onBit 0 v lockFactory s
  else if off = oLvlLoadCtrl then
    if bitAt v 31 then levelLoad (fieldOf v 12 14) (fieldOf v 0 12) s else storeReg .lvl off v s
  else if off = oLvlTempSel then tempSel (v % 4096) s
  else if off = oLvlTempBands then bandsWrite v s
  else storeReg .lvl off v s

/-- DSP (12). -/
def dspWrite (a off v : Nat) (s : State) : State :=
  if off = oDspHoldInfo then
    onClear (dspPage a) off 63 v (modDsp a fun d => { d with holdInfo := d.holdInfo &&& ~~~(BitVec.ofNat 64 (2 ^ 63)) }) s
  else storeReg (dspPage a) off v s

/-- RAIL_CMD (13 R316, R317); CMD 3 is reserved. -/
def railWrite (v : Nat) (s : State) : State :=
  let g := fieldOf v 8 3
  match v % 4 with
  | 1 => bootAdvance (cmdOn g s)
  | 2 => cmdOff g s
  | 3 => errReserved .pwr oPwrRailCmd 0 s
  | _ => s

/-- STATE_CMD (13 R319 to R323); CMD 5 to 7 are reserved. -/
def stateWrite (v : Nat) (s : State) : State :=
  match v % 8 with
  | 0 => s
  | 1 => cmdRun s
  | 2 => cmdDoze s
  | 3 => cmdSleep false s
  | 4 => cmdSleep true s
  | _ => errReserved .pwr oPwrStateCmd 0 s

/-- PWR (13). -/
def pwrWrite (off v : Nat) (s : State) : State :=
  if off = oPwrRailCmd then railWrite v s
  else if off = oPwrStateCmd then stateWrite v s
  else storeReg .pwr off v s

/-! ### MAP -/

/-- MAP_CMD (14 Table 14.5); CMD 7 to 15 are reserved. -/
def mapCmdWrite (v : Nat) (s : State) : State :=
  match fieldOf v 28 4 with
  | 0 => s
  | 1 => mapLoad s
  | 2 => mapInit s
  | 3 => mapWrite s
  | 4 => mapResolve (v % 4) s
  | 5 => mapRecover (v % 4) s
  | 6 => jrnlInit s
  | _ => errReserved .map oMapMapCmd 28 s

/-- GEN takes effect only in EMPTY, FAILED and CONFLICT (14 after Table 14.5). -/
def genWrite (v : Nat) (s : State) : State :=
  if s.map.state = .empty ∨ s.map.state = .failed ∨ s.map.state = .conflict then
    if hwSet .map oMapGen 0 s then s else { s with map.gen := BitVec.ofNat 32 v }
  else { s with map.lastResult := mapBadState }

/-- MARK_CMD (14 R342). -/
def markWrite (v : Nat) (s : State) : State :=
  let d := fieldOf v 18 12
  let plane := fieldOf v 16 2
  let block := fieldOf v 0 14
  match fieldOf v 30 2 with
  | 1 => markAdd d plane 2 block s
  | 2 => markAdd d plane 1 block s
  | 3 => markRemove d plane block s
  | _ => s

/-- MAP (14). -/
def mapRegWrite (off v : Nat) (s : State) : State :=
  if off = oMapMapCmd then mapCmdWrite v s
  else if off = oMapGen then genWrite v s
  else if off = oMapRosterEnt then rosterWrite (BitVec.ofNat 64 v) s
  else if off = oMapMarkCmd then markWrite v s
  else storeReg .map off v s

/-! ### IRQ, IRQT, NOTE -/

/-- SRC_CFG of the source that SRC_SEL names; an ID that names none ignores it, and the priority of ID 20 stays 15. -/
def srcWrite (v : Nat) (s : State) : State :=
  let id := regFld .irq oIrqSrcSel 0 11 s
  if sharedId id then
    let x := srcOf id s
    setSrc id { x with fatal := bitAt v 31, targets := BitVec.ofNat 8 (fieldOf v 16 8),
                       prio := if id = 20 then x.prio else v % 16 } s
  else s

/-- FATAL: W1C of LATCHED, then FORCE, which sets it (15 R368, 03 R74). -/
def fatalWrite (v : Nat) (s : State) : State := onBit 30 v fatalForce (onBit 31 v fatalClear s)

/-- IRQ (15). -/
def irqWrite (off v : Nat) (s : State) : State :=
  if off = oIrqSrcCfg then srcWrite v s else if off = oIrqFatal then fatalWrite v s else storeReg .irq off v s

/-- PSRC_CFG of the private source that PSRC_SEL names; the priority of 1,072 stays 15. -/
def psrcWrite (t v : Nat) (s : State) : State :=
  let id := 1024 + regFld (irqtPage t) oIrqtPsrcSel 0 6 s
  if privateId id ∧ id ≠ 1072 then setPriv t id { privOf t id s with prio := v % 16 } s else s

/-- IRQT (15). -/
def irqtWrite (t off v : Nat) (s : State) : State :=
  if off = oIrqtComplete then completeId t (v % 2048) s
  else if off = oIrqtNest then onBit 30 v (unwindStack t) (onClear (irqtPage t) off 31 v (clearSticky t) s)
  else if off = oIrqtPsrcCfg then psrcWrite t v s
  else storeReg (irqtPage t) off v s

/-- NOTE.CMD (15 R375). -/
def noteCmdWrite (v : Nat) (s : State) : State :=
  match v % 4 with
  | 1 => noteCommand 1 fifoMark s
  | 2 => noteCommand 2 fifoRewind s
  | 3 => noteCommand 3 fifoRelease s
  | _ => s

/-- STAT: W1C of OVERRUN of the engine that SEL names; ignored with SEL = 127 (15 STAT). -/
def noteStatWrite (v : Nat) (s : State) : State :=
  if noteSel s = 127 then s else onClear .note (oNoteStat + 4096 * (noteSel s + 1)) 30 v (modFifo (noteSel s) fun f => { f with overrun := false }) s

/-- NOTE (15). -/
def noteWriteReg (off v : Nat) (s : State) : State :=
  if off = oNoteCmd then noteCmdWrite v s
  else if off = oNoteStat then noteStatWrite v s
  else storeReg .note off v s

/-! ### RST, MEM -/

/-- RST (16): BKP[0..2] are read-only. -/
def rstWrite (off v : Nat) (s : State) : State :=
  if off = oRstSwReset then swReset (fieldOf v 16 16) (v % 4) s
  else if off = oRstRmemData then setRmem (regFld .rst oRstRmemSel 0 13 s) v s
  else match bankIdx oRstBkp 16 off with
    | some k => if 3 ≤ k then setBkp k (BitVec.ofNat 32 v) s else s
    | none => storeReg .rst off v s

/-- BKP_CLR (17 R396, Table 17.2). -/
def bkpClrWrite (v : Nat) (s : State) : State :=
  let w1c := fun i => onClear .mem oMemBkpClr i v (clearBkp0 i)
  onBit 0 v clearCeTotal (w1c 29 (w1c 30 (onBit 31 v logLostClear s)))

/-- MEM (17). -/
def memWrite (off v : Nat) (s : State) : State :=
  if off = oMemLogCtrl then onBit 31 v logClear s
  else if off = oMemBkpClr then bkpClrWrite v s
  else if off = oMemScrubCnt then onBit 31 v scrubStart (scrubCount (v % 2 ^ 24) s)
  else if off = oMemRemapCmd then remapCmd (fieldOf v 24 3) (fieldOf v 0 24) s
  else storeReg .mem off v s

/-! ### All pages -/

/-- A write of the register at an offset beyond the header; a reserved offset ignores it (03 R61). -/
def regWrite (p : Page) (off v : Nat) (s : State) : State :=
  match p with
  | .glb => storeReg .glb off v s
  | .tmb => tmbWrite off v s
  | .rif => rifWrite off v s
  | .ops => opsWrite off v s
  | .sch => schWrite off v s
  | .dpt => dptWrite off v s
  | .ecc => storeReg .ecc off v s
  | .lvl => lvlWrite off v s
  | .dsp a => dspWrite a.toNat off v s
  | .pwr => pwrWrite off v s
  | .map => mapRegWrite off v s
  | .irq => irqWrite off v s
  | .irqt t => irqtWrite t.toNat off v s
  | .note => noteWriteReg off v s
  | .rst => rstWrite off v s
  | .mem => memWrite off v s
  | .sec => secWrite off v s
  | .peer => storeReg .peer off v s
  | .grv => engWrite 64 off v s
  | .bur b => engWrite b.toNat off v s
  | .chn c => chnWrite c.toNat off v s

/-- A write of the register at a page offset. -/
def pageWrite (p : Page) (off v : Nat) (s : State) : State :=
  if off < 64 then hdrWrite p off v s else regWrite p off v s

end Sys2Proof.Machine
end

