-- ==== Sys2Proof/Machine/Csr.lean ====
section
/-!
DEFINITION. The CSR port over pages and windows (02 R40 to R42, 03 R60, R73 to R79, 16 R383): writes, the commands that
are register writes, and reads. No row of the command table is a plain read; csrRead is kept beside the writes for what
R73 to R76 and 15 R374 say of reads.
-/

namespace Sys2Proof.Machine

/-! ### Addresses and strobes (02 R40) -/

/-- The doubleword and the strobe of an access: 0x0F, 0xF0 or 0xFF on a multiple of 8; strobe 0x0F on an address that
ends in 4 names the upper word, as the worked example of 03 writes it. Any other access whose address is no multiple of
8 gets an error response: R40 forbids it and states no behaviour (DESIGN CHOICE, log entry 33). -/
def csrNorm (addr strb : Nat) : Option (Nat × Nat) :=
  if strb ≠ 0x0F ∧ strb ≠ 0xF0 ∧ strb ≠ 0xFF then none
  else if addr % 8 = 0 then some (addr, strb)
  else if addr % 8 = 4 ∧ strb = 0x0F then some (addr - 4, 0xF0)
  else none

/-- The write data in the lanes of its doubleword: the word of an access at an address that ends in 4 lies in bits
[31:0], which its strobe selects (DESIGN CHOICE, log entry 33). -/
def csrLanes (addr data : Nat) : Nat := if addr % 8 = 4 then data % 2 ^ 32 * 2 ^ 32 else data

/-- The access selects the lower word; the upper word. -/
def selLow (strb : Nat) : Bool := strb.testBit 0
def selHigh (strb : Nat) : Bool := strb.testBit 4

/-- Lower and upper word of 64 bits. -/
def lowWord (v : Nat) : Nat := v % 2 ^ 32
def highWord (v : Nat) : Nat := v / 2 ^ 32 % 2 ^ 32

/-! ### Table windows (03 R78, R79, Tables 3.1, 3.6) -/

/-- The page that reports refused writes of the window at an address; none where no window lies. -/
def winPage (a : Nat) : Option Page :=
  if 0x400000 ≤ a ∧ a < 0x600000 then some .lvl
  else if 0x600000 ≤ a ∧ a < 0x608000 then some (.dsp 0)
  else if 0x608000 ≤ a ∧ a < 0x610000 then some (.dsp 1)
  else if 0x610000 ≤ a ∧ a < 0x620000 then some .glb
  else if 0x620000 ≤ a ∧ a < 0x630000 then some .pwr
  else if 0x630000 ≤ a ∧ a < 0x640000 then some .lvl
  else if 0x700000 ≤ a ∧ a < 0x800000 then some .sec
  else none

/-- Release step from which the window of a page answers (16 R383). -/
def winStep (p : Page) : Nat :=
  match p with
  | .glb => 2
  | .sec => 5
  | .lvl => 6
  | _ => 7

/-- A window answers. -/
def winAnswers (p : Page) (s : State) : Bool := corePowered s && stepReleased (winStep p) s

/-- Bytes that a window holds: beyond them it reads as zero and ignores writes (08 R179, 11 R254, R268, 12 R281, 13
R306). -/
def winHolds (a : Nat) : Bool :=
  decide (0x400000 ≤ a ∧ a < 0x611000) || decide (0x620000 ≤ a ∧ a < 0x620200)
  || decide (0x630000 ≤ a ∧ a < 0x630800) || decide (0x631000 ≤ a ∧ a < 0x632000)

/-- An access in the factory half of an element (11 R254). -/
def factoryByte (a : Nat) : Bool := decide (0x400000 ≤ a ∧ a < 0x600000) && decide (a % 16 < 8)

/-- Whether a write is refused (03 Table 3.6). -/
def winRefused (p : Page) (a : Nat) (s : State) : Bool :=
  decide (p = .sec) || (hdrOf p s).locked || (factoryByte a && s.lvl.locked)

/-- Bytes of a window from an address on; a write to an element ends what LEVEL_SETs have set from it (11 R257). -/
def winStore (a : Nat) (bytes : List Byte) (s : State) : State :=
  if winHolds a then
    let s := setWinBytes a bytes s
    if a < 0x600000 then touchElement a s else s
  else s

/-- The selected words of a write. -/
def winWrite (p : Page) (a data strb : Nat) (s : State) : State :=
  if winRefused p a s then csrErr (raiseErr p 0x0004 (if selLow strb then a else a + 4) s)
  else
    let s := if selLow strb then winStore a (leBytes 4 (lowWord data)) s else s
    let s := if selHigh strb then winStore (a + 4) (leBytes 4 (highWord data)) s else s
    csrOk 0 s

/-- The control store of the engine that CS_VIEW selects: ROM words, and zero elsewhere (03 R79). -/
def storeView (a : Nat) (s : State) : Nat :=
  let e := regFld .glb oGlbCsView 0 7 s
  let w := (a - 0x700000) / 16
  if w < patchBase (decide (e = 64)) then
    (storeWord e w s).toNat / 2 ^ (64 * (a / 8 % 2)) % 2 ^ 64
  else 0

/-- Eight bytes of a window. -/
def winRead (a : Nat) (s : State) : Nat :=
  if 0x700000 ≤ a then storeView a s
  else if winHolds a then winNat a 8 s
  else 0

/-! ### Pages (03 R71, R75, R76) -/

/-- The 64-bit register at a doubleword of a page, if one stands there. -/
def isWide (p : Page) (off : Nat) : Bool := (regAt p off).any fun d => d.wide

/-- The write-holding latch of a page. -/
def wLatchOf (p : Page) (s : State) : Option (Nat × Word32) := SMap.get (fun _ => none) s.csr.wLatch (pageNum p)

/-- The read-holding latch of a page. -/
def rLatchOf (p : Page) (s : State) : Option (Nat × Word32) := SMap.get (fun _ => none) s.csr.rLatch (pageNum p)

/-- A page's latches as an access leaves them. -/
def setLatches (p : Page) (w r : Option (Nat × Word32)) (s : State) : State :=
  { s with csr := { s.csr with wLatch := SMap.put (fun _ => none) s.csr.wLatch (pageNum p) w,
                               rLatch := SMap.put (fun _ => none) s.csr.rLatch (pageNum p) r } }

/-- Lower word of a 0xF0 write: the latch where it is filled for the register, else the register as it stands. -/
def heldLow (p : Page) (off : Nat) (s : State) : Nat :=
  match wLatchOf p s with
  | some (o, w) => if o = off then w.toNat else lowWord (pageView p off s)
  | none => lowWord (pageView p off s)

/-- A write to a 64-bit register (03 R75). -/
def wideWrite (p : Page) (off data strb : Nat) (s : State) : State :=
  if strb = 0xFF then csrOk 0 (pageWrite p off data (dropLatches p s))
  else if strb = 0x0F then csrOk 0 (setLatches p (some (off, BitVec.ofNat 32 data)) none s)
  else csrOk 0 (pageWrite p off (heldLow p off s + highWord data * 2 ^ 32) (dropLatches p s))

/-- A write of CTRL asks for a subsystem reset that is refused (03 R71). -/
def l1Refused (p : Page) (off data strb : Nat) (s : State) : Bool :=
  decide (off = 8) && selHigh strb && bitAt (highWord data) 2 && l1Ok p && !l1Free p s

/-- A write to the doubleword at an offset of a page that answers. Of a strobe 0xFF the lower word is written first, so
that a selector it writes holds for the upper word (DESIGN CHOICE, log entry 130). -/
def slotWrite (p : Page) (off data strb : Nat) (s : State) : State :=
  if isWide p off then wideWrite p off data strb s
  else if l1Refused p off data strb s then csrErr (raiseErr p 0x0003 (statusOf p s) (dropLatches p s))
  else
    let s := dropLatches p s
    let s := if selLow strb then pageWrite p off (lowWord data) s else s
    csrOk 0 (if selHigh strb then pageWrite p (off + 4) (highWord data) s else s)

/-- A CSR write (03 R60, 16 R383). -/
def csrWrite (addr data strb : Nat) (s : State) : State :=
  match csrNorm addr strb with
  | none => csrErr s
  | some (a, st) =>
    match winPage a with
    | some p => if winAnswers p s then winWrite p a (csrLanes addr data) st s else csrErr s
    | none =>
      match pageAt (a / 4096) with
      | some p => if pageAnswers p s then slotWrite p (a % 4096) (csrLanes addr data) st s else csrErr s
      | none => csrErr s

/-- A write of one 32-bit register of a page. -/
def wordWrite (p : Page) (off v : Nat) (s : State) : State :=
  if pageAnswers p s then
    if off % 8 = 0 then slotWrite p off v 0x0F s else slotWrite p (off - 4) (v * 2 ^ 32) 0xF0 s
  else csrErr s

/-! ### Commands -/

/-- CTRL_ENABLE (03 R66): CTRL is written with ENABLE, and FREEZE as it stands. -/
def execCtrlEnable (page : Page) (enable : Bool) (s : State) : Out :=
  fin (wordWrite page 0x00C (2 * bit (hdrOf page s).freeze + bit enable) s)

/-- L1_RESET (03 R71): CTRL is written with L1_RESET, ENABLE as it stands and FREEZE 0. -/
def execL1Reset (page : Page) (s : State) : Out := fin (wordWrite page 0x00C (4 + bit (hdrOf page s).enable) s)

/-- ERROR_CLEAR (03 R68): 1 is written to STATUS.ERROR. -/
def execErrorClear (page : Page) (s : State) : Out := fin (wordWrite page 0x010 2 s)

/-- EVT_PEND_CLEAR (03 R67): bits are written to EVT_PEND. -/
def execEvtPendClear (page : Page) (bits : Word32) (s : State) : Out := fin (wordWrite page 0x01C bits.toNat s)

/-- PAGE_LOCK (03 R70): 1 is written to LOCK. -/
def execPageLock (page : Page) (s : State) : Out := fin (wordWrite page 0x03C 1 s)

/-- WINDOW_WRITE (03 R78). -/
def execWindowWrite (addr : BitVec 24) (data : Word64) (strb : Byte) (s : State) : Out :=
  fin (csrWrite addr.toNat data.toNat strb.toNat s)

/-- REGISTER_WRITE (03 R63). -/
def execRegisterWrite (addr : BitVec 24) (data : Word64) (strb : Byte) (s : State) : Out :=
  fin (csrWrite addr.toNat data.toNat strb.toNat s)

/-! ### Reads (03 R73, R75, R76) -/

/-- The words that a strobe selects; the other word is zero. -/
def laneData (strb v : Nat) : Word64 :=
  BitVec.ofNat 64 ((if selLow strb then lowWord v else 0) + (if selHigh strb then highWord v * 2 ^ 32 else 0))

/-- A read of NOTE.READ: 0x0F and 0xFF consume; a 0xF0 read returns the latch, or nothing (15 R374). -/
def noteReadAt (strb : Nat) (s : State) : State :=
  let v := noteReadValue s
  if strb = 0xF0 then
    let hi := match rLatchOf .note s with
      | some (o, w) => if o = oNoteRead then w.toNat else 0
      | none => 0
    csrOk (BitVec.ofNat 64 (hi * 2 ^ 32)) (dropLatches .note s)
  else
    let s := noteConsume s
    csrOk (laneData strb v)
      (setLatches .note none (if strb = 0x0F then some (oNoteRead, BitVec.ofNat 32 (highWord v)) else none) s)

/-- A read of a 64-bit register. -/
def wideRead (p : Page) (off strb : Nat) (s : State) : State :=
  let v := pageView p off s
  if strb = 0x0F then
    csrOk (laneData strb v) (setLatches p none (some (off, BitVec.ofNat 32 (highWord v))) s)
  else if strb = 0xFF then csrOk (BitVec.ofNat 64 v) (dropLatches p s)
  else
    let hi := match rLatchOf p s with
      | some (o, w) => if o = off then w.toNat else highWord v
      | none => highWord v
    csrOk (BitVec.ofNat 64 (hi * 2 ^ 32)) (dropLatches p s)

/-- The target whose claim register a read of a page at a doubleword takes. -/
def claimAt (p : Page) (off strb : Nat) : Option Nat :=
  match p with
  | .irqt t => if off = 0x040 ∧ selHigh strb = true then some t.toNat else none
  | _ => none

/-- A read of the doubleword at an offset of a page that answers. -/
def slotRead (p : Page) (off strb : Nat) (s : State) : State :=
  let s := if p = .rst ∧ off = oRstRmemData then readWord 7 (regFld .rst oRstRmemSel 0 13 s) s else s
  if p = .note ∧ off = oNoteRead then noteReadAt strb s
  else if isWide p off then wideRead p off strb s
  else
    let v := pageView p off s + pageView p (off + 4) s * 2 ^ 32
    let s := dropLatches p s
    let s := match claimAt p off strb with
      | some t => claimTake t s
      | none => s
    csrOk (laneData strb v) s

/-- The response of a read at an address that ends in 4 carries its word in bits [31:0] (log entry 33). -/
def readLanes (addr : Nat) (s : State) : State :=
  if addr % 8 = 4 ∧ s.csr.rspErr = false then
    { s with csr := { s.csr with rspData := BitVec.ofNat 64 (highWord s.csr.rspData.toNat) } }
  else s

/-- A CSR read. -/
def csrRead (addr strb : Nat) (s : State) : State :=
  readLanes addr <| match csrNorm addr strb with
  | none => csrErr s
  | some (a, st) =>
    match winPage a with
    | some p =>
      if winAnswers p s then
        let s := if 0x400000 ≤ a ∧ a < 0x600000 then readWord 5 ((a - 0x400000) / 16) s else s
        csrOk (laneData st (winRead a s)) s
      else csrErr s
    | none =>
      match pageAt (a / 4096) with
      | some p => if pageAnswers p s then slotRead p (a % 4096) st s else csrErr s
      | none => csrErr s

end Sys2Proof.Machine
end

