-- ==== Sys2Proof/Machine/Dispatch.lean ====
section
/-!
DEFINITION. The dispatch of a command to its meaning: one arm per constructor of Instr.
-/

namespace Sys2Proof.Machine

def exec (i : Instr) (s : State) : Host.Outcome State Fault Refusal :=
  match i with
  | .por => Sys2Proof.Machine.execPor s
  | .sysReset => Sys2Proof.Machine.execSysReset s
  | .swWarm => Sys2Proof.Machine.execSwWarm s
  | .swCold => Sys2Proof.Machine.execSwCold s
  | .frameWatchdog => Sys2Proof.Machine.execFrameWatchdog s
  | .memUe cls addr => Sys2Proof.Machine.execMemUe cls addr s
  | .fusePar latched => Sys2Proof.Machine.execFusePar latched s
  | .resetRelease boot clk peer fuses => Sys2Proof.Machine.execResetRelease boot clk peer fuses s
  | .domainRelease => Sys2Proof.Machine.execDomainRelease s
  | .creditReturn p stream => Sys2Proof.Machine.execCreditReturn p stream s
  | .fabIdle p => Sys2Proof.Machine.execFabIdle p s
  | .pollDue r => Sys2Proof.Machine.execPollDue r s
  | .pollData p tkt beats stat => Sys2Proof.Machine.execPollData p tkt beats stat s
  | .entryUnitData p tkt beats stat => Sys2Proof.Machine.execEntryUnitData p tkt beats stat s
  | .prefetchData p tkt beats stat => Sys2Proof.Machine.execPrefetchData p tkt beats stat s
  | .contextData p tkt beats stat => Sys2Proof.Machine.execContextData p tkt beats stat s
  | .contextWritebackResponse p tkt stat => Sys2Proof.Machine.execContextWritebackResponse p tkt stat s
  | .headReread r => Sys2Proof.Machine.execHeadReread r s
  | .headData p tkt beats stat => Sys2Proof.Machine.execHeadData p tkt beats stat s
  | .pollDemandUpdate => Sys2Proof.Machine.execPollDemandUpdate s
  | .activate r => Sys2Proof.Machine.execActivate r s
  | .fnReset f => Sys2Proof.Machine.execFnReset f s
  | .fnResetDone f => Sys2Proof.Machine.execFnResetDone f s
  | .invalHold count first => Sys2Proof.Machine.execInvalHold count first s
  | .invalRelease count first => Sys2Proof.Machine.execInvalRelease count first s
  | .read r => Sys2Proof.Machine.execRead r s
  | .readMp r => Sys2Proof.Machine.execReadMp r s
  | .program r => Sys2Proof.Machine.execProgram r s
  | .erase r => Sys2Proof.Machine.execErase r s
  | .destage r => Sys2Proof.Machine.execDestage r s
  | .stage r => Sys2Proof.Machine.execStage r s
  | .copy r => Sys2Proof.Machine.execCopy r s
  | .fence r => Sys2Proof.Machine.execFence r s
  | .nop r => Sys2Proof.Machine.execNop r s
  | .census r => Sys2Proof.Machine.execCensus r s
  | .calibrate r => Sys2Proof.Machine.execCalibrate r s
  | .featureGet r => Sys2Proof.Machine.execFeatureGet r s
  | .featureSet r => Sys2Proof.Machine.execFeatureSet r s
  | .raw r => Sys2Proof.Machine.execRaw r s
  | .fenceCommit t => Sys2Proof.Machine.execFenceCommit t s
  | .expiry t => Sys2Proof.Machine.execExpiry t s
  | .completionWrite r => Sys2Proof.Machine.execCompletionWrite r s
  | .completionWriteResponse p tkt stat => Sys2Proof.Machine.execCompletionWriteResponse p tkt stat s
  | .dataWriteResponse p tkt stat => Sys2Proof.Machine.execDataWriteResponse p tkt stat s
  | .programData p tkt beats stat => Sys2Proof.Machine.execProgramData p tkt beats stat s
  | .earlyPop => Sys2Proof.Machine.execEarlyPop s
  | .tagSel t => Sys2Proof.Machine.execTagSel t s
  | .frameTick => Sys2Proof.Machine.execFrameTick s
  | .planPublish c => Sys2Proof.Machine.execPlanPublish c s
  | .planOverrun => Sys2Proof.Machine.execPlanOverrun s
  | .checkpointMiss b => Sys2Proof.Machine.execCheckpointMiss b s
  | .planAdopt c => Sys2Proof.Machine.execPlanAdopt c s
  | .planSel c => Sys2Proof.Machine.execPlanSel c s
  | .dieSel d => Sys2Proof.Machine.execDieSel d s
  | .wedgeTick => Sys2Proof.Machine.execWedgeTick s
  | .servoSample a pos => Sys2Proof.Machine.execServoSample a pos s
  | .sampleWaitExpiry => Sys2Proof.Machine.execSampleWaitExpiry s
  | .miss => Sys2Proof.Machine.execMiss s
  | .holdExpired => Sys2Proof.Machine.execHoldExpired s
  | .acquireTimeout => Sys2Proof.Machine.execAcquireTimeout s
  | .frameWrite frame => Sys2Proof.Machine.execFrameWrite frame s
  | .startGrant d => Sys2Proof.Machine.execStartGrant d s
  | .resume d => Sys2Proof.Machine.execResume d s
  | .dataInRestart d => Sys2Proof.Machine.execDataInRestart d s
  | .plannedTransferStart c => Sys2Proof.Machine.execPlannedTransferStart c s
  | .lateFill c => Sys2Proof.Machine.execLateFill c s
  | .suspendLate d => Sys2Proof.Machine.execSuspendLate d s
  | .statusPoll d => Sys2Proof.Machine.execStatusPoll d s
  | .dieTimeout d => Sys2Proof.Machine.execDieTimeout d s
  | .ladderRetest t => Sys2Proof.Machine.execLadderRetest t s
  | .jobPresent e k => Sys2Proof.Machine.execJobPresent e k s
  | .contWord e k => Sys2Proof.Machine.execContWord e k s
  | .jumpWord e k => Sys2Proof.Machine.execJumpWord e k s
  | .dispatchWord e k => Sys2Proof.Machine.execDispatchWord e k s
  | .callWord e k => Sys2Proof.Machine.execCallWord e k s
  | .returnWord e k => Sys2Proof.Machine.execReturnWord e k s
  | .brtWord e k => Sys2Proof.Machine.execBrtWord e k s
  | .brfWord e k => Sys2Proof.Machine.execBrfWord e k s
  | .haltWord e k => Sys2Proof.Machine.execHaltWord e k s
  | .waitTimerExpiry e k => Sys2Proof.Machine.execWaitTimerExpiry e k s
  | .busActionEnd c data => Sys2Proof.Machine.execBusActionEnd c data s
  | .codewordReceived c bytes => Sys2Proof.Machine.execCodewordReceived c bytes s
  | .hardCorrectionEnd c flips => Sys2Proof.Machine.execHardCorrectionEnd c flips s
  | .softDecodeStart u => Sys2Proof.Machine.execSoftDecodeStart u s
  | .softDecodeEnd u flips => Sys2Proof.Machine.execSoftDecodeEnd u flips s
  | .stagingRegrant => Sys2Proof.Machine.execStagingRegrant s
  | .contention c pads => Sys2Proof.Machine.execContention c pads s
  | .earlyContentionRetest c pads => Sys2Proof.Machine.execEarlyContentionRetest c pads s
  | .zqUpdate g => Sys2Proof.Machine.execZqUpdate g s
  | .retrain c => Sys2Proof.Machine.execRetrain c s
  | .retrainNow c => Sys2Proof.Machine.execRetrainNow c s
  | .trainSel c vol => Sys2Proof.Machine.execTrainSel c vol s
  | .ownCmdClaim c => Sys2Proof.Machine.execOwnCmdClaim c s
  | .ownCmdRelease c => Sys2Proof.Machine.execOwnCmdRelease c s
  | .ownCmdForceClaim c => Sys2Proof.Machine.execOwnCmdForceClaim c s
  | .claim msg => Sys2Proof.Machine.execClaim msg s
  | .grant msg => Sys2Proof.Machine.execGrant msg s
  | .release msg => Sys2Proof.Machine.execRelease msg s
  | .heartbeatInfo msg => Sys2Proof.Machine.execHeartbeatInfo msg s
  | .takeoverNotice msg => Sys2Proof.Machine.execTakeoverNotice msg s
  | .msgError msg stop => Sys2Proof.Machine.execMsgError msg stop s
  | .messageSend => Sys2Proof.Machine.execMessageSend s
  | .heartbeatInfoSend => Sys2Proof.Machine.execHeartbeatInfoSend s
  | .heartbeat => Sys2Proof.Machine.execHeartbeat s
  | .peerHbEdge => Sys2Proof.Machine.execPeerHbEdge s
  | .peerLost => Sys2Proof.Machine.execPeerLost s
  | .claimTimeout c => Sys2Proof.Machine.execClaimTimeout c s
  | .backoffEnd c => Sys2Proof.Machine.execBackoffEnd c s
  | .releaseComplete c => Sys2Proof.Machine.execReleaseComplete c s
  | .takeoverEnd c => Sys2Proof.Machine.execTakeoverEnd c s
  | .dispSel e idx => Sys2Proof.Machine.execDispSel e idx s
  | .loadStart => Sys2Proof.Machine.execLoadStart s
  | .loadData p tkt beats stat => Sys2Proof.Machine.execLoadData p tkt beats stat s
  | .loadVerifyEnd => Sys2Proof.Machine.execLoadVerifyEnd s
  | .bootFetchTimeout => Sys2Proof.Machine.execBootFetchTimeout s
  | .rollAdv target => Sys2Proof.Machine.execRollAdv target s
  | .fuseBurn => Sys2Proof.Machine.execFuseBurn s
  | .unlock key => Sys2Proof.Machine.execUnlock key s
  | .rawStart reg data => Sys2Proof.Machine.execRawStart reg data s
  | .rawWaitTimeout => Sys2Proof.Machine.execRawWaitTimeout s
  | .levelLoad block d => Sys2Proof.Machine.execLevelLoad block d s
  | .factoryLockSet => Sys2Proof.Machine.execFactoryLockSet s
  | .tempSample d => Sys2Proof.Machine.execTempSample d s
  | .tempSel d => Sys2Proof.Machine.execTempSel d s
  | .destageResolve t => Sys2Proof.Machine.execDestageResolve t s
  | .wedgeDecision a => Sys2Proof.Machine.execWedgeDecision a s
  | .fmtTxBeat a => Sys2Proof.Machine.execFmtTxBeat a s
  | .fmtRxSector a bytes bad => Sys2Proof.Machine.execFmtRxSector a bytes bad s
  | .fireflyPulse a => Sys2Proof.Machine.execFireflyPulse a s
  | .isenseStrobe g code => Sys2Proof.Machine.execIsenseStrobe g code s
  | .railCmdOn g => Sys2Proof.Machine.execRailCmdOn g s
  | .railCmdOff g => Sys2Proof.Machine.execRailCmdOff g s
  | .railPgoodRise g => Sys2Proof.Machine.execRailPgoodRise g s
  | .railPgoodFall g => Sys2Proof.Machine.execRailPgoodFall g s
  | .railTimeout g => Sys2Proof.Machine.execRailTimeout g s
  | .railUp g => Sys2Proof.Machine.execRailUp g s
  | .stateCmdRun => Sys2Proof.Machine.execStateCmdRun s
  | .stateCmdDoze => Sys2Proof.Machine.execStateCmdDoze s
  | .stateCmdRetain => Sys2Proof.Machine.execStateCmdRetain s
  | .stateCmdCicada => Sys2Proof.Machine.execStateCmdCicada s
  | .wakingEnd => Sys2Proof.Machine.execWakingEnd s
  | .enteringEnd => Sys2Proof.Machine.execEnteringEnd s
  | .wakeReq boot clk peer fuses => Sys2Proof.Machine.execWakeReq boot clk peer fuses s
  | .wakeTimer boot clk peer fuses => Sys2Proof.Machine.execWakeTimer boot clk peer fuses s
  | .pfailWarn => Sys2Proof.Machine.execPfailWarn s
  | .drainLimit => Sys2Proof.Machine.execDrainLimit s
  | .lwLimit => Sys2Proof.Machine.execLwLimit s
  | .mapLoad => Sys2Proof.Machine.execMapLoad s
  | .mapInit => Sys2Proof.Machine.execMapInit s
  | .mapWrite => Sys2Proof.Machine.execMapWrite s
  | .mapResolve arg => Sys2Proof.Machine.execMapResolve arg s
  | .mapRecover arg => Sys2Proof.Machine.execMapRecover arg s
  | .jrnlInit => Sys2Proof.Machine.execJrnlInit s
  | .copiesResolved => Sys2Proof.Machine.execCopiesResolved s
  | .copiesWritten => Sys2Proof.Machine.execCopiesWritten s
  | .recoverDone => Sys2Proof.Machine.execRecoverDone s
  | .markAddGrown d plane block => Sys2Proof.Machine.execMarkAddGrown d plane block s
  | .markAddFactory d plane block => Sys2Proof.Machine.execMarkAddFactory d plane block s
  | .markRemove d plane block => Sys2Proof.Machine.execMarkRemove d plane block s
  | .rosterWrite value => Sys2Proof.Machine.execRosterWrite value s
  | .jrnlBatchClose => Sys2Proof.Machine.execJrnlBatchClose s
  | .jrnlConfirmDue => Sys2Proof.Machine.execJrnlConfirmDue s
  | .jrnlPageDone => Sys2Proof.Machine.execJrnlPageDone s
  | .claimRead t => Sys2Proof.Machine.execClaimRead t s
  | .complete t id => Sys2Proof.Machine.execComplete t id s
  | .unwind t => Sys2Proof.Machine.execUnwind t s
  | .stickyClear t => Sys2Proof.Machine.execStickyClear t s
  | .fatalForce => Sys2Proof.Machine.execFatalForce s
  | .fatalClear => Sys2Proof.Machine.execFatalClear s
  | .noteRead => Sys2Proof.Machine.execNoteRead s
  | .noteMark => Sys2Proof.Machine.execNoteMark s
  | .noteRewind => Sys2Proof.Machine.execNoteRewind s
  | .noteRelease => Sys2Proof.Machine.execNoteRelease s
  | .logClear => Sys2Proof.Machine.execLogClear s
  | .logLostClear => Sys2Proof.Machine.execLogLostClear s
  | .ceTotalClear => Sys2Proof.Machine.execCeTotalClear s
  | .logParityFail entry => Sys2Proof.Machine.execLogParityFail entry s
  | .scrubStart count => Sys2Proof.Machine.execScrubStart count s
  | .scrubRead found => Sys2Proof.Machine.execScrubRead found s
  | .remapCmd cls index => Sys2Proof.Machine.execRemapCmd cls index s
  | .ctrlEnable page enable => Sys2Proof.Machine.execCtrlEnable page enable s
  | .l1Reset page => Sys2Proof.Machine.execL1Reset page s
  | .errorClear page => Sys2Proof.Machine.execErrorClear page s
  | .evtPendClear page bits => Sys2Proof.Machine.execEvtPendClear page bits s
  | .pageLock page => Sys2Proof.Machine.execPageLock page s
  | .windowWrite addr data strb => Sys2Proof.Machine.execWindowWrite addr data strb s
  | .registerWrite addr data strb => Sys2Proof.Machine.execRegisterWrite addr data strb s
  | .nonReferenceWedgeTick => Sys2Proof.Machine.execNonReferenceWedgeTick s

end Sys2Proof.Machine
end

