-- ==== Sys2Proof/Machine/Step.lean ====
section
/-!
DEFINITION. One step of the block: the command at the front of the queue, or one cc of cclk when none waits.
-/

namespace Sys2Proof.Machine

/-- The command at the front of the queue is executed with the queue's rest; with an empty queue one cc passes
(log entry 1), and the
flags settle as after a command. -/
def step (s : State) : Host.Outcome State Fault Refusal :=
  match s.pending with
  | [] => .next (settle (clockTick s))
  | c :: r => exec c { s with pending := r }

/-- The command that a word spells put at the front of the queue; the state unchanged where the word spells none. -/
def State.withFetchWord (s : State) (nbits w : Nat) : State :=
  match decodeTableWord nbits w with
  | some c => { s with pending := c :: s.pending }
  | none => s

end Sys2Proof.Machine
end

