-- ==== Sys2Proof/Safety.lean ====
section
/-!
DEFINITION. What a safe run is: no step faults and none is refused.
-/

namespace Sys2Proof.Machine

/-- The outcome is a next state. -/
def completes (o : Out) : Prop := ∃ t, o = .next t

/-- The first n steps from a state all answer a next state. -/
def safeFor : Nat → State → Prop
  | 0, _ => True
  | n + 1, s => ∃ t, step s = .next t ∧ safeFor n t

end Sys2Proof.Machine
end

