-- ==== Sys2Proof/Certificates/Slice0/Obligations.lean ====
section
/-!
DEFINITION. The statements about the XF128, each from the numbered rules its docstring names. A result of a command is
stated as the state that exec answers: settle of a state that is written out, so that all it does not name is as
before; SettleOnlyFlags says what settle itself may change.
-/

open Sys2Proof Sys2Proof.Machine

/-! ### The step, reset, flags -/

/-- The block takes its commands one after another, first in, first out: a step of a state with command c at the front
of its queue is c executed on the state with the queue's rest, and every
command ends in a next state, whatever the state: the block knows no command that stops it. -/
def Obligations.StepExecutesFrontCommand : Prop :=
  ∀ (c : Instr) (r : List Instr) (s : State), step { s with pending := c :: r } = exec c { s with pending := r }
    ∧ ∃ t, exec c s = .next t

/-- Nothing but the clock acts in the cc that ends: no retest of a held tag (11 R274), no tag that an abort of this cc
ends, no ZQ code to apply (08 R175), and not the cc in which the engines' clock stops in Doze. -/
def plainCc (s : State) : Prop :=
  retestNext s = none ∧ s.ops.abortNow = [] ∧ (∀ e ∈ s.chn, e.2.zqPend = false)
    ∧ (s.pwr.state = .doze → s.cc + 1 ≠ s.pwr.since + 64)

/-- The cc that ends: PWR counter 2 counts it while a start is held, the count of cc moves on by one, the tags that
committed in it complete, and an upset of a protected unit may come. -/
def ccEnded (s : State) : State :=
  let u := if anyHeld s then bump .pwr 2 s else s
  let v := u.ops.doneNow.foldl tagDone { u with cc := s.cc + 1, ops := { u.ops with doneNow := [] } }
  { v with mem := { v.mem with upsets := addUpset (Config.upset v.cc) v.mem.upsets } }

/-- The model's choice (log entry 1): with an empty queue one cc passes. While TMB runs, in the last cc of the frame
time stands. In any other cc in which nothing but the clock acts, the count of cc moves on by one, the tags that
committed in the cc that ends complete (01 R20), PWR counter 2 counts a cc in which a start is held (13 R332), and an
upset of a protected unit may come (17 R391); that is all in OFF and without core power, and while TMB runs TMB.PHASE
moves on by one as well; at offset PLAN_WINDOW a planner whose plans are all published has met its checkpoint, and is
judged. -/
def Obligations.IdleStepPassesOneCycle : Prop :=
  ∀ s : State, s.pending = [] →
    (s.tmb.state ≠ .off → corePowered s = true → s.tmb.frameLen ≤ s.tmb.phase + 1 → step s = .next (settle s))
    ∧ ((s.tmb.state = .off ∨ corePowered s = false) → plainCc s → step s = .next (settle (ccEnded s)))
    ∧ (s.tmb.state ≠ .off → corePowered s = true → s.tmb.phase + 1 < s.tmb.frameLen → plainCc s →
        let v := { ccEnded s with tmb := { (ccEnded s).tmb with phase := (ccEnded s).tmb.phase + 1 } }
        let met := checkpointsDue v = true ∧ pageActive .sch v = true ∧ v.tmb.planJudged = false ∧ v.sch.toPlan = []
        (v.tmb.phase ≠ planWindow v ∨ ¬met → step s = .next (settle v))
        ∧ (v.tmb.phase = planWindow v → met → step s = .next (settle { v with tmb := { v.tmb with
            planJudged := true, planPrev := v.tmb.planLast, planLast := false, planAt := v.tmb.frame } })))

/-- What the flags' settling at the end of every command may change: bits of EVT_PEND may be set (with the
model's own record of it, now), and the latch of the fault line with its FIRST; everything else is as before. -/
def Claims.SettleOnlyFlags : Prop :=
  ∀ s : State,
    { settle s with hdr := s.hdr, irq := { (settle s).irq with latched := s.irq.latched, first := s.irq.first } } = s
    ∧ (∀ p, ∃ m n, hdrOf p (settle s) = { hdrOf p s with evtPend := (hdrOf p s).evtPend ||| m, now := n })
    ∧ (s.irq.latched = true → (settle s).irq = s.irq)

/-- 03 R67, 15 R368: the flags agree with the state: each level event that is high is latched in EVT_PEND, and the
fault line is latched while a source with FATAL = 1 is pending or in service. -/
def flagsAgree (s : State) : Prop :=
  corePowered s = true → stepReleased 1 s = true →
    (∀ p i, (p, i) ∈ levelList → levelEvt p i s = true → (hdrOf p s).evtPend.toNat.testBit i = true)
    ∧ (fatalSource s ≠ none → s.irq.latched = true)
    ∧ (s.irq.latched = true → (hdrOf .irq s).evtPend.toNat.testBit 0 = true)

/-- 03 R67, 15 R368: every step keeps the flags in agreement with the state, whatever command it executes. -/
def Obligations.EveryStepKeepsFlagsInAgreement : Prop :=
  ∀ s t : State, flagsAgree s → step s = .next t → flagsAgree t

/-- What the reset state holds, by the values the spec gives: nothing waits; the block is out of reset; every page but
IRQ, NOTE, RST, MEM and SEC is disabled (03 R66), with no event, no error, no lock, and every counter 0; TMB is OFF at
FRAME 0 with PERIOD_EST 24,414 (06 R144); every ring is IDLE (04 R85); every tag is FREE and EARLY_LOG empty (05 R114,
R129); the map is EMPTY (14 R347), the journal STOPPED and no die has a roster entry (14 R333, R359); CAUSE is that of a
power-on (16 R377, R389); the read-level window reads zero (01 R23), each of the 32 ladder rows as Table 11.3 and the
stripe groups zero (11 R269); the fault line is not latched (15 R368), and the flags agree (03 R67). -/
def Obligations.ResetState : Prop :=
  let s := State.reset
  s.pending = [] ∧ blockUp s = true ∧ (∀ p, (hdrOf p s).enable = true ↔ p ∈ [.irq, .note, .rst, .mem, .sec])
  ∧ (∀ p, (hdrOf p s).evtPend = 0 ∧ (hdrOf p s).errCode = 0 ∧ (hdrOf p s).locked = false ∧ (hdrOf p s).freeze = false
      ∧ ∀ i, cntOf p i s = 0)
  ∧ s.tmb.state = .off ∧ s.tmb.frame = 0 ∧ s.tmb.periodEst = 24414
  ∧ (∀ r, (ringOf r s).state = .idle) ∧ (∀ t, (tagOf t s).state = .free) ∧ s.ops.earlyLog = []
  ∧ s.map.state = .empty ∧ s.map.jrnl = .stopped ∧ s.map.roster = []
  ∧ s.rst.sources = 1 ∧ s.rst.first = 0 ∧ s.rst.level = 3
  ∧ (∀ a, 0x400000 ≤ a → a < 0x600000 → winByte a s = 0)
  ∧ (∀ row k, row < 32 → k < 8 → some (winNat (0x630000 + 64 * row + 8 * k) 8 s) =
      ([0x800000087F00B05E, 0x80000810FE0161E8, 0x94040021FC0212DC, 0xA804003B6A0374C4, 0xBC040054D804D6AC,
        0x00000010FE015F90, 0, 0] : List Nat)[k]?)
  ∧ (∀ a, 0x631000 ≤ a → a < 0x632000 → winByte a s = 0)
  ∧ s.irq.latched = false ∧ flagsAgree s

/-! ### The CSR port and the common header (03) -/

/-- 03 R68: an error on a page with CODE at 0 is latched with its code, its information and FRAME; a further one leaves
them and counts in MORE, at most 255 (unless it falls in the same cc and has the lower code, which is then the one
latched). No other page and no other field changes but the model's own record of the cc (now). -/
def Claims.FirstErrorLatched : Prop :=
  ∀ (p : Page) (code info : Nat) (s : State),
    let h := hdrOf p s
    let more := BitVec.ofNat 8 (min 255 (h.more.toNat + 1))
    let c := BitVec.ofNat 16 code
    let i := BitVec.ofNat 32 info
    let n := noteErr code info (nowOf p s)
    (∀ q, pageNum q ≠ pageNum p → hdrOf q (raiseErr p code info s) = hdrOf q s)
    ∧ { raiseErr p code info s with hdr := s.hdr } = s
    ∧ (h.errCode = 0 → hdrOf p (raiseErr p code info s) =
        { h with errCode := c, errInfo := i, errFrame := s.tmb.frame, errCc := s.cc, now := n })
    ∧ (h.errCode ≠ 0 → (h.errCc ≠ s.cc ∨ h.errCode.toNat ≤ code) → hdrOf p (raiseErr p code info s) =
        { h with more := more, now := n })
    ∧ (h.errCode ≠ 0 → h.errCc = s.cc → code < h.errCode.toNat → hdrOf p (raiseErr p code info s) =
        { h with more := more, errCode := c, errInfo := i, now := n })

/-- 03 R67, R69, R74: raising event i of a page sets bit i of EVT_PEND; a counter counts up to 0xFFFF_FFFF, from its
value before a CNT_VAL write of the same cc, and stands still while FREEZE of its page or of GLB is 1. Neither changes
anything else but the model's own record of the cc (now). -/
def Claims.EventsAndCounters : Prop :=
  ∀ (p : Page) (i : Nat) (s : State),
    let b := BitVec.ofNat 32 (2 ^ i)
    hdrOf p (raiseEvt p i s) = { hdrOf p s with evtPend := (hdrOf p s).evtPend ||| b,
                                                now := { nowOf p s with evts := (nowOf p s).evts ||| b } }
    ∧ (∀ q, pageNum q ≠ pageNum p → hdrOf q (raiseEvt p i s) = hdrOf q s)
    ∧ { raiseEvt p i s with hdr := s.hdr } = s
    ∧ ((hdrOf p s).freeze = false → (hdrOf .glb s).freeze = false →
        cntOf p i (bump p i s) = min 0xFFFFFFFF (cntBase p i s + 1)
        ∧ ((nowOf p s).sets = [] → cntBase p i s = cntOf p i s)
        ∧ (∀ k, k ≠ i → cntOf p k (bump p i s) = cntOf p k s)
        ∧ { hdrOf p (bump p i s) with cnt := (hdrOf p s).cnt, now := (hdrOf p s).now } = hdrOf p s
        ∧ (∀ q, pageNum q ≠ pageNum p → hdrOf q (bump p i s) = hdrOf q s)
        ∧ { bump p i s with hdr := s.hdr } = s)
    ∧ (((hdrOf p s).freeze = true ∨ (hdrOf .glb s).freeze = true) → bump p i s = s)

/-- What settling, events, counters and page errors change. -/
def Obligations.FlagsEventsAndErrors : Prop :=
  Claims.SettleOnlyFlags ∧ Claims.FirstErrorLatched ∧ Claims.EventsAndCounters

/-- 03 R66 to R68, R70: on a page that answers, ERROR_CLEAR clears CODE, MORE, ERR_INFO and ERR_FRAME, or leaves the
errors of the same cc latched as new ones, the lowest code first; EVT_PEND_CLEAR clears the bits written as 1 but those
raised in the same cc (a level that still holds is latched again, by the flags' settling); PAGE_LOCK sets LOCK.LOCKED.
Nothing else changes. -/
def Claims.HeaderWrites : Prop :=
  ∀ (p : Page) (s : State), pageAnswers p s = true →
    let u := dropLatches p s
    let n := nowOf p s
    (n.errs = 0 → exec (.errorClear p) s = .next (settle (csrOk 0
      (setHdr p { hdrOf p s with errCode := 0, more := 0, errInfo := 0, errFrame := 0 } u))))
    ∧ (n.errs ≠ 0 → exec (.errorClear p) s = .next (settle (csrOk 0
      (setHdr p { hdrOf p s with errCode := n.code, more := BitVec.ofNat 8 (min 255 (n.errs - 1)), errInfo := n.info,
                                 errFrame := s.tmb.frame, errCc := s.cc } u))))
    ∧ (∀ bits : Word32, exec (.evtPendClear p bits) s = .next (settle (csrOk 0
        (setHdr p { hdrOf p s with evtPend := (hdrOf p s).evtPend &&& (~~~bits ||| n.evts) } u))))
    ∧ exec (.pageLock p) s = .next (settle (csrOk 0 (setHdr p { hdrOf p s with locked := true } u)))

/-- 03 R66: CTRL_ENABLE on a page that answers writes ENABLE and keeps FREEZE. Where ENABLE stands as it is, on a
service page other than GLB, and while GLB.CTRL.ENABLE is 0, that is all; otherwise a rise or a fall then acts as the
page says, and on GLB on every enabled page that it governs. -/
def Claims.ControlEnable : Prop :=
  ∀ (p : Page) (on : Bool) (s : State), pageAnswers p s = true →
    let w := setHdr p { hdrOf p s with enable := on } (dropLatches p s)
    (((hdrOf p s).enable = on ∨ (servicePage p = true ∧ p ≠ .glb)
        ∨ (servicePage p = false ∧ (hdrOf .glb s).enable = false)) →
      exec (.ctrlEnable p on) s = .next (settle (csrOk 0 w)))
    ∧ ((hdrOf p s).enable ≠ on → servicePage p = false → (hdrOf .glb s).enable = true →
      exec (.ctrlEnable p on) s = .next (settle (csrOk 0 (bootAdvance (enableEdge p on w)))))
    ∧ ((hdrOf p s).enable ≠ on → p = .glb →
      exec (.ctrlEnable p on) s = .next (settle (csrOk 0 (globalEdge on w))))

/-- 03 R71, R72: L1_RESET on a page that answers and whose CAPS.L1_OK is 1. While the page is idle (for SCH, with no
candidate or planned transfer and no die operation) the page's subsystem is reset and CTRL written with FREEZE 0;
shown on four pages, the page's registers and counters are reset: ENABLE, EVT_MASK, SCRATCH and LOCK stay, the
header's other fields are 0, and no other page's header changes; otherwise the write gets an error response, error
L1_REFUSED with STATUS is latched, and nothing else changes. Where CAPS.L1_OK is 0 the write clears FREEZE alone. -/
def Claims.SubsystemReset : Prop :=
  ∀ (p : Page) (s : State), pageAnswers p s = true →
    (l1Ok p = true → l1Free p s = true → exec (.l1Reset p) s = .next (settle (csrOk 0
        (ctrlWrite p false (hdrOf p s).enable (l1Run p (dropLatches p s))))))
    ∧ (l1Ok p = false → exec (.l1Reset p) s = .next (settle (csrOk 0
        (setHdr p { hdrOf p s with freeze := false } (dropLatches p s)))))
    ∧ (l1Ok p = true → l1Free p s = true → (p = .dpt ∨ p = .ecc ∨ p = .map ∨ p = .tmb) →
      ∃ v, exec (.l1Reset p) s = .next (settle (csrOk 0 v))
        ∧ hdrOf p v = { enable := (hdrOf p s).enable, evtMask := (hdrOf p s).evtMask,
                        scratch := (hdrOf p s).scratch, locked := (hdrOf p s).locked }
        ∧ (∀ q, pageNum q ≠ pageNum p → hdrOf q v = hdrOf q s)
        ∧ v.rif = s.rif ∧ v.ops = s.ops ∧ v.sch = s.sch ∧ v.irq = s.irq ∧ v.rst = s.rst ∧ v.win = s.win)
    ∧ (l1Ok p = true → l1Free p s = false → exec (.l1Reset p) s = .next (settle (csrErr
        (raiseErr p 0x0003 (statusOf p s) (dropLatches p s)))))

/-- CTRL, ERROR, EVT_PEND, LOCK and subsystem reset of a page. -/
def Obligations.HeaderCommands : Prop :=
  Claims.HeaderWrites ∧ Claims.ControlEnable ∧ Claims.SubsystemReset

/-- 03 R63, R65, R70: REGISTER_WRITE of a word of a page that answers, shown on the two fields of PWR.RAIL_CFG (RW-L,
TIMEOUT_US 0 reserved). While the page is not locked both fields are stored; a reserved value leaves its field, the
other is stored, and RESERVED_VALUE names register and field; while the page is locked nothing is stored and
LOCKED_WRITE names the register. No other register changes. -/
def Claims.RegisterWriteStoresFields : Prop :=
  ∀ (data : Word64) (s : State), pageAnswers .pwr s = true →
    let a := BitVec.ofNat 24 (pageAddr .pwr oPwrRailCfg)
    let low := data.toNat % 2 ^ 16
    let high := data.toNat / 2 ^ 16 % 2 ^ 16
    let u := dropLatches .pwr s
    let others := fun v : State => ∀ k, k ≠ pageAddr .pwr oPwrRailCfg →
      SMap.get regReset v.regs k = SMap.get regReset s.regs k
    ((hdrOf .pwr s).locked = false → low ≠ 0 →
      ∃ v, exec (.registerWrite a data 0x0F) s = .next (settle (csrOk 0 v))
        ∧ regFld .pwr oPwrRailCfg 0 16 v = low ∧ regFld .pwr oPwrRailCfg 16 16 v = high
        ∧ others v ∧ { v with regs := s.regs } = u)
    ∧ ((hdrOf .pwr s).locked = false → low = 0 →
      ∃ v, exec (.registerWrite a data 0x0F) s = .next (settle (csrOk 0 v))
        ∧ regFld .pwr oPwrRailCfg 0 16 v = regFld .pwr oPwrRailCfg 0 16 s ∧ regFld .pwr oPwrRailCfg 16 16 v = high
        ∧ others v ∧ { v with regs := s.regs } = raiseErr .pwr 0x0001 oPwrRailCfg u)
    ∧ ((hdrOf .pwr s).locked = true →
      ∃ v, exec (.registerWrite a data 0x0F) s = .next (settle (csrOk 0 v))
        ∧ regOf .pwr oPwrRailCfg v = regOf .pwr oPwrRailCfg s
        ∧ others v ∧ { v with regs := s.regs } = raiseErr .pwr 0x0002 oPwrRailCfg u)

/-- 02 R41, R42, 03 R60, 16 R383: a register write with a strobe other than 0x0F, 0xF0 and 0xFF, to an address where no
page and no window lies, or to a page that has not been released, gets an error response and changes nothing else. -/
def Claims.RefusedWritesChangeNothing : Prop :=
  ∀ (addr : BitVec 24) (data : Word64) (strb : Byte) (s : State),
    ((strb ≠ 0x0F ∧ strb ≠ 0xF0 ∧ strb ≠ 0xFF)
      ∨ (addr.toNat % 8 = 0 ∧ winPage addr.toNat = none ∧ pageAt (addr.toNat / 4096) = none)
      ∨ (∃ p, addr.toNat % 8 = 0 ∧ winPage addr.toNat = none ∧ pageAt (addr.toNat / 4096) = some p
          ∧ pageAnswers p s = false)
      ∨ (∃ p, addr.toNat % 8 = 0 ∧ winPage addr.toNat = some p ∧ winAnswers p s = false)) →
    exec (.registerWrite addr data strb) s = .next (settle (csrErr s))
    ∧ exec (.windowWrite addr data strb) s = .next (settle (csrErr s))

/-- 03 R78, Table 3.6: WINDOW_WRITE of eight bytes of a window that answers. Where the owner is not locked (and, in
the factory half of a read-level element, FACTORY_LOCK is open) the eight bytes read as written, every other byte as
before, and beside LVL's record of set levels and the check bits and valid bits of the bytes written (17 R391, R392)
nothing else changes; a refused write gets an error response and WINDOW_LOCKED is latched with the address. -/
def Claims.WindowWriteStoresBytes : Prop :=
  ∀ (addr : BitVec 24) (data : Word64) (s : State) (p : Page),
    addr.toNat % 8 = 0 → winPage addr.toNat = some p → winAnswers p s = true →
    (winRefused p addr.toNat s = false → winHolds addr.toNat = true →
      ∃ v, exec (.windowWrite addr data 0xFF) s = .next (settle (csrOk 0 v))
        ∧ (∀ i, i < 8 → winByte (addr.toNat + i) v = BitVec.ofNat 8 (data.toNat / 256 ^ i))
        ∧ (∀ b, (b < addr.toNat ∨ addr.toNat + 8 ≤ b) → winByte b v = winByte b s)
        ∧ { v with win := s.win, mem := s.mem, lvl := s.lvl } = s
        ∧ { v.mem with upsets := s.mem.upsets, valid := s.mem.valid } = s.mem
        ∧ (∀ u, u ∈ v.mem.upsets ↔ u ∈ s.mem.upsets ∧ ∀ i, i < 8 → upsetByte u ≠ some (addr.toNat + i))
        ∧ (0x600000 ≤ addr.toNat → v.lvl = s.lvl ∧ v.mem = s.mem))
    ∧ (winRefused p addr.toNat s = true → exec (.windowWrite addr data 0xFF) s = .next (settle (csrErr
        (raiseErr p 0x0004 addr.toNat s))))

/-- Register and window writes: fields stored, reserved values, locks, refusals. -/
def Obligations.RegisterAndWindowWrites : Prop :=
  Claims.RegisterWriteStoresFields ∧ Claims.RefusedWritesChangeNothing ∧ Claims.WindowWriteStoresBytes

/-! ### IRQ, IRQT (15) -/

/-- 15 R364: a claim of target t returns a deliverable source, and no deliverable source of t has a higher priority, or
the same priority and a lower ID. -/
def Claims.ClaimReturnsBestSource : Prop :=
  ∀ (t id : Nat) (s : State), claimPick t s = some id →
    deliverable t id s = true
    ∧ ∀ j, deliverable t j s = true →
        (srcFor t j s).prio < (srcFor t id s).prio ∨ ((srcFor t j s).prio = (srcFor t id s).prio ∧ id ≤ j)

/-- 15 R364: a claim finds a source whenever some source is deliverable to its target. -/
def Claims.ClaimFindsDeliverable : Prop :=
  ∀ (t j : Nat) (s : State), deliverable t j s = true → ∃ id, claimPick t s = some id

/-- The source a claim returns is deliverable and the best; a deliverable one is found. -/
def Obligations.ClaimPicksBestSource : Prop :=
  Claims.ClaimReturnsBestSource ∧ Claims.ClaimFindsDeliverable

/-- 15 R364: CLAIM_READ of a page that answers. With a deliverable source: the read returns its ID and its priority in
bits 19 to 16 of the upper word of the doubleword, the source leaves pending and enters service, and ID and priority go
onto the stack of the target; IRQ counter 0 and the target's counter 0 count. With none: 2,047 is returned and the
counters 1 count. Nothing else changes. -/
def Claims.ClaimReadEffect : Prop :=
  ∀ (t : TgtId) (s : State), pageAnswers (irqtPage t.toNat) s = true →
    let u := dropLatches (irqtPage t.toNat) s
    (∀ id, claimPick t.toNat s = some id →
      exec (.claimRead t) s = .next (settle (csrOk
        (BitVec.ofNat 64 (((srcFor t.toNat id s).prio * 2 ^ 16 + id) * 2 ^ 32))
        (bump (irqtPage t.toNat) 0 (bump .irq 0
          (setTarget t.toNat
            { targetOf t.toNat s with stack := (id, (srcFor t.toNat id s).prio) :: (targetOf t.toNat s).stack }
            (setSrcFor t.toNat id { srcFor t.toNat id s with edge := false, serving := some t.toNat } u)))))))
    ∧ (claimPick t.toNat s = none →
      exec (.claimRead t) s = .next (settle (csrOk (BitVec.ofNat 64 (2047 * 2 ^ 32))
        (bump (irqtPage t.toNat) 1 (bump .irq 1 u)))))

/-- 15 R365, R367: COMPLETE with the ID at the top of the target's stack pops it and ends its service; with another
ID, or on an empty stack, the stack stays, STICKY is set, EXPECTED takes the ID at the top (0 of an empty stack: the
model's choice, log entry 25) and WRITTEN the ID written, and the counters 2 count (beside that stands the model's own
record that the bit was set in this cc); 0 and 2,047 change nothing. -/
def Claims.CompletePopsOrFaults : Prop :=
  ∀ (t : TgtId) (id : BitVec 11) (s : State), pageAnswers (irqtPage t.toNat) s = true →
    let n := t.toNat
    let u := dropLatches (irqtPage n) s
    let x := targetOf n s
    ((id.toNat = 0 ∨ id.toNat = 2047) → exec (.complete t id) s = .next (settle (csrOk 0 u)))
    ∧ (id.toNat ≠ 0 → id.toNat ≠ 2047 → ∀ p r, x.stack = (id.toNat, p) :: r →
        exec (.complete t id) s = .next (settle (csrOk 0
          (setSrcFor n id.toNat { srcFor n id.toNat s with serving := none } (setTarget n { x with stack := r } u)))))
    ∧ (id.toNat ≠ 0 → id.toNat ≠ 2047 → ∀ i p r, x.stack = (i, p) :: r → i ≠ id.toNat →
        exec (.complete t id) s = .next (settle (csrOk 0 (bump (irqtPage n) 2 (bump .irq 2
          (hwBit (irqtPage n) oIrqtNest 31
            (setTarget n { x with sticky := true, expected := i, written := id.toNat } u)))))))
    ∧ (id.toNat ≠ 0 → id.toNat ≠ 2047 → x.stack = [] →
        exec (.complete t id) s = .next (settle (csrOk 0 (bump (irqtPage n) 2 (bump .irq 2
          (hwBit (irqtPage n) oIrqtNest 31
            (setTarget n { x with sticky := true, expected := 0, written := id.toNat } u)))))))

/-- 15 R367: UNWIND empties the target's stack and ends the service of every ID that stood on it; no other source of the
target and no other target changes, and nothing outside IRQ but the latches and the answer of the CSR port.
STICKY_CLEAR clears STICKY alone, unless a nesting fault of
the same cc has set it (03 R74). -/
def Claims.UnwindAndStickyClear : Prop :=
  ∀ (t : TgtId) (s : State), pageAnswers (irqtPage t.toNat) s = true →
    (∃ v, exec (.unwind t) s = .next (settle (csrOk 0 v))
      ∧ (targetOf t.toNat v) = { targetOf t.toNat s with stack := [] }
      ∧ (∀ k, k ≠ t.toNat → targetOf k v = targetOf k s)
      ∧ (∀ id, id ∈ (targetOf t.toNat s).stack.map (·.1) →
          srcFor t.toNat id v = { srcFor t.toNat id s with serving := none })
      ∧ (∀ id, id ∉ (targetOf t.toNat s).stack.map (·.1) → srcFor t.toNat id v = srcFor t.toNat id s)
      ∧ { v with irq := s.irq } = dropLatches (irqtPage t.toNat) s
      ∧ v.irq.latched = s.irq.latched ∧ v.irq.first = s.irq.first)
    ∧ (hwSet (irqtPage t.toNat) oIrqtNest 31 s = false → exec (.stickyClear t) s = .next (settle (csrOk 0
        (setTarget t.toNat { targetOf t.toNat s with sticky := false } (dropLatches (irqtPage t.toNat) s)))))
    ∧ (hwSet (irqtPage t.toNat) oIrqtNest 31 s = true → exec (.stickyClear t) s = .next (settle (csrOk 0
        (dropLatches (irqtPage t.toNat) s))))

/-- 15 R368: FATAL_FORCE latches the fault line with FIRST 0, and leaves a latch that stands as it is (log entry 24);
FATAL_CLEAR clears the latch while no FATAL source is pending or in service, and leaves it otherwise. -/
def Claims.FatalForceAndClear : Prop :=
  ∀ s : State, pageAnswers .irq s = true →
    let u := dropLatches .irq s
    (s.irq.latched = false → exec .fatalForce s = .next (settle (csrOk 0
      { u with irq := { s.irq with latched := true, first := 0 } })))
    ∧ (s.irq.latched = true → exec .fatalForce s = .next (settle (csrOk 0 u)))
    ∧ (fatalSource s = none → exec .fatalClear s = .next (settle (csrOk 0
        { u with irq := { s.irq with latched := false } })))
    ∧ (fatalSource s ≠ none → exec .fatalClear s = .next (settle (csrOk 0 u)))

/-- CLAIM, COMPLETE, UNWIND, STICKY and FATAL. -/
def Obligations.InterruptCommands : Prop :=
  Claims.ClaimReadEffect ∧ Claims.CompletePopsOrFaults ∧ Claims.UnwindAndStickyClear ∧ Claims.FatalForceAndClear

/-! ### NOTE (15) -/

/-- 15 R374: NOTE_READ of a page that answers. The halfwords that noteTake gives of the FIFO of the engine that
noteEngine picks are returned with the engine's number, the read point moves past them (with AUTO_REL their stages are
freed), the engine is the one served last, and NOTE counter 2 counts; while nothing is readable the read returns 0 and
changes nothing (log entry 26). -/
def Claims.NoteReadConsumes : Prop :=
  ∀ s : State, pageAnswers .note s = true →
    let u := dropLatches .note s
    (∀ e, noteEngine s = some e →
      let l := noteTake (fifoOf e s)
      let v := bump .note 2 (setFifo e (noteAdvance l.length (autoRel s) (fifoOf e s)) u)
      exec .noteRead s = .next (settle (csrOk (BitVec.ofNat 64 (noteWord e l))
        { v with note := { v.note with lastServed := e } })))
    ∧ (noteEngine s = none → exec .noteRead s = .next (settle (csrOk 0 u)))

/-- 15 R374: a read of a note FIFO returns at most three halfwords, all of them readable, and a length halfword only as
the first; it returns none only where none is readable. -/
def Obligations.NoteTakeKeepsPacketsApart : Prop :=
  ∀ f : NoteFifo,
    (noteTake f).length ≤ 3 ∧ (noteTake f).length ≤ readable f
    ∧ noteTake f <+: f.stages.drop f.read
    ∧ (∀ h ∈ (noteTake f).drop 1, h.len = false)
    ∧ (0 < readable f → f.read < f.stages.length → noteTake f ≠ [])

/-- 15 R375: while AUTO_REL is 0 and SEL names an engine, MARK records the read point, REWIND moves the read point back
to the mark (without a mark it changes nothing), and RELEASE frees every stage before the read point and moves the mark
to it; with AUTO_REL = 1 or SEL = 127 each of them changes only the page's error registers, with MODE_ERROR and the
code of the command. -/
def Claims.NoteMarks : Prop :=
  ∀ s : State, pageAnswers .note s = true →
    let u := dropLatches .note s
    let e := noteSel s
    let f := fifoOf e s
    (autoRel s = false → e ≠ 127 →
      exec .noteMark s = .next (settle (csrOk 0 (setFifo e { f with mark := some f.read } u)))
      ∧ (∀ m, f.mark = some m → exec .noteRewind s = .next (settle (csrOk 0 (setFifo e { f with read := m } u))))
      ∧ (f.mark = none → exec .noteRewind s = .next (settle (csrOk 0 (setFifo e f u))))
      ∧ exec .noteRelease s = .next (settle (csrOk 0 (setFifo e
          { f with stages := f.stages.drop f.read, read := 0, mark := f.mark.map (fun _ => 0),
                   open_ := f.open_.map (fun o => (o.1 - f.read, o.2)) } u))))
    ∧ ((autoRel s = true ∨ e = 127) →
      exec .noteMark s = .next (settle (csrOk 0 (raiseErr .note 0x0100 1 u)))
      ∧ exec .noteRewind s = .next (settle (csrOk 0 (raiseErr .note 0x0100 2 u)))
      ∧ exec .noteRelease s = .next (settle (csrOk 0 (raiseErr .note 0x0100 3 u))))

/-- Reads of the note FIFO and its MARK, REWIND and RELEASE. -/
def Obligations.NoteCommands : Prop :=
  Claims.NoteReadConsumes ∧ Claims.NoteMarks

/-! ### SEC (09) -/

/-- 09 R217, R221: LOAD_START of a page that answers: while SEC is open and no load runs, a load begins with the 128
bytes of its header, read on FAB[0] as SEC DMA from LOAD_ADDR, and SEC counter 0 counts; while a load runs LOAD_BUSY is
latched, and while SEC is locked or disabled LOCKED_WRITE, and nothing else changes. -/
def Claims.LoadStartReadsHeader : Prop :=
  ∀ s : State, pageAnswers .sec s = true →
    let u := dropLatches .sec s
    let a := regOf .sec oSecLoadAddr s
    ((hdrOf .sec s).locked = false → (hdrOf .sec s).enable = true → s.sec.load = none →
      exec .loadStart s = .next (settle (csrOk 0 (fabReads 0 a 128 2 (fun i => .load i)
        (let b := bump .sec 0 u
         { b with sec := { s.sec with load := some { waiting := writeCount a 128 } } })))))
    ∧ ((hdrOf .sec s).locked = false → (hdrOf .sec s).enable = true → s.sec.load ≠ none →
      exec .loadStart s = .next (settle (csrOk 0 (raiseErr .sec 0x0104 0 u))))
    ∧ (((hdrOf .sec s).locked = true ∨ (hdrOf .sec s).enable = false) →
      exec .loadStart s = .next (settle (csrOk 0 (raiseErr .sec 0x0002 (oSecLoadStart % 4096) u))))

/-- 09 R217: data of an image read by SEC: with OKAY, while further requests are awaited, the bytes join the image;
the last of the header is followed by the header's checks, and once these pass by the emptying of the targeted patch
regions, of which no patch counts as loaded any more, and the reading of BODY_LEN + 80 further bytes; the last of the
body ends the reading and the image is verified; with another response the load will end FABRIC (RESULT 0x03) once
every response has come. Beside the load and the patch regions only the port changes, whose ticket is free again, and
for a load that ends what its end says. -/
def Claims.LoadDataFillsImage : Prop :=
  ∀ (p : PortId) (tkt : BitVec 9) (beats : List (BitVec 512)) (stat : BitVec 2) (s : State) (q : RdReq) (l : Load)
    (off : Nat),
    readAt p tkt s = some q → q.purpose = .load off → s.sec.load = some l → l.boot = false →
    let put := fun x : Load => ({ readOver p tkt s with sec := { s.sec with load := some x } } : State)
    let got := SMap.put (fun _ => []) l.got off (readBytes q beats)
    (stat = 0 → beats.length = beatsFor q.addr q.len → 2 ≤ l.waiting →
      exec (.loadData p tkt beats stat) s = .next (settle (put { l with waiting := l.waiting - 1, got := got })))
    ∧ (stat = 0 → beats.length = beatsFor q.addr q.len → l.waiting = 1 → l.phase = .body → l.result = 1 →
      exec (.loadData p tkt beats stat) s = .next (settle
        (put { l with waiting := 0, got := got, phase := .verify })))
    ∧ (stat ≠ 0 → 2 ≤ l.waiting →
      exec (.loadData p tkt beats stat) s = .next (settle
        (put { l with waiting := l.waiting - 1, result := 3 })))
    ∧ (stat ≠ 0 → l.waiting = 1 →
      exec (.loadData p tkt beats stat) s = .next (settle (loadReject 3 (put { l with waiting := 0, result := 3 }))))
    ∧ (stat = 0 → beats.length = beatsFor q.addr q.len → l.waiting = 1 → l.phase = .header → l.result = 1 →
      let h := loadImage { l with waiting := 0, got := got }
      let w := put { l with waiting := 0, got := got }
      (headerCheck h false w ≠ 0 → exec (.loadData p tkt beats stat) s = .next (settle
        (loadReject (headerCheck h false w) w)))
      ∧ (headerCheck h false w = 0 → ∃ v, exec (.loadData p tkt beats stat) s = .next (settle v)
        ∧ v.sec = { s.sec with
            load := some { phase := .body, got := [(0, h)], result := 1, boot := false, targets := hdrNat h 12 4,
                           waiting := writeCount (regOf .sec oSecLoadAddr s + 128) (bodyLen h + 80) },
            loadedBur := s.sec.loadedBur && !bitAt (hdrNat h 12 4) 0,
            loadedGrv := s.sec.loadedGrv && !bitAt (hdrNat h 12 4) 1 }
        ∧ v.eng = (emptyPatches (hdrNat h 12 4) s).eng
        ∧ { v with sec := s.sec, fab := s.fab, eng := s.eng, csr := s.csr } = s))

/-- 09 R217, R218: LOAD_VERIFY_END of a complete image. Where every check passes the load ends with RESULT 1, SVN is
that of the header, LOADED is set for the classes of TARGETS and kept for the others, the holds of R215 end, SEC counter
1 counts and event 0 is latched; where the check with code c fails, RESULT is c, the targeted patch regions are empty
and their classes no longer LOADED, counter 2 counts, event 1 and error LOAD_FAIL with c are latched. -/
def Claims.LoadVerifyEndAcceptsOrRejects : Prop :=
  ∀ (s : State) (l : Load), s.sec.load = some l → l.phase = .verify →
    let img := loadImage l
    (bodyCheck img = 1 → ∃ v w, exec .loadVerifyEnd s = .next (settle v)
      ∧ v = startEngines (raiseEvt .sec 0 (bump .sec 1 w))
      ∧ w.sec = { s.sec with load := none, result := 1, svn := hdrNat img 16 4,
                             loadedBur := s.sec.loadedBur || bitAt l.targets 0,
                             loadedGrv := s.sec.loadedGrv || bitAt l.targets 1 }
      ∧ w.eng.released = true ∧ { w with sec := s.sec, eng := s.eng, mem := s.mem } = s)
    ∧ (∀ c, bodyCheck img = c → c ≠ 1 → exec .loadVerifyEnd s = .next (settle
        (raiseErr .sec 0x0100 c (raiseEvt .sec 1 (bump .sec 2
          (let e := emptyPatches l.targets s
           { e with sec := { s.sec with load := none, result := c,
                                        loadedBur := s.sec.loadedBur && !bitAt l.targets 0,
                                        loadedGrv := s.sec.loadedGrv && !bitAt l.targets 1 } }))))))

/-- 09 R222: BOOT_FETCH_TIMEOUT, 10 ms after G0 went ON while volume 0 of CHN[0] has not been brought up and no image
byte is there: the boot fetch ends, its job leaves the queue, the Graver's threads are HELD, RESULT is NAND_READ (0x0B),
SEC counter 2 counts, event 1 and error LOAD_FAIL are latched. -/
def Claims.BootFetchTimeoutFails : Prop :=
  ∀ s : State, (s.sec.boot = .channelWait ∨ s.sec.boot = .bringUp) → s.sec.load = none →
    s.sec.bootOn + 10000 * Config.ccPerUs ≤ s.cc →
    ∃ v, exec .bootFetchTimeout s = .next (settle (raiseErr .sec 0x0100 0x0B (raiseEvt .sec 1 (bump .sec 2 v))))
      ∧ v.sec = { s.sec with boot := .failed, load := none, result := 0x0B }
      ∧ (thrOf 64 false v).state = .held ∧ (thrOf 64 true v).state = .held
      ∧ v.eng.grvQueue = s.eng.grvQueue.filter (fun q => !decide (q.job.kind = 8))
      ∧ v.rif = s.rif ∧ v.ops = s.ops ∧ v.chn = s.chn ∧ v.pwr = s.pwr ∧ v.map = s.map ∧ v.win = s.win

/-- Control-store loads: start, data, verification, BOOT_FETCH timeout. -/
def Obligations.ImageLoads : Prop :=
  Claims.LoadStartReadsHeader
  ∧ Claims.LoadDataFillsImage
  ∧ Claims.LoadVerifyEndAcceptsOrRejects
  ∧ Claims.BootFetchTimeoutFails

/-- 09 R220, R221: ROLL_ADV with n, on a page that answers, is accepted while SEC is open, a load has succeeded since
reset, n is at most the SVN loaded and more than the fuses blown, and no burn runs: a burn up to n begins, and nothing
else changes. FUSE_BURN blows one fuse; with the n-th the burn ends with SEC event 3. -/
def Claims.RollbackFusesBurn : Prop :=
  ∀ (n : BitVec 7) (s : State),
    (pageAnswers .sec s = true →
      let u := dropLatches .sec s
      ((hdrOf .sec s).locked = false → (hdrOf .sec s).enable = true →
        (s.sec.loadedBur = true ∨ s.sec.loadedGrv = true) → n.toNat ≤ s.sec.svn → rollCount s < n.toNat →
        s.sec.burnTo = none →
        exec (.rollAdv n) s = .next (settle (csrOk 0 { u with sec := { s.sec with burnTo := some n.toNat } })))
      ∧ ((hdrOf .sec s).locked = false → (hdrOf .sec s).enable = true →
        ((s.sec.loadedBur = false ∧ s.sec.loadedGrv = false) ∨ s.sec.svn < n.toNat ∨ n.toNat ≤ rollCount s
          ∨ s.sec.burnTo ≠ none) →
        exec (.rollAdv n) s = .next (settle (csrOk 0 (raiseErr .sec 0x0103 n.toNat u))))
      ∧ (((hdrOf .sec s).locked = true ∨ (hdrOf .sec s).enable = false) →
        exec (.rollAdv n) s = .next (settle (csrOk 0 (raiseErr .sec 0x0002 (oSecRollAdv % 4096) u)))))
    ∧ (s.sec.burnTo = some n.toNat → corePowered s = true →
      (rollCount s + 1 < n.toNat →
        exec .fuseBurn s = .next (settle { s with sec := { s.sec with burned := s.sec.burned + 1 } }))
      ∧ (n.toNat ≤ rollCount s + 1 →
        exec .fuseBurn s = .next (settle (raiseEvt .sec 3
          { s with sec := { s.sec with burned := s.sec.burned + 1, burnTo := none } }))))

/-- 09 R223: UNLOCK on an open SEC page. The first key is kept with its cc; the second key within 64 cc of it opens the
gate; any other value, the second key without the first or too late, counts on SEC counter 4 and latches UNLOCK_FAIL
with the value; any write while the gate is open closes it first. -/
def Claims.UnlockSequence : Prop :=
  ∀ (key : BitVec 16) (s : State), pageAnswers .sec s = true → (hdrOf .sec s).locked = false →
    (hdrOf .sec s).enable = true →
    let u := dropLatches .sec s
    let c := { s.sec with open_ := false, wrCmd := false, wrAddr := false, wrData := false }
    (s.sec.open_ = false → s.sec.unlockAt = none → key = 0x5C17 →
      exec (.unlock key) s = .next (settle (csrOk 0 { u with sec := { s.sec with unlockAt := some s.cc } })))
    ∧ (∀ t, s.sec.open_ = false → s.sec.unlockAt = some t → key = 0xA3E8 → s.cc ≤ t + 64 →
      exec (.unlock key) s = .next (settle (csrOk 0
        { u with sec := { s.sec with unlockAt := none, open_ := true } })))
    ∧ (s.sec.open_ = false → s.sec.unlockAt = none → key ≠ 0x5C17 →
      exec (.unlock key) s = .next (settle (csrOk 0 (raiseErr .sec 0x0101 key.toNat (bump .sec 4
        { u with sec := { s.sec with unlockAt := none } })))))
    ∧ (∀ t, s.sec.open_ = false → s.sec.unlockAt = some t → (key ≠ 0xA3E8 ∨ t + 64 < s.cc) →
      exec (.unlock key) s = .next (settle (csrOk 0 (raiseErr .sec 0x0101 key.toNat (bump .sec 4
        { u with sec := { s.sec with unlockAt := none } })))))
    ∧ (s.sec.open_ = true → key = 0x5C17 →
      exec (.unlock key) s = .next (settle (csrOk 0 { u with sec := { c with unlockAt := some s.cc } })))
    ∧ (s.sec.open_ = true → key ≠ 0x5C17 →
      exec (.unlock key) s = .next (settle (csrOk 0 (raiseErr .sec 0x0101 key.toNat (bump .sec 4
        { u with sec := { c with unlockAt := none } })))))

/-- 09 R223, R224, R225: RAW_START. While the gate is closed a write of a raw register is ignored and RAW_LOCKED is
latched. While it is open the register is stored; the third of the three registers closes the gate and, where the
channel is owned, the fields are legal, the die runs no array operation and the Graver can serve it, queues one RAW job
to the Graver, sets BUSY and counts on SEC counter 3; otherwise the command ends with the first RESULT that refuses it
(one that comes while another still runs takes its place, the model's choice: log entry 140). RAW_WAIT_TIMEOUT ends a
command whose polls have run for 20 ms without the die ready with RESULT 6; otherwise it changes nothing. -/
def Claims.RawCommandStartAndTimeout : Prop :=
  ∀ (reg : RawReg) (data : Word64) (s : State),
    (pageAnswers .sec s = true →
      let u := dropLatches .sec s
      let w := setReg .sec (rawOffset reg) (data.toNat &&& rawMask reg) u
      let b := ((s.sec.wrCmd || decide (reg = .cmd)), (s.sec.wrAddr || decide (reg = .addr)),
                (s.sec.wrData || decide (reg = .data)))
      (s.sec.open_ = false →
        exec (.rawStart reg data) s = .next (settle (csrOk 0 (raiseErr .sec 0x0102 (rawOffset reg) u))))
      ∧ (s.sec.open_ = true → ¬ (b.1 = true ∧ b.2.1 = true ∧ b.2.2 = true) →
        exec (.rawStart reg data) s = .next (settle (csrOk 0
          { w with sec := { s.sec with wrCmd := b.1, wrAddr := b.2.1, wrData := b.2.2 } })))
      ∧ (s.sec.open_ = true → b.1 = true → b.2.1 = true → b.2.2 = true →
        let g := { w with sec := { s.sec with open_ := false, wrCmd := false, wrAddr := false, wrData := false } }
        (rawCheck g = 0 → ∃ v, exec (.rawStart reg data) s = .next (settle (csrOk 0 v))
          ∧ (∃ j, v.eng.grvQueue = s.eng.grvQueue ++ [j] ∧ j.job.kind = 9 ∧ j.job.die = rawDie w ∧ j.job.tag = none)
          ∧ v.sec = { g.sec with
              rawBusy := true, rawResult := 0, rawStatus := 0, rawSince := 0, rawOut := false, rawAt := s.cc,
              rawNext := s.cc }
          ∧ { v with eng := s.eng, sec := s.sec } = { bump .sec 3 w with sec := s.sec })
        ∧ (rawCheck g ≠ 0 → exec (.rawStart reg data) s = .next (settle (csrOk 0 (raiseEvt .sec 2
            { g with sec := { g.sec with rawBusy := false, rawResult := rawCheck g } }))))))
    ∧ (let out := s.sec.rawBusy = true ∧ s.sec.rawSince ≠ 0 ∧ s.sec.rawOut = false
        ∧ s.sec.rawSince + 20000 * Config.ccPerUs ≤ s.cc
      (out → exec .rawWaitTimeout s = .next (settle (raiseEvt .sec 2
          { s with sec := { s.sec with rawBusy := false, rawResult := 6 } })))
      ∧ (¬out → exec .rawWaitTimeout s = .next (settle s)))

/-- Rollback fuses, the unlock sequence and the raw-command gate. -/
def Obligations.SecureCommands : Prop :=
  Claims.RollbackFusesBurn ∧ Claims.UnlockSequence ∧ Claims.RawCommandStartAndTimeout

/-! ### RST (16) -/

/-- What a state v is right after reset source `code` has been taken with level lvl in state s, while none was asserted
or releasing: the assertion begins; CAUSE holds the source, FIRST and the level; BKP[2] counts the reset and records
source and frame, the other backup registers stay; L2 keeps retained memory, the read-level window and FACTORY_LOCK, L3
empties them, and so with the bits that have flipped in them; the remap table, the rollback fuses and rail_en stay;
everything else holds its value of reset. -/
def resetTaken (code lvl : Nat) (s v : State) : Prop :=
  v.rst.phase = .asserted ∧ v.rst.since = s.cc ∧ v.rst.step = 0 ∧ v.rst.groups = 0
  ∧ v.rst.sources = BitVec.ofNat 8 (2 ^ code) ∧ v.rst.first = code ∧ v.rst.level = lvl
  ∧ bkpOf 2 v = BitVec.ofNat 32 (min 255 ((bkpOf 2 s).toNat / 2 ^ 24 % 2 ^ 8 + 1) * 2 ^ 24 + 2 ^ code * 2 ^ 16
      + s.tmb.frame.toNat % 2 ^ 16)
  ∧ (∀ k, k ≠ 2 → bkpOf k v = bkpOf k s)
  ∧ v.rst.rmem = (if lvl = 2 then s.rst.rmem else [])
  ∧ (∀ a, SMap.get winReset v.win a =
      if lvl = 2 ∧ 0x400000 ≤ a ∧ a < 0x600000 then SMap.get winReset s.win a else winReset a)
  ∧ v.lvl = { locked := decide (lvl = 2) && s.lvl.locked }
  ∧ v.mem.remap = s.mem.remap ∧ v.mem.log = [] ∧ v.mem.scrub = none
  ∧ (∀ u, u ∈ v.mem.upsets ↔ u ∈ s.mem.upsets ∧ lvl = 2 ∧ (u.cls = 5 ∨ u.cls = 7))
  ∧ v.sec = { burned := s.sec.burned } ∧ v.pwr = { wakeCfg := s.pwr.wakeCfg }
  ∧ v.pins = { s.pins with pfailDone := false, ffPulse := 0, fabIdle := 0 }
  ∧ v.hdr = [] ∧ v.regs = [] ∧ v.regsEff = [] ∧ v.fab = [] ∧ v.rif = {} ∧ v.ops = {} ∧ v.tmb = {} ∧ v.sch = {}
  ∧ v.chn = [] ∧ v.peer = { driven := false } ∧ v.eng = {} ∧ v.dpt = {} ∧ v.ecc = {} ∧ v.dsp = [] ∧ v.map = {}
    ∧ v.irq = {}
  ∧ v.note = {} ∧ v.cc = s.cc ∧ v.pending = s.pending

/-- 16 R377: POR leaves every register at its value of reset, CAUSE at that of a power-on, every rail_en bit low and the
assertion standing, with the peer pads undriven (02 R24); only the fuses and the levels that the board drives
(pfail_warn, rail_pgood) keep what they hold (the count of cc and of free values, and the note that pfail_warn may have
fallen, are the model's own). -/
def Claims.PowerOnReset : Prop :=
  ∀ s : State, exec .por s = .next
    { pending := s.pending, cc := s.cc, free := s.free, sec := { burned := s.sec.burned },
      peer := { driven := false },
      pins := { pfailWarn := s.pins.pfailWarn, pfailFell := s.pins.pfailFell, railPgood := s.pins.railPgood },
      rst := { phase := .asserted, began := s.cc, since := s.cc, pin := true, step := 0, groups := 0, sources := 1,
               first := 0, level := 3 } }

/-- 16 R378, R386, R389: while no reset is asserted or releasing, SYS_RESET is taken with the level that bit 0 of
FUSE_MAP chooses (L3 in RETAIN, CICADA and after FUSE_BAD), SW_WARM with L2 and SW_COLD with L3 (their register write is
answered normally), FRAME_WATCHDOG with the level of bit 1 and WDOG_INFO as the watchdog recorded it, MEM_UE of a word
of classes 1 to 4 with the level of bit 2 and UE_INFO naming the word, and FUSE_PAR of a map of even parity with L3. -/
def Claims.ResetSourcesTaken : Prop :=
  ∀ s : State, s.rst.phase = .done →
    let level := fun (i : Nat) => if s.rst.fuseBad = true ∨ s.rst.fuses.toNat.testBit i = true then 3 else 2
    (corePowered s = true → ∃ v, exec .sysReset s = .next v ∧ resetTaken 1 (level 0) s v ∧ v.rst.pin = true)
    ∧ (corePowered s = false → ∃ v, exec .sysReset s = .next v ∧ resetTaken 1 3 s v ∧ v.rst.pin = true)
    ∧ (pageAnswers .rst s = true → ∃ v, exec .swWarm s = .next v ∧ resetTaken 2 2 s v ∧ v.csr.rspErr = false)
    ∧ (pageAnswers .rst s = true → ∃ v, exec .swCold s = .next v ∧ resetTaken 3 3 s v ∧ v.csr.rspErr = false)
    ∧ (∀ w, s.rst.wdogFired = some w → corePowered s = true →
        ∃ v, exec .frameWatchdog s = .next v ∧ resetTaken 4 (level 1) s v ∧ v.rst.wdogInfo = w)
    ∧ (∀ (cls : BitVec 3) (addr : BitVec 24), corePowered s = true → 1 ≤ cls.toNat → cls.toNat ≤ 4 →
        memWord cls.toNat addr.toNat = true →
        ∃ v, exec (.memUe cls addr) s = .next v
          ∧ v.rst.phase = .asserted ∧ v.rst.first = 5 ∧ v.rst.level = level 2
          ∧ v.rst.ueInfo = BitVec.ofNat 32 (2 ^ 31 + cls.toNat * 2 ^ 28 + addr.toNat)
          ∧ v.mem.remap = (captureSpare cls.toNat addr.toNat 0 s).1.mem.remap ∧ v.hdr = [] ∧ v.regs = [] ∧ v.ops = {})
    ∧ (∀ f : Byte, corePowered s = true → s.rst.fuseBad = false → fusesOdd f = false →
        ∃ v, exec (.fusePar f) s = .next v ∧ resetTaken 6 3 s v ∧ v.rst.parReset = true ∧ v.rst.fuses = f)

/-- 16 R380, R382: a source of level lvl that fires while a reset is asserted or releasing joins SOURCES, leaves FIRST
(in the cc in which the reset was taken the lowest code wins), and the level becomes the deeper of the two; before D1 is
released the assertion does not start again, after it it does. A pin that falls before D1 keeps the reset asserted. The
command is SYS_RESET, whose level is taken here as L3 (bit 0 of FUSE_MAP is 1); in the aon_clk period of a wake it takes
the place of WAKE in SOURCES and as FIRST, and WAKE_STAT is not valid (16 R378). -/
def Claims.ResetSourcesMerge : Prop :=
  ∀ s : State, s.rst.phase ≠ .done → corePowered s = true → s.rst.fuses.toNat.testBit 0 = true →
    let woke := s.rst.first = 7 ∧ aonPeriod s.rst.began = aonPeriod s.cc
    ∃ v, exec .sysReset s = .next (settle v)
      ∧ (¬woke → v.rst.sources = s.rst.sources ||| 2 ∧ (s.rst.began ≠ s.cc → v.rst.first = s.rst.first)
          ∧ (s.rst.began = s.cc → v.rst.first = min s.rst.first 1))
      ∧ (woke → v.rst.sources = (s.rst.sources &&& 0x7F) ||| 2 ∧ v.rst.first = 1 ∧ v.pwr.wakeStat = 0)
      ∧ v.rst.level = max s.rst.level 3
      ∧ v.hdr = [] ∧ v.regs = [] ∧ v.win = [] ∧ v.rst.rmem = []
      ∧ ((s.rst.phase = .asserted ∨ s.rst.step = 0) →
          v.rst.phase = .asserted ∧ v.rst.pin = true ∧ v.rst.since = s.rst.since ∧ v.rst.step = s.rst.step)
      ∧ (s.rst.phase = .releasing → s.rst.step ≠ 0 →
          v.rst.phase = .asserted ∧ v.rst.since = s.cc ∧ v.rst.step = 0 ∧ v.rst.groups = 0)

/-- Power-on and the other reset sources, and their merging. -/
def Obligations.ResetsTaken : Prop :=
  Claims.PowerOnReset ∧ Claims.ResetSourcesTaken ∧ Claims.ResetSourcesMerge

/-- 16 R382, 02 R29: RESET_RELEASE ends an assertion that a pin held, or that has lasted 64 cc: the fuses are sensed
into FUSE_MAP and PAR_OK, and a map that still fails parity after FUSE_PAR is FUSE_BAD (R379); after a pin the straps
are sampled, and a reserved strap value is reported by GLB. -/
def Claims.ReleaseBegins : Prop :=
  ∀ (boot clk peer : BitVec 2) (fuses : Byte) (s : State), s.rst.phase = .asserted →
    (s.rst.pin = true ∨ s.rst.since + 64 ≤ s.cc) →
    let bad := s.rst.parReset && !fusesOdd fuses
    let r : Rst := { s.rst with phase := .releasing, since := s.cc, pin := false, step := 0, groups := 0,
                                fuses := fuses, parOk := fusesOdd fuses, fuseBad := s.rst.fuseBad || bad }
    let u : State := { s with rst := r }
    let w := fun (x : State) => if bad then raiseErr .rst 0x0101 fuses.toNat x else x
    let pins := { s.pins with strapBoot := boot, strapClk := clk, strapPeer := peer }
    (s.rst.pin = false → exec (.resetRelease boot clk peer fuses) s = .next (settle (w u)))
    ∧ (s.rst.pin = true → boot ≠ 3 → peer ≠ 3 →
        exec (.resetRelease boot clk peer fuses) s = .next (settle (w { u with pins := pins })))
    ∧ (s.rst.pin = true → (boot = 3 ∨ peer = 3) → ∃ v, exec (.resetRelease boot clk peer fuses) s = .next (settle v)
        ∧ v.rst = r ∧ v.pins = pins ∧ ((hdrOf .glb s).errCode = 0 → (hdrOf .glb v).errCode = 5))

/-- 16 R382, Table 16.3: DOMAIN_RELEASE releases the next domain once its offset from the start of the release has
come (D1 at 592 cc, D2 656, D3 912, PHY group g at 976 + 4,096 × g, D5 33,744, D6 33,808, D7 33,872, D8 33,936, DONE
34,000), and does nothing before; with D1 the fabric ports live and the peer's heartbeat is watched; with D7, while
pfail_warn is low, each rail state is taken from the pins; D8 latches RST event 2 unless a power-on is among SOURCES.
-/
def Claims.DomainsReleasedInOrder : Prop :=
  ∀ s : State, s.rst.phase = .releasing →
    let at_ := fun (k : Nat) => { s with rst := { s.rst with step := k } }
    (∀ p, p ∈ [(1, 656), (2, 912), (4, 33744), (5, 33808)] → s.rst.step = p.1 →
      s.rst.since + p.2 ≤ s.cc → exec .domainRelease s = .next (settle (at_ (p.1 + 1))))
    ∧ (∀ p, p ∈ [(0, 592), (1, 656), (2, 912), (4, 33744), (5, 33808), (6, 33872), (7, 33936), (8, 34000)] →
      s.rst.step = p.1 → s.cc < s.rst.since + p.2 → exec .domainRelease s = .next (settle s))
    ∧ (s.rst.step = 3 → s.rst.groups < 8 → s.cc < s.rst.since + 976 + 4096 * s.rst.groups →
        exec .domainRelease s = .next (settle s))
    ∧ (s.rst.step = 0 → peerStrapped s = false → s.rst.since + 592 ≤ s.cc →
        ∃ v, exec .domainRelease s = .next (settle v) ∧ v.rst = (at_ 1).rst
          ∧ { v with fab := s.fab, peer := s.peer } = at_ 1 ∧ v.peer = { s.peer with watched := s.cc }
          ∧ ∀ p, p < 4 → fabOf p v = { live := true, begun := s.pins.fabIdle.getLsbD p })
    ∧ (s.rst.step = 3 → s.rst.groups < 8 → s.rst.since + 976 + 4096 * s.rst.groups ≤ s.cc →
        ∃ v, exec .domainRelease s = .next (settle v) ∧ v.rst.groups = s.rst.groups + 1
          ∧ v.rst.step = (if s.rst.groups = 7 then 4 else 3))
    ∧ (s.rst.step = 6 → s.pins.pfailWarn = false → s.rst.since + 33872 ≤ s.cc →
        ∃ v, exec .domainRelease s = .next (settle v) ∧ v.rst = (at_ 7).rst
          ∧ ∀ g, g < 8 → (groupOf g v).rail = (if s.pins.railEn.getLsbD g = false then .off
              else if s.pins.railPgood.getLsbD g then .on else .ramp))
    ∧ (s.rst.step = 7 → s.rst.since + 33936 ≤ s.cc →
        (s.rst.sources.getLsbD 0 = true → exec .domainRelease s = .next (settle (at_ 8)))
        ∧ (s.rst.sources.getLsbD 0 = false → exec .domainRelease s = .next (settle (raiseEvt .rst 2 (at_ 8)))))
    ∧ (s.rst.step = 8 → s.rst.since + 34000 ≤ s.cc →
        exec .domainRelease s = .next (settle { s with rst := { s.rst with phase := .done } }))

/-- Release begins with D1 and goes on domain by domain. -/
def Obligations.ReleaseInOrder : Prop :=
  Claims.ReleaseBegins ∧ Claims.DomainsReleasedInOrder

/-! ### PWR (13) -/

/-- 13 R316: RAIL_CMD_ON of a group in OFF or FAULT, on an active page. While no group is in RAMP and no other waits,
rail_en rises and the group is in RAMP, or in SETTLE at once where rail_pgood is high; while another group is in RAMP
the command waits. BOOT_FETCH then goes on as far as it can. -/
def Claims.RailCommandOnRamps : Prop :=
  ∀ (g : GroupId) (s : State), pageActive .pwr s = true →
    let n := g.toNat
    ((groupOf n s).rail = .off ∨ (groupOf n s).rail = .fault) →
    (rampRuns s = false → (∀ k, k ≠ n → (groupOf k s).onWait = false) →
      ∃ v, exec (.railCmdOn g) s = .next (settle (csrOk 0 (bootAdvance v)))
        ∧ groupOf n v = { groupOf n s with
            onWait := false, since := s.cc, rail := if s.pins.railPgood.getLsbD n then .settle else .ramp }
        ∧ (∀ k, k ≠ n → groupOf k v = groupOf k s)
        ∧ v.pins = { s.pins with railEn := s.pins.railEn ||| BitVec.ofNat 8 (2 ^ n) }
        ∧ { v with pins := s.pins, pwr := { v.pwr with groups := s.pwr.groups } } = dropLatches .pwr s)
    ∧ (rampRuns s = true → (groupOf n s).rail = .off → exec (.railCmdOn g) s = .next (settle (csrOk 0 (bootAdvance
        (setGroup n { groupOf n s with onWait := true } (dropLatches .pwr s))))))

/-- 13 R317: RAIL_CMD_OFF on an active page. A group that is ON without an enabled channel and without a tag addressing
it, and one in FAULT, goes OFF and rail_en falls; a busy group, and one in RAMP or SETTLE, refuses the command with
error RAIL_REFUSED. RAIL_CMD_ON of a group in RAMP, SETTLE or ON is refused likewise. -/
def Claims.RailCommandOffAndRefusals : Prop :=
  ∀ (g : GroupId) (s : State), pageActive .pwr s = true →
    let n := g.toNat
    let u := dropLatches .pwr s
    let fallen := { u with pins.railEn := s.pins.railEn &&& ~~~BitVec.ofNat 8 (2 ^ n) }
    ((groupOf n s).rail = .on → groupBusy n s = false → exec (.railCmdOff g) s = .next (settle (csrOk 0
      (setGroup n { groupOf n s with rail := .off, since := s.cc } fallen))))
    ∧ ((groupOf n s).rail = .on → groupBusy n s = true → exec (.railCmdOff g) s = .next (settle (csrOk 0
      (raiseErr .pwr 0x0102 (2 * 256 + n) u))))
    ∧ ((groupOf n s).rail = .fault → ∃ v, exec (.railCmdOff g) s = .next (settle (csrOk 0 v))
      ∧ groupOf n v = { groupOf n s with onWait := false, rail := .off, since := s.cc }
      ∧ v.pins = fallen.pins ∧ (∀ k, k ≠ n → groupOf k v = groupOf k s)
      ∧ { v with pins := s.pins, pwr := { v.pwr with groups := s.pwr.groups } } = u)
    ∧ (((groupOf n s).rail = .ramp ∨ (groupOf n s).rail = .settle) → exec (.railCmdOff g) s = .next (settle (csrOk 0
      (raiseErr .pwr 0x0102 (2 * 256 + n) u))))
    ∧ (((groupOf n s).rail = .ramp ∨ (groupOf n s).rail = .settle ∨ (groupOf n s).rail = .on) →
      exec (.railCmdOn g) s = .next (settle (csrOk 0 (bootAdvance (raiseErr .pwr 0x0102 (256 + n) u)))))

/-- 13 R316, Table 13.2: rail_pgood rises: a group in RAMP goes to SETTLE and the next waiting group ramps. RAIL_UP,
once SETTLE_US have passed in SETTLE with rail_pgood high: the group is ON and PWR event 6 is latched. RAIL_TIMEOUT,
once TIMEOUT_US have passed in RAMP: rail_en falls, the group is in FAULT, and RAIL_FAULT is reported with kind 0.
rail_pgood falls: a group in SETTLE or ON goes to FAULT and, outside the power-fail sequence, RAIL_FAULT is reported
with kind 1 and the roster dies of the group are quarantined. BOOT_FETCH then goes on as far as it can. -/
def Claims.RailPinEvents : Prop :=
  ∀ (g : GroupId) (s : State),
    let n := g.toNat
    let b := BitVec.ofNat 8 (2 ^ n)
    let up := { s with pins.railPgood := s.pins.railPgood ||| b }
    let down := { s with pins.railPgood := s.pins.railPgood &&& ~~~b }
    let fault := fun (k : Nat) (x : State) => raiseErr .pwr 0x0101 (k * 16 + n) (raiseEvt .pwr 5 (bump .pwr 8 x))
    ((groupOf n s).rail = .ramp → exec (.railPgoodRise g) s = .next (settle (rampNext
      (setGroup n { groupOf n s with rail := .settle, since := s.cc } up))))
    ∧ ((groupOf n s).rail ≠ .ramp → exec (.railPgoodRise g) s = .next (settle up))
    ∧ ((groupOf n s).rail = .settle → s.pins.railPgood.getLsbD n = true →
        (groupOf n s).since + regFld .pwr oPwrRailCfg 16 16 s * Config.ccPerUs ≤ s.cc →
        exec (.railUp g) s = .next (settle (bootAdvance (raiseEvt .pwr 6
          (setGroup n { groupOf n s with rail := .on, since := s.cc } s)))))
    ∧ ((groupOf n s).rail = .ramp →
        (groupOf n s).since + regFld .pwr oPwrRailCfg 0 16 s * Config.ccPerUs ≤ s.cc →
        exec (.railTimeout g) s = .next (settle (bootAdvance (rampNext (setRail n .fault
          (fault 0 { s with pins.railEn := s.pins.railEn &&& ~~~b }))))))
    ∧ ((groupOf n s).rail ≠ .settle → (groupOf n s).rail ≠ .on →
        exec (.railPgoodFall g) s = .next (settle (bootAdvance down)))
    ∧ (((groupOf n s).rail = .settle ∨ (groupOf n s).rail = .on) → s.pwr.step = .none →
        exec (.railPgoodFall g) s = .next (settle (bootAdvance (setRail n .fault (fault 1
          ((groupDies n s).foldl (fun x d => quarantine d 2 x) down))))))

/-- 13 R311, 02 R50: ISENSE_STROBE on an active page. A code other than 0xFFF is the sample of the frame, and MEAS the
code times GAIN over 256, at most 65,535; 0xFFF puts the group into fallback with cause OPEN, counts on PWR counter 5
and latches event 2. No other group changes. On a page that answers and is not
active the code is recorded, and as MEAS unless it is 0xFFF (R332, 02 R50). -/
def Claims.IsenseSamples : Prop :=
  ∀ (g : GroupId) (code : BitVec 12) (s : State), pageAnswers .pwr s = true →
    let n := g.toNat
    let x := groupOf n s
    (pageActive .pwr s = true → code ≠ 0xFFF → exec (.isenseStrobe g code) s = .next (settle (setGroup n
      { x with code := code.toNat, sample := some code.toNat, openSeen := false,
               meas := min 65535 (code.toNat * regFld .pwr (oPwrGain + 4 * n) 0 16 s / 256) } s)))
    ∧ (pageActive .pwr s = true → code = 0xFFF →
        exec (.isenseStrobe g code) s = .next (settle (raiseEvt .pwr 2 (bump .pwr 5 (setGroup n
      { x with code := 0xFFF, sample := none, openSeen := true, fallback := true, fbCause := 1, goodRun := 0 } s)))))
    ∧ (pageActive .pwr s = false → exec (.isenseStrobe g code) s = .next (settle (setGroup n
      { x with code := code.toNat,
               meas := if code = 0xFFF then x.meas
                 else min 65535 (code.toNat * regFld .pwr (oPwrGain + 4 * n) 0 16 s / 256) } s)))

/-- Rail commands, power-good pins and current samples. -/
def Obligations.RailCommandsAndPins : Prop :=
  Claims.RailCommandOnRamps ∧ Claims.RailCommandOffAndRefusals ∧ Claims.RailPinEvents ∧ Claims.IsenseSamples

/-- 13 R319 to R323: STATE_CMD DOZE in RUN enters DOZE when every condition of R321 holds (counter 10, event 9); RETAIN
and CICADA in RUN begin ENTERING when those of R323 hold; RUN in DOZE begins WAKING. A command that the state does not
accept, or whose condition fails, is refused: LAST_RESULT takes the result and STATE_REFUSED is latched with it. -/
def Claims.PowerStateCommands : Prop :=
  ∀ s : State, pageAnswers .pwr s = true →
    let u := dropLatches .pwr s
    let enter := fun (p : PState) (c : Bool) => ({ u with pwr :=
      { s.pwr with state := p, since := s.cc, lastResult := 1, toCicada := c } } : State)
    let refused := fun (r : Nat) => raiseErr .pwr 0x0100 r { u with pwr := { s.pwr with lastResult := r } }
    (s.pwr.state = .run → quietResult s = 1 → exec .stateCmdDoze s = .next (settle (csrOk 0
      (raiseEvt .pwr 9 (bump .pwr 10 (enter .doze s.pwr.toCicada))))))
    ∧ (s.pwr.state = .run → quietResult s ≠ 1 →
      exec .stateCmdDoze s = .next (settle (csrOk 0 (refused (quietResult s)))))
    ∧ (s.pwr.state = .run → sleepResult s = 1 →
      exec .stateCmdRetain s = .next (settle (csrOk 0 (enter .entering false)))
      ∧ exec .stateCmdCicada s = .next (settle (csrOk 0 (enter .entering true))))
    ∧ (s.pwr.state = .run → sleepResult s ≠ 1 →
      exec .stateCmdRetain s = .next (settle (csrOk 0 (refused (sleepResult s))))
      ∧ exec .stateCmdCicada s = .next (settle (csrOk 0 (refused (sleepResult s)))))
    ∧ (s.pwr.state = .doze → exec .stateCmdRun s = .next (settle (csrOk 0 (enter .waking s.pwr.toCicada))))
    ∧ (s.pwr.state = .run ∨ s.pwr.state = .waking ∨ s.pwr.state = .entering →
      exec .stateCmdRun s = .next (settle (csrOk 0 (refused 5))))
    ∧ (s.pwr.state = .pfail ∨ s.pwr.state = .pfailDone →
      exec .stateCmdRun s = .next (settle (csrOk 0 (refused 4)))
      ∧ exec .stateCmdDoze s = .next (settle (csrOk 0 (refused 4)))
      ∧ exec .stateCmdRetain s = .next (settle (csrOk 0 (refused 4)))
      ∧ exec .stateCmdCicada s = .next (settle (csrOk 0 (refused 4))))

/-- 13 R322, R323: WAKING_END, 2 µs after WAKING began: the block is in RUN, PWR event 9 is latched, and RIF consumes
the SKIP NOPs it held (04 R88). ENTERING_END, 256 cc after ENTERING began: the block is in RETAIN or CICADA as
commanded, the wake comparator holds WAKE_CFG, the fabric ports are down, the channel and peer pads undriven, and in
CICADA retained memory has lost its contents. Before that each changes nothing. -/
def Claims.WakingAndEnteringEnd : Prop :=
  ∀ s : State,
    (s.pwr.state = .waking → s.pwr.since + 2 * Config.ccPerUs ≤ s.cc → exec .wakingEnd s = .next (settle
      (takeSkips (raiseEvt .pwr 9 { s with pwr := { s.pwr with state := .run, since := s.cc } }))))
    ∧ ((s.pwr.state ≠ .waking ∨ s.cc < s.pwr.since + 2 * Config.ccPerUs) →
      exec .wakingEnd s = .next (settle s))
    ∧ (s.pwr.state = .entering → s.pwr.since + 256 ≤ s.cc → ∃ v, exec .enteringEnd s = .next v
      ∧ (∀ c, chanOf c v = { chanOf c s with driven := false })
      ∧ { v with chn := s.chn } =
      { s with pins := { s.pins with pfailDone := false, ffPulse := 0, fabIdle := 0 }, fab := [], peer.driven := false,
               rst.rmem := if s.pwr.toCicada then [] else s.rst.rmem,
               pwr := { s.pwr with state := if s.pwr.toCicada then .cicada else .retain, since := s.cc,
                                   wakeCfg := BitVec.ofNat 64 (regOf .pwr oPwrWakeCfg s) } })
    ∧ ((s.pwr.state ≠ .entering ∨ s.cc < s.pwr.since + 256) → exec .enteringEnd s = .next (settle s))

/-- 13 R325: in RETAIN and CICADA, wake_req with REQ_EN = 1 and the wake timer once its count has reached TICKS with
TMR_EN = 1 wake the block as an L3 reset (source 7) whose release begins 64 cc later: WAKE_STAT is valid and says the
cause (1 wake_req, 2 timer, 3 both), the state left and the periods counted; retained memory is kept out of RETAIN and
empty out of CICADA; the block is in RUN. -/
def Claims.WakeReleasesBlock : Prop :=
  ∀ (boot clk peer : BitVec 2) (fuses : Byte) (s : State), s.rst.phase = .done → fusesOdd fuses = true →
    boot ≠ 3 → peer ≠ 3 → (s.pwr.state = .retain ∨ s.pwr.state = .cicada) →
    let woken := fun (cause : Nat) (v : State) =>
      v.rst.phase = .releasing ∧ v.rst.since = s.cc + 64 ∧ v.rst.sources = 128 ∧ v.rst.level = 3
      ∧ v.rst.fuses = fuses ∧ v.rst.parOk = true
      ∧ v.pins.strapBoot = boot ∧ v.pins.strapClk = clk ∧ v.pins.strapPeer = peer
      ∧ v.rst.rmem = (if s.pwr.state = .retain then s.rst.rmem else [])
      ∧ v.pwr = { state := .run, wakeCfg := s.pwr.wakeCfg,
                  wakeStat := BitVec.ofNat 64 (2 ^ 63 + cause * 2 ^ 61 + (if s.pwr.state = .cicada then 2 ^ 60 else 0)
                    + min 0xFFFFFFFF (aonPeriods s)) }
      ∧ v.hdr = [] ∧ v.regs = [] ∧ v.ops = {} ∧ v.rif = {} ∧ v.tmb = {}
    (s.pwr.wakeCfg.getLsbD 62 = true → ∃ v, exec (.wakeReq boot clk peer fuses) s = .next v
      ∧ woken (if timerDue s then 3 else 1) v)
    ∧ (timerDue s = true → ∃ v, exec (.wakeTimer boot clk peer fuses) s = .next v ∧ woken 2 v)

/-- 13 R327, R329: PFAIL_WARN, while PWR is released and no sequence has begun, with no open tag, nothing to reset, no
decision pending and no program running, and the journal not RUNNING: the sequence runs through at once: PFAIL_DONE,
pfail_done high, LW_OK 0, PWR counter 9, events 7 and 8, BKP[1] holding step 4 and the frame. -/
def Claims.PowerFailWithNothingToDo : Prop :=
  ∀ s : State, corePowered s = true → stepReleased 7 s = true → s.pwr.step = .none →
    s.ops.tags = [] → s.sch.dies = [] → s.dsp = [] → s.map.jrnl ≠ .running →
    ∃ v, exec .pfailWarn s = .next (settle v) ∧ v.pwr.state = .pfailDone ∧ v.pwr.step = .done ∧ v.pwr.lwOk = false
      ∧ v.pwr.pfAt = s.cc ∧ v.pins.pfailWarn = true ∧ v.pins.pfailDone = true
      ∧ bkpOf 1 v = BitVec.ofNat 32 (2 ^ 31 + 4 * 2 ^ 28 + s.tmb.frame.toNat % 2 ^ 16)
      ∧ (∀ k, k ≠ 1 → bkpOf k v = bkpOf k s)
      ∧ (hdrOf .pwr v).evtPend = (hdrOf .pwr s).evtPend ||| 0x180
      ∧ v.rif = s.rif ∧ v.map = s.map ∧ v.irq = s.irq ∧ v.regs = s.regs ∧ v.sec = s.sec

/-- 13 R327, Table 13.6: DRAIN_LIMIT, once DRAIN has lasted as long as the longest TPROG_MAX of the rostered profiles
since pfail_warn and no program runs that has a tag, with the journal not RUNNING: the cut is recorded, and the
sequence ends. LW_LIMIT, LW_LIMIT_US after LAST_WORDS began: the sequence ends with LW_OK 0; pfail_done is high (and
the model notes that pfail_warn may fall, log entry 117). -/
def Claims.PowerFailLimits : Prop :=
  ∀ s : State,
    (s.pwr.step = .drain → s.pwr.pfAt + maxProg s ≤ s.cc → s.map.jrnl ≠ .running → s.ops.tags = [] →
          runningTags s = [] →
      ∃ v, exec .drainLimit s = .next (settle v) ∧ v.pwr.drainCut = true ∧ v.pwr.step = .done ∧ v.pwr.lwOk = false
        ∧ v.pwr.state = .pfailDone ∧ v.pins.pfailDone = true ∧ v.map = s.map ∧ v.rif = s.rif)
    ∧ (s.pwr.step = .lastWords → s.pwr.stepAt + regFld .pwr oPwrPfCfg 0 16 s * Config.ccPerUs ≤ s.cc →
      let d := { s with pwr := { s.pwr with lwOk := false, state := .pfailDone, step := .done, stepAt := s.cc } }
      exec .lwLimit s = .next (settle (raiseEvt .pwr 8
        { setBkp 1 (BitVec.ofNat 32 (2 ^ 31 + 4 * 2 ^ 28 + (if s.pwr.drainCut then 2 ^ 26 else 0)
            + s.pwr.pfFrame.toNat % 2 ^ 16)) d with pins := { s.pins with pfailDone := true, pfailFell := true } })))

/-- Power-state commands, wake, and the power-fail sequence. -/
def Obligations.PowerStatesAndPowerFail : Prop :=
  Claims.PowerStateCommands
  ∧ Claims.WakingAndEnteringEnd
  ∧ Claims.WakeReleasesBlock
  ∧ Claims.PowerFailWithNothingToDo
  ∧ Claims.PowerFailLimits

/-! ### MEM (17) -/

/-- 17 R395, R396, R399: LOG_CLEAR empties the log and makes it valid; LOG_LOST_CLEAR clears BKP[0].LOG_LOST once the
log has been cleared since the failure, and changes nothing before or in the cc of the failure (03 R74);
CE_TOTAL_CLEAR clears CE_TOTAL alone, unless an error of the same cc has counted in it; LOG_PARITY_FAIL makes every
entry invalid and sets LOG_LOST (hwBit, and the record now of the header, are the model's own notes of what was done
in this cc). -/
def Claims.ErrorLogCommands : Prop :=
  ∀ s : State, pageAnswers .mem s = true →
    let u := dropLatches .mem s
    exec .logClear s = .next (settle (csrOk 0 { u with mem := { s.mem with log := [], logBad := false } }))
    ∧ (s.mem.logBad = false → hwSet .mem oMemBkpClr 31 s = false →
        exec .logLostClear s = .next (settle (csrOk 0 (setBkp 0 (bkpOf 0 s &&& 0x7FFFFFFF) u))))
    ∧ ((s.mem.logBad = true ∨ hwSet .mem oMemBkpClr 31 s = true) → exec .logLostClear s = .next (settle (csrOk 0 u)))
    ∧ (ceCount ∈ (nowOf .mem s).cnts → exec .ceTotalClear s = .next (settle (csrOk 0 u)))
    ∧ (ceCount ∉ (nowOf .mem s).cnts → ∃ n, exec .ceTotalClear s = .next (settle (csrOk 0
        (setHdr .mem { hdrOf .mem s with now := n } (setBkp 0 (bkpOf 0 s &&& 0xFFFF0000) u)))))
    ∧ ∀ entry, exec (.logParityFail entry) s = .next (settle (hwBit .mem oMemBkpClr 31
        (setBkp 0 (bkpOf 0 s ||| 0x80000000) { s with mem := { s.mem with log := [], logBad := true } })))

/-- 17 R397: SCRUB_START with a COUNT other than 0, on an active page and while no scrub runs, begins a scrub of the
class at the first word at or after INDEX, or ends it at once where there is none; while one runs the write stores
COUNT, and SCRUB_BUSY is latched. SCRUB_READ counts its word and goes on to the next, and with the last word the summary
becomes valid and MEM event 4 is latched; so for a word without error, and for an invalid one, which is not checked
(R392). A bit that has flipped in a valid word is corrected, logged and counted (R393); an error beyond correction in
classes 5 to 7 counts on counter 8 + class, raises event 1, sets UE_SEEN, and stays in the word (R394). The operand of
SCRUB_READ is what has flipped in the word since the last cc (log entry 102). -/
def Claims.ScrubRuns : Prop :=
  ∀ (count : BitVec 24) (s : State), pageActive .mem s = true →
    let w := setReg .mem oMemScrubCnt count.toNat (dropLatches .mem s)
    let cls := regFld .mem oMemScrubCfg 28 3 s
    let i := regFld .mem oMemScrubCfg 0 24 s
    (count ≠ 0 → s.mem.scrub = none → ∀ j, nextWord cls i (i + count.toNat) = some j →
      ∃ v, exec (.scrubStart count) s = .next (settle (csrOk 0 v))
        ∧ v.mem.scrub = some { cls := cls, next := j, left := count.toNat - (j - i) }
        ∧ { v with mem := s.mem } = w ∧ { v.mem with scrub := none } = s.mem)
    ∧ (count ≠ 0 → s.mem.scrub = none → nextWord cls i (i + count.toNat) = none →
      exec (.scrubStart count) s = .next (settle (csrOk 0 (raiseEvt .mem 4 { w with mem := { s.mem with
        scrub := none, sumValid := true, sumWords := 0, sumCorr := 0, sumUnc := 0, firstFail := none } }))))
    ∧ (count ≠ 0 → s.mem.scrub ≠ none →
      exec (.scrubStart count) s = .next (settle (csrOk 0 (raiseErr .mem 0x0101 0 w))))
    ∧ (∀ x : Scrub, s.mem.scrub = some x →
      let old := upsetsOf x.cls x.next s
      let valid := wordValid x.cls x.next s
      let unit := fun (b : BitVec 6) => if x.cls = 0 then 0 else b.toNat % wordUnits x.cls
      (old = [] ∨ valid = false →
        (∀ j, nextWord x.cls (x.next + 1) (x.next + 1 + (x.left - 1)) = some j →
          ∃ v, exec (.scrubRead .clean) s = .next (settle v)
            ∧ v.mem.scrub = some { x with words := x.words + 1, next := j, left := x.left - 1 - (j - (x.next + 1)) }
            ∧ { v with mem := s.mem } = s ∧ { v.mem with scrub := s.mem.scrub } = s.mem)
        ∧ (1 ≤ x.left → nextWord x.cls (x.next + 1) (x.next + x.left) = none →
          exec (.scrubRead .clean) s = .next (settle (raiseEvt .mem 4 { s with mem := { s.mem with
            scrub := none, sumValid := true, sumWords := x.words + 1, sumCorr := x.corr, sumUnc := x.unc,
            firstFail := x.first } }))))
      ∧ (∀ (b : BitVec 6) (k : BitVec 3), old = [] → valid = true → memWord x.cls x.next = true →
        let c := correctable x.cls x.next (unit b) k.toNat s
        ∃ v, exec (.scrubRead (.corrected b k)) s = .next (settle v)
          ∧ v.mem.remap = c.mem.remap ∧ v.mem.log = c.mem.log ∧ bkpOf 0 v = bkpOf 0 c ∧ v.mem.upsets = s.mem.upsets
          ∧ (∀ y, v.mem.scrub = some y → y.words = x.words + 1 ∧ y.corr = min 65535 (x.corr + 1)
              ∧ y.first = some (x.first.getD x.next))
          ∧ (v.mem.scrub = none → v.mem.sumWords = x.words + 1 ∧ v.mem.sumCorr = min 65535 (x.corr + 1)))
      ∧ (old = [] → valid = true → memWord x.cls x.next = true → 5 ≤ x.cls → x.cls ≤ 7 →
        ∃ v, exec (.scrubRead .uncorrectable) s = .next (settle v)
          ∧ cntOf .mem (8 + x.cls) v = cntOf .mem (8 + x.cls) (bump .mem (8 + x.cls) s)
          ∧ (hdrOf .mem v).evtPend.getLsbD 1 = true ∧ (bkpOf 0 v).getLsbD 30 = true
          ∧ (∃ e ∈ v.mem.upsets, e.beyond = true ∧ e.cls = x.cls ∧ e.idx = x.next)
          ∧ (∀ y, v.mem.scrub = some y → y.words = x.words + 1 ∧ y.unc = min 65535 (x.unc + 1)
              ∧ y.first = some (x.first.getD x.next))
          ∧ (v.mem.scrub = none → v.mem.sumWords = x.words + 1 ∧ v.mem.sumUnc = min 65535 (x.unc + 1))))

/-- 17 R393, R395: a correctable error on an active page counts in the counter of its class and in CE_TOTAL (at most
65,535, and from its value before a clear of the same cc, 03 R74) and latches MEM event 0; while the log is valid, has
fewer than 16 entries and none for the word, an entry with the class, index, byte (0 for class 0), bit and FRAME[15:0]
is added at its end. -/
def Claims.CorrectableErrorLogged : Prop :=
  ∀ (cls idx byte_ bit_ : Nat) (s : State), pageActive .mem s = true → cls < 8 →
    let v := correctable cls idx byte_ bit_ s
    (bkpOf 0 v).toNat % 65536 = min 65535 (baseOf .mem ceCount ((bkpOf 0 s).toNat % 65536) s + 1)
    ∧ ((nowOf .mem s).sets = [] → baseOf .mem ceCount ((bkpOf 0 s).toNat % 65536) s = (bkpOf 0 s).toNat % 65536)
    ∧ cntOf .mem cls v = cntOf .mem cls (bump .mem cls s)
    ∧ (hdrOf .mem v).evtPend = (hdrOf .mem s).evtPend ||| 1
    ∧ (s.mem.logBad = false → s.mem.log.length < 16 → inLog cls idx s = false →
        v.mem.log = s.mem.log ++ [{ ue := false, cls := cls, bit_ := bit_, byte_ := if cls = 0 then 0 else byte_,
                                    index := idx, frame := s.tmb.frame.setWidth 16 }])

/-- 17 R398: REMAP_CMD for a word that exists, on an active page: the lowest free spare of the class takes the word with
WHY 2 (log entry 23) and MEM counter 17 counts; with no spare free BKP[0].REMAP_FULL is set and nothing is captured; an
index that names no word changes nothing. Stated for a row of the operation table (class 1), which then reads as
zero. -/
def Claims.RemapCommandTakesSpare : Prop :=
  ∀ (index : BitVec 24) (s : State), pageActive .mem s = true →
    let u := dropLatches .mem s
    (∀ k, index.toNat < 65536 → k < 8 → spareOf 1 k s = none → (∀ j, j < k → spareOf 1 j s ≠ none) →
      ∃ v, exec (.remapCmd 1 index) s = .next (settle (csrOk 0 v))
        ∧ spareOf 1 k v = some (2, index.toNat) ∧ (∀ c j, j < 8 → (c, j) ≠ (1, k) → spareOf c j v = spareOf c j s)
        ∧ tagOf index.toNat v = {} ∧ (∀ t, t ≠ index.toNat → tagOf t v = tagOf t s)
        ∧ { v with mem := s.mem, hdr := s.hdr, ops := s.ops } = u ∧ { v.ops with tags := s.ops.tags } = s.ops
        ∧ { v.mem with remap := s.mem.remap, upsets := s.mem.upsets, valid := s.mem.valid } = s.mem)
    ∧ (index.toNat < 65536 → (∀ k, k < 8 → spareOf 1 k s ≠ none) →
      exec (.remapCmd 1 index) s = .next (settle (csrOk 0
        (hwBit .mem oMemBkpClr 29 (setBkp 0 (bkpOf 0 s ||| 0x20000000) u)))))
    ∧ (65536 ≤ index.toNat → exec (.remapCmd 1 index) s = .next (settle (csrOk 0 u)))

/-- The error log, scrubbing, correctable errors and spares. -/
def Obligations.MemoryProtection : Prop :=
  Claims.ErrorLogCommands ∧ Claims.ScrubRuns ∧ Claims.CorrectableErrorLogged ∧ Claims.RemapCommandTakesSpare

/-! ### MAP (14) -/

/-- 14 R347: while MAP is active and idle, LOAD in EMPTY or FAILED with an image base and copies in three groups
begins LOADING with the reads of the three copies; INIT in EMPTY or FAILED makes the empty working map READY; WRITE in
READY counts GEN on and begins WRITING all three copies; RESOLVE in CONFLICT takes the copy named, with the marks
added since the load, or the union, and begins WRITING. LAST_RESULT is OK. (hwBit is the model's own record that the
block wrote GEN in this cc, 03 R74; renewMarks says that the words of the working map are written anew, without a
flipped bit, 17 R391.) -/
def Claims.MapCommandsRun : Prop :=
  ∀ s : State, pageActive .map s = true → mapBusy s = false →
    let u := dropLatches .map s
    let put := fun (m : MapSt) => ({ u with map := { m with lastResult := 1 } } : State)
    let job := fun (m : MapSt) => ({ entries := m.marks, todo := [0, 1, 2], pages := 0, erased := false,
                                     failed := false, rewrite := false } : CopyWrite)
    let write := fun (m : MapSt) => put { m with copyOk := 0, state := .writing, write := some (job m) }
    ((s.map.state = .empty ∨ s.map.state = .failed) → regOf .map oMapImgBase s ≠ 0 → copiesPlaced s = true →
      exec .mapLoad s = .next (settle (csrOk 0 (readCopyPage 2 0 (readCopyPage 1 0 (readCopyPage 0 0
        (put { s.map with state := .loading, copies := [], valid := 0 })))))))
    ∧ ((s.map.state = .empty ∨ s.map.state = .failed) → exec .mapInit s = .next (settle (csrOk 0
        (renewMarks 0 (put { s.map with state := .ready, marks := [], disputed := [], added := [], addedAt := [] })))))
    ∧ (s.map.state = .ready → copiesPlaced s = true → exec .mapWrite s = .next (settle (csrOk 0
        (startCopy (hwBit .map oMapGen 0 (write { s.map with gen := s.map.gen + 1 }))))))
    ∧ (∀ k : BitVec 2, s.map.state = .conflict → copiesPlaced s = true → k ≠ 3 → s.map.valid.getLsbD k.toNat = true →
        exec (.mapResolve k) s = .next (settle (csrOk 0 (startCopy (renewMarks 0 (write { s.map with
          marks := s.map.added.foldl (fun l w => putMark w l) (copyOf k.toNat s).entries, disputed := [] }))))))
    ∧ (s.map.state = .conflict → copiesPlaced s = true →
        exec (.mapResolve 3) s = .next (settle (csrOk 0 (startCopy (renewMarks 0
          (write { s.map with disputed := [] }))))))

/-- 14 R353, R355, R347: RECOVER with ARG 0 while the journal is STOPPED, and with ARG 1, begins a recovery with the
first page of the first journal die; JRNL_INIT, whatever the journal's state, stops it, gives up a page in writing
(whose intents wait again) and awaits the erase of four blocks. Both need journal locations on two channels whose dies
are PRESENT. -/
def Claims.RecoverAndJournalInitRun : Prop :=
  ∀ s : State, pageActive .map s = true → mapBusy s = false →
    let u := dropLatches .map s
    (∀ arg : BitVec 2, arg.toNat ≤ 1 → (arg = 1 ∨ s.map.jrnl = .stopped) →
      jrnlPlaced (2 * arg.toNat) (2 * arg.toNat + 1) s = true →
      exec (.mapRecover arg) s = .next (settle (csrOk 0 (scanPage (decide (arg = 1)) 0 0 0
        { u with map := { s.map with lastResult := 1, recover := some { peer := decide (arg = 1) } } }))))
    ∧ (jrnlPlaced 0 1 s = true → ∃ v, exec .jrnlInit s = .next (settle (csrOk 0 v))
      ∧ v.map.jrnl = .stopped ∧ v.map.jpage = none ∧ v.map.jinit = some 4 ∧ v.map.lastResult = 1
      ∧ v.map.closed = (match s.map.jpage with
          | some p => if p.intents = [] then s.map.closed else p.intents :: s.map.closed
          | none => s.map.closed)
      ∧ v.map.batches = s.map.batches ∧ v.map.marks = s.map.marks ∧ v.map.forming = s.map.forming
      ∧ v.map.jseq = s.map.jseq ∧ v.eng.grvNext = s.eng.grvNext + 4
      ∧ v.regs = s.regs ∧ v.rif = s.rif ∧ v.irq = s.irq ∧ v.rst = s.rst)

/-- 14 R347: a command of MAP_CMD that cannot run changes nothing but LAST_RESULT and the page's error registers,
where CMD_REFUSED carries the command and the result: BAD_STATE (2) while MAP is disabled, BUSY (4) while a command
runs, BAD_STATE where the map's state does not allow the command, BAD_CONFIG (3) where its configuration does not,
BAD_SOURCE (5) where the copy named is not valid. RECOVER with a reserved ARG only latches RESERVED_VALUE (03 R65).
The order of the checks is the model's (log entry 21). -/
def Claims.MapCommandsRefused : Prop :=
  ∀ s : State, pageAnswers .map s = true →
    let u := dropLatches .map s
    let refused := fun (cmd r : Nat) => Host.Outcome.next (φ := Fault) (ρ := Refusal) (settle (csrOk 0
      (raiseErr .map 0x0100 (cmd * 256 + r) { u with map := { s.map with lastResult := r } })))
    let off := pageActive .map s = false
    let busy := pageActive .map s = true ∧ mapBusy s = true
    let idle := pageActive .map s = true ∧ mapBusy s = false
    let unset := s.map.state = .empty ∨ s.map.state = .failed
    (off → exec .mapLoad s = refused 1 2 ∧ exec .mapInit s = refused 2 2 ∧ exec .mapWrite s = refused 3 2
      ∧ (∀ k, exec (.mapResolve k) s = refused 4 2) ∧ exec .jrnlInit s = refused 6 2
      ∧ (∀ a : BitVec 2, a.toNat ≤ 1 → exec (.mapRecover a) s = refused 5 2))
    ∧ (busy → exec .mapLoad s = refused 1 4 ∧ exec .mapInit s = refused 2 4 ∧ exec .mapWrite s = refused 3 4
      ∧ (∀ k, exec (.mapResolve k) s = refused 4 4) ∧ exec .jrnlInit s = refused 6 4
      ∧ (∀ a : BitVec 2, a.toNat ≤ 1 → exec (.mapRecover a) s = refused 5 4))
    ∧ (idle → ¬ unset → exec .mapLoad s = refused 1 2 ∧ exec .mapInit s = refused 2 2)
    ∧ (idle → unset → (regOf .map oMapImgBase s = 0 ∨ copiesPlaced s = false) → exec .mapLoad s = refused 1 3)
    ∧ (idle → s.map.state ≠ .ready → exec .mapWrite s = refused 3 2)
    ∧ (idle → s.map.state = .ready → copiesPlaced s = false → exec .mapWrite s = refused 3 3)
    ∧ (∀ k : BitVec 2, (idle → s.map.state ≠ .conflict → exec (.mapResolve k) s = refused 4 2)
      ∧ (idle → s.map.state = .conflict → k ≠ 3 → s.map.valid.getLsbD k.toNat = false →
          exec (.mapResolve k) s = refused 4 5)
      ∧ (idle → s.map.state = .conflict → (k = 3 ∨ s.map.valid.getLsbD k.toNat = true) → copiesPlaced s = false →
          exec (.mapResolve k) s = refused 4 3))
    ∧ (idle → s.map.jrnl ≠ .stopped → exec (.mapRecover 0) s = refused 5 2)
    ∧ (∀ a : BitVec 2, a.toNat ≤ 1 → idle → (a = 1 ∨ s.map.jrnl = .stopped) →
        jrnlPlaced (2 * a.toNat) (2 * a.toNat + 1) s = false → exec (.mapRecover a) s = refused 5 3)
    ∧ (∀ a : BitVec 2, 2 ≤ a.toNat → exec (.mapRecover a) s = .next (settle (csrOk 0
        (raiseErr .map 0x0001 oMapMapCmd u))))
    ∧ (idle → jrnlPlaced 0 1 s = false → exec .jrnlInit s = refused 6 3)

/-- MAP commands: run in the states that accept them, refused otherwise. -/
def Obligations.MapCommands : Prop :=
  Claims.MapCommandsRun ∧ Claims.RecoverAndJournalInitRun ∧ Claims.MapCommandsRefused

/-- 14 R346, R348: COPIES_RESOLVED once every copy of a load has been judged. No valid copy: FAILED, MAP event 4.
Valid copies whose generations lie exactly 2^31 apart, or of which the latest do not agree in LENGTH and CRC:
CONFLICT, with no copy rewritten. Otherwise the latest generation is taken: READY, GEN and marks are its own, event 3;
the other copies are rewritten with it, and where all three copies carry it nothing is. VALID shows the valid copies.
Before every copy is judged nothing changes. -/
def Claims.CopiesResolvedTakesLatest : Prop :=
  ∀ s : State,
    let v := validCopies s
    let t := topCopies v s
    let judged := s.map.state = .loading ∧ (copyOf 0 s).judged = true ∧ (copyOf 1 s).judged = true
      ∧ (copyOf 2 s).judged = true
    (¬ judged → exec .copiesResolved s = .next (settle s))
    ∧ (judged → v = [] → exec .copiesResolved s = .next (settle (raiseEvt .map 4
        { s with map := { s.map with valid := 0, state := .failed } })))
    ∧ (judged → v ≠ [] → (gensApart v s = true ∨ t = [] ∨ copiesSame t s = false) →
        ∃ w, exec .copiesResolved s = .next (settle w) ∧ w.map.state = .conflict ∧ w.map.valid = validBits v
          ∧ w.map.write = s.map.write ∧ w.map.gen = s.map.gen ∧ w.hdr = s.hdr
          ∧ { w with map := s.map, mem := s.mem } = s ∧ { w.mem with upsets := s.mem.upsets } = s.mem)
    ∧ (judged → v ≠ [] → gensApart v s = false → t ≠ [] → copiesSame t s = true →
        ∃ w, exec .copiesResolved s = .next (settle w) ∧ w.map.state = .ready ∧ w.map.valid = validBits v
          ∧ w.map.marks = (copyOf (t.headD 0) s).entries ∧ w.map.gen = (copyOf (t.headD 0) s).gen
          ∧ w.map.disputed = [] ∧ (hdrOf .map w).evtPend.getLsbD 3 = true
          ∧ (t ≠ [0, 1, 2] → (w.map.write.map fun x => (x.todo, x.entries, x.rewrite)) =
              some ([0, 1, 2].filter fun k => !t.contains k, (copyOf (t.headD 0) s).entries, true)))
    ∧ (judged → v ≠ [] → gensApart v s = false → t = [0, 1, 2] → copiesSame t s = true →
        let m : MapSt := { s.map with valid := validBits v, state := .ready, marks := (copyOf 0 s).entries,
                                      disputed := [], added := [], addedAt := [], gen := (copyOf 0 s).gen }
        exec .copiesResolved s = .next (settle (raiseEvt .map 3 (hwBit .map oMapGen 0
          (renewMarks 0 { s with map := m })))))

/-- 14 R349: COPIES_WRITTEN once no copy is left to write: the write is over and WRITING gives way to READY; DIRTY is
cleared when no copy failed, unless a mark was added or removed since the write began (MarkCommands notes it in the
write), and kept after a failure or a rewrite; while a copy is left nothing changes. -/
def Claims.CopiesWrittenEndsWrite : Prop :=
  ∀ (s : State) (w : CopyWrite), s.map.write = some w →
    (w.todo = [] → w.failed = false → w.rewrite = false → s.map.state = .writing →
      exec .copiesWritten s = .next (settle { s with map := { s.map with
        write := none, state := .ready, dirty := w.changed } }))
    ∧ (w.todo = [] → (w.failed = true ∨ w.rewrite = true) → s.map.state = .writing →
      exec .copiesWritten s = .next (settle { s with map := { s.map with write := none, state := .ready } }))
    ∧ (w.todo ≠ [] → exec .copiesWritten s = .next (settle s))

/-- 14 R355, R357: RECOVER_DONE once the scan has ended and every block has been examined or skipped: the recovery is
over, RECOV_STAT holds the counts, MAP event 9 is latched, and the records go to REPORT_ADDR on FAB[0]; a recovery of
the peer's journal, and one that found no page, leaves this journal as it is. Before that nothing changes. -/
def Claims.RecoverDoneReports : Prop :=
  ∀ (s : State) (x : Recover), s.map.recover = some x →
    let m : MapSt := { s.map with recover := none, recovStat := recovStat x.newest.isSome x.done }
    let w := raiseEvt .map 9 { s with map := m }
    (x.scanned = true → x.todo = [] → (x.peer = true ∨ x.newest = none) → x.done = [] →
      exec .recoverDone s = .next (settle w))
    ∧ (x.scanned = true → x.todo = [] → (x.peer = true ∨ x.newest = none) → x.done ≠ [] →
      ∃ v, exec .recoverDone s = .next (settle v) ∧ v.map = w.map ∧ v.hdr = w.hdr ∧ { v with fab := s.fab } = w)
    ∧ ((x.scanned = false ∨ x.todo ≠ []) → exec .recoverDone s = .next (settle s))

/-- The map copies resolved and written, and the end of a recovery. -/
def Obligations.MapCopies : Prop :=
  Claims.CopiesResolvedTakesLatest ∧ Claims.CopiesWrittenEndsWrite ∧ Claims.RecoverDoneReports

/-- 14 R342: MARK_ADD and MARK_REMOVE on an active page. A new mark joins the working map and the marks added since
the load, to count for entries taken from the next cc on; DIRTY is set, also behind a write under way (14 R349),
LAST_RESULT is OK, and a grown one counts on MAP counter 5; a factory mark replaces a grown one of the same block; a
mark that is there already (or a grown one over a factory one) changes nothing but LAST_RESULT; with the list full
MAP_FULL is latched with the mark. A grown mark is removed; a factory mark stays and FACTORY_MARK (6) is latched;
without a mark LAST_RESULT is OK. (The words of the map from the mark on are written anew, 17 R391.) -/
def Claims.MarkCommands : Prop :=
  ∀ (d : DieId) (plane : BitVec 2) (block : BitVec 14) (s : State), pageActive .map s = true →
    let u := dropLatches .map s
    let word := fun kind => markWord d.toNat plane.toNat kind block.toNat
    let old := markIn (blockKey d.toNat plane.toNat block.toNat) s.map.marks
    let ok := fun (m : MapSt) => ({ u with map := { m with lastResult := 1 } } : State)
    let changed := fun (k : Nat) (m : MapSt) => renewMarks (marksBefore k s / 2)
      (ok { m with dirty := true, write := s.map.write.map fun w => { w with changed := true } })
    let added := fun (kind : Nat) (fresh : Bool) => changed (markKey (word kind)) { s.map with
      marks := putMark (word kind) s.map.marks, added := putMark (word kind) s.map.added,
      addedAt := if fresh then SMap.put (fun _ => 0) s.map.addedAt (markKey (word kind)) (s.cc + 1) else s.map.addedAt }
    let key := blockKey d.toNat plane.toNat block.toNat
    let keep := fun (l : List Word32) =>
      l.filter fun w => !decide (markKey w = blockKey d.toNat plane.toNat block.toNat)
    (old = none → s.map.marks.length < 253952 →
      exec (.markAddGrown d plane block) s = .next (settle (csrOk 0 (bump .map 5 (added 2 true))))
      ∧ exec (.markAddFactory d plane block) s = .next (settle (csrOk 0 (added 1 true))))
    ∧ (old = none → 253952 ≤ s.map.marks.length →
      exec (.markAddGrown d plane block) s = .next (settle (csrOk 0
        (let e := raiseErr .map 0x0101 (word 2).toNat u; { e with map := { s.map with lastResult := 7 } }))))
    ∧ (∀ w, old = some w → markKind w = 2 →
      exec (.markAddGrown d plane block) s = .next (settle (csrOk 0 (ok s.map)))
      ∧ exec (.markAddFactory d plane block) s = .next (settle (csrOk 0
          (added 1 (markIn (markKey (word 1)) s.map.disputed).isSome)))
      ∧ exec (.markRemove d plane block) s = .next (settle (csrOk 0 (changed key { s.map with
          marks := keep s.map.marks, added := keep s.map.added, disputed := keep s.map.disputed,
          addedAt := SMap.put (fun _ => 0) s.map.addedAt key 0 }))))
    ∧ (∀ w, old = some w → markKind w = 1 →
      exec (.markAddGrown d plane block) s = .next (settle (csrOk 0 (ok s.map)))
      ∧ exec (.markAddFactory d plane block) s = .next (settle (csrOk 0 (ok s.map)))
      ∧ exec (.markRemove d plane block) s = .next (settle (csrOk 0
          (raiseErr .map 0x0100 (15 * 256 + 6) { u with map := { s.map with lastResult := 6 } }))))
    ∧ (old = none → exec (.markRemove d plane block) s = .next (settle (csrOk 0 (ok s.map))))

/-- 14 R341, R342: a mark that is put into a working map is found under its key, every other key is found as before, and
a list whose keys ascend keeps them ascending. -/
def Obligations.PutMarkKeepsOrder : Prop :=
  ∀ (w : Word32) (l : List Word32), keysRise l = true →
    keysRise (putMark w l) = true ∧ markIn (markKey w) (putMark w l) = some w
    ∧ ∀ k, k ≠ markKey w → markIn k (putMark w l) = markIn k l

/-- 14 R336: ROSTER_WRITE for the die d that ROSTER_SEL names, on an active page. With VALID, PROFILE and ID as they
stand only HOLD is written (the word is stored anew: it is valid, without a flipped bit, 17 R391, R392), and a HOLD
that rises on a PRESENT die quarantines it (MAP counter 4); another VALID, PROFILE or ID is written, the die being
EXPECTED, unless a tag addresses the die, when nothing is written and ROSTER_BUSY is latched. -/
def Claims.RosterWriteEffect : Prop :=
  ∀ (value : Word64) (s : State), pageActive .map s = true →
    let u := dropLatches .map s
    let d := regFld .map oMapRosterSel 0 12 s
    let w := renewRoster d u
    let old := rosterOf d s
    let new : Roster := { old with valid := value.getLsbD 63, hold := value.getLsbD 59,
                                   profile := value.toNat / 2 ^ 52 % 16, id := value.extractLsb' 0 32 }
    let same := new.valid = old.valid ∧ new.profile = old.profile ∧ new.id = old.id
    (same → (new.hold = false ∨ old.hold = true ∨ old.valid = false ∨ old.state ≠ .present) →
      exec (.rosterWrite value) s = .next (settle (csrOk 0 (setRoster d new w))))
    ∧ (same → new.hold = true → old.hold = false → old.valid = true → old.state = .present →
      exec (.rosterWrite value) s = .next (settle (csrOk 0 (quarantine d 3 (setRoster d new w)))))
    ∧ (¬ same → dieTagged d s = true →
      exec (.rosterWrite value) s = .next (settle (csrOk 0 (raiseErr .map 0x0102 d u))))
    ∧ (¬ same → dieTagged d s = false → old.state ≠ .present →
      ∃ v, exec (.rosterWrite value) s = .next (settle (csrOk 0 v))
        ∧ rosterOf d v = { new with state := .expected, qcause := 0 }
        ∧ (∀ k, k ≠ d → rosterOf k v = rosterOf k s)
        ∧ { v with map := { v.map with roster := s.map.roster } } = w)

/-- Marks of the working map and writes of the roster. -/
def Obligations.MarksAndRoster : Prop :=
  Claims.MarkCommands ∧ Claims.RosterWriteEffect

/-- 14 R350, R351: while the journal runs, the forming batch closes with 64 intents, or WAIT_US after its first, with
at most its first 64 intents (JRNL_BATCH_CLOSE); a page that is due WAIT_US after the oldest pending confirmation is
written with the oldest closed batch, or as a page that only confirms (JRNL_CONFIRM_DUE). While a page is in writing
no other is begun; with no confirmation pending none is due (log entry 8 says what is pending). -/
def Claims.JournalBatchesClose : Prop :=
  ∀ s : State, pageActive .map s = true → s.map.jrnl = .running →
    let wait := regFld .map oMapJrnlCfg 16 16 s * Config.ccPerUs
    let due := 64 ≤ s.map.forming.length ∨ (s.map.forming ≠ [] ∧ s.map.formingAt + wait ≤ s.cc)
    let closed := { s with map := { s.map with closed := s.map.closed ++ [s.map.forming.take 64],
                                               forming := s.map.forming.drop 64, formingAt := s.cc } }
    (due → s.map.jpage ≠ none → exec .jrnlBatchClose s = .next (settle closed))
    ∧ (due → s.map.jpage = none → s.map.closed = [] → openBatches s < openMax s →
        exec .jrnlBatchClose s = .next (settle (jrnlWrite (nextPageWith (s.map.forming.take 64) s)
          { closed with map := { closed.map with closed := [] } })))
    ∧ (∀ t, confirmSince s = some t → t + wait ≤ s.cc → s.map.jpage = none → s.map.closed = [] →
        exec .jrnlConfirmDue s = .next (settle (jrnlWrite (nextPageWith [] s) s)))
    ∧ (∀ t l r, confirmSince s = some t → t + wait ≤ s.cc → s.map.jpage = none → s.map.closed = l :: r →
        (∀ x ∈ l :: r, x ≠ []) → openBatches s < openMax s → exec .jrnlConfirmDue s = .next (settle
          (jrnlWrite (nextPageWith l s) { s with map := { s.map with closed := r } })))
    ∧ (∀ t, confirmSince s = some t → s.cc < t + wait → exec .jrnlConfirmDue s = .next (settle s))
    ∧ (∀ t, confirmSince s = some t → s.map.jpage ≠ none → exec .jrnlConfirmDue s = .next (settle s))
    ∧ (confirmSince s = none → exec .jrnlConfirmDue s = .next (settle s))
    ∧ (∀ t, confirmSince s = some t ↔ ∃ i ∈ pendingDones s, i.doneAt = t ∧ ∀ j ∈ pendingDones s, t ≤ j.doneAt)

/-- 14 R350, R353: JRNL_PAGE_DONE outside the power-fail sequence, with no closed batch waiting. A page of which both
programs passed is recorded: MAP counter 8 counts one and counter 9 its intents, its batch is open, and a journal that
waited for its first page is RUNNING; a page of which neither passed is written once more at the next page (while MAP is
disabled it waits until it is enabled), and the second time the journal is FAILED, its intents wait, event 8 and error
JRNL_FAIL with its SEQ are latched. -/
def Claims.JournalPageEnds : Prop :=
  ∀ (s : State) (p : JPage), s.map.jpage = some p → p.lastWords = false → s.pwr.step = .none → s.map.closed = [] →
    (p.res0 = some true → p.res1 = some true → p.dones = [] → s.map.batches = [] → p.intents ≠ [] →
      (∀ i ∈ p.intents, i.written = false) →
      ∃ v, exec .jrnlPageDone s = .next (settle v) ∧ v.map.jpage = none
        ∧ v.map.batches = [{ seq := p.seq, intents := p.intents }]
        ∧ v.map.jrnl = (if s.map.jfirst = true then .running else s.map.jrnl) ∧ v.map.jfirst = false
        ∧ v.hdr = (bumpBy .map 9 p.intents.length (bump .map 8 s)).hdr ∧ v.regs = s.regs ∧ v.ops = s.ops)
    ∧ (p.res0 = some false → p.res1 = some false → p.second = false →
      (pageActive .map s = true → exec .jrnlPageDone s = .next (settle
        (jrnlWrite { p with second := true, held := false } s)))
      ∧ (pageActive .map s = false → exec .jrnlPageDone s = .next (settle { s with map := { s.map with
          jpage := some { p with second := true, held := true, res0 := none, res1 := none } } })))
    ∧ (p.res0 = some false → p.res1 = some false → p.second = true →
      exec .jrnlPageDone s = .next (settle (raiseErr .map 0x0104 p.seq.toNat (raiseEvt .map 8
        { s with map := { s.map with jpage := none, jrnl := .failed, jfirst := false,
                                     closed := if p.intents = [] then [] else [p.intents] } }))))

/-- Journal batches close and their pages end. -/
def Obligations.JournalPages : Prop :=
  Claims.JournalBatchesClose ∧ Claims.JournalPageEnds

/-- 14 R350, R352, Table 14.6: a journal page reads back as it was written: its bytes are valid, and SEQ, the number of
intents and each intent's die, plane mask and block are those of the page. -/
def Claims.JournalPageReadsBack : Prop :=
  ∀ (p : JPage) (f : Word32) (cut : Bool), p.intents.length ≤ 64 →
    (∀ i ∈ p.intents, i.die < 4096 ∧ i.planes < 16 ∧ i.block < 16384) →
    jpageGood (jpageBytes p f cut) = true ∧ (jpageBytes p f cut).length = 1024
    ∧ jpageSeq (jpageBytes p f cut) = p.seq
    ∧ jpageCount (jpageBytes p f cut) = p.intents.length
    ∧ pageIntents (jpageBytes p f cut) = p.intents.map (fun i => (i.die, i.planes, i.block))

/-- 14 R344, Table 14.4: the image of a map copy reads back as it was written: the header is correct for the copy's
number, LENGTH is that of the entries, and generation, CRC and entries are those written. -/
def Claims.MapCopyReadsBack : Prop :=
  ∀ (k : Nat) (gen : Word32) (l : List Word32), k < 3 → l.length ≤ 253952 →
    let b := copyImage k gen l
    copyHeader k b = some (4 * l.length) ∧ leWord b 1 = gen
    ∧ wordsOf ((b.drop 64).take (4 * l.length)) = l
    ∧ crc32c (b.take 12 ++ (b.drop 64).take (4 * l.length)) = leWord b 3

/-- A journal page and a map copy read back as they were written. -/
def Obligations.JournalAndMapReadBack : Prop :=
  Claims.JournalPageReadsBack ∧ Claims.MapCopyReadsBack


/-! ### The fabric ports (02) -/

/-- 02 R31, R39: a live port that has seen fab_idle puts its waiting requests in order while credits and tickets last,
a read with a ticket of 0 to 255 and a write with one of 256 to 383 that nothing outstanding holds; it stops only when
nothing waits, no credit or no ticket is left; every flit put spends one WD credit, and a write's flits are those of its
beats. A port that is not live or has not seen fab_idle puts nothing. -/
def Obligations.PortSpendsItsCredits : Prop :=
  ∀ f : FabPort,
    ((f.live = false ∨ f.begun = false) → drainPort f = f)
    ∧ (f.live = true → f.begun = true →
      let g := drainPort f
      ∃ n m,
        n ≤ f.rq ∧ n ≤ f.rdWait.length ∧ g.rq = f.rq - n ∧ g.rdWait = f.rdWait.drop n
        ∧ (g.rdWait = [] ∨ g.rq = 0 ∨ freeTicket g.reads 256 0 = none)
        ∧ (∀ t q, SMap.get noReq f.reads t = some q → SMap.get noReq g.reads t = some q)
        ∧ (∀ t q, SMap.get noReq g.reads t = some q →
            SMap.get noReq f.reads t = some q ∨ (t < 256 ∧ q ∈ f.rdWait.take n))
        ∧ m ≤ f.wq ∧ m ≤ f.wrWait.length ∧ g.wq = f.wq - m ∧ g.wrWait = f.wrWait.drop m
        ∧ (g.wrWait = [] ∨ g.wq = 0 ∨ freeTicket g.writes 128 256 = none)
        ∧ (∀ t q, SMap.get noReq f.writes t = some q → SMap.get noReq g.writes t = some q)
        ∧ (∀ t q, SMap.get noReq g.writes t = some q →
            SMap.get noReq f.writes t = some q ∨ (256 ≤ t ∧ t < 384 ∧ q ∈ f.wrWait.take m))
        ∧ g.wd + (f.wdLeft.map (·.2)).sum + ((f.wrWait.take m).map fun q => beatsFor q.addr q.bytes.length).sum
            = f.wd + (g.wdLeft.map (·.2)).sum
        ∧ g.live = f.live ∧ g.begun = f.begun)

/-- 02 R33: the requests of a transfer of len bytes are contiguous from its address on, cover it exactly, hold at least
one byte each, and none crosses a multiple of 4 KiB. -/
def Obligations.TransfersSplitAtBlocks : Prop :=
  ∀ addr len : Nat,
    let ps := fabPieces (pieceFuel len) addr len
    (ps.map (·.2)).sum = len
    ∧ (∀ i (h : i < ps.length), (ps[i]).1 = addr + ((ps.take i).map (·.2)).sum)
    ∧ ∀ q ∈ ps, 0 < q.2 ∧ q.1 / 4096 = (q.1 + q.2 - 1) / 4096

/-- 02 R31, R39: CREDIT_RETURN on a live port adds one unspent credit of its stream, at most 63, and FAB_IDLE notes that
the port has begun; what waits is put at once. On a port that is not live a credit is dropped and FAB_IDLE changes only
the pin. No other port and nothing else changes. -/
def Claims.CreditReturnAndFabIdle : Prop :=
  ∀ (p : PortId) (s : State),
    let f := fabOf p.toNat s
    let u : State := { s with pins := { s.pins with fabIdle := s.pins.fabIdle ||| BitVec.ofNat 4 (2 ^ p.toNat) } }
    (f.live = true →
      exec (.creditReturn p .rq) s = .next (settle
        (setFab p.toNat (drainPort { f with rq := min 63 (f.rq + 1) }) s))
      ∧ exec (.creditReturn p .wq) s = .next (settle
        (setFab p.toNat (drainPort { f with wq := min 63 (f.wq + 1) }) s))
      ∧ exec (.creditReturn p .wd) s = .next (settle
        (setFab p.toNat (drainPort { f with wd := min 63 (f.wd + 1) }) s))
      ∧ exec (.fabIdle p) s = .next (settle (setFab p.toNat (drainPort { f with begun := true }) u)))
    ∧ (f.live = false → (∀ k, exec (.creditReturn p k) s = .next (settle s))
        ∧ exec (.fabIdle p) s = .next (settle u))

/-! ### RIF (04) -/

/-- 04 R101, R90, R84: the poll that the poller serves next spends its 2 cc slot and counts on RIF counter 0; the ring's
context is the most recent, and the 32 bytes of the unit at INDEX are read on FAB[FN mod 4]. Without its context in the
cache the context is read instead (unless that read is out), counted on counter 5. HEAD_REREAD reads word 14 of the
context of a full completion ring. A ring that is not the one served changes nothing (log entry 22). -/
def Claims.PollsAndHeadReads : Prop :=
  ∀ (r : RingId) (s : State),
    let n := r.toNat
    let g := ringOf n s
    let u : State := { s with rif := { s.rif with nextPoll := s.cc + 2 } }
    let port := g.fn % 4
    (pollPick s = some n → g.cq = false → g.cached = true →
      exec (.pollDue r) s = .next (settle (fabReads port (g.base + g.index * 32) 32 1 (fun _ => .poll n g.gen)
        (touchRing n (bump .rif 0 (setRing n { g with polling := true, due := none } u))))))
    ∧ (pollPick s = some n → g.cq = false → g.cached = false → g.ctxRead = false →
      exec (.pollDue r) s = .next (settle (fabRead port
        { addr := regOf .rif oRifCtxBase s + n * 64, len := 64, kind := 1, purpose := .context n false }
        (bump .rif 5 (setRing n { g with ctxRead := true } u)))))
    ∧ (pollPick s = some n → g.cq = true →
      exec (.headReread r) s = .next (settle (fabRead port
        { addr := regOf .rif oRifCtxBase s + n * 64 + 56, len := 4, kind := 1, purpose := .head n }
        (setRing n { g with headRead := true, headDue := none } u))))
    ∧ (pollPick s ≠ some n → exec (.pollDue r) s = .next (settle s) ∧ exec (.headReread r) s = .next (settle s))

/-- 04 R101: the ring served next waits for the poller, its due time has come, and no waiting ring has an earlier due
time; of rings due at the same time an express one goes first. -/
def Obligations.PollerServesEarliest : Prop :=
  ∀ (s : State) (r : Nat), pollPick s = some r →
    s.rif.nextPoll ≤ s.cc
    ∧ ∃ g, (r, g) ∈ s.rif.rings ∧ (pollWaits g s = true ∨ headWaits g s = true) ∧ pollTime g ≤ s.cc
        ∧ ∀ b ∈ s.rif.rings, (pollWaits b.2 s = true ∨ headWaits b.2 s = true) →
            pollTime g < pollTime b.2
            ∨ (pollTime g = pollTime b.2 ∧ (g.express = true ∨ b.2.express = false))

/-- 04 R88, R102, R109: the data of a poll frees its ticket. An error response stops the ring with cause FABRIC_ENTRY; a
unit without the expected PHASE is an empty poll, which counts on RIF counter 1, backs CUR_E off by one (not on an
express ring, at most to IDLE_CAP or INTERVAL_E) and sets the next due time one interval ahead; a whole entry of one
unit without fault is offered to OPS with CUR_E back at its base; the data of a poll given up before is dropped. -/
def Claims.PollDataJudged : Prop :=
  ∀ (p : PortId) (tkt : BitVec 9) (beats : List (BitVec 512)) (stat : BitVec 2) (s : State) (q : RdReq) (r gen : Nat),
    readAt p tkt s = some q → q.purpose = .poll r gen → beats.length = beatsFor q.addr q.len →
    let u := readOver p tkt s
    let g : Ring := { ringOf r u with polling := false }
    let w := (unitsIn q beats).headD []
    let e : Entry := { ring := r, unit := g.index, words := w }
    ((ringOf r u).gen ≠ gen → exec (.pollData p tkt beats stat) s = .next (settle u))
    ∧ ((ringOf r u).gen = gen → stat ≠ 0 →
      exec (.pollData p tkt beats stat) s = .next (settle (ringError r 0x0B (setRing r g u))))
    ∧ ((ringOf r u).gen = gen → stat = 0 → unitPhase w ≠ g.phase →
      let c := if g.express then g.curE else min (g.curE + 1) (max g.intervalE (idleCap s))
      ∃ v, exec (.pollData p tkt beats stat) s = .next (settle v)
        ∧ ringOf r v = { g with curE := c, dirty := g.dirty || decide (c ≠ g.curE),
                                due := some (s.cc + ringInterval c s) }
        ∧ (∀ k, k ≠ r → ringOf k v = ringOf k s)
        ∧ cntOf .rif 1 v = cntOf .rif 1 (bump .rif 1 s) ∧ { v with rif := s.rif, hdr := s.hdr, fab := s.fab } = s)
    ∧ ((ringOf r u).gen = gen → stat = 0 → unitPhase w = g.phase → g.state = .active → s.pwr.state = .run →
      entryHeld r g.index 0 s = false → eLen e = 0 → entryCause e (2 ^ g.size) s = 0 →
      (eOpcode e ≠ opNop ∨ eSkip e = false) → g.pfDepth = 0 →
      ∃ v, exec (.pollData p tkt beats stat) s = .next (settle v)
        ∧ ringOf r v = { g with curE := g.intervalE, dirty := g.dirty || decide (g.curE ≠ g.intervalE), due := none,
                                partialUnit := none, got := [], offer := some e }
        ∧ (∀ k, k ≠ r → ringOf k v = ringOf k s) ∧ { v with rif := s.rif, fab := s.fab } = s)

/-- Credit returns, polls and head reads, and what a poll's data does. -/
def Obligations.PortsAndPolls : Prop :=
  Claims.CreditReturnAndFabIdle ∧ Claims.PollsAndHeadReads ∧ Claims.PollDataJudged

/-- 04 R104, R105, R109: the data of follow-on units makes the entry whole when the last of them has come, and it is
then judged, unless a hold covers a unit of it, when it is dropped; until then the units are kept. The units of a
prefetch up to the first that carries no entry join those held from INDEX on, each in its place. An error response
stops the ring with cause FABRIC_ENTRY; data given up before is dropped. -/
def Claims.LaterUnitsCollected : Prop :=
  ∀ (p : PortId) (tkt : BitVec 9) (beats : List (BitVec 512)) (stat : BitVec 2) (s : State) (q : RdReq)
    (r gen first : Nat), readAt p tkt s = some q → beats.length = beatsFor q.addr q.len →
    let u := readOver p tkt s
    let g := ringOf r u
    let us := unitsIn q beats
    (q.purpose = .units r gen first →
      (g.gen ≠ gen → exec (.entryUnitData p tkt beats stat) s = .next (settle u))
      ∧ (g.gen = gen → stat ≠ 0 → exec (.entryUnitData p tkt beats stat) s = .next (settle (ringError r 0x0B u)))
      ∧ (g.gen = gen → stat = 0 → ∀ w, g.partialUnit = some w →
          let got := keepUnits first us g.got
          let e : Entry := { ring := r, unit := g.index, words := w ++ got.flatMap (·.2) }
          let v := setRing r { g with got := got } u
          (got.length < eLen e → exec (.entryUnitData p tkt beats stat) s = .next (settle v))
          ∧ (eLen e ≤ got.length → entryHeld r g.index (eLen e) v = false →
              exec (.entryUnitData p tkt beats stat) s = .next (settle (presentAll 64 r (entryReady r e v))))
          ∧ (eLen e ≤ got.length → entryHeld r g.index (eLen e) v = true →
              exec (.entryUnitData p tkt beats stat) s = .next (settle
                (setRing r { g with partialUnit := none, got := [], due := none } u)))))
    ∧ (q.purpose = .prefetch r gen first →
      (g.gen ≠ gen → exec (.prefetchData p tkt beats stat) s = .next (settle u))
      ∧ (g.gen = gen → stat ≠ 0 → exec (.prefetchData p tkt beats stat) s = .next (settle (ringError r 0x0B u)))
      ∧ (g.gen = gen → stat = 0 → us.length < g.pfAwait → exec (.prefetchData p tkt beats stat) s = .next (settle
          (setRing r { g with pfGot := keepUnits first us g.pfGot, pfAwait := g.pfAwait - us.length } u)))
      ∧ (g.gen = gen → stat = 0 → g.pfAwait = us.length → s.rif.hold = none → g.offer.isSome = true →
          let got := keepUnits first us g.pfGot
          let run := phaseRun g.phase got
          run.length < got.length →
          exec (.prefetchData p tkt beats stat) s = .next (settle (setRing r
            { g with prefetched := (run.filter fun x => decide (g.index ≤ x.1)).foldl
                       (fun m x => SMap.put (fun _ => []) m x.1 x.2) g.prefetched, pfGot := [], pfAwait := 0 } u))))

/-- 04 R87, R88, R108: an entry that is whole and whose checks pass is offered to OPS; a malformed one stops the ring
with the lowest cause that applies; a NOP with SKIP is consumed at once; in Doze the entry is held and Doze ends through
WAKING, and in WAKING it is held. -/
def Claims.EntryOfferedOrRingStopped : Prop :=
  ∀ (r : Nat) (e : Entry) (s : State),
    let g := ringOf r s
    let cause := entryCause e (2 ^ g.size) s
    let v := setRing r { g with due := none, partialUnit := none, got := [] } s
    (cause ≠ 0 → entryReady r e s = ringError r cause s)
    ∧ (cause = 0 → s.pwr.state ≠ .doze → s.pwr.state ≠ .waking →
      (eOpcode e = opNop → eSkip e = true → entryReady r e s = consumeUnits r e v)
      ∧ ((eOpcode e ≠ opNop ∨ eSkip e = false) →
          ringOf r (entryReady r e s) = { g with due := none, partialUnit := none, got := [], offer := some e }))
    ∧ (cause = 0 → (s.pwr.state = .doze ∨ s.pwr.state = .waking) →
        (entryReady r e s).pwr = (if s.pwr.state = .doze then { s.pwr with state := .waking, since := s.cc } else s.pwr)
        ∧ (ringOf r (entryReady r e s)).offer = some e)

/-- 04 R83, R108, R109, R94, Table 4.2: an ACTIVE ring that stops is in ERROR with the cause and INDEX as ERR_INDEX, and
nothing of it is offered, fetched or prefetched any more. Its words 8 and 9 are written back, and the response of that
write is what RING_ERROR waits for; when the ring stops because a write-back has failed, the error is reported at once
and nothing is written. A ring that is not ACTIVE stays as it is. -/
def Claims.StoppedRingShowsCause : Prop :=
  ∀ (r cause : Nat) (failed : Bool) (s : State),
    ((ringOf r s).state ≠ .active → stopRing r cause failed s = s)
    ∧ ((ringOf r s).state = .active →
      let v := stopRing r cause failed s
      let g := ringOf r v
      g.state = .error ∧ g.errCause = cause ∧ g.errIndex = (ringOf r s).index ∧ g.index = (ringOf r s).index
      ∧ g.phase = (ringOf r s).phase ∧ g.offer = none ∧ g.partialUnit = none ∧ g.prefetched = [] ∧ g.due = none
      ∧ g.polling = false ∧ g.gen = (ringOf r s).gen + 1
      ∧ ∃ u : State, ringOf r u = { g with dirty := (ringOf r u).dirty, wbOut := (ringOf r u).wbOut }
          ∧ v = if failed then raiseErr .rif 0x0100 (cause * 2 ^ 24 + r) (raiseEvt .rif 1 u)
            else writeBack r (some cause) u)

/-- Later units are collected; an entry is offered or its ring stops. -/
def Obligations.EntriesCollected : Prop :=
  Claims.LaterUnitsCollected ∧ Claims.EntryOfferedOrRingStopped ∧ Claims.StoppedRingShowsCause

/-- 04 R86: ACTIVATE. While an activation is pending it is refused as ACT_BUSY with the ring; a ring that is not IDLE
ends NOT_IDLE at once; otherwise the context is read on FAB[0] and the activation is pending. -/
def Claims.ActivationBegins : Prop :=
  ∀ (r : RingId) (s : State), pageAnswers .rif s = true →
    let n := r.toNat
    let d := dropLatches .rif s
    (s.rif.actPending = true →
      exec (.activate r) s = .next (settle (csrOk 0 (raiseErr .rif 0x0102 n d))))
    ∧ (s.rif.actPending = false → (ringOf n s).state = .idle → (ringOf n s).ctxRead = false →
      exec (.activate r) s = .next (settle (csrOk 0 (fabRead 0
        { addr := regOf .rif oRifCtxBase s + n * 64, len := 64, kind := 1, purpose := .context n true }
        (bump .rif 5 (setRing n { ringOf n s with ctxRead := true }
          { d with rif := { s.rif with actPending := true, actRing := n } }))))))
    ∧ (s.rif.actPending = false → (ringOf n s).state = .idle → (ringOf n s).ctxRead = true →
      exec (.activate r) s = .next (settle (csrOk 0 { d with rif := { s.rif with actPending := true, actRing := n } })))
    ∧ (s.rif.actPending = false → (ringOf n s).state ≠ .idle →
      exec (.activate r) s = .next (settle (csrOk 0 (raiseErr .rif 0x0101 (2 ^ 24 + n) (raiseEvt .rif 3
        { d with rif := { s.rif with actPending := false, actRing := n, actResult := 1 } })))))

/-- 04 R84, R86, R109, Tables 4.2, 4.3: the context that a pending activation read. With an error response its result is
FABRIC (4); a check of Table 4.3 that fails is its result; a ring whose checks pass is ACTIVE with INDEX 0, PHASE 1,
CUR_E its INTERVAL_E and no error, cached, a submission ring with its first poll due at once, its words 8 and 9 on
their way, and the result is OK. The context that a poll or completion of a ring outside IDLE needs enters the cache,
and the fetches that waited for it are issued; with an error response the ring stops, FABRIC_CTX. -/
def Claims.ContextReadEnds : Prop :=
  ∀ (p : PortId) (tkt : BitVec 9) (beats : List (BitVec 512)) (stat : BitVec 2) (s : State) (q : RdReq) (r : Nat)
    (act : Bool), readAt p tkt s = some q → q.purpose = .context r act → beats.length = beatsFor q.addr q.len →
    let o := readOver p tkt s
    let g : Ring := { ringOf r o with ctxRead := false }
    let u := setRing r g o
    let w := wordsOf (readBytes q beats)
    let pending := s.rif.actPending = true ∧ s.rif.actRing = r
    let refused := fun (c : Nat) => Host.Outcome.next (φ := Fault) (ρ := Refusal) (settle
      (raiseErr .rif 0x0101 (c * 2 ^ 24 + r) (raiseEvt .rif 3
        { u with rif := { u.rif with actPending := false, actResult := c } })))
    (act = true → ¬pending → exec (.contextData p tkt beats stat) s = .next (settle u))
    ∧ (act = true → pending → stat ≠ 0 → exec (.contextData p tkt beats stat) s = refused 4)
    ∧ (act = true → pending → stat = 0 → actCheck w u ≠ 0 →
        exec (.contextData p tkt beats stat) s = refused (actCheck w u))
    ∧ (act = true → pending → stat = 0 → actCheck w u = 0 → (cachedRings s).length < 8192 →
      ∃ v, exec (.contextData p tkt beats stat) s = .next (settle v)
        ∧ v.rif.actPending = false ∧ v.rif.actResult = 0
        ∧ (let h := ringOf r v
           let x := ctxRing w
           h.state = .active ∧ h.index = 0 ∧ h.phase = true ∧ h.curE = x.intervalE ∧ h.errCause = 0
           ∧ h.size = x.size ∧ h.base = x.base ∧ h.fn = x.fn ∧ h.cq = x.cq ∧ h.express = x.express
           ∧ h.cqId = (if x.cq then 0 else x.cqId) ∧ h.vector = (if x.cq then x.vector else 0)
           ∧ h.due = (if x.cq then none else some s.cc) ∧ h.cached = true
           ∧ h.life = g.life + 1 ∧ h.wbOut = g.wbOut ++ [(g.life + 1, 0)])
        ∧ (∀ k, k ≠ r → ringOf k v = ringOf k s)
        ∧ { v with rif := s.rif, fab := s.fab, hdr := s.hdr } = s)
    ∧ (act = false → g.state = .idle → ¬pending → exec (.contextData p tkt beats stat) s = .next (settle u))
    ∧ (act = false → g.state = .idle → pending → exec (.contextData p tkt beats stat) s = .next (settle (fabRead 0
        { addr := regOf .rif oRifCtxBase s + r * 64, len := 64, kind := 1, purpose := .context r true }
        (bump .rif 5 (setRing r { g with ctxRead := true } u)))))
    ∧ (act = false → g.state ≠ .idle → stat = 0 → g.cq = false → (cachedRings s).length < 8192 →
      exec (.contextData p tkt beats stat) s = .next (settle (startFetches r (touchRing r
        (setRing r { g with cached := true } u)))))
    ∧ (act = false → (g.state = .active ∨ g.state = .error) → stat ≠ 0 →
      exec (.contextData p tkt beats stat) s = .next (settle (ringError r 0x0C u)))

/-- 04 R83, R90, R103, R109: the response of a write-back: what it showed as consumed in the ring's present activation
is shown, and RING_ERROR that waited for it is reported, after a failure too; one that fails stops an ACTIVE ring with
FABRIC_CTX, and of any other ring or of an earlier activation raises the page error alone. HEAD is taken as read, with
another read due an interval later while the ring is still full; a read that fails stops the ring with FABRIC_CQ.
POLL_DEMAND_UPDATE, 64 cc after the last one, takes D from the rings' CUR_E, and POLL_STRETCH exceeds 256 just when D
exceeds the budget. -/
def Claims.WriteBackHeadAndDemand : Prop :=
  (∀ (p : PortId) (tkt : BitVec 9) (s : State) (q : WrReq) (r life shows : Nat) (report : Option Nat),
    writeAt p tkt s = some q → q.purpose = .writeback r life shows report →
    let u := writeOver p tkt s
    let g := ringOf r u
    let h : Ring := { g with wbOut := g.wbOut.erase (life, shows) }
    let ok := setRing r (if life = g.life then { h with shown := max g.shown shows } else h) u
    let lost := setRing r (if life = g.life then { h with wbFailed := true } else h) u
    let told := fun (x : State) => match report with
      | none => x
      | some c => raiseErr .rif 0x0100 (c * 2 ^ 24 + r) (raiseEvt .rif 1 x)
    exec (.contextWritebackResponse p tkt 0) s = .next (settle (told ok))
    ∧ (∀ stat : BitVec 2, stat ≠ 0 →
        (life = g.life → g.state = .active →
          exec (.contextWritebackResponse p tkt stat) s = .next (settle (ringFault r 0x0C true (told lost))))
        ∧ ((life ≠ g.life ∨ g.state ≠ .active) → exec (.contextWritebackResponse p tkt stat) s = .next (settle
            (raiseErr .rif 0x0100 (0x0C * 2 ^ 24 + r) (told lost))))))
  ∧ (∀ (p : PortId) (tkt : BitVec 9) (beats : List (BitVec 512)) (stat : BitVec 2) (s : State) (q : RdReq) (r : Nat),
    readAt p tkt s = some q → q.purpose = .head r → beats.length = beatsFor q.addr q.len →
    let u := readOver p tkt s
    let h := BitVec.ofNat 16 (leNat ((readBytes q beats).take 2))
    let g : Ring := { ringOf r u with head := h, headRead := false }
    (stat = 0 → cqFull g = false → exec (.headData p tkt beats stat) s = .next (settle (setRing r g u)))
    ∧ (stat = 0 → cqFull g = true → ∃ v, exec (.headData p tkt beats stat) s = .next (settle v)
        ∧ ringOf r v = { g with headDue := some (s.cc + ringInterval g.curE s) }
        ∧ (∀ k, k ≠ r → ringOf k v = ringOf k s) ∧ { v with rif := s.rif, fab := s.fab } = s)
    ∧ (stat ≠ 0 → exec (.headData p tkt beats stat) s = .next (settle (ringError r 0x0D
        (setRing r { ringOf r u with headRead := false } u)))))
  ∧ ∀ s : State,
    (pageAnswers .rif s = true → s.rif.demandDue ≤ s.cc →
      let d := (s.rif.rings.map fun e => if e.2.state = .active ∧ (e.2.cq = false ∨ cqFull e.2 = true)
        then 2 ^ (24 - e.2.curE) else 0).sum
      let b := regFld .rif oRifPollBudget 0 10 s
      let now := fun (x : Nat) => ({ s.rif with demand := d / 64, stretch := x, demandDue := s.cc + 64 } : Rif)
      ∃ x, exec .pollDemandUpdate s = .next (settle { s with rif := now x })
        ∧ (0 < b → (256 < x ↔ b * 16384 < d) ∧ d ≤ x * (b * 64) ∧ (256 < x → (x - 1) * (b * 64) < d)))
    ∧ ((pageAnswers .rif s = false ∨ s.cc < s.rif.demandDue) → exec .pollDemandUpdate s = .next (settle s))

/-- Activation, context reads and write-backs, and the poll demand. -/
def Obligations.ContextsAndActivation : Prop :=
  Claims.ActivationBegins ∧ Claims.ContextReadEnds ∧ Claims.WriteBackHeadAndDemand

/-- 04 R111, Table 4.12: FN_RESET of a function that is not busy makes it busy, and its ACTIVE and ERROR rings are
FN_RESETTING with nothing offered, fetched or prefetched; of a function without such a ring and without a tag it changes
nothing else. A busy function is left alone. FN_RESET_DONE, once the function has no tag, ends it: busy falls, RIF event
2 is raised and its rings in FN_RESETTING are IDLE, no other ring changed. -/
def Claims.FunctionResetBeginsAndEnds : Prop :=
  ∀ (f : FnId) (s : State),
    let n := f.toNat
    (pageAnswers .rif s = true → (fnOf n s).busy = true →
      exec (.fnReset f) s = .next (settle (csrOk 0 (dropLatches .rif s))))
    ∧ (pageAnswers .rif s = true → (fnOf n s).busy = false →
      ∃ v, exec (.fnReset f) s = .next (settle (csrOk 0 v)) ∧ (fnOf n v).busy = true
        ∧ (∀ r ∈ fnRings n stopsAtReset s,
            let g := ringOf r v
            g.state = .fnResetting ∧ g.errCause = 0 ∧ g.offer = none ∧ g.partialUnit = none ∧ g.prefetched = []
            ∧ g.polling = false ∧ g.due = none ∧ g.lost = [])
        ∧ (fnRings n stopsAtReset s = [] → (∀ t ∈ liveTags s, (tagOf t s).fn ≠ n) →
            (∀ k, k ≠ n → fnOf k v = fnOf k s) ∧ v.rif.rings = s.rif.rings ∧ v.ops = s.ops))
    ∧ ((fnOf n s).busy = true → fnHasTag n s = false →
      ∃ v, exec (.fnResetDone f) s = .next (settle (raiseEvt .rif 2 v)) ∧ (fnOf n v).busy = false
        ∧ (∀ k, k ≠ n → fnOf k v = fnOf k s) ∧ v.ops = s.ops
        ∧ (∀ r ∈ fnRings n isResetting s, (ringOf r v).state = .idle ∧ (ringOf r v).index = 0
            ∧ (ringOf r v).phase = false ∧ (ringOf r v).errCause = 0 ∧ (ringOf r v).cached = false)
        ∧ ∀ r, r ∉ fnRings n isResetting s → ringOf r v = ringOf r s)
    ∧ (((fnOf n s).busy = false ∨ fnHasTag n s = true) → exec (.fnResetDone f) s = .next (settle s))

/-- 04 R111, Table 4.12: a ring that a function reset takes in ends FN_RESETTING with nothing offered, fetched or
prefetched, a hold on it ends, and its lost completions are counted and their tags free; at the end of the reset a ring
is IDLE, INDEX, PHASE and error cleared, and its context out of the cache. -/
def Claims.FunctionResetOfRing : Prop :=
  ∀ (r : Nat) (s : State),
    (let v := resetRing r s
     (ringOf r v).state = .fnResetting ∧ (ringOf r v).errCause = 0 ∧ (ringOf r v).offer = none
         ∧ (ringOf r v).partialUnit = none
     ∧ (ringOf r v).prefetched = [] ∧ (ringOf r v).polling = false ∧ (ringOf r v).due = none ∧ (ringOf r v).lost = []
     ∧ (v.rif.hold.map (·.1)) ≠ some r)
    ∧ (let v := idleRing r s
       (ringOf r v).state = .idle ∧ (ringOf r v).index = 0 ∧ (ringOf r v).phase = false ∧ (ringOf r v).errCause = 0
       ∧ (ringOf r v).cached = false ∧ (ringOf r v).gen = (ringOf r s).gen + 1 ∧ (ringOf r v).lost = []
       ∧ ∀ k, k ≠ r → ringOf k v = ringOf k s)

/-- 04 R107: INVAL_HOLD on an ACTIVE ring while no hold stands: the hold covers COUNT_M1 + 1 units from FIRST on,
INVAL_STAT shows PHASE and INDEX, prefetched units in it are dropped and counted, and a poll in flight is read again; on
any other ring, or while one stands, INVAL_REFUSED names the ring. The fields are stored either way (the model's choice:
log entry 38). INVAL_RELEASE ends the hold, what is being read of the ring is dropped, and its next poll is due at
once. -/
def Claims.HoldPlacedAndReleased : Prop :=
  ∀ (count first : BitVec 15) (s : State), pageAnswers .rif s = true →
    let r := regFld .rif oRifInvalRing 0 18 s
    let g := ringOf r s
    let u := setReg .rif oRifInvalRange (count.toNat * 2 ^ 16 + first.toNat) (dropLatches .rif s)
    let inside := fun (x : Nat × List Word32) =>
      decide ((x.1 + 2 ^ g.size - first.toNat % 2 ^ g.size) % 2 ^ g.size < count.toNat + 1)
    (g.state = .active → s.rif.hold = none →
      ∃ v, exec (.invalHold count first) s = .next (settle (csrOk 0 v))
        ∧ v.rif.hold = some (r, first.toNat % 2 ^ g.size, count.toNat + 1)
        ∧ v.rif.invalStat = (if g.phase then 2 ^ 15 else 0) + g.index
        ∧ (ringOf r v).prefetched = g.prefetched.filter (fun x => !inside x)
        ∧ cntOf .rif 7 v = cntOf .rif 7 (bumpBy .rif 7 (g.prefetched.filter inside).length s)
        ∧ (g.offer = none → g.partialUnit = none → g.polling = true → (ringOf r v).polling = false
            ∧ (ringOf r v).due = some s.cc ∧ (ringOf r v).gen = g.gen + 1)
        ∧ (g.prefetched = [] → g.offer = none → g.partialUnit = none → g.polling = false → g.pfAwait = 0 →
            ringOf r v = g)
        ∧ (∀ k, k ≠ r → ringOf k v = ringOf k s)
        ∧ v.regs = u.regs
        ∧ { v with rif := s.rif, regs := s.regs, hdr := s.hdr, fab := s.fab } = dropLatches .rif s)
    ∧ ((g.state ≠ .active ∨ s.rif.hold ≠ none) →
      exec (.invalHold count first) s = .next (settle (csrOk 0 (raiseErr .rif 0x0103 r u))))
    ∧ (s.rif.hold = none → exec (.invalRelease count first) s = .next (settle (csrOk 0 (dropLatches .rif s))))
    ∧ (∀ k i n, s.rif.hold = some (k, i, n) →
        let x := ringOf k s
        let w : State := { dropLatches .rif s with rif := { s.rif with hold := none } }
        (x.state = .active → x.offer = none → x.partialUnit = none → x.prefetched = [] →
          exec (.invalRelease count first) s = .next (settle (csrOk 0 (setRing k
            { x with gen := x.gen + 1, polling := false, pfAwait := 0, pfGot := [], pfHeld := none, got := [],
                     fetchHeld := false, due := some s.cc } w))))
        ∧ (x.state ≠ .active → exec (.invalRelease count first) s = .next (settle (csrOk 0 w)))
        ∧ ∃ v, exec (.invalRelease count first) s = .next (settle (csrOk 0 v)) ∧ v.rif.hold = none)

/-- Function reset and the HOLD of a range of rings. -/
def Obligations.FunctionResetsAndHolds : Prop :=
  Claims.FunctionResetBeginsAndEnds ∧ Claims.FunctionResetOfRing ∧ Claims.HoldPlacedAndReleased

/-- 04 R98, R83, R90, R99, Table 4.9: the completion due next on an ACTIVE cached completion ring that is not full is
written as 16 bytes at INDEX on FAB[FN mod 4]: PHASE, status and count, cookie, commit frame, tag, rung and corrected
bits; INDEX moves on, past the last unit to 0 with PHASE inverted, and a ring that this fills has a read of HEAD due.
On a full ring HEAD is read again; without its context in the cache that is read first; with none due nothing changes.
-/
def Claims.CompletionWritten : Prop :=
  ∀ (r : RingId) (s : State),
    let n := r.toNat
    let g := ringOf n s
    (cplNext g s = none → exec (.completionWrite r) s = .next (settle s))
    ∧ (∀ c, cplNext g s = some c → pageAnswers .rif s = true → g.cq = true → g.state = .active →
      (g.cached = true → cqFull g = true → g.headDue = none → g.headRead = false →
        exec (.completionWrite r) s = .next (settle (setRing n { g with headDue := some s.cc } s)))
      ∧ (g.cached = false → g.ctxRead = false →
        exec (.completionWrite r) s = .next (settle (fabRead (g.fn % 4)
          { addr := regOf .rif oRifCtxBase s + n * 64, len := 64, kind := 1, purpose := .context n false }
          (bump .rif 5 (setRing n { g with ctxRead := true } s)))))
      ∧ (g.cached = true → cqFull g = false → ∃ v,
          exec (.completionWrite r) s = .next (settle (fabWrite (g.fn % 4)
            { addr := g.base + g.index * 16, bytes := cplBytes c g.phase, kind := 1, purpose := .completion n g.index }
            v))
          ∧ (ringOf n v).index = (if g.index + 1 < 2 ^ g.size then g.index + 1 else 0)
          ∧ (ringOf n v).phase = (if g.index + 1 < 2 ^ g.size then g.phase else !g.phase)
          ∧ (cqFull (ringOf n v) = true → g.headRead = false → (ringOf n v).headDue.isSome = true)
          ∧ (ringOf n v).cplDue = g.cplDue.erase c ∧ (ringOf n v).cplOut = g.cplOut ++ [(g.index, c)]
          ∧ (∀ k, k ≠ n → ringOf k v = ringOf k s) ∧ (∀ t, tagOf t v = tagOf t s)
          ∧ { v with rif := s.rif, ops := s.ops, hdr := s.hdr, regs := s.regs } = s))
    ∧ (∀ c : Cpl, (cplBytes c g.phase).length = 16
        ∧ leWord (cplBytes c g.phase) 0 = BitVec.ofNat 32 ((if g.phase then 2 ^ 31 else 0)
            + c.status % 256 * 2 ^ 16 + c.count % 65536)
        ∧ leWord (cplBytes c g.phase) 1 = c.cookie ∧ leWord (cplBytes c g.phase) 2 = c.frame
        ∧ leWord (cplBytes c g.phase) 3 = BitVec.ofNat 32 (c.tag % 65536 * 2 ^ 16 + c.rung % 256 * 2 ^ 8
            + c.maxbits % 256))

/-- 04 R97, R98, R109, R111: the response of a completion write frees the tags that the completion covers and raises
the ring's VECTOR. One that fails, or that comes when the ring has stopped, leaves the tags, their completion lost, and
stops an ACTIVE ring with cause FABRIC_CQ. In a function reset a failed one, and any of a ring that was in ERROR, is
discarded, which RIF counter 8 counts, and the tags are free. -/
def Claims.CompletionAnswered : Prop :=
  ∀ (p : PortId) (tkt : BitVec 9) (s : State) (q : WrReq) (r n : Nat) (c : Cpl),
    writeAt p tkt s = some q → q.purpose = .completion r n →
    let u := writeOver p tkt s
    let g := ringOf r u
    g.cplOut.find? (fun e => decide (e.1 = n)) = some (n, c) →
    let h : Ring := { g with cplOut := g.cplOut.filter fun e => !decide (e.1 = n) }
    (g.state ≠ .error → ¬(g.state = .fnResetting ∧ g.wasErr = true) →
      exec (.completionWriteResponse p tkt 0) s = .next (settle (raiseVector g.fn g.vector
        (freeTags c.covers (setRing r h u)))))
    ∧ (∀ stat : BitVec 2, (stat ≠ 0 ∨ g.state = .error) → g.state ≠ .fnResetting →
        ∃ v, exec (.completionWriteResponse p tkt stat) s = .next (settle (ringError r 0x0D v))
          ∧ ringOf r v = { h with lost := g.lost ++ [c.covers] } ∧ (∀ t, tagOf t v = tagOf t s))
    ∧ (∀ stat : BitVec 2, (stat ≠ 0 ∨ g.wasErr = true) → g.state = .fnResetting → exec (.completionWriteResponse p tkt stat) s =
        .next (settle (freeTags c.covers (bump .rif 8 (setRing r h u)))))

/-- Completions are written in batches, and what their responses do. -/
def Obligations.Completions : Prop :=
  Claims.CompletionWritten ∧ Claims.CompletionAnswered

/-! ### OPS (05) -/

/-- The commands by which OPS takes an entry, with the opcode that each takes (04 Table 4.7). -/
def takers : List (Nat × (RingId → Instr)) :=
  [(0x01, .read), (0x02, .readMp), (0x08, .program), (0x0C, .erase), (0x10, .destage), (0x11, .stage), (0x18, .copy),
   (0x20, .fence), (0x21, .nop), (0x28, .census), (0x29, .calibrate), (0x30, .featureGet), (0x31, .featureSet),
   (0x3F, .raw)]

/-- 05 R113, R114, 04 R94, R106, 12 R288: OPS takes the entry of its opcode that ring r offers while OPS and RIF are
enabled and a tag is free: the tag free longest gets a row with the entry, the ring's function, the next order number
and what the function's permissions say of the entry; the ring offers nothing, INDEX has moved on by the entry's units
(past the last unit to the start, with PHASE inverted); the entry is a member of a batch, closed by CBATCH; a DESTAGE
has one record per sector. Behind a fence it then waits FENCED, counted on OPS counter 11; otherwise admission
follows. No other tag changes. -/
def Claims.EntryTaken : Prop :=
  ∀ x ∈ takers, ∀ (r : RingId) (s : State) (e : Entry) (t : Nat),
    (ringOf r.toNat s).offer = some e → eOpcode e = x.1 → opsTakes s = true → nextTag s = some t →
    recsNeeded e ≤ freeRecs (eAct e) s →
    let g := ringOf r.toNat s
    let n := g.index + eLen e + 1
    ∃ u, exec (x.2 r) s = .next (settle (presentAll 64 r.toNat
        (if behindFence t u then bump .ops 11 u else admitTag t u)))
      ∧ tagOf t u = { state := .fenced, entry := e, fn := g.fn, order := s.ops.taken, takenAt := s.cc,
                      allowed := permitted g.fn e s,
                      armed := decide (eClass e ≠ 0) && !deadlineRange e s && dueSoon e s,
                      unwatched := deadlineRange e s }
      ∧ (∀ k, k ≠ t → tagOf k u = tagOf k s)
      ∧ u.ops.taken = s.ops.taken + 1 ∧ hdrOf .ops u = hdrOf .ops (bump .ops 0 s)
      ∧ (ringOf r.toNat u).offer = none ∧ (ringOf r.toNat u).consumed = g.consumed + eLen e + 1
      ∧ (ringOf r.toNat u).index = (if 2 ^ g.size ≤ n then n - 2 ^ g.size else n)
      ∧ (ringOf r.toNat u).phase = (if 2 ^ g.size ≤ n then !g.phase else g.phase)
      ∧ (∃ b ∈ (ringOf r.toNat u).batches, (eCbatch e = true → b.closed = true)
          ∧ ∃ m ∈ b.members, m.tag = t ∧ m.cookie = eCookie e ∧ m.seq = g.consumed + eLen e + 1 ∧ m.done = none)
      ∧ (x.1 = 0x10 → (dspOf (eAct e) u).recs.length = (dspOf (eAct e) s).recs.length + eSectors e)
      ∧ u.sch = s.sch ∧ u.map = s.map ∧ u.dpt = s.dpt ∧ u.tmb = s.tmb ∧ u.regs = s.regs

/-- 04 R106, 12 R288: an entry stays with its ring where OPS does not take entries or it has another opcode (nothing
changes, log entry 22), with no free tag (RIF counter 9 counts the hold once), or while its port has fewer records free
than a DESTAGE needs (DSP counter 16 counts it once). -/
def Claims.EntryStays : Prop :=
  ∀ x ∈ takers, ∀ (r : RingId) (s : State),
    ((ringOf r.toNat s).offer = none → exec (x.2 r) s = .next (settle s))
    ∧ ∀ e, (ringOf r.toNat s).offer = some e →
      ((eOpcode e ≠ x.1 ∨ opsTakes s = false) → exec (x.2 r) s = .next (settle s))
      ∧ (eOpcode e = x.1 → opsTakes s = true → nextTag s = none → exec (x.2 r) s = .next (settle
          (if (ringOf r.toNat s).tagWait then s
            else bump .rif 9 (setRing r.toNat { ringOf r.toNat s with tagWait := true } s))))
      ∧ (eOpcode e = x.1 → opsTakes s = true → nextTag s ≠ none → freeRecs (eAct e) s < recsNeeded e →
          exec (x.2 r) s = .next (settle
            (if (ringOf r.toNat s).recWait then s
              else bump (dspPage (eAct e)) 16 (setRing r.toNat { ringOf r.toNat s with recWait := true } s))))

/-- 05 R114: the tag given next is FREE for as long as any: one never given out since reset, the lowest, or else the one
freed first; a tag that is freed goes to the end. -/
def Claims.TagFreeLongest : Prop :=
  ∀ (s : State) (t : Nat),
    (s.ops.fresh < 65536 → nextTag s = some s.ops.fresh ∧ nextTag (freeTag t s) = some s.ops.fresh
      ∧ (takeTag s).ops.fresh = s.ops.fresh + 1 ∧ (takeTag s).ops.freed = s.ops.freed)
    ∧ (65536 ≤ s.ops.fresh → (nextTag s = none ↔ s.ops.freed = [])
      ∧ (∀ a l, s.ops.freed = a :: l → nextTag s = some a ∧ (takeTag s).ops.freed = l
          ∧ (freeTag t (takeTag s)).ops.freed = l ++ [t]))
    ∧ (tagOf t (freeTag t s)).state = .free ∧ (takeTag s).ops.low ≤ s.ops.low
    ∧ (takeTag s).ops.low ≤ tagsFree (takeTag s)

/-- OPS takes an entry under the tag that has been free longest, or leaves it. -/
def Obligations.EntriesTaken : Prop :=
  Claims.EntryTaken ∧ Claims.EntryStays ∧ Claims.TagFreeLongest

/-- 01 R19, R20, 05 R125: a commitment fixes the status of a tag: an open tag is COMMITTED with it, out of the
comparator and out of the ladder unit; a committed one keeps its own, unless an event of the same cc that R20 puts first
decides it; a free tag stays free. An event other than the operation's own leaves the tag's work to the end of the cc,
so that the operation's own may still come, and its completion does not fall due before. -/
def Claims.CommitmentFixesStatus : Prop :=
  ∀ (t st rank : Nat) (s : State),
    let x := tagOf t s
    let y := tagOf t (commitTag t st rank s)
    let z := setTag t { x with state := .committed, status := st, commitCc := s.cc, commitRank := rank,
                               commitFrame := s.tmb.frame, armed := false, ladderHeld := none } s
    let others := fun (l : List Nat) => l.filter fun i => !decide (i = t)
    (x.state = .free → commitTag t st rank s = s)
    ∧ (x.state = .committed → (x.commitCc ≠ s.cc ∨ x.commitRank ≤ rank) → commitTag t st rank s = s)
    ∧ ((x.state ≠ .free ∧ x.state ≠ .committed) ∨ (x.state = .committed ∧ x.commitCc = s.cc ∧ rank < x.commitRank) →
        (y.state = .committed ∧ y.status = st ∧ y.commitRank = rank ∧ y.commitCc = s.cc ∧ y.armed = false
          ∧ y.ladderHeld = none)
        ∧ (rank ≠ 1 → commitTag t st rank s = { z with ops := { z.ops with
            doneNow := others s.ops.doneNow, abortNow := others s.ops.abortNow ++ [t] } }))

/-- 05 R116, 04 R93, R110, 14 R342: admission. The checks come in the order of Table 5.3: PERMISSION,
QUARANTINED, CHANNEL_LOST, BLOCK_BAD, CONFLICT, RANGE, INFEASIBLE; PERMISSION is judged on the permissions as the entry
was taken, BLOCK_BAD on the marks added before that; a FENCE or NOP needs no permission and a RAW entry never has it. A
refused entry commits with the status of the first check that fails; an admitted NOP commits OK; an admitted FENCE or
CENSUS is QUEUED with its slack and key, and OPS counter 1 counts it. The words of the map cache that the checks read
are checked first, which changes only MEM. -/
def Claims.AdmissionJudges : Prop :=
  ∀ (t : Nat) (s : State), (tagOf t s).state = .fenced →
    let x := tagOf t s
    let e := x.entry
    let u := mapReads e s
    let st := admitStatus x.allowed x.takenAt e x.order u
    let bad := writtenAny (blockBadFor x.takenAt) e u
    let q : TagRow := { x with state := .queued, slack := if eClass e = 0 then 0 else slackOf e x.order u,
                               key := entryKey e u, armed := decide (eClass e ≠ 0) && dueSoon e u }
    { u with mem := s.mem, hdr := s.hdr, rst := s.rst } = s ∧
    (eOpcode e = 0x3F → permitted x.fn e s = false)
    ∧ ((eOpcode e = 0x20 ∨ eOpcode e = 0x21) → permitted x.fn e s = true)
    ∧ (x.allowed = false → st = 0x32)
    ∧ (x.allowed = true → diesServe e u = false → st = 0x30)
    ∧ (x.allowed = true → diesServe e u = true → channelsOwned e u = false → st = 0x33)
    ∧ (x.allowed = true → diesServe e u = true → channelsOwned e u = true → bad = true → st = 0x31)
    ∧ (x.allowed = true → diesServe e u = true → channelsOwned e u = true → bad = false →
        writtenAny blockDisputed e u = true → st = 0x60)
    ∧ (x.allowed = true → diesServe e u = true → channelsOwned e u = true → bad = false →
        writtenAny blockDisputed e u = false →
        st = if eClass e = 0 then 0 else if deadlineRange e u then 0x11 else if slackOf e x.order u < 0 then 0x10 else 0)
    ∧ (st ≠ 0 → (tagOf t (admitTag t s)).state = .committed ∧ (tagOf t (admitTag t s)).status = st)
    ∧ (st = 0 → eOpcode e = 0x21 → (tagOf t (admitTag t s)).state = .committed ∧ (tagOf t (admitTag t s)).status = 0)
    ∧ (st = 0 → (eOpcode e = 0x20 ∨ eOpcode e = 0x28) → admitTag t s = bump .ops 1 (setTag t q u))

/-- 05 R116, 07 R145, 08 R181, 11 R264, 14 R350: the work of an admitted operation: a read (unless its page stands in
staging), a CALIBRATE (from the first page of its program unit on), a FEATURE_GET, a FEATURE_SET, a PROGRAM and a STAGE
join the queue of their die behind what waits there; the intent of an ERASE joins the forming batch. -/
def Claims.AdmittedWorkQueued : Prop :=
  ∀ (t : Nat) (s : State), t < 65536 → (tagOf t s).state = .fenced →
    let x := tagOf t s
    let e := x.entry
    let o := eOpcode e
    let d := paDie (ePaddr e)
    let u := mapReads e s
    let item := fun (k : DieOpKind) => ({
      id := t, kind := k, planes := ePlanes e, block := paBlock (ePaddr e),
      page := if o = 0x29 then firstPage e u else paPage (ePaddr e), slc := slcOn e d u,
      rung := 0, attempt := 0, cls := classRank (eClass e), key := entryKey e u, order := x.order } : QItem)
    let v := admitTag t s
    admitStatus x.allowed x.takenAt e x.order u = 0 →
    (o = 0x29 → (dieOf d v).queue = (dieOf d s).queue ++ [item .sense] ∧ (tagOf t v).state = .queued
        ∧ (tagOf t v).todo = firstCws e)
    ∧ ((o = 0x01 ∨ o = 0x02 ∨ o = 0x10 ∨ o = 0x18) → (o = 0x18 ∨ eCwFirst e ≤ eCwLast e) →
        s.ops.tags.all (fun y => decide (y.1 < 65536)) = true →
        (dieOf d v).queue = (dieOf d s).queue ++ [item .sense] ∧ (tagOf t v).state = .queued
        ∧ (tagOf t v).todo = firstCws e)
    ∧ (o = 0x0C → (dieOf d v).queue = (dieOf d s).queue ∧ (tagOf t v).state = .queued
        ∧ v.map.forming = s.map.forming ++ [{ tag := t, die := d, planes := ePmask e, slc := slcOn e d u,
                                              block := paBlock (ePaddr e) }])
    ∧ (o = 0x30 → (dieOf d v).queue = (dieOf d s).queue ++ [item .featGet] ∧ (tagOf t v).state = .queued)
    ∧ (o = 0x31 → (dieOf d v).queue = (dieOf d s).queue ++ [item .featSet] ∧ (tagOf t v).state = .queued)
    ∧ ((o = 0x08 ∨ o = 0x11) → (dieOf d v).queue = (dieOf d s).queue ++ [item .program]
        ∧ (tagOf t v).dataLeft = progPages e u * 16384)

/-- A tag commits once; admission checks in order, and what an admitted entry does. -/
def Obligations.CommitmentAndAdmission : Prop :=
  Claims.CommitmentFixesStatus ∧ Claims.AdmissionJudges ∧ Claims.AdmittedWorkQueued

/-- 05 R123: FENCE_COMMIT of an admitted FENCE whose scope has committed (and that nothing has committed before this
cc): it commits OK, and the FENCED entries that stand behind no fence any more are admitted in the order taken. Of any
other tag nothing changes. 05 R119, R120, 01 R15,
06 R133: EXPIRY of an open tag in the comparator whose deadline has been reached while TMB runs: after its confirm cycle
the deadline is withdrawn; before it the tag commits DEADLINE_MISSED. -/
def Claims.FenceAndExpiry : Prop :=
  ∀ (t : TagId) (s : State),
    let n := t.toNat
    let x := tagOf n s
    ((x.state = .queued ∨ x.state = .committed) → reachedNow n 1 s = true → eOpcode x.entry = 0x20 →
      fenceClear n s = true →
      exec (.fenceCommit t) s = .next (settle (admitFenced (commitTag n 0 1 s)))
      ∧ (tagOf n (commitTag n 0 1 s)).state = .committed ∧ (tagOf n (commitTag n 0 1 s)).status = 0)
    ∧ (((x.state ≠ .queued ∧ x.state ≠ .committed) ∨ reachedNow n 1 s = false ∨ eOpcode x.entry ≠ 0x20
        ∨ fenceClear n s = false) →
      exec (.fenceCommit t) s = .next (settle s))
    ∧ (expires n s = false → exec (.expiry t) s = .next (settle s))
    ∧ (expires n s = true → x.confirmed = true →
      exec (.expiry t) s = .next (settle (setTag n { x with withdrawn := true, armed := false } s)))
    ∧ (expires n s = true → x.confirmed = false →
      ∃ v, exec (.expiry t) s = .next (settle v) ∧ (tagOf n v).state = .committed ∧ (tagOf n v).status = 0x12)
    ∧ (s.tmb.state = .off ∨ x.armed = false ∨ x.withdrawn = true ∨ x.state = .committed → expires n s = false)

/-- 01 R17, 05 R125, 10 R250, R251: DATA_WRITE_RESPONSE frees the write's ticket. A map write ends with that. The last
response of a READ or READ_MP whose codewords have all left commits it OK, or OK_RECOVERED above rung 0; a report's last
response OK commits a CENSUS or FEATURE_GET with OK; a response with an error commits an open tag FABRIC_ERROR (the
counts of an ERASE are none of its data). -/
def Claims.DataWritesAnswered : Prop :=
  ∀ (p : PortId) (tkt : BitVec 9) (stat : BitVec 2) (s : State) (q : WrReq), writeAt p tkt s = some q →
    let u := writeOver p tkt s
    (q.purpose = .map → exec (.dataWriteResponse p tkt stat) s = .next (settle u))
    ∧ (∀ t plane idx, q.purpose = .data t plane idx → stat = 0 → (tagOf t s).state = .issued →
        (eOpcode (tagOf t s).entry = 0x01 ∨ eOpcode (tagOf t s).entry = 0x02) → (tagOf t s).todo = [] →
        (tagOf t s).wrOut = 1 → ∃ v, exec (.dataWriteResponse p tkt stat) s = .next (settle v)
          ∧ (tagOf t v).state = .committed ∧ (tagOf t v).status = (if (tagOf t s).maxRung = 0 then 0 else 1))
    ∧ (∀ t plane idx, q.purpose = .data t plane idx → stat ≠ 0 → t < 65536 → eOpcode (tagOf t s).entry ≠ 0x0C →
        (tagOf t s).state ≠ .free → (tagOf t s).state ≠ .committed →
        ∃ v, exec (.dataWriteResponse p tkt stat) s = .next (settle v)
          ∧ (tagOf t v).state = .committed ∧ (tagOf t v).status = 0x40)
    ∧ ∀ t, q.purpose = .report t → (tagOf t s).state ≠ .free → (tagOf t s).state ≠ .committed → t < 65536 →
      let x := tagOf t s
      (stat = 0 → 1 < x.wrOut → exec (.dataWriteResponse p tkt stat) s = .next (settle
          (setTag t { x with wrOut := x.wrOut - 1 } u)))
      ∧ (stat = 0 → x.wrOut = 1 → ∃ v, exec (.dataWriteResponse p tkt stat) s = .next (settle v)
          ∧ (tagOf t v).state = .committed ∧ (tagOf t v).status = 0)
      ∧ (stat ≠ 0 → ∃ v, exec (.dataWriteResponse p tkt stat) s = .next (settle v)
          ∧ (tagOf t v).state = .committed ∧ (tagOf t v).status = 0x40)

/-- 10 R237, R251, 05 R127: PROGRAM_DATA: the bytes of an open tag's data that have come are no longer awaited; with the
last of them, while ECC is enabled and they are encoded, an EARLY_ACK operation commits OK_EARLY (the model's keys of
OK_EARLY programs lie above the tags); while ECC is disabled the encoding waits. An error response commits FABRIC_ERROR.
Data that the tag no longer waits for is dropped; an error response to it is counted and reported by DPT alone. (Open
here is also a tag that an event which R20 puts later has committed in this cc.) -/
def Claims.ProgramDataArrives : Prop :=
  ∀ (p : PortId) (tkt : BitVec 9) (beats : List (BitVec 512)) (stat : BitVec 2) (s : State) (q : RdReq)
    (t order ch off : Nat), readAt p tkt s = some q → q.purpose = .program t order ch off →
    beats.length = beatsFor q.addr q.len → t < 65536 → 65536 ≤ s.ops.earlyNext →
    let x := tagOf t s
    let n := (readBytes q beats).length
    let u := readOver p tkt s
    ((reachedNow t 1 s = false ∨ x.order ≠ order ∨ x.dataLeft = 0) →
      exec (.programData p tkt beats stat) s = .next (settle (if stat = 0 then u
        else bump .dpt 5 (raiseErr .dpt 0x0100 (stat.toNat * 2 ^ 16 + ch) (raiseEvt .dpt 2 u)))))
    ∧ (reachedNow t 1 s = true → x.order = order → x.dataLeft ≠ 0 →
      (stat = 0 → n < x.dataLeft → ∃ v, exec (.programData p tkt beats stat) s = .next (settle v)
        ∧ (tagOf t v).dataLeft = x.dataLeft - n ∧ (tagOf t v).state = x.state)
      ∧ (stat = 0 → x.dataLeft ≤ n → (eClass x.entry ≠ 3 ∨ pageActive .ecc s = false) → ∃ v,
        exec (.programData p tkt beats stat) s = .next (settle v)
        ∧ (tagOf t v).dataLeft = 0 ∧ (tagOf t v).state = x.state
        ∧ (pageActive .ecc s = false → (tagOf t v).fetchWait = true))
      ∧ (stat = 0 → x.dataLeft ≤ n → eClass x.entry = 3 → pageActive .ecc s = true → ∃ v,
        exec (.programData p tkt beats stat) s = .next (settle v)
        ∧ (tagOf t v).state = .committed ∧ (tagOf t v).status = 2)
      ∧ (stat ≠ 0 → ∃ v, exec (.programData p tkt beats stat) s = .next (settle v)
        ∧ (tagOf t v).state = .committed ∧ (tagOf t v).status = 0x40))

/-- 05 R114, R129, Tables 5.1, 5.8: EARLY_POP removes the oldest record of EARLY_LOG. TAG_SEL writes the tag's row into
TAG_INFO0 to TAG_INFO3: state, opcode, function and class; status and ring; the deadline of an entry with a class (a
free tag shows 0: the model's choice, log entry 134). The word of the row is checked as it is read. -/
def Claims.EarlyPopAndTagSelect : Prop :=
  ∀ (t : TagId) (s : State), pageAnswers .ops s = true →
    let u := dropLatches .ops s
    let x := tagOf t.toNat s
    let live := x.state ≠ .free
    let dl := live ∧ eClass x.entry ≠ 0
    exec .earlyPop s = .next (settle (csrOk 0 { u with ops := { s.ops with earlyLog := s.ops.earlyLog.tail } }))
    ∧ ∃ v, exec (.tagSel t) s = .next (settle (csrOk 0 v))
      ∧ regOf .ops oOpsTagSel v = t.toNat
      ∧ (live → regFld .ops oOpsTagInfo0 28 3 v = tagStateCode x.state
          ∧ regFld .ops oOpsTagInfo0 16 8 v = eOpcode x.entry ∧ regFld .ops oOpsTagInfo0 8 8 v = x.fn % 256
          ∧ regFld .ops oOpsTagInfo0 0 3 v = eClass x.entry
          ∧ regFld .ops oOpsTagInfo1 24 8 v = (if x.state = .committed then x.status % 256 else 0)
          ∧ regFld .ops oOpsTagInfo1 0 18 v = x.entry.ring % 2 ^ 18)
      ∧ (¬live → regOf .ops oOpsTagInfo0 v = 0 ∧ regOf .ops oOpsTagInfo1 v = 0)
      ∧ (dl → regOf .ops oOpsTagInfo2 v = (eDlFrame x.entry).toNat ∧ regOf .ops oOpsTagInfo3 v = eDlFrac x.entry)
      ∧ (¬dl → regOf .ops oOpsTagInfo2 v = 0 ∧ regOf .ops oOpsTagInfo3 v = 0)
      ∧ { v with regs := s.regs } = readWord 1 t.toNat u
      ∧ (upsetsOf 1 t.toNat s = [] → readWord 1 t.toNat u = u)

/-- FENCE, deadline expiry, EARLY_POP and TAG_SEL. -/
def Obligations.FencesExpiryAndViews : Prop :=
  Claims.FenceAndExpiry ∧ Claims.EarlyPopAndTagSelect

/-! ### TMB (06) -/

/-- No DESTAGE holds a sector record at either disk port, and no sector is open. -/
def portsClear (s : State) : Prop :=
  ∀ a, a < 2 → (dspOf a s).recs = [] ∧ (dspOf a s).open_ = none

/-- A port is in sync only while the tracker is LOCKED. -/
def syncFollowsLock (s : State) : Prop :=
  s.tmb.state = .locked ∨ ((dspOf 0 s).valid = false ∧ (dspOf 1 s).valid = false)

/-- 01 R11, 06 R130, R131, R138, 03 R77: FRAME_TICK in the last cc of a frame: FRAME counts on by one, PHASE is 0,
PERIOD_EST is the estimate that the last decided tick left, or the coasting length, and FRAME_LEN the length set in
advance or the coasting length; fields that take effect at the tick become those last written (where nothing else acts
in that cc); INDEX moves on by one where it is valid; the Burins' checkpoint begins anew; TMB counter 0
counts. Before the last cc, in OFF, and while the core domain has no power nothing changes (log entry 22). -/
def Claims.FrameTickBegins : Prop :=
  ∀ s : State,
    ((corePowered s = false ∨ s.tmb.state = .off ∨ s.tmb.phase + 1 < s.tmb.frameLen) →
          exec .frameTick s = .next (settle s))
    ∧ (corePowered s = true → s.tmb.state ≠ .off → s.tmb.frameLen ≤ s.tmb.phase + 1 →
        refAct (applyTick s) = refAct s → portsClear s →
      let t := s.tmb
      let len := coastLen (applyTick s)
      ∃ v, exec .frameTick s = .next (settle v)
        ∧ v.cc = s.cc + 1 ∧ (plainCc s → v.regsEff = s.regs) ∧ v.tmb.frame = t.frame + 1 ∧ v.tmb.phase = 0
        ∧ v.tmb.prevLen = t.frameLen ∧ v.tmb.periodEst = t.nextEst.getD len ∧ v.tmb.frameLen = t.nextLen.getD len
        ∧ v.tmb.nextLen = none ∧ v.tmb.nextEst = none ∧ v.tmb.state = t.state ∧ v.tmb.integ = t.integ
          ∧ v.tmb.preset = t.preset
        ∧ v.tmb.wedgeValid = t.wedgeValid
        ∧ (t.wedgeValid = true → v.tmb.wedgeIndex = (t.wedgeIndex + 1) % max 1 (wedges (applyTick s)))
        ∧ v.tmb.ckptPrev = t.ckptMiss ∧ v.tmb.ckptMiss = 0 ∧ v.tmb.planJudged = false
        ∧ (pageActive .sch s = false → v.sch.toPlan = [])
        ∧ cntOf .tmb 0 v = cntOf .tmb 0 (bump .tmb 0 { s with cc := s.cc + 1 }))

/-- 06 R138: where the tracker runs a loop a frame coasts at round(INTEG / 256) cc, and at SYN_PERIOD in FREERUN,
REVERSE and OFF; the length that a tick sets for the running frame is at least PHASE + 4, and a tick whose pad time
lies before still finds the length that stood then. -/
def Claims.FrameLengths : Prop :=
  ∀ (s : State) (own : Word32) (len : Nat),
    ((s.tmb.state = .off ∨ s.tmb.state = .freerun ∨ s.tmb.state = .reverse) → coastLen s = synPeriod s)
    ∧ ((s.tmb.state = .acquire ∨ s.tmb.state = .locked ∨ s.tmb.state = .hold) →
        coastLen s = (s.tmb.integ + 128) / 256)
    ∧ (frameLater own s.tmb.frame = true → setLength own len s = { s with tmb.nextLen := some len })
    ∧ (frameLater own s.tmb.frame = false → ∃ l, setLength own len s =
        { s with tmb := { s.tmb with frameLen := max len (s.tmb.phase + 4), lenLog := l } }
        ∧ ∀ k, 1 ≤ k → k ≤ 2 → k ≤ s.cc → lenAt (s.cc - k) (setLength own len s) = lenAt (s.cc - k) s)

/-- A frame begins, and the lengths it takes. -/
def Obligations.FrameTicks : Prop :=
  Claims.FrameTickBegins ∧ Claims.FrameLengths

/-- 06 R135, R136: a tick of the reference actuator outside OFF, while none waits, waits for its sample: its pad time is
2 cc ago; its own frame is that whose start lies nearest by the frame's length as it stood then, with the phase error
from it; it is STRAY outside WINDOW and where a tick has been taken for that frame. One that is not STRAY takes the
frame's start. In OFF, and while the core domain has no power, nothing changes. -/
def Claims.WedgeTickWaits : Prop :=
  ∀ s : State,
    ((corePowered s = false ∨ s.tmb.state = .off) → exec .wedgeTick s = .next (settle s))
    ∧ (corePowered s = true → s.tmb.state ≠ .off → s.tmb.pend = none → syncFollowsLock s →
      let ph := s.tmb.phase
      let len := lenAt (s.cc - 2) s
      let late := 2 ≤ ph ∧ len ≤ 2 * (ph - 2)
      let own := if late then s.tmb.frame + 1 else s.tmb.frame
      let err : Int := if late then (ph : Int) - 2 - len else (ph : Int) - 2
      let stray := decide (loopWindow s < err.natAbs) || decide (s.tmb.takenFor = some own)
      ∃ v, exec .wedgeTick s = .next (settle v)
        ∧ v.tmb.pend = some { tau := s.cc - 2, at_ := s.cc, own := own, err := err,
                              interval := s.tmb.prevTick.map fun q => s.cc - 2 - q, stray := stray }
        ∧ v.tmb.prevTick = some (s.cc - 2) ∧ v.tmb.lastErr = clampInt err (-32767) 32767
        ∧ v.tmb.takenFor = (if stray then s.tmb.takenFor else some own)
        ∧ v.tmb.state = s.tmb.state ∧ v.tmb.integ = s.tmb.integ ∧ v.tmb.frameLen = s.tmb.frameLen
        ∧ { v with tmb := s.tmb, dsp := s.dsp } = s)

/-- 06 R136, Table 6.1: the class of a tick is that of the first row that applies: STRAY only in LOCKED and HOLD; with
no sample, or one not valid, MISSING; then STALE, DEFECT; then BACKWARD for a step of half the wedges or more; then
SLIP for an index that is not the one expected; FIRST and OUT only in FREERUN and ACQUIRE; else GOOD. -/
def Claims.TickClasses : Prop :=
  ∀ (t : PendTick) (p : BitVec 44) (s : State),
    (inService s = true → t.stray = true → ∀ x, classify t x s = .stray)
    ∧ ((inService s = false ∨ t.stray = false) →
      classify t none s = .missing
      ∧ (posValid p = false → classify t (some p) s = .missing)
      ∧ (posValid p = true → posStale p = true → classify t (some p) s = .stale)
      ∧ (posValid p = true → posStale p = false → posDefect p = true → classify t (some p) s = .defect)
      ∧ (posUsable p = true → ∀ l, s.tmb.lastUsable = some l →
        let w := max 1 (wedges s)
        let d := (posWedge p + wedges s * 4096 - l) % w
        (wedges s ≤ 2 * d → classify t (some p) s = .backward)
        ∧ (2 * d < wedges s → posWedge p ≠ (l + s.tmb.sinceUsable + 1) % w → classify t (some p) s = .slip)
        ∧ (2 * d < wedges s → posWedge p = (l + s.tmb.sinceUsable + 1) % w → acquiring s = false →
            classify t (some p) s = .good))
      ∧ (posUsable p = true → s.tmb.lastUsable = none →
        (acquiring s = true → t.interval = none → classify t (some p) s = .first)
        ∧ (acquiring s = true → ∀ i, t.interval = some i →
            classify t (some p) s = if i < periodMin s ∨ periodMax s < i then .out else .good)
        ∧ (acquiring s = false → classify t (some p) s = .good)))

/-- 06 R136, R138, R139, 02 R45: SERVO_SAMPLE of the reference actuator, not later than SAMPLE_WAIT, decides the tick
that waits. A GOOD tick in LOCKED: INTEG moves by the phase error / 2^KI within 252/256 and 260/256 of PRESET, the
frame's length by the error / 2^KP within an eighth, and what counts toward HOLD begins anew. The eighth GOOD tick in
ACQUIRE inside WINDOW takes lock: LOCKED, event 0, counter 9, INDEX valid, counted from the sample's. A second
BACKWARD tick in a row: REVERSE, INDEX not valid. A sample that comes later decides it as one without. Of the other
actuator only its port takes the sample. While the core domain has no power nothing changes. -/
def Claims.SampleDecidesTick : Prop :=
  ∀ (a : ActId) (p : BitVec 44) (s : State),
    (corePowered s = false → exec (.servoSample a p) s = .next (settle s))
    ∧ (corePowered s = true → a.toNat ≠ refAct s → exec (.servoSample a p) s = .next (settle (setDsp a.toNat
      { dspOf a.toNat s with lastPos := p, posValid := true,
                             ticks := sampledTicks p (sampleWait s) s.cc (dspOf a.toNat s).ticks } s)))
    ∧ (corePowered s = true → a.toNat = refAct s → ∀ t : PendTick, s.tmb.pend = some t →
      t.at_ + sampleWait s < s.cc → s.tmb.state = .locked → t.stray = false → s.tmb.run < 7 →
      ∃ v, exec (.servoSample a p) s = .next (settle v) ∧ v.tmb.pend = none
        ∧ v.tmb.integ = s.tmb.integ ∧ v.tmb.run = s.tmb.run + 1 ∧ v.tmb.lastUsable = s.tmb.lastUsable
        ∧ v.tmb.lastPos = p ∧ hdrOf .tmb v = hdrOf .tmb (bump .tmb 4 s))
    ∧ (corePowered s = true → a.toNat = refAct s → ∀ t : PendTick, s.tmb.pend = some t →
      s.cc ≤ t.at_ + sampleWait s →
      let m := s.tmb
      let n := (m.integ + 128) / 256
      (m.state = .locked → classify t (some p) s = .good →
        let i := (clampInt (m.integ + t.err * 256 / (2 ^ loopKi s : Nat)) (m.preset * 252 : Nat)
          (m.preset * 260 : Nat)).toNat
        let e := (n / 8 : Nat)
        let len := (clampInt (((i + 128) / 256 : Nat) + clampInt (t.err / (2 ^ loopKp s : Nat)) (-(e : Int)) e)
          (periodMin s) (periodMax s)).toNat
        ∃ v, exec (.servoSample a p) s = .next (settle v)
          ∧ v.tmb.state = .locked ∧ v.tmb.pend = none ∧ v.tmb.integ = i ∧ v.tmb.run = 0 ∧ v.tmb.missRun = 0
          ∧ v.tmb.backRun = 0 ∧ v.tmb.lastUsable = some (posWedge p) ∧ v.tmb.sinceUsable = m.missSince
            ∧ v.tmb.lastPos = p
          ∧ v.tmb.nextEst = some n
          ∧ (frameLater t.own m.frame = true → v.tmb.nextLen = some len ∧ v.tmb.frameLen = m.frameLen)
          ∧ (frameLater t.own m.frame = false → v.tmb.frameLen = max len (m.phase + 4) ∧ v.tmb.nextLen = m.nextLen)
          ∧ hdrOf .tmb v = hdrOf .tmb (bump .tmb 1 s) ∧ { v with tmb := s.tmb, dsp := s.dsp, hdr := s.hdr } = s)
      ∧ (m.state = .acquire → classify t (some p) s = .good → 7 ≤ m.acqCount → t.err.natAbs ≤ loopWindow s →
        syncFollowsLock s → ∃ v, exec (.servoSample a p) s = .next (settle v)
          ∧ v.tmb.state = .locked ∧ v.tmb.wedgeValid = true
          ∧ v.tmb.wedgeIndex = ((posWedge p + signedOf 32 (m.frame - t.own).toNat)
              % (max 1 (wedges s) : Nat)).toNat
          ∧ hdrOf .tmb v = hdrOf .tmb (bump .tmb 9 (raiseEvt .tmb 0 (bump .tmb 1 s)))
          ∧ { v with tmb := s.tmb, dsp := s.dsp, hdr := s.hdr } = s)
      ∧ (m.state = .locked → classify t (some p) s = .backward → m.backRun = 1 → portsClear s →
        ∃ v, exec (.servoSample a p) s = .next (settle v) ∧ v.tmb.state = .reverse ∧ v.tmb.wedgeValid = false
          ∧ { v with tmb := s.tmb, dsp := s.dsp, hdr := s.hdr } = s))

/-- A wedge tick waits for its sample, which decides its class. -/
def Obligations.WedgeTicks : Prop :=
  Claims.WedgeTickWaits ∧ Claims.TickClasses ∧ Claims.SampleDecidesTick

/-- 06 R135, R137, R139: SAMPLE_WAIT_EXPIRY decides a tick that has waited SAMPLE_WAIT as MISSING, counter 4; MISS
counts a frame start without a tick, counter 7. Each counts in RUN; the eighth such wedge in a row, and the second MISS,
turns LOCKED into HOLD with event 1. Before their time neither changes anything. -/
def Claims.MissingTicksLoseLock : Prop :=
  ∀ s : State,
    (waitOver s = false → exec .sampleWaitExpiry s = .next (settle s))
    ∧ (missDue s = false → exec .miss s = .next (settle s))
    ∧ (s.tmb.state = .locked → ∀ t, s.tmb.pend = some t → waitOver s = true → t.stray = false →
      (s.tmb.run < 7 → ∃ v, exec .sampleWaitExpiry s = .next (settle v) ∧ v.tmb.state = .locked ∧ v.tmb.pend = none
        ∧ v.tmb.run = s.tmb.run + 1 ∧ v.tmb.sinceUsable = s.tmb.sinceUsable + 1 ∧ v.tmb.integ = s.tmb.integ
        ∧ hdrOf .tmb v = hdrOf .tmb (bump .tmb 4 s) ∧ { v with tmb := s.tmb, hdr := s.hdr } = s)
      ∧ (7 ≤ s.tmb.run → portsClear s → ∃ v, exec .sampleWaitExpiry s = .next (settle v) ∧ v.tmb.state = .hold
        ∧ hdrOf .tmb v = hdrOf .tmb (raiseEvt .tmb 1 (bump .tmb 4 s))
        ∧ { v with tmb := s.tmb, dsp := s.dsp, hdr := s.hdr } = s))
    ∧ (missDue s = true → s.tmb.state = .locked →
      (s.tmb.run < 7 → s.tmb.missRun = 0 → ∃ v, exec .miss s = .next (settle v) ∧ v.tmb.state = .locked
        ∧ v.tmb.missRun = 1 ∧ v.tmb.run = s.tmb.run + 1 ∧ v.tmb.starts = s.tmb.starts.tail
        ∧ v.tmb.sinceUsable = s.tmb.sinceUsable + 1
        ∧ hdrOf .tmb v = hdrOf .tmb (bump .tmb 7 s) ∧ { v with tmb := s.tmb, hdr := s.hdr } = s)
      ∧ ((7 ≤ s.tmb.run ∨ 1 ≤ s.tmb.missRun) → portsClear s → ∃ v, exec .miss s = .next (settle v)
        ∧ v.tmb.state = .hold ∧ hdrOf .tmb v = hdrOf .tmb (raiseEvt .tmb 1 (bump .tmb 7 s))
        ∧ { v with tmb := s.tmb, dsp := s.dsp, hdr := s.hdr } = s))

/-- 06 R139, Table 6.2: HOLD_EXPIRED once HOLD has lasted HOLD.LIMIT frames, and ACQUIRE_TIMEOUT after 8 frames of
ACQUIRE without a GOOD tick, lead to FREERUN, the former with INDEX not valid and event 2; no count of ticks is reset;
before that, and while the core domain has no power, they change nothing. -/
def Claims.HoldAndAcquireEnd : Prop :=
  ∀ s : State,
    let free : Tmb := { s.tmb with state := .freerun, idleFrames := 0, nextEst := none, starts := [] }
    (corePowered s = true → s.tmb.state = .hold → holdLimit s ≤ s.tmb.idleFrames → syncFollowsLock s →
      exec .holdExpired s = .next (settle (raiseEvt .tmb 2 { s with tmb := { free with wedgeValid := false } })))
    ∧ (corePowered s = true → s.tmb.state = .acquire → 8 ≤ s.tmb.idleFrames → syncFollowsLock s →
      exec .acquireTimeout s = .next (settle { s with tmb := free }))
    ∧ ((corePowered s = false ∨ s.tmb.state ≠ .hold ∨ s.tmb.idleFrames < holdLimit s) →
        exec .holdExpired s = .next (settle s))
    ∧ ((corePowered s = false ∨ s.tmb.state ≠ .acquire ∨ s.tmb.idleFrames < 8) →
        exec .acquireTimeout s = .next (settle s))

/-- 06 R144, 12 R286: FRAME_WRITE sets FRAME while the tracker is OFF, and is FRAME_WRITE_RUNNING with the state
otherwise. A tick of the other actuator outside OFF is assigned to the frame it lies nearest to, and waits for its
decision with that frame unless it is decided; the first since VALID fell sets OFS_EST from its phase. A second tick
for a frame, decided or not, ends VALID. -/
def Claims.FrameWriteAndOtherTick : Prop :=
  (∀ (f : Word32) (s : State), pageAnswers .tmb s = true →
    let u := dropLatches .tmb s
    (s.tmb.state = .off → exec (.frameWrite f) s = .next (settle (csrOk 0 { u with tmb.frame := f })))
    ∧ (s.tmb.state ≠ .off → exec (.frameWrite f) s = .next (settle (csrOk 0
        (raiseErr .tmb 0x0100 (trkCode s.tmb.state) u)))))
  ∧ ∀ s : State,
    let a := 1 - refAct s
    let d := dspOf a s
    let ofs := if d.ofsSet then d.ofs else (tickPlace s).2.1
    let f := nearestFrame (s.cc - 2) ofs s
    let open_ := frameLater f s.tmb.frame = true ∨ ∃ x ∈ d.frames, x.1 = f
    let first := (∀ t ∈ d.ticks, t.frame ≠ f) ∧ f ∉ d.ticked
    let on := corePowered s = true ∧ s.tmb.state ≠ .off
    (¬on → exec .nonReferenceWedgeTick s = .next (settle s))
    ∧ (on → first → open_ → exec .nonReferenceWedgeTick s = .next (settle (setDsp a
        { d with ofs := ofs, ofsSet := true, ticks := d.ticks ++ [{ frame := f, tau := s.cc - 2, at_ := s.cc }] } s)))
    ∧ (on → first → ¬open_ → exec .nonReferenceWedgeTick s = .next (settle (setDsp a
        { d with ofs := ofs, ofsSet := true } s)))
    ∧ (on → ¬first → ∃ v, exec .nonReferenceWedgeTick s = .next (settle v) ∧ (dspOf a v).valid = false
        ∧ (dspOf a v).goodRun = 0)

/-- Missing ticks, HOLD and ACQUIRE ends, FRAME writes, the other actuator's ticks. -/
def Obligations.LossOfLock : Prop :=
  Claims.MissingTicksLoseLock ∧ Claims.HoldAndAcquireEnd ∧ Claims.FrameWriteAndOtherTick

/-- 06 R141, R143: PLAN_OVERRUN at PLAN_WINDOW while plans of the frame are unpublished: event 4, counter 10 and the
error with their number; those channels run on the plan before; missed in two frames running, the frame watchdog is
armed. Otherwise nothing changes. -/
def Claims.PlannerOverrun : Prop :=
  ∀ s : State,
    (overrunDue s = false → exec .planOverrun s = .next (settle s))
    ∧ (overrunDue s = true →
      let n := s.sch.toPlan.length
      ∃ v, exec .planOverrun s = .next (settle v)
        ∧ v.tmb = { s.tmb with unpub := n, planJudged := true, planPrev := s.tmb.planLast, planLast := true,
                                planAt := s.tmb.frame }
        ∧ v.sch.toPlan = []
        ∧ (∀ c, planOf c v = if c ∈ s.sch.toPlan then (planOf c s).map fun p => { p with carried := true }
            else planOf c s)
        ∧ hdrOf .tmb v = hdrOf .tmb (raiseErr .tmb 0x0101 n (bump .tmb 10 (raiseEvt .tmb 4 s)))
        ∧ v.rst = { s.rst with wdogFired :=
            if s.tmb.planLast = true ∧ s.tmb.planAt + 1 = s.tmb.frame then some 0xC0000000 else s.rst.wdogFired }
        ∧ { v with tmb := s.tmb, sch := s.sch, hdr := s.hdr, rst := s.rst } = s)

/-- 06 R142, R143: CHECKPOINT_MISS of a Burin that had not reached its checkpoint when the frame ended: event 5, counter
11, its bit in CKPT_MISS, for the first of the frame an error with the lowest such Burin; missed twice in a row, the
frame watchdog is armed. Of any other Burin nothing changes. -/
def Claims.BurinMissesCheckpoint : Prop :=
  ∀ (b : BurId) (s : State),
    let n := b.toNat
    (s.tmb.ckptOwed.getLsbD n = false → exec (.checkpointMiss b) s = .next (settle s))
    ∧ (s.tmb.ckptOwed.getLsbD n = true → ∃ v, exec (.checkpointMiss b) s = .next (settle v)
      ∧ v.tmb.ckptMiss.getLsbD n = true ∧ v.tmb.ckptOwed.getLsbD n = false
      ∧ (∀ k, k ≠ n → v.tmb.ckptMiss.getLsbD k = s.tmb.ckptMiss.getLsbD k
          ∧ v.tmb.ckptOwed.getLsbD k = s.tmb.ckptOwed.getLsbD k)
      ∧ { v.tmb with ckptMiss := s.tmb.ckptMiss, ckptOwed := s.tmb.ckptOwed } = s.tmb
      ∧ (s.tmb.ckptMiss ≠ 0 → hdrOf .tmb v = hdrOf .tmb (bump .tmb 11 (raiseEvt .tmb 5 s)))
      ∧ (s.tmb.ckptMiss = 0 → ∃ k, k ≤ n ∧ s.tmb.ckptOwed.getLsbD k = true
          ∧ (∀ j, j < k → s.tmb.ckptOwed.getLsbD j = false)
          ∧ hdrOf .tmb v = hdrOf .tmb (raiseErr .tmb 0x0102 k (bump .tmb 11 (raiseEvt .tmb 5 s))))
      ∧ (v.rst.wdogFired = none ↔ s.rst.wdogFired = none ∧ s.tmb.ckptPrev.getLsbD n = false)
      ∧ { v with tmb := s.tmb, hdr := s.hdr, rst := s.rst } = s)

/-- 07 R150, 09 R213, 01 R11: PLAN_PUBLISH of a channel that is to be planned, from offset 16 on and by PLAN_WINDOW:
the plan of the running frame is in force, its transfers are placed and candidates no more, SCH counters 0 and 1 count
it and its entries. PLAN_ADOPT of a published plan's channel whose thread has met a safe point since puts the plan in
use and notes that. Otherwise nothing changes. -/
def Claims.PlanPublishedAndAdopted : Prop :=
  ∀ (c : ChnId) (s : State),
    let n := c.toNat
    let due := n ∈ s.sch.toPlan ∧ pageActive .sch s = true ∧ 16 ≤ s.tmb.phase ∧ s.tmb.phase ≤ planWindow s
    let es := buildPlan n (returnPlan n s)
    let safe := n ∈ s.sch.planned ∧ n ∉ s.sch.toPlan ∧ safeSince (chanThread n s) (publishedAt n s) = true
    (¬due → exec (.planPublish c) s = .next (settle s))
    ∧ (due → ∃ v, exec (.planPublish c) s = .next (settle v)
        ∧ planOf n v = some { frame := s.tmb.frame, since := s.cc,
                              entries := es.map fun e => { e with x := { e.x with placed := true } } }
        ∧ (∀ x ∈ candsOf n v, ∀ e ∈ es, e.x ≠ x) ∧ n ∉ v.sch.toPlan
        ∧ (∀ k, k ≠ n → planOf k v = planOf k s ∧ candsOf k v = candsOf k s)
        ∧ hdrOf .sch v = hdrOf .sch (bumpBy .sch 1 es.length (bump .sch 0 s))
        ∧ v.sch.dies = s.sch.dies ∧ { v with sch := s.sch, hdr := s.hdr } = s)
    ∧ (¬safe → exec (.planAdopt c) s = .next (settle s))
    ∧ (safe → ∃ v, exec (.planAdopt c) s = .next (settle v)
        ∧ v.tmb = { s.tmb with adopted := s.tmb.adopted ||| BitVec.ofNat 128 (2 ^ n) }
        ∧ planOf n v = (planOf n s).map (fun p => { p with adopted := true })
        ∧ (∀ k, k ≠ n → planOf k v = planOf k s) ∧ v.sch.cands = s.sch.cands ∧ v.sch.dies = s.sch.dies
        ∧ { v with tmb := s.tmb, sch := s.sch } = s)

/-- 07 R150, R152, R153: a plan has at most 16 entries, by start, none of a guest and none that an earlier plan placed;
each starts at PLAN_WINDOW or later, PLAN_GAP after the transfer that runs or later, not before its data is ready, and
ends inside the frame, one outside pass STREAM before the reserved tail; between any two lie PLAN_GAP cc and none
overlap. -/
def Obligations.PlanKeepsGaps : Prop :=
  ∀ (c : Nat) (s : State),
    let es := buildPlan c s
    es.length ≤ 16
    ∧ es.Pairwise (fun a b => a.start ≤ b.start
        ∧ (a.start + a.x.len + planGap s ≤ b.start ∨ b.start + b.x.len + planGap s ≤ a.start))
    ∧ ∀ e ∈ es, planWindow s ≤ e.start ∧ e.start + e.x.len ≤ s.tmb.periodEst ∧ e.x.ready ≤ frameStart s + e.start
        ∧ (planPass e.x s.tmb.frame ≠ 0 → e.start + e.x.len ≤ s.tmb.periodEst - streamRes s)
        ∧ e.x ∈ candsOf c s ∧ e.x.id < 1000000 ∧ e.past = false ∧ e.x.placed = false
        ∧ (frameStart s < (chanOf c s).busyTo → (chanOf c s).busyTo + planGap s ≤ frameStart s + e.start)

/-- 07 R165: DIE_SEL takes the die's state, suspends and queue depths into DIE_INFO and DIE_QDEPTH; PLAN_SEL takes the
plan in force on the channel into PLAN_INFO and PLAN_ENT, zero where there is none. No other register changes. -/
def Claims.SchedulerSnapshots : Prop :=
  ∀ s : State, pageAnswers .sch s = true →
    let u := dropLatches .sch s
    (∀ d : DieId, let x := dieOf d.toNat s
      ∃ v, exec (.dieSel d) s = .next (settle (csrOk 0 v)) ∧ regOf .sch oSchDieSel v = d.toNat
        ∧ regFld .sch oSchDieInfo 28 3 v = dieCode x.state ∧ regFld .sch oSchDieInfo 0 24 v = x.suspCount % 2 ^ 24
        ∧ regFld .sch oSchDieInfo 27 1 v = (if 4 ≤ dieCode x.state ∧ x.suspErase = true then 1 else 0)
        ∧ (∀ p, p < 4 → regFld .sch oSchDieQdepth (8 * p) 8 v =
            min 255 (x.queue.filter fun i => bitAt i.planes p).length)
        ∧ { v with regs := s.regs } = u)
    ∧ ∀ c : ChnId, ∃ v, exec (.planSel c) s = .next (settle (csrOk 0 v)) ∧ regOf .sch oSchPlanSel v = c.toNat
        ∧ (planOf c.toNat s = none → regOf .sch oSchPlanInfo v = 0
            ∧ ∀ k, k < 16 → regOf .sch (oSchPlanEnt + 8 * k) v = 0)
        ∧ (∀ p, planOf c.toNat s = some p → p.entries.length ≤ 16 →
            regFld .sch oSchPlanInfo 31 1 v = 1 ∧ regFld .sch oSchPlanInfo 30 1 v = (if p.carried then 1 else 0)
            ∧ regFld .sch oSchPlanInfo 16 5 v = p.entries.length
            ∧ regFld .sch oSchPlanInfo 0 16 v = p.frame.toNat % 2 ^ 16
            ∧ ∀ k e, p.entries[k]? = some e → e.x.kind < 4 → e.x.die < 32 → e.x.plane < 4 → e.x.len < 2 ^ 16 →
                let r := oSchPlanEnt + 8 * k
                regFld .sch r 63 1 v = 1 ∧ regFld .sch r 58 2 v = e.x.kind ∧ regFld .sch r 53 5 v = e.x.die
                ∧ regFld .sch r 49 4 v = 2 ^ e.x.plane ∧ regFld .sch r 32 16 v = e.x.len
                ∧ (e.x.id < 65536 → regFld .sch r 16 16 v = e.x.id) ∧ regFld .sch r 0 16 v = e.start % 2 ^ 16)
        ∧ { v with regs := s.regs, free := s.free } = u

/-- Plans are published and adopted; overruns and missed checkpoints; snapshots. -/
def Obligations.FramePlans : Prop :=
  Claims.PlannerOverrun
  ∧ Claims.BurinMissesCheckpoint
  ∧ Claims.PlanPublishedAndAdopted
  ∧ Claims.SchedulerSnapshots

/-! ### SCH and the buses (07, 08) -/

/-- 13 R307: PWR grants the start of an array read, program or erase in a group (not one of the last-words record) only
while the five conditions hold: the group's load with the start's cost and the headroom within its budget, or no load in
it; the total load with the cost within GLOBAL_BUDGET; fewer than STAGGER starts in the group in the last 64 cc; the
group ON without throttle; no power-fail sequence. -/
def Claims.StartGateConditions : Prop :=
  ∀ (d : Nat) (it : QItem) (s : State), gatedKind it.kind = true → gateFreeJob it.id s = false →
    pageActive .pwr s = true → granted d it s = true →
    let g := dieGroup d
    let c := opCost d it.kind it.slc s
    (loadOf g s + c + headroom g s ≤ groupBudget g s ∨ loadOf g s = 0)
    ∧ loadTotal s + c ≤ regTickFld .pwr oPwrGlobalBudget 0 16 s
    ∧ recentStarts g s < regFld .pwr oPwrStagger 0 4 s
    ∧ (groupOf g s).rail = .on ∧ (groupOf g s).throttle = false ∧ s.pwr.step = .none

/-- 07 R147, R148, R149, 13 R307, R308: START_GRANT. With nothing that may start on the die nothing changes, but that a
start held there is held no more once the gate would grant it. Granted, an operation other than a program that merges
with none leaves its queue and stands on the die, which is BUSY for a read (SUSPENDED stays); a program's data-in begins
at its first page, each of its pages a candidate of the channel; SCH counter 8 counts. Not granted, the start is held
from now on, and PWR counter 1 counts it. -/
def Claims.StartGrantedOrHeld : Prop :=
  ∀ (d : DieId) (s : State),
    let n := d.toNat
    let x := dieOf n s
    let freed := fun (it : QItem) => x.heldItem = some it ∧ x.startWait.isSome = true ∧ granted n it s = true
    (startChoice n s = none → (∀ it, ¬freed it) → exec (.startGrant d) s = .next (settle s))
    ∧ (startChoice n s = none → ∀ it, freed it → exec (.startGrant d) s = .next (settle
        (recheck n (setDie n { x with startWait := none, heldItem := none } s))))
    ∧ ∀ it, startChoice n s = some it →
      let o : DieOp := { kind := it.kind, ids := [it.id], planes := it.planes, block := it.block, page := it.page,
                         slc := it.slc, rung := it.rung, attempt := it.attempt, key := it.key, inArray := false,
                         since := s.cc, ran := 0, pollAt := 0, dropped := false }
      (granted n it s = true → mergeSet n it s = [] → it.kind ≠ .program → it.kind ≠ .jobProgram →
        ∃ v b, exec (.startGrant d) s = .next (settle v) ∧ (dieOf n v).run = some { o with needLevels := b }
          ∧ (dieOf n v).startWait = none
          ∧ (dieOf n v).queue = x.queue.filter (fun q => decide (q ≠ it))
          ∧ (readKind it.kind = true → x.state = .idle → (dieOf n v).state = .busy)
          ∧ (readKind it.kind = true → x.state = .suspended → (dieOf n v).state = .suspended)
          ∧ hdrOf .sch v = hdrOf .sch (bump .sch 8 (bumpBy .sch 6 0 s)) ∧ v.map = s.map ∧ v.rif = s.rif)
      ∧ (granted n it s = true → mergeSet n it s = [] → it.kind = .program → x.state = .idle → x.run = none →
        ∃ v ys, exec (.startGrant d) s = .next (settle v) ∧ (dieOf n v).dataIn = some (o, 0)
          ∧ (dieOf n v).abandoned = none ∧ (dieOf n v).run = none
          ∧ (dieOf n v).queue = x.queue.filter (fun q => decide (q ≠ it))
          ∧ candsOf (n / 32) v = candsOf (n / 32) s ++ ys ∧ ys.length = inPages n o s
          ∧ (∀ y ∈ ys, y.id = it.id ∧ y.die = n % 32 ∧ y.kind = 1)
          ∧ hdrOf .sch v = hdrOf .sch (bump .sch 8 (bumpBy .sch 6 0 s)) ∧ v.map = s.map ∧ v.rif = s.rif)
      ∧ (granted n it s = false → x.startWait = none → ∃ v, exec (.startGrant d) s = .next (settle v)
          ∧ (dieOf n v).startWait = some s.cc ∧ (dieOf n v).queue = x.queue ∧ (dieOf n v).run = x.run
          ∧ cntOf .pwr 1 v = cntOf .pwr 1 (bump .pwr 1 s) ∧ (∀ k, k ≠ n → dieOf k v = dieOf k s)
          ∧ { v with sch := s.sch, hdr := s.hdr } = s)
      ∧ (granted n it s = false → x.startWait ≠ none →
          exec (.startGrant d) s = .next (settle (setDie n { x with heldItem := some it } s)))

/-- 07 R155, R158, 13 R305: RESUME of a suspended operation that is wanted back, while the channel's bus takes the
command and no other suspend or resume command before it: the resume command is on the bus, with the operation's cost
in the load while PWR is enabled. Otherwise nothing changes. 07 R149, 13 R307: DATA_IN_RESTART of an abandoned data-in
that may begin again: when the gate grants its start, it begins at its first page, else the start is held. -/
def Claims.ResumeAndRestart : Prop :=
  ∀ (d : DieId) (s : State),
    let n := d.toNat
    let c := n / 32
    let go := resumeWanted n s = true ∧ suspendFirst c s = some n
    (¬go → exec (.resume d) s = .next (settle s))
    ∧ (go → ∃ v, exec (.resume d) s = .next (settle v) ∧ (chanOf c v).act = some (.resumeCmd n, s.cc)
        ∧ (∀ k, k ≠ c → chanOf k v = chanOf k s)
        ∧ (pageActive .pwr s = true → ∀ h, (dieOf n s).held = some h →
            ∃ l, (groupOf (dieGroup n) v).load = l ++
              [{ die := n, kind := .array, cost := opCost n h.kind h.slc s, from_ := s.cc }])
        ∧ { v with chn := s.chn, pwr := s.pwr, hdr := s.hdr, eng := s.eng } = s)
    ∧ (∀ e, suspendFirst c s = some e → busFree c s = true ∧ burinServes c s = true)
    ∧ ((inAgain n s = false ∨ (dieOf n s).abandoned = none) → exec (.dataInRestart d) s = .next (settle s))
    ∧ (∀ o id r, (dieOf n s).abandoned = some o → o.ids = id :: r → inAgain n s = true →
        (granted n (restartItem o s) s = true → ∃ v ys, exec (.dataInRestart d) s = .next (settle v)
          ∧ (dieOf n v).dataIn = some (o, 0) ∧ (dieOf n v).abandoned = none ∧ (dieOf n v).run = (dieOf n s).run
          ∧ (dieOf n v).startWait = none
          ∧ candsOf c v = candsOf c s ++ ys ∧ ys.length = inPages n o s ∧ (∀ y ∈ ys, y.id = id ∧ y.kind = 1)
          ∧ { v with sch := s.sch, pwr := s.pwr, hdr := s.hdr } = s)
        ∧ (granted n (restartItem o s) s = false → ∃ v, exec (.dataInRestart d) s = .next (settle v)
          ∧ (dieOf n v).startWait.isSome = true ∧ (dieOf n v).abandoned = some o
          ∧ { v with sch := s.sch, hdr := s.hdr } = s))

/-- The start gate, and starts, resumes and restarts of a die. -/
def Obligations.StartGate : Prop :=
  Claims.StartGateConditions ∧ Claims.StartGrantedOrHeld ∧ Claims.ResumeAndRestart

/-- 07 R151, R154: PLANNED_TRANSFER_START at the offset of an entry of the plan followed: a data-in whose die stands
ready, with the bus free, is on the bus, its entry past (where no bit of staging is flipped); a transfer that cannot
start gives up its time and is a candidate again, SCH counter 2. With no entry due nothing changes. -/
def Claims.PlannedTransferStarts : Prop :=
  ∀ (c : ChnId) (s : State),
    let n := c.toNat
    (entryDue n s = none → exec (.plannedTransferStart c) s = .next (settle s))
    ∧ ∀ e, entryDue n s = some e →
      let p := (planOf n s).map fun p => ({ p with entries := p.entries.map fun y =>
        if y = e then { y with past := true } else y } : Plan)
      let able := busFree n s = true ∧ busServes n s = true ∧ xferReady n e.x s = true
      (¬able → ∃ v, exec (.plannedTransferStart c) s = .next (settle v)
        ∧ planOf n v = p ∧ candsOf n v = candsOf n s ++ [e.x] ∧ hdrOf .sch v = hdrOf .sch (bump .sch 2 s)
        ∧ v.sch.dies = s.sch.dies ∧ { v with sch := s.sch, hdr := s.hdr } = s)
      ∧ (able → e.x.kind = 1 → (∀ u ∈ s.mem.upsets, u.cls ≠ 0) →
        ∃ v, exec (.plannedTransferStart c) s = .next (settle v)
        ∧ planOf n v = p ∧ candsOf n v = candsOf n s ∧ (chanOf n v).act = some (.transfer e.x, s.cc)
        ∧ (chanOf n v).busyTo = s.cc + e.x.len ∧ v.sch.dies = s.sch.dies
        ∧ { v with sch := s.sch, chn := s.chn, pwr := s.pwr, hdr := s.hdr, eng := s.eng } = s)

/-- 07 R155: LATE_FILL of an OWNED channel without candidates that may use its bus: the suspend command of its one die
in SUSP_REQ, whose request the thread has taken and whose trigger stands, comes first; then the action that starts an
array operation (a LEVEL_SET where its sense needs one, else its command cycles). With the bus not free nothing
changes. -/
def Claims.LateFillOrder : Prop :=
  ∀ (c : ChnId) (s : State),
    let n := c.toNat
    (busFree n s = false → exec (.lateFill c) s = .next (settle s))
    ∧ (busFree n s = true → (chanOf n s).own = .owned → busServes n s = true → s.pwr.resetDies = [] →
      candsOf n s = [] → burinDrives n s = true → ∀ d, chanDies_ n s = [d] → (dieOf d s).dataIn = none →
      ((dieOf d s).state = .suspReq → (dieOf d s).suspTaken = true → trigger d s = true → suspAllowed d s = true →
        busTakes n (.suspendCmd d) s = true →
        ∃ v, exec (.lateFill c) s = .next (settle v) ∧ (chanOf n v).act = some (.suspendCmd d, s.cc)
          ∧ { v with chn := s.chn, hdr := s.hdr, pwr := s.pwr, eng := s.eng } = s)
      ∧ (∀ o, (dieOf d s).state ≠ .suspReq → resumeWanted d s = false → (dieOf d s).run = some o →
        o.inArray = false → featureKind o.kind = false → mayStart n s = true → drives n o.ids s = true →
        busTakes n (startAct d o s) s = true →
        ∃ v, exec (.lateFill c) s = .next (settle v) ∧ (chanOf n v).act = some (startAct d o s, s.cc)
          ∧ (startAct d o s = .arrayStart d ∨ startAct d o s = .levelSet d)
          ∧ (dieOf d v).run = some { o with needLevels := false } ∧ candsOf n v = candsOf n s
          ∧ { v with chn := s.chn, hdr := s.hdr, pwr := s.pwr, eng := s.eng, sch := s.sch, ops := s.ops,
                     lvl := s.lvl, mem := s.mem, rst := s.rst } = s))

/-- 07 R160, Table 7.2: SUSPEND_LATE, 2 × tSUS maximum after the suspend command of a die still SUSPENDING: event 3
and the error, once. 08 R171, 07 R155: STATUS_POLL that is due while the bus takes nothing of a higher place is on the
bus, CHN counter 2, the next due a POLL_INT later. Otherwise neither changes anything. -/
def Claims.SuspendLateAndStatusPoll : Prop :=
  ∀ (d : DieId) (s : State),
    let n := d.toNat
    let x := dieOf n s
    let late := x.state = .suspending ∧ x.suspLate = false ∧ x.suspSince + 2 * pfSusMax (dieProf n s) s ≤ s.cc
    (¬late → exec (.suspendLate d) s = .next (settle s))
    ∧ (late → exec (.suspendLate d) s = .next (settle (raiseErr .sch 0x0100 n (raiseEvt .sch 3
        (setDie n { x with suspLate := true } s)))))
    ∧ ((pollIsDue n s = false ∨ (shortFirst (n / 32) s).isSome = true) → exec (.statusPoll d) s = .next (settle s))
    ∧ (pollIsDue n s = true → shortFirst (n / 32) s = none → ∃ v, exec (.statusPoll d) s = .next (settle v)
        ∧ (chanOf (n / 32) v).act = some (.statusPoll n, s.cc)
        ∧ cntOf (chnPage (n / 32)) 2 v = cntOf (chnPage (n / 32)) 2 (bump (chnPage (n / 32)) 2 s)
        ∧ (dieOf n v).run = x.run.map (fun o => { o with pollAt := s.cc + pfPollInt (dieProf n s) s })
        ∧ (∀ k, k ≠ n / 32 → chanOf k v = chanOf k s)
        ∧ { v with chn := s.chn, hdr := s.hdr, eng := s.eng, sch := s.sch } = s)

/-- 08 R173: DIE_TIMEOUT of an operation twice its maximum in the array: a reset of the LUN is wanted, its tag commits
DIE_QUARANTINED. 11 R274: LADDER_RETEST of the held tag whose turn it is, one due, at most one in a cc: a rung that
fits ends the hold and is sensed, LVL counter 9; else the next retest is RETEST cc later, or as many as tags are held
where that is more. Before their time nothing changes. -/
def Claims.TimeoutAndRetest : Prop :=
  (∀ (d : DieId) (s : State), timedOut d.toNat s = false → exec (.dieTimeout d) s = .next (settle s))
  ∧ (∀ (d : DieId) (s : State) (o : DieOp) (t : Nat), timedOut d.toNat s = true → (dieOf d.toNat s).run = some o →
    o.ids = [t] → o.kind = .program ∨ o.kind = .erase ∨ o.kind = .sense → t < 65536 →
    (tagOf t s).state ≠ .free → (tagOf t s).state ≠ .committed →
    ∃ v, exec (.dieTimeout d) s = .next (settle v) ∧ (tagOf t v).state = .committed ∧ (tagOf t v).status = 0x30
      ∧ (dieOf d.toNat v).resetWanted = true)
  ∧ ∀ (t : TagId) (s : State),
    let n := t.toNat
    let x := tagOf n s
    let u : State := { s with lvl := { s.lvl with retestAt := some s.cc } }
    let r := ladderNext x.entry x.key x.rung x.todo.length (allStriped n u) u
    let held := (s.ops.tags.filter fun e => e.2.ladderHeld.isSome).length
    (retestNext s ≠ some n → exec (.ladderRetest t) s = .next (settle s))
    ∧ (retestNext s = some n → s.lvl.retestAt ≠ some s.cc
        ∧ ∃ y due, (n, y) ∈ s.ops.tags ∧ y.ladderHeld = some due ∧ due ≤ s.cc)
    ∧ (retestNext s = some n → (∀ q, r.1 ≠ .run q) →
        exec (.ladderRetest t) s = .next (settle (setTag n
          { x with ladderHeld := some (s.cc + max (regFld .lvl oLvlLadderCfg 16 16 s) held) }
          (if r.2 = 0 then u else raiseEvt .lvl 5 (bumpBy .lvl 7 r.2 u)))))
    ∧ (∀ q, retestNext s = some n → r.1 = .run q → q ≠ 5 →
        ∃ v, exec (.ladderRetest t) s = .next (settle v) ∧ (tagOf n v).ladderHeld = none ∧ (tagOf n v).rung = q
          ∧ (dieOf (paDie (ePaddr x.entry)) v).queue.length = (dieOf (paDie (ePaddr x.entry)) s).queue.length + 1
          ∧ cntOf .lvl 9 v = cntOf .lvl 9 (bump .lvl 9 s))

/-- 09 R199, 05 R120, 08 R171, R172: BUS_ACTION_END. While actions wait in the command FIFO, the oldest goes to the
pads, and one that was there has left it. The last ends what the bus did: a suspend command leaves the die SUSPENDING;
the cycles of a read, or of an erase that is still wanted, leave its array working, to be polled after its typical
time and no sooner than tWB, an erase's tag confirmed; an erase not wanted leaves the die; a status not ready leaves
the operation; a ready erase commits its tag OK, or ERASE_FAIL with the fail bit. With nothing on the bus only the
pads rest. -/
def Claims.BusActionEnds : Prop :=
  ∀ (c : ChnId) (data : List Byte) (s : State),
    let n := c.toNat
    let q := (thrOf (chanBur n) (chanThr n) s).cmdq
    let left := if (chanOf n s).onFifo then q.tail else q
    (q = [] → (chanOf n s).act = none → ∃ v, exec (.busActionEnd c data) s = .next (settle v)
        ∧ chanOf n v = { chanOf n s with onFifo := false, dp := none }
        ∧ (∀ k, k ≠ n → chanOf k v = chanOf k s) ∧ { v with chn := s.chn } = s)
    ∧ (∀ a r, left = a :: r → ∃ v, exec (.busActionEnd c data) s = .next (settle v)
        ∧ (thrOf (chanBur n) (chanThr n) v).cmdq = left ∧ (chanOf n v).act = (chanOf n s).act
        ∧ (chanOf n v).onFifo = true ∧ (chanOf n v).cycles = a.cycles
        ∧ (∀ k, k ≠ n → chanOf k v = chanOf k s) ∧ { v with eng := s.eng, chn := s.chn, hdr := s.hdr } = s)
    ∧ (left = [] → (chanOf n s).own = .owned → (chanOf n s).census = none → s.sec.boot = .notStarted →
      s.pwr.step = .none → ∀ d o t, (dieOf d s).run = some o →
      ((chanOf n s).act = some (.suspendCmd d, t) → ∃ v, exec (.busActionEnd c data) s = .next (settle v)
        ∧ (chanOf n v).act = none ∧ (dieOf d v).state = .suspending ∧ (dieOf d v).suspSince = s.cc
        ∧ (∀ k, k ≠ d → dieOf k v = dieOf k s) ∧ cntOf .sch 4 v = cntOf .sch 4 (bump .sch 4 s))
      ∧ ((chanOf n s).act = some (.arrayStart d, t) → o.kind = .erase → opWanted o s = false →
        ∃ v, exec (.busActionEnd c data) s = .next (settle v) ∧ (chanOf n v).act = none ∧ (dieOf d v).run = none)
      ∧ ((chanOf n s).act = some (.arrayStart d, t) → (o.kind = .sense ∨ (o.kind = .erase ∧ opWanted o s = true)) →
        ∃ v, exec (.busActionEnd c data) s = .next (settle v) ∧ (chanOf n v).act = none
        ∧ (dieOf d v).run = some
            { o with inArray := true, since := s.cc, pollAt := s.cc + max (typOf o.kind d s) (wbCc (d / 32) s) }
        ∧ (o.kind = .erase → ∀ i ∈ o.ids, (tagOf i v).confirmed = true))
      ∧ (∀ st : Byte, (chanOf n s).act = some (.statusPoll d, t) → data = [st] →
        (st.getLsbD (pfRdyBit (dieProf d s) s) = false → ∃ v, exec (.busActionEnd c data) s = .next (settle v)
          ∧ (chanOf n v).act = none ∧ (dieOf d v).run = some o)
        ∧ (∀ i, st.getLsbD (pfRdyBit (dieProf d s) s) = true → (dieOf d s).state = .erase → o.kind = .erase →
          o.dropped = false → o.ids = [i] → i < 65536 → (tagOf i s).state ≠ .free → (tagOf i s).state ≠ .committed →
          ∃ v, exec (.busActionEnd c data) s = .next (settle v) ∧ (chanOf n v).act = none ∧ (dieOf d v).run = none
            ∧ (tagOf i v).state = .committed
            ∧ (tagOf i v).status = (if st.getLsbD (pfFailBit (dieProf d s) s) then 0x24 else 0))))

/-- Transfers, late fill, bus action ends, and the watch on dies. -/
def Obligations.BusesAndDies : Prop :=
  Claims.PlannedTransferStarts
  ∧ Claims.LateFillOrder
  ∧ Claims.BusActionEnds
  ∧ Claims.SuspendLateAndStatusPoll
  ∧ Claims.TimeoutAndRetest

/-! ### The engines (09) -/

/-- The state once the thread has read the word at its PC in its turn: a bit flipped in the word is found as in every
functional read of class 3 (17 R393). -/
def wordRead (e : Nat) (k : Bool) (s : State) : State :=
  readWord 3 (e * 8192 + (thrOf e k s).pc.toNat) (takeTurn e k s)

/-- Thread k of engine e may execute the word at its PC now, as command seq: it has the turn, the word's SEQ is seq, the
word has no fault (09 R202) and is not blocked (09 Table 9.1). -/
def wordRuns (seq e : Nat) (k : Bool) (s : State) : Prop :=
  hasTurn e k s = true ∧ mSeq (wordAt e k s) = seq ∧ wordFault (wordAt e k s) (thrOf e k s) = 0
  ∧ wordBlocked e k (wordAt e k s) (wordRead e k s) = false

/-- The state once the word's fields but SEQ and SAFE have acted (09 R198). -/
def wordActs (e : Nat) (k : Bool) (s : State) : State :=
  modThr e k (fun t => { t with state := .run }) (doFields e k (wordAt e k s) (wordRead e k s))

/-- What a word that is no safe point leaves: its thread stands as given, its distance to the last safe point one
longer; one word is counted; nothing else changes. -/
def wentOn (e : Nat) (k : Bool) (t : Thread) (u v : State) : Prop :=
  thrOf e k v = { t with safeDist := min 257 (t.safeDist + 1), first := false }
  ∧ thrOf e (!k) v = thrOf e (!k) u ∧ (∀ i, i ≠ e → engOf i v = engOf i u)
  ∧ cntOf (enginePage e) (if k then 1 else 0) v
      = cntOf (enginePage e) (if k then 1 else 0) (bump (enginePage e) (if k then 1 else 0) u)
  ∧ { v with eng := u.eng, hdr := u.hdr } = u

/-- 09 R198, Table 9.3: a word that executes and is no safe point: its fields act; then CONT goes on at PC + 1, JUMP at
ADDR, CALL at ADDR with PC + 1 pushed, RETURN (outside a handler's end) at the address popped; BRT goes to ADDR where
COND was true before the fields acted and to PC + 1 otherwise, BRF the other way round. -/
def Claims.WordsGoOn : Prop :=
  ∀ (e : Engine) (k : Bool) (s : State),
    let n := e.num
    let w := wordAt n k s
    let u := wordActs n k s
    let t := thrOf n k u
    let goes := fun (o : Out) (x : Thread) => ∃ v, o = .next (settle v) ∧ wentOn n k x u v
    let c := condTrue n k (mCond w) (wordRead n k s)
    mSafe w = false →
    (wordRuns 0 n k s → goes (exec (.contWord e k) s) { t with pc := t.pc + 1 })
    ∧ (wordRuns 1 n k s → goes (exec (.jumpWord e k) s) { t with pc := BitVec.ofNat 12 (mAddr w) })
    ∧ (wordRuns 3 n k s → goes (exec (.callWord e k) s)
        { t with pc := BitVec.ofNat 12 (mAddr w), stack := (t.pc + 1) :: t.stack })
    ∧ (wordRuns 4 n k s → endsHandler t = false → ∀ a r, t.stack = a :: r →
        goes (exec (.returnWord e k) s) { t with pc := a, stack := r })
    ∧ (wordRuns 5 n k s → goes (exec (.brtWord e k) s)
        { t with pc := if c then BitVec.ofNat 12 (mAddr w) else t.pc + 1 })
    ∧ (wordRuns 6 n k s → goes (exec (.brfWord e k) s)
        { t with pc := if c then t.pc + 1 else BitVec.ofNat 12 (mAddr w) })

/-- 09 R198, R205, R206: HALT halts its thread, event 2. DISPATCH: a thread whose engine stops is HELD; otherwise a
pending request is taken first, by a thread that no GUEST or SUSPEND handler occupies and whose stack has room; with
none, it takes the job presented to it, goes to the dispatch entry of its kind and profile and counts it on counter 2,
or waits at the word IDLE, where it takes a job that comes later, unless the engines' clock is gated. A Graver thread
takes of its queue, in which a job presented to it is the oldest, the one next in order, and asks the channel's thread
for the bus. -/
def Claims.HaltAndDispatch : Prop :=
  ∀ (e : Engine) (k : Bool) (s : State),
    let n := e.num
    let u := wordActs n k s
    let t := thrOf n k u
    let free := t.handler = none ∨ t.handler = some 14
    let took := fun (j : Job) (u v : State) => (thrOf n k v).state = .run ∧ (thrOf n k v).job = some j
      ∧ (thrOf n k v).offered = none ∧ (thrOf n k v).report = 0
      ∧ (thrOf n k v).pc = dispEntry (decide (n = 64)) (j.kind * 16 + j.profile) s
      ∧ cntOf (enginePage n) 2 v = cntOf (enginePage n) 2 (bump (enginePage n) 2 u)
      ∧ { v with eng := u.eng, hdr := u.hdr } = u
    let gravTakes := fun (u : State) =>
      let l := (match (thrOf n k u).offered with
        | some j => [{ id := j.id.getD 0, job := j : GravJob }]
        | none => []) ++ u.eng.grvQueue
      (gravNext l u = none → ∃ v, exec (.dispatchWord e k) s = .next (settle v)
        ∧ (thrOf n k v).state = .idle ∧ v.eng.grvQueue = u.eng.grvQueue)
      ∧ (∀ q, gravNext l u = some q → q.job.channel < 128 → ∃ v, exec (.dispatchWord e k) s = .next (settle v)
        ∧ took q.job u v ∧ v.eng.grvQueue = l.erase q
        ∧ (thrOf (chanBur q.job.channel) (chanThr q.job.channel) v).preemptPend
            = (thrOf (chanBur q.job.channel) (chanThr q.job.channel) u).preemptPend ++ [q.job])
    (wordRuns 7 n k s → ∃ v, exec (.haltWord e k) s = .next (settle v) ∧ (thrOf n k v).state = .halted
        ∧ (thrOf n k v).pc = t.pc ∧ thrOf n (!k) v = thrOf n (!k) u ∧ (∀ i, i ≠ n → engOf i v = engOf i u)
        ∧ (hdrOf (enginePage n) v).evtPend.getLsbD 2 = true
        ∧ { v with eng := u.eng, hdr := u.hdr, note := u.note } = u)
    ∧ (wordRuns 2 n k s → t.stopping = true →
        ∃ v, exec (.dispatchWord e k) s = .next (settle v) ∧ (thrOf n k v).state = .held)
    ∧ (wordRuns 2 n k s → n ≠ 64 → t.stopping = false → free → (t.abortPend = true ∨ t.stack.length < 8) →
        reqAny n k u = true →
        ∃ v, exec (.dispatchWord e k) s = .next (settle v) ∧ (thrOf n k v).offered = t.offered
          ∧ (thrOf n k v).handler = some (if t.abortPend then 14 else if t.preemptPend = [] then 5 else 15))
    ∧ (wordRuns 2 n k s → n ≠ 64 → t.stopping = false →
      (¬free ∨ reqAny n k u = false ∨ (t.abortPend = false ∧ 8 ≤ t.stack.length)) →
      (t.offered = none → ∃ v, exec (.dispatchWord e k) s = .next (settle v)
        ∧ (thrOf n k v).state = .idle ∧ (thrOf n k v).safeDist = 0 ∧ { v with eng := u.eng, hdr := u.hdr } = u)
      ∧ (∀ j, t.offered = some j → ∃ v, exec (.dispatchWord e k) s = .next (settle v) ∧ took j u v))
    ∧ (wordRuns 2 n k s → n = 64 → t.stopping = false → t.job = none → reqAny n k u = false → gravTakes u)
    ∧ ((thrOf n k s).state = .idle → reqAny n k s = false → (thrOf n k s).offered = none →
        exec (.dispatchWord e k) s = .next (settle s))
    ∧ ((thrOf n k s).state = .idle → pageAnswers (enginePage n) s = true → s.pwr.state ≠ .doze →
        (thrOf n k s).stopping = false → reqAny n k s = false → ∀ j, (thrOf n k s).offered = some j →
        (n ≠ 64 → ∃ v, exec (.dispatchWord e k) s = .next (settle v) ∧ took j s v)
        ∧ (n = 64 → (thrOf n k s).job = none → gravTakes s))

/-- 09 R196, R202, Table 9.1: a word does nothing while its thread has no turn, or its SEQ is another (log entry 22).
A word with a fault leaves its thread FAULTED at it, the first fault in FAULT, event 0 and the error; a blocked word
leaves its thread in STALL, counter 6, and acts later. -/
def Claims.WordsThatDoNotRun : Prop :=
  ∀ (e : Engine) (k : Bool) (s : State), ∀ x ∈ ([(0, .contWord e k), (1, .jumpWord e k), (2, .dispatchWord e k),
      (3, .callWord e k), (4, .returnWord e k), (5, .brtWord e k), (6, .brfWord e k), (7, .haltWord e k)] :
      List (Nat × Instr)),
    let n := e.num
    let w := wordAt n k s
    let cause := wordFault w (thrOf n k s)
    let u := wordRead n k s
    (thrOf n k s).state ≠ .idle →
    ((hasTurn n k s = false ∨ mSeq w ≠ x.1) → exec x.2 s = .next (settle s))
    ∧ (hasTurn n k s = true → mSeq w = x.1 → cause ≠ 0 → ∃ v, exec x.2 s = .next (settle v)
        ∧ (thrOf n k v).state = .faulted ∧ (thrOf n k v).pc = (thrOf n k s).pc
        ∧ thrOf n (!k) v = thrOf n (!k) s ∧ (∀ i, i ≠ n → engOf i v = engOf i s)
        ∧ ((engOf n s).fault.getLsbD 31 = true → (engOf n v).fault = (engOf n s).fault)
        ∧ ((engOf n s).fault.getLsbD 31 = false → (engOf n v).fault
            = BitVec.ofNat 32 (2 ^ 31 + cause * 2 ^ 28 + (if k then 2 ^ 27 else 0) + (thrOf n k s).pc.toNat))
        ∧ { v with eng := u.eng, hdr := u.hdr, note := u.note } = u)
    ∧ (hasTurn n k s = true → mSeq w = x.1 → cause = 0 → wordBlocked n k w u = true →
        exec x.2 s = .next (settle (bump (enginePage n) 6 (setThr n k { thrOf n k s with state := .stall } u))))

/-- Microwords go on, halt, dispatch, fault, stall or do not run. -/
def Obligations.MicrowordsExecute : Prop :=
  Claims.WordsGoOn ∧ Claims.HaltAndDispatch ∧ Claims.WordsThatDoNotRun

/-- 09 R197, R199, R200, R202, Tables 9.2, 9.5, 9.7: a word of even parity faults with cause 1, a reserved encoding
with 2, a CALL with eight addresses on the stack with 3, a RETURN with none with 4. A BUS action goes to the end of
the channel's command FIFO with its cycles and data-path controls, and on a free bus to the pads at once; COUNT loads
the wait timer from this cc, or with ANCHOR and actions queued from their end (with none queued from this cc, the
model's choice: log entry 141); IMM loads LOOP, counts it down to 0, sets and clears flags, moves the plane cursor to
the job's next plane and chooses the rung that fits; REPORT says how the step ended. -/
def Claims.WordFieldsAct : Prop :=
  ∀ (e : Nat) (k : Bool) (w : Nat) (t : Thread) (s : State),
    (wordOdd w = false → wordFault w t = 1)
    ∧ (wordOdd w = true → wordReserved w = true → wordFault w t = 2)
    ∧ (wordOdd w = true → wordReserved w = false → mSeq w = 3 → 8 ≤ t.stack.length → wordFault w t = 3)
    ∧ (wordOdd w = true → wordReserved w = false → mSeq w = 4 → t.stack = [] → wordFault w t = 4)
    ∧ (e < 64 → mAct w ≠ 0 → thrFifo e k (doBus e k w s) = thrFifo e k s
        ++ [{ act := mAct w, arg := mArg w, dp := mDp w, cycles := wordCycles (thrOf e k s) (mAct w) (mArg w) s }])
    ∧ (e < 64 → mAct w ≠ 0 → busFree (2 * e + bit k) s = true →
        (chanOf (2 * e + bit k) (doBus e k w s)).onFifo = true
        ∧ (chanOf (2 * e + bit k) (doBus e k w s)).cycles = wordCycles (thrOf e k s) (mAct w) (mArg w) s)
    ∧ (mAct w = 0 → doBus e k w s = s)
    ∧ (mCount w ≠ 0 → (mAnchor w = false ∨ thrFifo e k s = []) →
        (thrOf e k (doTimer e k w s)).timer = some (s.cc + mCount w))
    ∧ (mCount w ≠ 0 → mAnchor w = true → thrFifo e k s ≠ [] → (thrOf e k (doTimer e k w s)).timer = none
        ∧ (thrOf e k (doTimer e k w s)).anchored = some (mCount w, (thrFifo e k s).length))
    ∧ (mImmOp w = 1 → (thrOf e k (doImm e k w s)).loopCnt = BitVec.ofNat 12 (mImm w))
    ∧ (mImmOp w = 2 → (thrOf e k (doImm e k w s)).loopCnt
        = if (thrOf e k s).loopCnt = 0 then 0 else (thrOf e k s).loopCnt - 1)
    ∧ (∀ i, i < 16 → (mImmOp w = 3 → (thrOf e k (doImm e k w s)).flags.getLsbD i
          = (decide (i = mImm w % 16) || (thrOf e k s).flags.getLsbD i))
        ∧ (mImmOp w = 4 → (thrOf e k (doImm e k w s)).flags.getLsbD i
          = (!decide (i = mImm w % 16) && (thrOf e k s).flags.getLsbD i)))
    ∧ (mImmOp w = 6 → ∀ p, nextPlane (thrOf e k s) = some p → (thrOf e k (doImm e k w s)).planeCur = p)
    ∧ (mImmOp w = 7 → (curJob (thrOf e k s)).bind (·.tag) ≠ none →
        (thrOf e k (doImm e k w s)).rungFits = (rungChosen (thrOf e k s) s).isSome
        ∧ (thrOf e k (doImm e k w s)).rung = (rungChosen (thrOf e k s) s).getD (thrOf e k s).rung)
    ∧ (mReport w = 1 ∨ mReport w = 3 → (thrOf e k (doReport e k w s)).report = mReport w)

/-- 09 R210 to R212: at a safe point an ABORT request comes before PREEMPT, and PREEMPT before SUSPEND: ABORT empties
the stack and enters the ABANDON handler, counter 4; PREEMPT pushes PC and enters GUEST with the job that asked first,
counter 5; SUSPEND pushes PC and enters its handler, counter 3, and the die's request is taken with it. The handler
begins at its dispatch entry. While a handler runs none is taken; one that needs a return address waits while the
stack is full (log entry 20). -/
def Claims.RequestsRanked : Prop :=
  ∀ (e : Nat) (k : Bool) (s : State),
    let t := thrOf e k s
    let r := takeRequest e k s
    let entry := fun (h p : Nat) => (thrOf e k r.1).pc = dispEntry (decide (e = 64)) (h * 16 + p) s
    (t.handler ≠ none → r = (s, false))
    ∧ (t.handler = none → t.abortPend = true → r.2 = true
        ∧ (thrOf e k r.1).handler = some 14 ∧ (thrOf e k r.1).stack = [] ∧ (thrOf e k r.1).abortPend = false
        ∧ (thrOf e k r.1).preemptPend = t.preemptPend ∧ entry 14 ((t.job.map (·.profile)).getD 0)
        ∧ cntOf (enginePage e) 4 r.1 = cntOf (enginePage e) 4 (bump (enginePage e) 4 s))
    ∧ (t.handler = none → t.abortPend = false → 8 ≤ t.stack.length → r = (s, false))
    ∧ (t.handler = none → t.abortPend = false → t.stack.length < 8 → ∀ j l, t.preemptPend = j :: l → r.2 = true
      ∧ (thrOf e k r.1).handler = some 15 ∧ entry 15 j.profile
        ∧ (thrOf e k r.1).stack = t.pc :: t.stack ∧ (thrOf e k r.1).preemptPend = l
        ∧ (thrOf e k r.1).job2 = some j ∧ (thrOf e k r.1).job = t.job
        ∧ cntOf (enginePage e) 5 r.1 = cntOf (enginePage e) 5 (bump (enginePage e) 5 s))
    ∧ (t.handler = none → t.abortPend = false → t.stack.length < 8 → t.preemptPend = [] → e < 64 →
        (suspWanted (2 * e + bit k) s = none → r = (s, false))
        ∧ (∀ d, suspWanted (2 * e + bit k) s = some d → r.2 = true ∧ (thrOf e k r.1).handler = some 5
          ∧ (thrOf e k r.1).stack = t.pc :: t.stack ∧ (thrOf e k r.1).job = t.job
          ∧ (thrOf e k r.1).job2 = some (plainJob 5 d none ⟨0, 0⟩ s) ∧ entry 5 (dieProf d s)
          ∧ (dieOf d r.1).suspTaken = true
          ∧ cntOf (enginePage e) 3 r.1 = cntOf (enginePage e) 3 (bump (enginePage e) 3 s)))

/-- 09 R203, R206, R200, R204, R226: JOB_PRESENT presents the oldest job that waits to a thread that takes jobs and
has none before it; to a Graver thread at its DISPATCH word one of kinds 6 and 7 before all others, one of kind 8
while BOOT_FETCH runs and then no other. WAIT_TIMER_EXPIRY ends a count whose time has come. DISP_SEL shows the
dispatch entry and whether an image has set it. Otherwise nothing changes. -/
def Claims.JobsTimersAndDispatchTable : Prop :=
  ∀ (e : Engine) (k : Bool) (s : State),
    let n := e.num
    let t := thrOf n k s
    let takes := t.offered = none ∧ alive t = true ∧ pageAnswers (enginePage n) s = true
    (¬takes → exec (.jobPresent e k) s = .next (settle s))
    ∧ (takes → n ≠ 64 → t.waiting = [] → exec (.jobPresent e k) s = .next (settle s))
    ∧ (takes → n ≠ 64 → ∀ j r, t.waiting = j :: r → exec (.jobPresent e k) s = .next (settle
        (setThr n k { t with waiting := r, offered := some j } s)))
    ∧ (takes → n = 64 → (t.state ≠ .idle ∨ gravNext s.eng.grvQueue s = none) →
        exec (.jobPresent e k) s = .next (settle s))
    ∧ (takes → n = 64 → t.state = .idle → ∀ q, gravNext s.eng.grvQueue s = some q →
        exec (.jobPresent e k) s = .next (settle (setThr n k { t with offered := some q.job }
          { s with eng := { s.eng with grvQueue := s.eng.grvQueue.erase q } })))
    ∧ (∀ l, gravNext l s = if bootRuns s then l.find? fun q => decide (q.job.kind = 8)
        else (l.find? fun q => decide (q.job.kind = 6 ∨ q.job.kind = 7)).orElse
          fun _ => l.find? fun q => decide (q.job.kind ≠ 8))
    ∧ (∀ u, t.timer = some u → u ≤ s.cc → exec (.waitTimerExpiry e k) s = .next (settle
        (setThr n k { t with timer := none } s)))
    ∧ (∀ u, t.timer = some u → s.cc < u → exec (.waitTimerExpiry e k) s = .next (settle s))
    ∧ (t.timer = none → exec (.waitTimerExpiry e k) s = .next (settle s))
    ∧ (∀ i : Byte, pageAnswers (enginePage n) s = true →
        let g := decide (n = 64)
        ∃ v, exec (.dispSel e i) s = .next (settle (csrOk 0 v))
          ∧ regOf (enginePage n) oBurDispSel v = i.toNat
          ∧ regFld (enginePage n) oBurDispVal 0 12 v = (dispEntry g i.toNat s).toNat
          ∧ regFld (enginePage n) oBurDispVal 31 1 v = (if (dispPatched g i.toNat s).isSome then 1 else 0)
          ∧ { v with regs := s.regs } = dropLatches (enginePage n) s)

/-- What a microword's fields do; requests, jobs, timers, dispatch table. -/
def Obligations.MicrowordFields : Prop :=
  Claims.WordFieldsAct ∧ Claims.RequestsRanked ∧ Claims.JobsTimersAndDispatchTable

/-! ### Codewords and their decoders (10) -/

/-- 10 R235, R236: the encoder is right for both codes: over any information blocks, the information and parity blocks
that the encoder makes pass every check bit of the parity-check matrix, that of its last row included. -/
def Obligations.EncoderMakesValidBlocks : Prop :=
  ∀ (codeB : Bool) (info : List Block), blocksValid codeB info (parityBlocks codeB info) = true

/-- 10 R229 to R232, R235 to R237: a codeword encoded from 4,096 user bytes and the metadata of an address has the
length of its code, is valid, gives its user bytes and metadata back, and passes the echo checks for that address and
index and the USER_CRC. -/
def Obligations.EncodedCodewordDecodes : Prop :=
  ∀ (codeB slc : Bool) (echo idx stream : Nat) (ts : Stamp) (user : List Byte),
    user.length = 4096 → echo < 2 ^ 40 → idx < 4 →
    let md := metadata codeB echo slc idx ts stream user
    let cw := encodeCw codeB (user ++ md)
    cw.length = 4128 + 32 * codeRows codeB ∧ syndromeZero codeB cw = true ∧ cwUser cw = user ∧ cwMeta cw = md
    ∧ echoGood codeB echo idx cw = true ∧ crcGood cw = true

/-- 10 R233, R234: descrambling with the seed of an address undoes scrambling with it, whatever die, block, page and
index; parity bytes are never XORed; a seed is never 0; a die whose SEED_OVR bit is 1 is not scrambled while ALT_OFF
is 1. -/
def Obligations.ScramblingIsItsOwnInverse : Prop :=
  ∀ (d block page idx : Nat) (cw : List Byte) (s : State),
    scrambleAt d block page idx (scrambleAt d block page idx cw s) s = cw
    ∧ (scrambleAt d block page idx cw s).length = cw.length
    ∧ (scrambleAt d block page idx cw s).drop 4128 = cw.drop 4128
    ∧ (∀ x : Word32, cwSeed x block page idx ≠ 0)
    ∧ (unscrambled d s = true → scrambleAt d block page idx cw s = cw)

/-- The tag of a READ or READ_MP whose one codeword left to decode is that of a plane and index. -/
def lastOfRead (id plane idx : Nat) (s : State) : Prop :=
  let x := tagOf id s
  isJob id = false ∧ x.state ≠ .free ∧ x.state ≠ .committed ∧ (eOpcode x.entry = opRead ∨ eOpcode x.entry = opReadMp)
  ∧ x.todo = [{ plane := plane, idx := idx }]

/-- What forwarding it leaves (10 R242): the requests for its user bytes, and its metadata where META_OUT asks for them,
join those of FAB[c mod 4], the tag waits for their responses and has nothing left to decode. -/
def forwardedLast (dp id d plane idx : Nat) (cw : List Byte) (s v : State) : Prop :=
  let c := dieChannel d
  let r := forwardRead (bitAt dp 4) id c plane idx (cwUser cw) (cwMeta cw) s
  (∀ p, fabOf p v = fabOf p r.1) ∧ (tagOf id v).todo = [] ∧ (tagOf id v).state = (tagOf id s).state
  ∧ (tagOf id v).wrOut = (tagOf id s).wrOut + r.2

/-- 10 R239 to R243, R253, Table 10.3: CODEWORD_RECEIVED for a codeword of a data-out of a tag under DEC_HARD and
without SENSE_ACC. At most ERASED_THR zero bits at rung 0: the tag commits ERASED_PAGE. A syndrome that is not zero:
the codeword waits, in the clear where RAND is set, in the channel's correction stage; where two wait there already,
and any codeword while ECC is disabled, the rest of the data-out is a candidate again. A zero syndrome with a wrong
echo: the tag commits ECHO_MISMATCH. A clean last codeword of a READ or READ_MP is forwarded with FWD, unless a bit of
its granules fails beyond correction (17 R394); those it is written to hold no flipped bit (17 R391). Without a
data-out on the bus nothing happens (log entry 22). -/
def Claims.CodewordJudgedOnArrival : Prop :=
  ∀ (c : ChnId) (raw : List Byte) (s : State),
    let n := c.toNat
    ((∀ x t, (chanOf n s).act ≠ some (.transfer x, t)) → exec (.codewordReceived c raw) s = .next (settle s))
    ∧ ∀ (x : Xfer) (t i : Nat) (r : List Nat) (w : Cw),
      let d := n * 32 + x.die
      let dp := dpOf n w s
      let w1 : Cw := { w with dp := dp }
      let clear := if bitAt dp 11 then scrambleAt d w.block w.page i raw s else raw
      let u := fun l => modChan n (fun w => { w with act := some (.transfer { x with cws := l }, t) }) s
      let later := addCand n { x with len := outCc d x.cws.length s, ready := s.cc, stageWait := true } (u [])
      let thr := regFld .ecc oEccErasedThr 0 13 s
      let base := (x.plane * 4 + i) * 256
      let zero := syndromeZero (pfCodeB (dieProf d s) s) clear
      (chanOf n s).act = some (.transfer x, t) → x.cws = i :: r → x.kind ≠ 1 → cwAt x.id d x.plane i s = some w →
      rawJob x.id s = false → bootRead x.id s = false → bitAt dp 5 = false → bitAt dp 9 = true →
      idOp x.id s ≠ opCalibrate → isJob x.id = false →
      w.member = false → (tagOf x.id s).state ≠ .free → (tagOf x.id s).state ≠ .committed →
      (pageActive .ecc s = false → exec (.codewordReceived c raw) s = .next (settle later))
      ∧ (pageActive .ecc s = true → thr < zerosOf raw → zero = false → 2 ≤ (stageOf n s).length →
          exec (.codewordReceived c raw) s = .next (settle later))
      ∧ (pageActive .ecc s = true → zerosOf raw ≤ thr → w.rung = 0 →
          ∃ v, exec (.codewordReceived c raw) s = .next (settle v)
          ∧ (tagOf x.id v).state = .committed ∧ (tagOf x.id v).status = 0x21)
      ∧ (pageActive .ecc s = true → thr < zerosOf raw → zero = false → (stageOf n s).length < 2 →
          exec (.codewordReceived c raw) s = .next (settle (modStage n (fun l => l ++ [(x.id, d, x.plane, i)])
            (modCwAt x.id d x.plane i (fun w => { w with dp := dp, read := clear, bytes := clear })
              (clearStaged x.id base (cwGran d s) (u r))))))
      ∧ (pageActive .ecc s = true → thr < zerosOf raw → zero = true → checkDecoded w1 clear .clean s = .echoBad →
          ∃ v, exec (.codewordReceived c raw) s = .next (settle v)
          ∧ (tagOf x.id v).state = .committed ∧ (tagOf x.id v).status = 0x22)
      ∧ (pageActive .ecc s = true → thr < zerosOf raw → zero = true → checkDecoded w1 clear .clean s = .clean →
          bitAt dp 6 = true → lastOfRead x.id x.plane i s →
          (readStaged x.id base (w.gRead + w.gAcc) (clearStaged x.id base (cwGran d s) s)).2 = false →
          ∃ v, exec (.codewordReceived c raw) s = .next (settle v) ∧ forwardedLast dp x.id d x.plane i clear s v)

/-- 10 R241, R253, Table 10.3 rows 5 and 6: HARD_CORRECTION_END takes the codeword at the head of the channel's
correction stage; while ECC is disabled it waits there. With a zero syndrome after the corrections, the last codeword
of a READ or READ_MP is forwarded (with FWD, granules sound), and MAXBITS is at least the bits changed (at most 255);
a wrong echo commits ECHO_MISMATCH. Else the codeword has failed, ECC counter 2, and while another of the tag is still
to be judged, or decoded and not forwarded, nothing else happens. With an empty stage nothing happens (log entry 22).
-/
def Claims.HardCorrectionEnds : Prop :=
  ∀ (c : ChnId) (flips : List Nat) (s : State),
    let n := c.toNat
    (stageOf n s = [] → exec (.hardCorrectionEnd c flips) s = .next (settle s))
    ∧ ∀ (id d plane idx : Nat) (r : List (Nat × Nat × Nat × Nat)) (w : Cw),
      let res := flipBits w.bytes flips
      let zero := syndromeZero (pfCodeB (dieProf d s) s) res
      let u := setStage n r s
      let failed := setOut id d plane idx w.bytes .failed 0 (bump .ecc 2 u)
      stageOf n s = (id, d, plane, idx) :: r →
      (pageActive .ecc s = false → bootRead id s = false → exec (.hardCorrectionEnd c flips) s = .next (settle s))
      ∧ (cwAt id d plane idx s = some w → pageActive .ecc s = true → w.member = false → isJob id = false →
      idOp id s ≠ opCalibrate → (tagOf id s).state ≠ .free → (tagOf id s).state ≠ .committed →
      (zero = true → checkDecoded w res .corrected s = .corrected → bitAt w.dp 6 = true → lastOfRead id plane idx s →
        (readStaged id ((plane * 4 + idx) * 256) (w.gRead + w.gAcc) s).2 = false →
        ∃ v, exec (.hardCorrectionEnd c flips) s = .next (settle v) ∧ forwardedLast w.dp id d plane idx res s v
          ∧ (tagOf id v).maxbits = min 255 (max (tagOf id s).maxbits (diffBits w.bytes res)) ∧ stageOf n v = r)
      ∧ (zero = true → checkDecoded w res .corrected s = .echoBad →
        ∃ v, exec (.hardCorrectionEnd c flips) s = .next (settle v)
          ∧ (tagOf id v).state = .committed ∧ (tagOf id v).status = 0x22)
      ∧ (zero = false → (tagOf id s).todo ≠ [] → softRung (tagOf id s).rung = false →
        ((todoRows id failed).any fun c => decide (c.out = .none ∨ c.out = .clean ∨ c.out = .corrected)) = true →
        exec (.hardCorrectionEnd c flips) s = .next (settle failed)))

/-- 10 R244, R245, R247, R253: SOFT_DECODE_START on an enabled, free decoder takes the request that is earliest by
key, class order, age and channel (where this order is transitive on the queue) out of the queue, with the input
values that LLR2 or LLR3 give the codeword's senses; otherwise it does nothing. SOFT_DECODE_END frees the decoder: a
decode whose tag has committed writes nothing back; one that reaches a zero syndrome gives the last codeword of a READ
or READ_MP, which is forwarded (with FWD, granules sound). While ECC is disabled no other decode ends, but one of
BOOT_FETCH. With no decode running it does nothing (log entry 22). -/
def Claims.SoftPoolServes : Prop :=
  ∀ (u : BitVec 5) (flips : List Nat) (s : State),
    let n := u.toNat
    ((softPick s = none ∨ softFree n s = false) → exec (.softDecodeStart u) s = .next (settle s))
    ∧ (∀ q, softPick s = some q → softFree n s = true →
        q ∈ s.ecc.queue
        ∧ (pageActive .ecc s = true →
            (∀ x ∈ s.ecc.queue, ∀ y ∈ s.ecc.queue, ∀ z ∈ s.ecc.queue,
              softBefore x y = false → softBefore y z = false → softBefore x z = false) →
            ∀ o ∈ s.ecc.queue, softBefore o q = false)
        ∧ exec (.softDecodeStart u) s = .next (settle (setSoft n
            (some { req := q, since := s.cc, input := ((cwOf q.id q.plane q.idx s).map (softInput · s)).getD [] })
            { s with ecc.queue := s.ecc.queue.filter fun r => !decide (r = q) })))
    ∧ (softOf n s = none → exec (.softDecodeEnd u flips) s = .next (settle s))
    ∧ ∀ r : SoftRun, softOf n s = some r →
      (r.dropped = true → exec (.softDecodeEnd u flips) s = .next (settle (setSoft n none s)))
      ∧ (r.dropped = false → pageActive .ecc s = false → bootRead r.req.id s = false →
          exec (.softDecodeEnd u flips) s = .next (settle s))
      ∧ ∀ w : Cw,
        let q := r.req
        let d := paDie (ePaddr (tagOf q.id s).entry)
        let res := flipBits w.bytes flips
        r.dropped = false → pageActive .ecc s = true → cwAt q.id d q.plane q.idx s = some w → w.member = false →
        syndromeZero q.codeB res = true → checkDecoded w res .corrected s = .corrected → bitAt w.dp 6 = true →
        lastOfRead q.id q.plane q.idx s → (readStaged q.id ((q.plane * 4 + q.idx) * 256) w.gRead s).2 = false →
        ∃ v, exec (.softDecodeEnd u flips) s = .next (settle v) ∧ forwardedLast w.dp q.id d q.plane q.idx res s v
          ∧ softOf n v = none

/-- Codewords judged on arrival, by the hard decoder and by the soft pool. -/
def Obligations.CodewordsJudged : Prop :=
  Claims.CodewordJudgedOnArrival ∧ Claims.HardCorrectionEnds ∧ Claims.SoftPoolServes

/-- 10 R248, R249, R252: STAGING_REGRANT judges the program fetches that wait again, in key order. With none waiting
it does nothing. For one that waits for its next page, with no codeword left to encode: while F is too small (less
than a page and what READ_RESERVE still keeps, or beyond EARLY_MAX for EARLY_ACK) or DPT or ECC is disabled it goes on
waiting and nothing changes; otherwise DPT holds a page more for it, the tag is ISSUED, and the page's reads join
those of FAB[c mod 4]. -/
def Claims.WaitingFetchesJudgedAgain : Prop :=
  ∀ s : State,
    (fetchWaiters s = [] → exec .stagingRegrant s = .next (settle s))
    ∧ ∀ t : Nat, fetchWaiters s = [t] →
      let x := tagOf t s
      let e := x.entry
      let g := pageGran (paDie (ePaddr e)) s
      let grant := if eClass e = clsEarly then grantEarly g s else grantOther g s
      let held := ((progOf t s).map (·.granules)).getD 0
      held / max 1 g < progPages e s → isJob t = false → x.pageWait = none → x.dataLeft ≠ 0 → eOpcode e ≠ opStage →
      (∀ k, (progOf t s).bind (toEncode k) = none) →
      (pageActive .ecc s = false → exec .stagingRegrant s = .next (settle s))
      ∧ ((grant = false ∨ pageActive .dpt s = false) → pageActive .ecc s = true →
        exec .stagingRegrant s = .next (settle (modTag t (fun x => { x with fetchWait := true }) s)))
      ∧ (grant = true → pageActive .dpt s = true → pageActive .ecc s = true → held / max 1 g + 1 = progPages e s →
        ∃ v, exec .stagingRegrant s = .next (settle v)
          ∧ ((progOf t v).map (·.granules)) = some (held + g) ∧ (tagOf t v).state = .issued
          ∧ (tagOf t v).fetchWait = false
          ∧ (∀ p, fabOf p v = fabOf p (fabReads (dieChannel (paDie (ePaddr e)) % 4)
              (eBuffer e + held / max 1 g * 16384) 16384 0
              (fun off => .program t x.order (dieChannel (paDie (ePaddr e))) (held / max 1 g * 16384 + off)) s)))

/-- Responses of data writes, program data, and fetches that wait for staging. -/
def Obligations.DataMoves : Prop :=
  Claims.DataWritesAnswered ∧ Claims.ProgramDataArrives ∧ Claims.WaitingFetchesJudgedAgain

/-! ### Channels (08) -/

/-- What a COLLISION on channel c leaves (08 R191, R192): pads released, nothing on the bus, DIRTY, the pads in
CONT_LAST, COLL_RUN one longer, event 0. Where it collides together with its pair both are HALTED with event 1; where
COLL_RUN reaches COLL_LIMIT (a value above 0) it is HALTED; otherwise the senior side or a private channel that is
enabled goes to BACKOFF, and the junior side and a disabled channel to FOREIGN. -/
def collided (c : Nat) (early : Bool) (pads : BitVec 17) (s v : State) : Prop :=
  let x := chanOf c s
  let y := chanOf c v
  let run := min 255 (x.collRun + 1)
  y.driven = false ∧ y.act = none ∧ y.dirty = true ∧ y.collRun = run
  ∧ y.contLast = BitVec.ofNat 32 (2 ^ 31 + fieldAt 30 (bit early) + pads.toNat)
  ∧ (hdrOf (chnPage c) v).evtPend.getLsbD 0 = true
  ∧ (pairHit c s = true → y.own = .halted ∧ (chanOf (pairOf c) v).own = .halted
      ∧ (hdrOf (chnPage c) v).evtPend.getLsbD 1 = true ∧ (hdrOf (chnPage (pairOf c)) v).evtPend.getLsbD 1 = true)
  ∧ (regFld (chnPage c) oChnContCfg 0 4 s ≤ run → y.own = .halted
      ∧ (hdrOf (chnPage c) v).evtPend.getLsbD 2 = true)
  ∧ (pairHit c s = false → run < regFld (chnPage c) oChnContCfg 0 4 s →
      y.own = if (shared c s = false ∨ seniorOn c s = true) ∧ pageActive (chnPage c) s = true ∧ x.disabling = false
        then .backoff else .foreign)

/-- 08 R189 to R192: CONTENTION on pads that the block drives and watches is a COLLISION, or while blanked after the
entry to TAKEOVER or a turnaround is latched as EARLY_CONTENTION; EARLY_CONTENTION_RETEST of it, once blanking has
ended, counts it in CHN counter 0 where it has gone, and is a COLLISION otherwise. On pads that are not watched,
without an early contention, and while blanking still stands, the retest changes nothing. -/
def Claims.ContentionIsACollision : Prop :=
  ∀ (c : ChnId) (pads : BitVec 17) (s : State),
    let n := c.toNat
    let x := chanOf n s
    let r := setChan n { x with early := none } s
    ((watched n s = false ∨ pads = 0) → exec (.contention c pads) s = .next (settle s))
    ∧ (watched n s = true → pads ≠ 0 → blanked n s = true → exec (.contention c pads) s = .next (settle
        (setChan n { x with early := some pads, contLast := BitVec.ofNat 32 (2 ^ 30 + pads.toNat) } s)))
    ∧ (watched n s = true → pads ≠ 0 → blanked n s = false →
        ∃ v, exec (.contention c pads) s = .next (settle v) ∧ collided n false pads s v)
    ∧ ((watched n s = false ∨ x.early = none ∨ blanked n s = true) → exec (.earlyContentionRetest c pads) s = .next (settle s))
    ∧ (watched n s = true → x.early ≠ none → blanked n s = false → pads = 0 →
        exec (.earlyContentionRetest c pads) s = .next (settle (bump (chnPage n) 0 r)))
    ∧ (watched n s = true → x.early ≠ none → blanked n s = false → pads ≠ 0 →
        ∃ v, exec (.earlyContentionRetest c pads) s = .next (settle v) ∧ collided n true pads r v)

/-- 08 R175, R177, R178, R193: ZQ_UPDATE of a released group, at the end of its period of 2^24 PHY clocks and neither
in Doze nor before its wake has ended, starts the next period and asks for new codes on each of the group's channels;
in the first cc in which a channel's bus has been free for 8 PHY clocks its UTRIM is taken. RETRAIN, due on an OWNED
enabled channel after INTERVAL frames, restarts the count and asks for a retrain of every trained volume where none
stands; RETRAIN_NOW asks for it at once. TRAIN_SEL takes a volume's results into TRAIN_RES. Nothing else changes. -/
def Claims.CalibrationAndTraining : Prop :=
  ∀ (g : GroupId) (c : ChnId) (vol : BitVec 3) (s : State),
    let n := c.toNat
    let x := chanOf n s
    let u := dropLatches (.chn c) s
    let asks : Chan := if x.retrain.isEmpty then
        { x with retrain := (List.range 8).filter fun v => x.trained.getLsbD v, retrainAt := s.cc } else x
    let t := SMap.get (fun _ => {}) x.train vol.toNat
    let zq := groupReleased g.toNat s = true ∧ corePowered s = true ∧ s.pwr.state ≠ .doze ∧ s.pwr.state ≠ .waking
      ∧ (groupOf g.toNat s).zqDue ≤ s.cc
    (zq → ∃ v, exec (.zqUpdate g) s = .next (settle v)
        ∧ { v with chn := s.chn } = setGroup g.toNat { groupOf g.toNat s with zqDue := s.cc + phyCc 16777216 } s
        ∧ ∀ k, chanOf k v = if k / 16 = g.toNat then { chanOf k s with zqPend := true } else chanOf k s)
    ∧ (¬zq → exec (.zqUpdate g) s = .next (settle s))
    ∧ (corePowered s = true → s.pwr.state ≠ .doze → s.pwr.state ≠ .waking → (s.chn.map (·.1)).Nodup →
        { zqApply s with chn := s.chn } = s
        ∧ ∀ k, chanOf k (zqApply s) = if (chanOf k s).zqPend = true ∧ busFree k s = true
              ∧ (chanOf k s).freeAt + phyCc 8 ≤ s.cc then
            { chanOf k s with zqPend := false, codes := BitVec.ofNat 24 (regOf (chnPage k) oChnUtrim s) }
          else chanOf k s)
    ∧ (retrainDue n s = false → exec (.retrain c) s = .next (settle s))
    ∧ (retrainDue n s = true → exec (.retrain c) s = .next (settle (setChan n
        { asks with retrainCount := retrainInterval n s } s)))
    ∧ (pageAnswers (.chn c) s = true →
      (exec (.retrainNow c) s = .next (settle (csrOk 0
        (if x.own = .owned ∧ pageActive (.chn c) s = true then setChan n asks u else u))))
      ∧ exec (.trainSel c vol) s = .next (settle (csrOk 0 (setReg (.chn c) oChnTrainRes
          ((if t.valid then 2 ^ 31 else 0) + t.rd.toNat * 2 ^ 16 + t.wr.toNat * 2 ^ 8 + t.eye.toNat)
          (setReg (.chn c) oChnTrainSel vol.toNat u)))))

/-- Contention is a COLLISION; ZQ updates, retrains and TRAIN_SEL. -/
def Obligations.ContentionAndTraining : Prop :=
  Claims.ContentionIsACollision ∧ Claims.CalibrationAndTraining

/-- Channel n enters CLAIMING and a CLAIM for it is sent off: one queued in this cc takes it in; else it has the next
SEQ. -/
def claimsOne (n : Nat) (force : Bool) (s : State) : State :=
  let m := mkMsg 1 s.peer.seq (n / 32) (2 ^ (n % 32)) force false false
  sendMsg m (if (joinedMsg m s).isSome && pageActive .peer s then setOwn n .claiming s
    else { setOwn n .claiming s with peer := { s.peer with seq := (s.peer.seq + 1) % 16 } })

/-- 08 R187, Table 8.8: OWN_CMD on an enabled channel. CLAIM and FORCE_CLAIM of a shared channel in FOREIGN or HALTED
send a CLAIM and enter CLAIMING; of a private one in HALTED they enter TAKEOVER, its pads driven. RELEASE in OWNED
enters RELEASING; in HALTED it enters FOREIGN, of a shared channel with a RELEASE, CLEAN 0. In every other case the
command is ignored and OWN_CMD_IGNORED is latched with the state. -/
def Claims.OwnershipCommands : Prop :=
  ∀ (c : ChnId) (force : Bool) (s : State), pageAnswers (.chn c) s = true →
    let n := c.toNat
    let x := chanOf n s
    let u := dropLatches (.chn c) s
    let mask := 2 ^ (n % 32)
    let claim : Instr := if force then .ownCmdForceClaim c else .ownCmdClaim c
    let ignored := csrOk 0 (raiseErr (.chn c) 0x0104 (ownCode x.own) u)
    let claims := x.own = .halted ∨ (x.own = .foreign ∧ x.shared = true)
    let releases := x.own = .owned ∨ x.own = .halted
    ((pageActive (.chn c) s = false ∨ ¬claims) → exec claim s = .next (settle ignored))
    ∧ (pageActive (.chn c) s = true → claims → x.shared = true →
        exec claim s = .next (settle (csrOk 0 (claimsOne n force u))))
    ∧ (pageActive (.chn c) s = true → claims → x.shared = false →
        ∃ v, exec claim s = .next (settle (csrOk 0 v)) ∧ (chanOf n v).own = .takeover ∧ (chanOf n v).driven = true)
    ∧ ((pageActive (.chn c) s = false ∨ ¬releases) → exec (.ownCmdRelease c) s = .next (settle ignored))
    ∧ (pageActive (.chn c) s = true → x.own = .owned →
        ∃ v, exec (.ownCmdRelease c) s = .next (settle (csrOk 0 v)) ∧ (chanOf n v).own = .releasing
          ∧ (chanOf n v).rel = some .command ∧ (chanOf n v).driven = x.driven)
    ∧ (pageActive (.chn c) s = true → x.own = .halted →
        exec (.ownCmdRelease c) s = .next (settle (csrOk 0 (setOwn n .foreign
          (if x.shared then sendMsg (mkMsg 3 0 (n / 32) mask false false false) u else u)))))

/-- 08 R187, Table 8.8: the ends of the states. CLAIM_TIMEOUT: CLAIMING to FOREIGN after CLAIM_TIMEOUT µs, PEER event
5. BACKOFF_END: 16 µs after the COLLISION a shared channel sends a CLAIM and enters CLAIMING, a private one enters
TAKEOVER. TAKEOVER_END: once the sequence of R188 has ended, OWNED with DIRTY cleared, event 5, counter 6, and PEER
event 2 where it was the last channel taken after PEER_LOST. Before, nothing changes. -/
def Claims.OwnershipStatesEnd : Prop :=
  ∀ (c : ChnId) (s : State),
    let n := c.toNat
    let x := chanOf n s
    let out := x.own = .claiming ∧ x.ownSince + usCc (regFld .peer oPeerCfg 0 16 s) ≤ s.cc
    let back := x.own = .backoff ∧ x.ownSince + usCc 16 ≤ s.cc
    let done := x.own = .takeover ∧ x.take = none ∧ busFree n s = true
    (¬out → exec (.claimTimeout c) s = .next (settle s))
    ∧ (out → exec (.claimTimeout c) s = .next (settle (raiseEvt .peer 5 (setOwn n .foreign s))))
    ∧ (¬back → exec (.backoffEnd c) s = .next (settle s))
    ∧ (back → x.shared = true → exec (.backoffEnd c) s = .next (settle (claimsOne n false s)))
    ∧ (back → x.shared = false → ∃ v, exec (.backoffEnd c) s = .next (settle v)
        ∧ (chanOf n v).own = .takeover ∧ (chanOf n v).driven = true)
    ∧ (¬done → exec (.takeoverEnd c) s = .next (settle s))
    ∧ (done →
        let y : Chan := { x with own := .owned, ownSince := s.cc, dirty := false, takeLost := false,
                                 retrainCount := retrainInterval n s }
        let w := raiseEvt (.chn c) 5 (bump (.chn c) 6 (setChan n y s))
        exec (.takeoverEnd c) s = .next (settle
          (if x.takeLost = true ∧ lostLeft n s = false then raiseEvt .peer 2 w else w)))

/-- 08 R187, Table 8.8: RELEASE_COMPLETE. A channel leaves RELEASING for FOREIGN, its pads released: voluntarily once
no array operation runs or is suspended there and the bus is free, with RELEASE (OWN_CMD) or GRANT, CLEAN = not DIRTY;
forced once the bus is free or 8,850 cc have passed, with DIRTY, and GRANT or RELEASE with CLEAN 0. A disabled channel
becomes FOREIGN without a message once its array operations have ended. Until then nothing changes. -/
def Claims.ReleaseCompletes : Prop :=
  ∀ (c : ChnId) (s : State),
    let n := c.toNat
    let x := chanOf n s
    let quiet := arrayOn n s = false ∧ busFree n s = true
    let forced := busFree n s = true ∨ x.ownSince + 8850 ≤ s.cc
    let leaves := fun (dirty : Bool) (msg : List Word64) => ∃ v, exec (.releaseComplete c) s = .next (settle v)
      ∧ (chanOf n v).own = .foreign ∧ (chanOf n v).driven = false ∧ (chanOf n v).dirty = dirty
      ∧ (s.peer.txq.length < 16 → pageActive .peer s = true → s.peer.freshAt ≠ s.cc → v.peer =
          { s.peer with txq := s.peer.txq ++ msg, fresh := v.peer.fresh, freshAt := v.peer.freshAt })
    let m := fun (type seq : Nat) (clean granted : Bool) => mkMsg type seq (n / 32) (2 ^ (n % 32)) false clean granted
    (x.disabling = true → arrayOn n s = true → exec (.releaseComplete c) s = .next (settle s))
    ∧ (x.disabling = true → arrayOn n s = false → leaves x.dirty [])
    ∧ (x.disabling = false → x.own ≠ .releasing → exec (.releaseComplete c) s = .next (settle s))
    ∧ (x.disabling = false → x.own = .releasing →
      (x.rel = some .command → ¬quiet → exec (.releaseComplete c) s = .next (settle s))
      ∧ (x.rel = some .command → quiet → leaves x.dirty (if x.shared then [m 3 0 (!x.dirty) false] else []))
      ∧ ∀ q,
        (x.rel = some (.yielded q) → ¬quiet → exec (.releaseComplete c) s = .next (settle s))
        ∧ (x.rel = some (.yielded q) → quiet → leaves x.dirty [m 2 q (!x.dirty) true])
        ∧ (x.rel = some (.forcedClaim q) → ¬forced → exec (.releaseComplete c) s = .next (settle s))
        ∧ (x.rel = some (.forcedClaim q) → forced → leaves true [m 2 q false true])
        ∧ (x.rel = some .forcedInfo → ¬forced → exec (.releaseComplete c) s = .next (settle s))
        ∧ (x.rel = some .forcedInfo → forced → leaves true [m 3 0 false false]))

/-- Ownership commands and the ends of the ownership states. -/
def Obligations.ChannelOwnership : Prop :=
  Claims.OwnershipCommands ∧ Claims.OwnershipStatesEnd ∧ Claims.ReleaseCompletes

/-! ### The peer link (08) -/

/-- 08 R183, Table 8.7: a message carries its fields, each in its bits, and a CRC that its receiver finds good. -/
def Obligations.MessagesCarryFieldsAndCrc : Prop :=
  ∀ (type seq quarter mask : Nat) (force clean granted : Bool),
    type < 16 → seq < 16 → quarter < 4 → mask < 2 ^ 32 →
    let m := mkMsg type seq quarter mask force clean granted
    crcGoodMsg m = true ∧ msgType m = type ∧ msgSeq m = seq ∧ msgQuarter m = quarter ∧ msgMask m = mask
    ∧ msgForce m = force ∧ msgClean m = clean ∧ msgGranted m = granted

/-- 08 R183, R185: a CLAIM, GRANT, RELEASE, HEARTBEAT_INFO or TAKEOVER_NOTICE changes nothing while the link is off,
with a bad CRC, or where the TYPE is another. MSG_ERROR: a bad CRC or stop bit counts on PEER counter 2, a reserved
TYPE on counter 3, both raise event 6; nothing else changes, and while the link is off nothing at all. -/
def Claims.BadMessagesDiscarded : Prop :=
  ∀ (m : Word64) (stop : Bool) (s : State),
    let bad := stop = false ∨ crcGoodMsg m = false
    let reserved := msgType m = 0 ∨ 5 < msgType m
    (∀ x ∈ ([(1, .claim m), (2, .grant m), (3, .release m), (4, .heartbeatInfo m), (5, .takeoverNotice m)] :
        List (Nat × Instr)),
      (linkOn s = false ∨ crcGoodMsg m = false ∨ msgType m ≠ x.1) → exec x.2 s = .next (settle s))
    ∧ (linkOn s = false → exec (.msgError m stop) s = .next (settle s))
    ∧ (linkOn s = true → bad → exec (.msgError m stop) s = .next (settle (raiseEvt .peer 6 (bump .peer 2 s))))
    ∧ (linkOn s = true → ¬bad → reserved →
        exec (.msgError m stop) s = .next (settle (raiseEvt .peer 6 (bump .peer 3 s))))
    ∧ (linkOn s = true → ¬bad → ¬reserved → exec (.msgError m stop) s = .next (settle s))

/-- A good message of a type has come. -/
def arrives (type : Nat) (m : Word64) (s : State) : Prop :=
  linkOn s = true ∧ crcGoodMsg m = true ∧ msgType m = type

/-- 08 R187, Table 8.8: CLAIM. A channel that it names stays FOREIGN; in CLAIMING the senior side stays and the junior
side becomes FOREIGN; BACKOFF becomes FOREIGN; OWNED goes to RELEASING where FORCE or the YIELD bit is 1 and stays
OWNED otherwise. Named alone, and with no other message of the same cc, the answer is a GRANT with the CLAIM's SEQ:
GRANTED 1 with CLEAN = not DIRTY (0 from BACKOFF), or GRANTED 0 from OWNED. -/
def Claims.ClaimReceived : Prop :=
  ∀ (m : Word64) (s : State), arrives 1 m s →
    ∃ v, exec (.claim m) s = .next (settle v) ∧ v.peer.lastRx = m
      ∧ ∀ c ∈ namedChans m s,
        let x := chanOf c s
        let y := chanOf c v
        let give := msgForce m || yieldBit c s
        (x.own = .foreign → y.own = .foreign)
        ∧ (x.own = .claiming → y.own = if seniorOn c s then .claiming else .foreign)
        ∧ (x.own = .backoff → y.own = .foreign)
        ∧ (x.own = .owned → give = false → y.own = .owned)
        ∧ (x.own = .owned → give = true → y.own = .releasing
            ∧ y.rel = some (if msgForce m then .forcedClaim (msgSeq m) else .yielded (msgSeq m)))
        ∧ (namedChans m s = [c] → s.peer.txq.length < 16 → s.peer.freshAt ≠ s.cc →
            let answer := fun (clean granted : Bool) =>
              v.peer.txq = s.peer.txq ++ [mkMsg 2 (msgSeq m) (c / 32) (2 ^ (c % 32)) false clean granted]
            (x.own = .foreign → answer (!x.dirty) true)
            ∧ (x.own = .claiming → seniorOn c s = false → answer (!x.dirty) true)
            ∧ (x.own = .claiming → seniorOn c s = true → v.peer.txq = s.peer.txq)
            ∧ (x.own = .backoff → answer false true)
            ∧ (x.own = .owned → give = false → answer false false))

/-- 08 R187, R188, Table 8.8: GRANT takes channels in CLAIMING to TAKEOVER, their pads driven, where GRANTED is 1, and
to FOREIGN with PEER event 4 where it is 0; RELEASE takes enabled FOREIGN channels to TAKEOVER. With CLEAN 1 no reset
of the targets is left to do. -/
def Claims.GrantAndReleaseReceived : Prop :=
  ∀ (m : Word64) (s : State),
    let taken := fun (c : Nat) (v : State) => (chanOf c v).own = .takeover ∧ (chanOf c v).driven = true
      ∧ (msgClean m = true → ∀ w r, (chanOf c v).take ≠ some (.resets (w :: r)))
    (arrives 2 m s → ∃ v, exec (.grant m) s = .next (settle v) ∧ v.peer.lastRx = m
      ∧ ∀ c ∈ namedChans m s, (chanOf c s).own = .claiming →
        (msgGranted m = true → taken c v)
        ∧ (msgGranted m = false → (chanOf c v).own = .foreign ∧ (hdrOf .peer v).evtPend.getLsbD 4 = true))
    ∧ (arrives 3 m s → ∃ v, exec (.release m) s = .next (settle v) ∧ v.peer.lastRx = m
      ∧ ∀ c ∈ namedChans m s, (chanOf c s).own = .foreign → pageActive (chnPage c) s = true → taken c v)

/-- 08 R186, R187, Table 8.8: HEARTBEAT_INFO. A channel that both own, OWNED, RELEASING or TAKEOVER: PEER event 7; of
an OWNED one the junior side goes to RELEASING, forced, the senior side stays OWNED. An enabled shared channel of its
quarter that the peer does not own and this XF128, senior there, holds FOREIGN enters CLAIMING. TAKEOVER_NOTICE:
OWNED, RELEASING, CLAIMING, BACKOFF and a junior TAKEOVER become FOREIGN, DIRTY, pads released, PEER event 3; a senior
TAKEOVER stays. -/
def Claims.InfoAndNoticeReceived : Prop :=
  ∀ (m : Word64) (s : State),
    (arrives 4 m s → ∃ v, exec (.heartbeatInfo m) s = .next (settle v) ∧ v.peer.lastRx = m
      ∧ (∀ c ∈ namedChans m s, (chanOf c s).own = .owned → (hdrOf .peer v).evtPend.getLsbD 7 = true
        ∧ (seniorOn c s = true → (chanOf c v).own = .owned)
        ∧ (seniorOn c s = false → (chanOf c v).own = .releasing ∧ (chanOf c v).rel = some .forcedInfo))
      ∧ (∀ c ∈ namedChans m s, ((chanOf c s).own = .releasing ∨ (chanOf c s).own = .takeover) →
        (hdrOf .peer v).evtPend.getLsbD 7 = true ∧ (chanOf c v).own = (chanOf c s).own)
      ∧ (∀ c, c / 32 = msgQuarter m → (msgMask m).testBit (c % 32) = false → shared c s = true →
          (chanOf c s).own = .foreign → seniorOn c s = true → pageActive (chnPage c) s = true →
          (chanOf c v).own = .claiming))
    ∧ (arrives 5 m s → ∃ v, exec (.takeoverNotice m) s = .next (settle v) ∧ v.peer.lastRx = m
      ∧ ∀ c ∈ namedChans m s,
        (noticeTakes c s = true → (chanOf c v).own = .foreign ∧ (chanOf c v).dirty = true ∧ (chanOf c v).driven = false
          ∧ (hdrOf .peer v).evtPend.getLsbD 3 = true)
        ∧ ((chanOf c s).own = .takeover → seniorOn c s = true → (chanOf c v).own = .takeover))

/-- What CLAIM, GRANT, RELEASE, HEARTBEAT_INFO, TAKEOVER_NOTICE and bad frames do. -/
def Obligations.MessagesReceived : Prop :=
  Claims.BadMessagesDiscarded
  ∧ Claims.ClaimReceived
  ∧ Claims.GrantAndReleaseReceived
  ∧ Claims.InfoAndNoticeReceived

/-- 08 R183, R184, R186: MESSAGE_SEND with the link free: of the queued messages the one that goes first by
TAKEOVER_NOTICE, GRANT and RELEASE, CLAIM, HEARTBEAT_INFO, and oldest first within each, is sent, a waiting one joins
the queue, the link is busy for 340 ns, LAST_TX and counter 0 (a GRANT of 1 also counter 5). HEARTBEAT_INFO_SEND, due:
the shared channels owned in the next quarter. Otherwise nothing changes. -/
def Claims.MessagesSent : Prop :=
  ∀ s : State,
    let ready := linkOn s = true ∧ s.peer.linkFree ≤ s.cc
    let per := regFld .peer oPeerCfg 16 8 s
    let due := linkOn s = true ∧ per ≠ 0 ∧ s.peer.infoDue ≤ s.cc
    ((¬ready ∨ s.peer.txq = []) → exec .messageSend s = .next (settle s))
    ∧ (ready → ∀ a m b, s.peer.txq = a ++ m :: b → (∀ x ∈ a, msgRank m < msgRank x) → (∀ x ∈ b, msgRank m ≤ msgRank x) →
        let p : Peer := { s.peer with txq := a ++ b ++ s.peer.txWait.take 1, txWait := s.peer.txWait.tail, lastTx := m,
                                      linkFree := s.cc + 510 }
        let w := bump .peer 0 { s with peer := p }
        exec .messageSend s = .next (settle (if msgType m = 2 ∧ msgGranted m = true then bump .peer 5 w else w)))
    ∧ (¬due → exec .heartbeatInfoSend s = .next (settle s))
    ∧ (due →
        let q := s.peer.quarter
        let p : Peer := { s.peer with quarter := (q + 1) % 4, infoDue := s.cc + usCc per }
        exec .heartbeatInfoSend s = .next (settle
          (sendMsg (mkMsg 4 0 q (quarterMask q (ownedOf q s)) false false false) { s with peer := p })))

/-- 08 R185, 02 R53: HEARTBEAT toggles PEER_HB_OUT 0.5 µs after its last toggle. PEER_HB_EDGE counts edges in a row
with no gap above 1.0 µs; the eighth ends LOST, PEER event 1. PEER_LOST, after 3.0 µs without an edge while PEER is
enabled: LOST, event 0; the enabled shared channels in FOREIGN, CLAIMING and BACKOFF go to TAKEOVER, RELEASING ones
back to OWNED, and a TAKEOVER_NOTICE tells the peer. Otherwise nothing changes. -/
def Claims.HeartbeatAndLoss : Prop :=
  ∀ s : State,
    let beat := corePowered s = true ∧ groupReleased 0 s = true ∧ s.peer.hbAt + nsCc 500 ≤ s.cc
    let hears := corePowered s = true ∧ stepReleased 1 s = true ∧ peerStrapped s = true
    let n := min 8 (edgeRun s)
    let p : Peer := { s.peer with lastEdge := some s.cc, edges := n }
    let gone := linkOn s = true ∧ s.peer.lost = false ∧ hbGone s = true
    (¬beat → exec .heartbeat s = .next (settle s))
    ∧ (beat → exec .heartbeat s
        = .next (settle { s with peer := { s.peer with hbOut := !s.peer.hbOut, hbAt := s.cc } }))
    ∧ (¬hears → exec .peerHbEdge s = .next (settle s))
    ∧ (hears → (pageActive .peer s = false ∨ s.peer.lost = false ∨ n < 8) →
        exec .peerHbEdge s = .next (settle { s with peer := p }))
    ∧ (hears → pageActive .peer s = true → s.peer.lost = true → n = 8 →
        exec .peerHbEdge s = .next (settle (raiseEvt .peer 1 { s with peer := { p with lost := false } })))
    ∧ (¬gone → exec .peerLost s = .next (settle s))
    ∧ (gone → ∃ v, exec .peerLost s = .next (settle v) ∧ v.peer.lost = true ∧ (hdrOf .peer v).evtPend.getLsbD 0 = true
        ∧ (∀ c ∈ lostChans s, (chanOf c v).own = .takeover ∧ (chanOf c v).driven = true)
        ∧ (∀ c, (chanOf c s).own = .releasing → (chanOf c v).own = .owned)
        ∧ (∀ c, lostChans s = [c] → s.peer.txq.length < 16 → s.peer.freshAt ≠ s.cc → s.sec.boot ≠ .railWait →
            v.peer.txq = s.peer.txq ++ [mkMsg 5 0 (c / 32) (2 ^ (c % 32)) false false false]))

/-- Messages sent in rank order, the heartbeat, and the loss of the peer. -/
def Obligations.LinkAndHeartbeat : Prop :=
  Claims.MessagesSent ∧ Claims.HeartbeatAndLoss

/-! ### Read levels (11) -/

/-- 11 R259, R260, R280: LEVEL_LOAD stores BLOCK and DIE; while a load runs that is all, while FACTORY_LOCK is set it
ends with RESULT LOCKED, else a load of that block begins. FACTORY_LOCK_SET sets LOCKED. TEMP_SEL takes the die's
TEMP_INFO. -/
def Claims.LevelLoadAndLock : Prop :=
  ∀ (block : BitVec 14) (d : DieId) (s : State), pageAnswers .lvl s = true →
    let u := dropLatches .lvl s
    let v := block.toNat * 4096 + d.toNat
    let w := setReg .lvl oLvlLoadCtrl v u
    (s.lvl.loadBusy = true → exec (.levelLoad block d) s = .next (settle (csrOk 0 w)))
    ∧ (s.lvl.loadBusy = false → s.lvl.locked = true →
        exec (.levelLoad block d) s = .next (settle (csrOk 0 { w with lvl := { w.lvl with loadResult := 2 } })))
    ∧ (s.lvl.loadBusy = false → s.lvl.locked = false → ∃ x, exec (.levelLoad block d) s = .next (settle (csrOk 0 x))
        ∧ x.lvl = { s.lvl with loadBusy := true, loadResult := 0, loadFrom := v, loadBytes := [] }
        ∧ jobOf s.eng.grvNext x = some (.levelPage 0))
    ∧ exec .factoryLockSet s = .next (settle (csrOk 0 { u with lvl := { u.lvl with locked := true } }))
    ∧ exec (.tempSel d) s = .next (settle (csrOk 0
        (setReg .lvl oLvlTempInfo (tempInfo d.toNat s) (setReg .lvl oLvlTempSel d.toNat u))))

/-- 11 R261, 13 R321: TEMP_SAMPLE of a die for which a sample is due, while the die is quiet and no data-out of it
waits, and its channel's bus and the Burin thread that drives it can take it outside Doze: the die is BUSY with the read
of its temperature, whose command is on the bus, and the Burin has its job, behind it that of a volume select where one
precedes the command. Otherwise nothing changes. -/
def Claims.TemperatureSampled : Prop :=
  ∀ (d : DieId) (s : State),
    let n := d.toNat
    let c := dieChannel n
    let may := tempDue n s = true ∧ dieQuiet n s = true ∧ outPending n s = false ∧ mayStart c s = true
      ∧ burinDrives c s = true ∧ s.pwr.state ≠ .doze ∧ busTakes c (.feature n) s = true
    (¬may → exec (.tempSample d) s = .next (settle s))
    ∧ (may → ∃ v, exec (.tempSample d) s = .next (settle v)
        ∧ (dieOf n v).state = .busy ∧ ((dieOf n v).run.map (·.kind)) = some .tempGet
        ∧ (chanOf c v).act = some (.feature n, s.cc)
        ∧ (thrOf (chanBur c) (chanThr c) v).waiting
            = (thrOf (chanBur c) (chanThr c) s).waiting ++ [plainJob 7 n none ⟨0, 0⟩ s]
              ++ (if (chanOf c s).volume = some (dieVolume n) then [] else [volJob 11 c (dieVolume n) s])
        ∧ (∀ k, k ≠ c → chanOf k v = chanOf k s) ∧ (∀ k, k ≠ n → dieOf k v = dieOf k s)
        ∧ { v with chn := s.chn, sch := s.sch, eng := s.eng, pwr := s.pwr, hdr := s.hdr } = s)

/-- The factory load, FACTORY_LOCK, TEMP_SEL and temperature samples. -/
def Obligations.ReadLevelCommands : Prop :=
  Claims.LevelLoadAndLock ∧ Claims.TemperatureSampled

/-! ### The disk stream port (12) -/

/-- 12 R286, R289, R290: DESTAGE_RESOLVE at the frame DL_FRAME + LEAD_FR of an entry with records without a frame,
whether its tag is still open, has committed, or is in use again: the entry is known by its records. With SYNC.VALID
each record gets the frame of its start wedge, counted from the next frame of wedge WEDGE; without it the records go,
CAUSE 6 counts once for each, and an open tag (of an entry not replanned) commits STREAM_UNDERRUN. Where no entry of
the tag is due nothing changes. (Stated for one entry of the tag due at a time.) -/
def Claims.DestageResolved : Prop :=
  ∀ (t : TagId) (s : State),
    let n := t.toNat
    let due := fun (a : Nat) (r : Rec) => r.tag = n ∧ r.frame = none ∧ s.tmb.state ≠ .off
      ∧ frameLater (r.dl + BitVec.ofNat 32 (regFld (dspPage a) oDspConfig 0 8 s)) s.tmb.frame = false
    (∀ a, (∀ q ∈ resolveDue a n s, q ∈ (dspOf a s).recs ∧ due a q)
      ∧ ∀ r ∈ (dspOf a s).recs, due a r → ∃ q ∈ resolveDue a n s, q.base = r.base)
    ∧ ((∀ a, a < 2 → ∀ r ∈ (dspOf a s).recs, ¬due a r) → exec (.destageResolve t) s = .next (settle s))
    ∧ ∀ (a b : ActId) (q : Rec), a ≠ b → resolveDue a.toNat n s = [q] → resolveDue b.toNat n s = [] →
      let d := dspOf a.toNat s
      let w := max 1 (wedges s)
      let p := s.tmb.frame + BitVec.ofNat 32 ((q.first + w - syncIndex a.toNat s % w) % w)
      let mine := fun (r : Rec) => r.base = q.base ∧ r.frame = none
      let page := dspPage a.toNat
      (syncValid a.toNat s = true → exec (.destageResolve t) s = .next (settle (setDsp a.toNat
          { d with recs := d.recs.map fun r =>
              if mine r then { r with frame := some (p + BitVec.ofNat 32 (r.wedge - q.first)) } else r } s)))
      ∧ (syncValid a.toNat s = false → bitAt (regOf page oDspConfig s) 16 = false →
          ∃ v, exec (.destageResolve t) s = .next (settle v) ∧ (∀ r ∈ (dspOf a.toNat v).recs, ¬mine r)
            ∧ cntOf page 6 v = cntOf page 6 (bumpBy page 6 (d.recs.filter fun r => decide (mine r)).length s)
            ∧ (q.dead = false → tagOpen n s = true → (tagOf n v).state = .committed ∧ (tagOf n v).status = 0x42))

/-- 12 R286, R287: WEDGE_DECISION takes the oldest frame of a port that waits for its decision, once its tick has a
sample or SAMPLE_WAIT has passed: the frame waits no more and DECISION holds its sample and (at the reference
actuator) its wedge; that a tick stood for the frame is kept for four decisions, since a second tick for it ends
VALID. Before that, or with no frame waiting, nothing changes. -/
def Claims.WedgeDecisionTaken : Prop :=
  ∀ (a : ActId) (s : State),
    let n := a.toNat
    ((dspOf n s).frames = [] → exec (.wedgeDecision a) s = .next (settle s))
    ∧ ∀ f start r, (dspOf n s).frames = (f, start) :: r →
      (decisionOf n f start s = none → exec (.wedgeDecision a) s = .next (settle s))
      ∧ ∀ pos, decisionOf n f start s = some pos → ∃ v, exec (.wedgeDecision a) s = .next (settle v)
          ∧ (dspOf n v).frames = r ∧ (∀ x ∈ (dspOf n v).ticks, x.frame ≠ f)
          ∧ (dspOf n v).ticked = (if ∃ x ∈ (dspOf n s).ticks, x.frame = f then (f :: (dspOf n s).ticked).take 4
              else (dspOf n s).ticked)
          ∧ ((dspOf n v).decision.map fun d => (d.frame, d.sample)) = some (f, pos)
          ∧ (n = refAct s → (dspOf n v).decision = some { frame := f, sample := pos, wedge := wedgeOf n f s })

/-- 12 R288, R293 to R295, Table 12.3: the release point of the sector presented next, at the decision of its frame on
an idle port of the reference actuator with no stage armed. A sector of a committed tag becomes a skip beat (counter
8); one that a check holds becomes a skip beat, its cause counted, event 0, and its open tag (not replanned) commits
STREAM_UNDERRUN; one that passes is presented with the bytes of its slot, up to its split point. Its record is freed.
-/
def Claims.SectorReleasedOrHeld : Prop :=
  ∀ (a : ActId) (s : State) (f : Word32) (start : Nat) (q : List (Word32 × Nat)) (r : Rec) (pos : Option (BitVec 44)),
    let n := a.toNat
    let d := dspOf n s
    let c := holdCheck n r pos s
    n = refAct s → d.frames = (f, start) :: q → decisionOf n f start s = some pos → d.open_ = none → d.tx = .none →
    d.armed = [] → nextRec n s = some r → r.frame = some f →
    ∃ v, exec (.wedgeDecision a) s = .next (settle v)
      ∧ (r.dead = true ∨ c = 0 ∨ bitAt (regOf (dspPage n) oDspConfig s) 16 = false →
          ∀ x ∈ (dspOf n v).recs, x.order ≠ r.order)
      ∧ (r.dead = true → (dspOf n v).tx = .skip ∧ (dspOf n v).open_ = none
          ∧ cntOf (dspPage n) 8 v = cntOf (dspPage n) 8 (bump (dspPage n) 8 s))
      ∧ (r.dead = false → c ≠ 0 → bitAt (regOf (dspPage n) oDspConfig s) 16 = false →
          (dspOf n v).tx = .skip ∧ (dspOf n v).open_ = none ∧ (hdrOf (dspPage n) v).evtPend.getLsbD 0 = true
          ∧ cntOf (dspPage n) c v = cntOf (dspPage n) c (bump (dspPage n) c s)
          ∧ (tagOpen r.tag s = true → (tagOf r.tag v).state = .committed ∧ (tagOf r.tag v).status = 0x42))
      ∧ (r.dead = false → c = 0 → (dspOf n v).tx = .data
          ∧ (dspOf n v).open_ = some
              { rec_ := { r with dec := some pos }, done := 0, bytes := recBytes n r s,
                upTo := startBytes n r.head r.zone r.sector s, nextWedge := r.wedge + 1, nextFrame := f + 1 })

/-- 02 R31, 12 R294 to R296: FMT_TX_BEAT. With nothing presented it does nothing. A skip beat, with sos and eos and
data and nbytes 0, ends its sector. A data beat carries up to 8 bytes, sos with the sector's first and eos with its
last; at a split point the port waits with the sector open, or goes on where the decision of the next wedge has come
and passes checks 1 to 4; with the sector's last byte, counter 0, and with the last sector of an open DESTAGE the tag
commits OK or OK_RECOVERED. Once the sector's tag has committed, the beat on offer is its last: a skip beat follows,
unless it carried the sector's last byte. (Stated with no other sector ready.) -/
def Claims.BeatsAccepted : Prop :=
  ∀ (a : ActId) (s : State),
    let n := a.toNat
    let d := dspOf n s
    let alone := ∀ r, nextRec n s = some r → r.dec = none
    (d.tx = .none → exec (.fmtTxBeat a) s = .next (settle s))
    ∧ (d.tx = .skip → fmtTx n s = { valid := true, data := 0, sos := true, eos := true, nbytes := 0 })
    ∧ (d.tx = .skip → alone →
        exec (.fmtTxBeat a) s = .next (settle (setDsp n { d with tx := .none, open_ := none } s)))
    ∧ (d.tx = .data → d.open_ = none → exec (.fmtTxBeat a) s = .next (settle s))
    ∧ ∀ o, d.tx = .data → d.open_ = some o →
      let x : OpenSector := { o with done := min o.upTo (o.done + 8) }
      let y : OpenSector := { x with cont := none }
      fmtTx n s = { valid := true, data := BitVec.ofNat 64 (leNat ((o.bytes.drop o.done).take 8)),
                    sos := decide (o.done = 0), eos := decide (o.rec_.size ≤ o.done + 8), nbytes := 0 } ∧
      (o.closing = true → x.done < o.rec_.size →
        exec (.fmtTxBeat a) s = .next (settle (setDsp n { d with tx := .skip, open_ := some x } s)))
      ∧ (o.closing = true → o.rec_.size ≤ x.done → alone → exec (.fmtTxBeat a) s = .next (settle
          (bump (dspPage n) 0 (setDsp n { d with tx := .none, open_ := none } s))))
      ∧ (o.closing = false → x.done ≠ o.upTo →
          exec (.fmtTxBeat a) s = .next (settle (setDsp n { d with open_ := some x } s)))
      ∧ (o.closing = false → x.done = o.upTo → o.upTo < o.rec_.size → o.cont = none →
          exec (.fmtTxBeat a) s = .next (settle (setDsp n { d with tx := .none, open_ := some y } s)))
      ∧ (o.closing = false → x.done = o.upTo → o.upTo < o.rec_.size → ∀ pos, o.cont = some pos →
          sampleCheck o.rec_ (o.nextWedge % max 1 (wedges s)) pos = 0 →
          let m := contBytes n o.rec_.head o.rec_.zone o.nextWedge (o.rec_.size - x.done) s
          let z : OpenSector := { y with upTo := x.done + m, nextWedge := o.nextWedge + 1, nextFrame := o.nextFrame + 1 }
          exec (.fmtTxBeat a) s = .next (settle (setDsp n { d with tx := .data, open_ := some z } s)))
      ∧ (o.closing = false → x.done = o.upTo → o.rec_.size ≤ o.upTo → alone →
          tagOpen o.rec_.tag s = true → (∀ r ∈ d.recs, r.tag = o.rec_.tag → r.dead = true) →
          ∃ v, exec (.fmtTxBeat a) s = .next (settle v) ∧ (dspOf n v).open_ = none ∧ (dspOf n v).tx = .none
            ∧ (tagOf o.rec_.tag v).state = .committed
            ∧ (tagOf o.rec_.tag v).status = (if (tagOf o.rec_.tag s).maxRung = 0 then 0x00 else 0x01)
            ∧ cntOf (dspPage n) 0 v = cntOf (dspPage n) 0 (bump (dspPage n) 0 s))

/-- Wedge decisions, the release and hold of sectors, and the formatter's beats. -/
def Obligations.SectorsReleased : Prop :=
  Claims.WedgeDecisionTaken ∧ Claims.SectorReleasedOrHeld ∧ Claims.BeatsAccepted

/-- 12 R298 to R301: FMT_RX_SECTOR. While the port is disabled a sector is discarded; without a decision, or where no
capturing stage claims it, counter 14 counts it; one more than the pattern starts in the wedge is RX_PROTOCOL: event 4,
the error with the wedge, counter 17; one with bad or too many bytes breaks the capture: event 5, the stage not
capturing; a good sector enters the stage's data at its place, where its codeword is encoded once whole, and counts on
counter 13; while ECC is disabled the encoding waits. -/
def Claims.SectorsCaptured : Prop :=
  ∀ (a : ActId) (bytes : List Byte) (bad : Bool) (s : State),
    let n := a.toNat
    let p := dspPage n
    let go := exec (.fmtRxSector a bytes bad) s
    (pageActive p s = false → go = .next (settle s))
    ∧ (pageActive p s = true → (dspOf n s).decision = none → go = .next (settle (bump p 14 s)))
    ∧ ∀ k, pageActive p s = true → (dspOf n s).decision = some k →
      let j := k.rx + 1
      let y : Decision := { k with rx := j }
      let u := setDsp n { dspOf n s with decision := some y } s
      let excess := (dspOf n s).armed.any fun x => x.capturing && decide (rxCount (tagOf x.tag s).entry k.wedge s < j)
      (excess = true → go = .next (settle
          (bump p 17 (raiseErr p 0x0100 (k.wedge % 4096) (raiseEvt p 4 u)))))
      ∧ (excess = false → rxClaim n k.wedge j s = none → go = .next (settle (bump p 14 u)))
      ∧ ∀ t, excess = false → rxClaim n k.wedge j s = some t →
        let e := (tagOf t s).entry
        let off := (rxSector e k.wedge j s - eSector e) * zSize n (eHead e) (eZone e) s
        let w := modProg t (fun b => { b with user := SMap.put (fun _ => []) b.user off bytes }) (bump p 13 u)
        ((bytes.length ≠ zSize n (eHead e) (eZone e) s ∨ bad = true) → ∃ v, go = .next (settle v)
            ∧ (hdrOf p v).evtPend.getLsbD 5 = true ∧ progOf t v = none
            ∧ (∀ x ∈ (dspOf n v).armed, x.tag = t → x.capturing = false))
        ∧ (bytes.length = zSize n (eHead e) (eZone e) s → bad = false →
            (∃ b ∈ ((progOf t s).map (·.user)).getD [], b.1 / 4096 = off / 4096) → stageLeft t w ≠ [] →
            go = .next (settle (if pageActive .ecc s then encodeRange t off bytes.length w
              else modTag t (fun x => { x with fetchWait := true }) w)))

/-- 02 R46: FIREFLY_PULSE inverts the actuator's bit of ff_pulse when its port is enabled, TMB is not OFF, and 128 cc
have passed since its last edge; otherwise nothing changes. -/
def Claims.FireflyPulses : Prop :=
  ∀ (a : ActId) (s : State),
    let n := a.toNat
    let due := pageActive (.dsp a) s = true ∧ s.tmb.state ≠ .off ∧ (dspOf n s).ffAt + 128 ≤ s.cc
    (¬due → exec (.fireflyPulse a) s = .next (settle s))
    ∧ (due → ∃ v, exec (.fireflyPulse a) s = .next (settle v) ∧ (dspOf n v).ffAt = s.cc
        ∧ (∀ i, i < 2 → v.pins.ffPulse.getLsbD i = (s.pins.ffPulse.getLsbD i != decide (i = n)))
        ∧ { v with dsp := s.dsp, pins := { v.pins with ffPulse := s.pins.ffPulse } } = s)

/-- Resolution of a DESTAGE, capture of sectors, the firefly pulse. -/
def Obligations.DiskPortEvents : Prop :=
  Claims.DestageResolved ∧ Claims.SectorsCaptured ∧ Claims.FireflyPulses

/-! ### Formats (10, 12) -/

/-- 10 R231: CRC-32C in its standard form: the CRC of no bytes is 0; with the initial value and the final XOR of all
ones, each byte enters least significant bit first and each bit shifts in the reflected polynomial 0x1EDC_6F41;
"123456789" gives 0xE306_9283. USER_CRC in the metadata is that of the 4,096 user bytes, and map-copy headers use the
same form. -/
def Obligations.UserCrcIsStandard : Prop :=
  let poly : Word32 := 0x82F63B78
  let step := fun (c : Word32) => (c >>> 1) ^^^ (if c.getLsbD 0 then poly else 0)
  (∀ i, i < 32 → poly.getLsbD i = (0x1EDC6F41 : Word32).getLsbD (31 - i))
  ∧ crc32c [] = 0
  ∧ (∀ (l : List Byte) (b : Byte), ~~~(crc32c (l ++ [b]))
      = step (step (step (step (step (step (step (step (~~~(crc32c l) ^^^ b.setWidth 32)))))))))
  ∧ crc32c [0x31, 0x32, 0x33, 0x34, 0x35, 0x36, 0x37, 0x38, 0x39] = 0xE3069283
  ∧ (∀ (codeB slc : Bool) (echo idx stream : Nat) (ts : Stamp) (user : List Byte),
      leNat (((metadata codeB echo slc idx ts stream user).drop 16).take 4) = (crc32c user).toNat)
  ∧ (∀ (k : Nat) (gen : Word32) (l : List Word32),
      let b := copyImage k gen l
      leNat ((b.drop 12).take 4) = (crc32c (b.take 12 ++ b.drop 64)).toNat)

/-- 12 R285: the binary track b of a sample with the Gray-coded track g in servo_pos[35:12] is b[23] = g[23] and b[k]
= b[k + 1] XOR g[k] for k = 22 down to 0. The comparisons of a hold check and of the start and break of a capture use
b. -/
def Obligations.TrackIsGrayDecoded : Prop :=
  ∀ (p : BitVec 44),
    let g := posGray p
    let b := posTrack p
    b < 2 ^ 24 ∧ b.testBit 23 = g.testBit 23
    ∧ (∀ k, k < 23 → b.testBit k = (b.testBit (k + 1) != g.testBit k))
    ∧ (∀ (r : Rec) (wedge : Nat), sampleCheck r wedge (some p) = 0 → r.track = b)
    ∧ (∀ (r : Rec), posUsable p = true → posHead p = r.head → posWedge p = r.wedge →
        (sampleCheck r r.wedge (some p) = if b = r.track then 0 else 1))
    ∧ (∀ (e : Entry) (wedge : Nat), captureStarts e wedge (some p) = true → eTrack e = b)
    ∧ (∀ (t wedge : Nat) (s : State), captureBreaks t wedge (some p) s = false →
        eTrack (tagOf t s).entry = b
        ∨ ∀ i ∈ stageLeft t s, sectorOn (tagOf t s).entry (eSector (tagOf t s).entry + i) wedge s = false)

/-! ### Every command has its effect somewhere -/

/-- The command ends in a next state, of which more is said. -/
def completes (i : Instr) (s : State) (p : State → Prop) : Prop := ∃ v, exec i s = .next (settle v) ∧ p v

/-- What SCH and the buses complete. START_GRANT (07 R147): a granted operation, no program, that merges with none
stands on its die. RESUME (07 R158), STATUS_POLL (08 R171), a data-in's PLANNED_TRANSFER_START (07 R151) and LATE_FILL
of a suspend command whose request is taken (07 R155): the action is on the bus. DATA_IN_RESTART (07 R149): the
data-in begins again. SUSPEND_LATE (07 R160): event 3. DIE_TIMEOUT (08 R173): DIE_QUARANTINED. LADDER_RETEST (11
R274): the rung that fits is taken. BUS_ACTION_END of a suspend command (09 R199): SUSPENDING. -/
def Claims.DiesAndBusesComplete : Prop :=
  ∀ (d : DieId) (s : State),
    let n := d.toNat
    let c := n / 32
    let ch : ChnId := BitVec.ofNat 7 c
    let x := dieOf n s
    (∀ it, startChoice n s = some it → granted n it s = true → mergeSet n it s = [] → it.kind ≠ .program →
      it.kind ≠ .jobProgram → completes (.startGrant d) s fun v => ((dieOf n v).run.map (·.ids)) = some [it.id])
    ∧ (resumeWanted n s = true → suspendFirst c s = some n →
      completes (.resume d) s fun v => (chanOf c v).act = some (.resumeCmd n, s.cc))
    ∧ (∀ o id r, x.abandoned = some o → o.ids = id :: r → inAgain n s = true → granted n (restartItem o s) s = true →
      completes (.dataInRestart d) s fun v => (dieOf n v).dataIn = some (o, 0))
    ∧ (∀ e, entryDue c s = some e → busFree c s = true → busServes c s = true → xferReady c e.x s = true →
      e.x.kind = 1 → (∀ u ∈ s.mem.upsets, u.cls ≠ 0) →
      completes (.plannedTransferStart ch) s fun v => (chanOf c v).act = some (.transfer e.x, s.cc))
    ∧ (busFree c s = true → (chanOf c s).own = .owned → busServes c s = true → s.pwr.resetDies = [] →
      candsOf c s = [] → burinDrives c s = true → chanDies_ c s = [n] → x.dataIn = none → x.state = .suspReq →
      x.suspTaken = true → trigger n s = true → suspAllowed n s = true → busTakes c (.suspendCmd n) s = true →
      completes (.lateFill ch) s fun v => (chanOf c v).act = some (.suspendCmd n, s.cc))
    ∧ (x.state = .suspending → x.suspLate = false → x.suspSince + 2 * pfSusMax (dieProf n s) s ≤ s.cc →
      completes (.suspendLate d) s fun v => (dieOf n v).suspLate = true ∧ (hdrOf .sch v).evtPend.getLsbD 3 = true)
    ∧ (pollIsDue n s = true → shortFirst c s = none →
      completes (.statusPoll d) s fun v => (chanOf c v).act = some (.statusPoll n, s.cc))
    ∧ (∀ o t, timedOut n s = true → x.run = some o → o.ids = [t] →
      (o.kind = .program ∨ o.kind = .erase ∨ o.kind = .sense) → t < 65536 → tagOpen t s = true →
      completes (.dieTimeout d) s fun v => (tagOf t v).state = .committed ∧ (tagOf t v).status = 0x30)
    ∧ (∀ (t : TagId) (q : Nat), retestNext s = some t.toNat →
      (let y := tagOf t.toNat s
       let u : State := { s with lvl := { s.lvl with retestAt := some s.cc } }
       (ladderNext y.entry y.key y.rung y.todo.length (allStriped t.toNat u) u).1) = .run q → q ≠ 5 →
      completes (.ladderRetest t) s fun v => (tagOf t.toNat v).rung = q ∧ (tagOf t.toNat v).ladderHeld = none)
    ∧ (∀ (a : ChnId) (data : List Byte) (o : DieOp) (t : Nat), cmdqOf a.toNat s = [] → (chanOf a.toNat s).own = .owned →
      (chanOf a.toNat s).census = none → s.sec.boot = .notStarted → s.pwr.step = .none → x.run = some o →
      (chanOf a.toNat s).act = some (.suspendCmd n, t) →
      completes (.busActionEnd a data) s fun v => (chanOf a.toNat v).act = none ∧ (dieOf n v).state = .suspending)

/-- What the engines and decoders complete. A word that runs and is no safe point (09 R198): CONT, JUMP, CALL, RETURN,
BRT, BRF set the PC, HALT halts; DISPATCH takes a job (09 R205). JOB_PRESENT (09 R203) presents, WAIT_TIMER_EXPIRY (09
R200) ends the count, DISP_SEL (09 R226) selects. CODEWORD_RECEIVED, erased (10 R240): ERASED_PAGE.
HARD_CORRECTION_END, SOFT_DECODE_END (10 R241, R245): the last codeword of a READ is forwarded. SOFT_DECODE_START
takes the request, STAGING_REGRANT (10 R249) a page's granules. -/
def Claims.EnginesAndDecodersComplete : Prop :=
  ∀ (e : Engine) (k : Bool) (s : State),
    let n := e.num
    let w := wordAt n k s
    let u := wordActs n k s
    let t := thrOf n k u
    let at_ := fun (a : BitVec 12) (v : State) => (thrOf n k v).pc = a
    let addr := BitVec.ofNat 12 (mAddr w)
    let c := condTrue n k (mCond w) (wordRead n k s)
    (mSafe w = false →
      (wordRuns 0 n k s → completes (.contWord e k) s (at_ (t.pc + 1)))
      ∧ (wordRuns 1 n k s → completes (.jumpWord e k) s (at_ addr))
      ∧ (wordRuns 3 n k s → completes (.callWord e k) s (at_ addr))
      ∧ (∀ a r, wordRuns 4 n k s → endsHandler t = false → t.stack = a :: r → completes (.returnWord e k) s (at_ a))
      ∧ (wordRuns 5 n k s → completes (.brtWord e k) s (at_ (if c then addr else t.pc + 1)))
      ∧ (wordRuns 6 n k s → completes (.brfWord e k) s (at_ (if c then t.pc + 1 else addr))))
    ∧ (wordRuns 7 n k s → completes (.haltWord e k) s fun v => (thrOf n k v).state = .halted)
    ∧ (∀ j, wordRuns 2 n k s → n ≠ 64 → t.stopping = false → reqAny n k u = false → t.offered = some j →
      completes (.dispatchWord e k) s fun v => (thrOf n k v).job = some j)
    ∧ (let x := thrOf n k s
      (∀ j r, x.offered = none → alive x = true → pageAnswers (enginePage n) s = true → n ≠ 64 → x.waiting = j :: r →
        completes (.jobPresent e k) s fun v => (thrOf n k v).offered = some j)
      ∧ (∀ m, x.timer = some m → m ≤ s.cc → completes (.waitTimerExpiry e k) s fun v => (thrOf n k v).timer = none))
    ∧ (∀ i : Byte, pageAnswers (enginePage n) s = true →
      completes (.dispSel e i) s fun v => regOf (enginePage n) oBurDispSel v = i.toNat)
    ∧ (∀ (ch : ChnId) (raw : List Byte) (x : Xfer) (t i : Nat) (r : List Nat) (y : Cw),
      let m := ch.toNat
      (chanOf m s).act = some (.transfer x, t) → x.cws = i :: r → x.kind ≠ 1 →
      cwAt x.id (m * 32 + x.die) x.plane i s = some y →
      rawJob x.id s = false → bootRead x.id s = false → bitAt (dpOf m y s) 5 = false → bitAt (dpOf m y s) 9 = true →
      idOp x.id s ≠ opCalibrate → isJob x.id = false → y.member = false → tagOpen x.id s = true → y.rung = 0 →
      pageActive .ecc s = true → zerosOf raw ≤ regFld .ecc oEccErasedThr 0 13 s →
      completes (.codewordReceived ch raw) s fun v => (tagOf x.id v).state = .committed ∧ (tagOf x.id v).status = 0x21)
    ∧ (∀ (ch : ChnId) (flips : List Nat) (id d p i : Nat) (r : List (Nat × Nat × Nat × Nat)) (y : Cw),
      stageOf ch.toNat s = (id, d, p, i) :: r → cwAt id d p i s = some y → pageActive .ecc s = true → y.member = false →
      syndromeZero (pfCodeB (dieProf d s) s) (flipBits y.bytes flips) = true →
      checkDecoded y (flipBits y.bytes flips) .corrected s = .corrected → bitAt y.dp 6 = true → lastOfRead id p i s →
      (readStaged id ((p * 4 + i) * 256) (y.gRead + y.gAcc) s).2 = false →
      completes (.hardCorrectionEnd ch flips) s fun v => (tagOf id v).todo = [] ∧ stageOf ch.toNat v = r)
    ∧ (∀ (b : BitVec 5) (q : SoftReq), softPick s = some q → softFree b.toNat s = true →
      completes (.softDecodeStart b) s fun v => ((softOf b.toNat v).map (·.req)) = some q)
    ∧ (∀ (b : BitVec 5) (flips : List Nat) (r : SoftRun) (y : Cw),
      let d := paDie (ePaddr (tagOf r.req.id s).entry)
      softOf b.toNat s = some r → r.dropped = false → pageActive .ecc s = true →
      cwAt r.req.id d r.req.plane r.req.idx s = some y → y.member = false →
      syndromeZero r.req.codeB (flipBits y.bytes flips) = true →
      checkDecoded y (flipBits y.bytes flips) .corrected s = .corrected → bitAt y.dp 6 = true →
      lastOfRead r.req.id r.req.plane r.req.idx s →
      (readStaged r.req.id ((r.req.plane * 4 + r.req.idx) * 256) y.gRead s).2 = false →
      completes (.softDecodeEnd b flips) s fun v => (tagOf r.req.id v).todo = [] ∧ softOf b.toNat v = none)
    ∧ (∀ t : Nat,
      let x := tagOf t s
      let g := pageGran (paDie (ePaddr x.entry)) s
      let held := ((progOf t s).map (·.granules)).getD 0
      fetchWaiters s = [t] → held / max 1 g + 1 = progPages x.entry s → isJob t = false → x.pageWait = none →
      x.dataLeft ≠ 0 → eOpcode x.entry ≠ opStage → (∀ j, (progOf t s).bind (toEncode j) = none) →
      (if eClass x.entry = clsEarly then grantEarly g s else grantOther g s) = true → pageActive .dpt s = true →
      pageActive .ecc s = true → completes .stagingRegrant s fun v => ((progOf t v).map (·.granules)) = some (held + g))

/-- What channels, levels and ports complete. CONTENTION (08 R191): pads released; its retest (08 R190), ZQ_UPDATE (08
R175), RETRAIN, RETRAIN_NOW (08 R177), TRAIN_SEL (08 R193) take effect. OWN_CMD_CLAIM, FORCE_CLAIM, RELEASE,
CLAIM_TIMEOUT, BACKOFF_END, TAKEOVER_END, RELEASE_COMPLETE (08 R187): the next state. LEVEL_LOAD, FACTORY_LOCK_SET,
TEMP_SAMPLE, TEMP_SEL (11 R259 to R261): load, lock, sample, selection. WEDGE_DECISION (12 R287) takes its frame,
FMT_TX_BEAT 8 bytes (R295), DESTAGE_RESOLVE gives frames (R289), FMT_RX_SECTOR captures (R298), FIREFLY_PULSE (02 R46)
makes an edge. -/
def Claims.ChannelsAndPortsComplete : Prop :=
  ∀ (c : ChnId) (s : State),
    let n := c.toNat
    let x := chanOf n s
    let on := pageActive (.chn c) s = true
    let csr := fun (i : Instr) (p : State → Prop) => ∃ v, exec i s = .next (settle (csrOk 0 v)) ∧ p v
    (∀ pads : BitVec 17, watched n s = true → pads ≠ 0 → blanked n s = false →
      completes (.contention c pads) s fun v =>
        (chanOf n v).driven = false ∧ (chanOf n v).collRun = min 255 (x.collRun + 1))
    ∧ (watched n s = true → x.early ≠ none → blanked n s = false →
      completes (.earlyContentionRetest c 0) s fun v => chanOf n v = { x with early := none })
    ∧ (∀ g : GroupId, groupReleased g.toNat s = true → corePowered s = true → s.pwr.state ≠ .doze → s.pwr.state ≠ .waking →
      (groupOf g.toNat s).zqDue ≤ s.cc →
      completes (.zqUpdate g) s fun v => ∀ k, k / 16 = g.toNat → (chanOf k v).zqPend = true)
    ∧ (retrainDue n s = true → x.retrain = [] → completes (.retrain c) s fun v => (chanOf n v).retrainAt = s.cc)
    ∧ (pageAnswers (.chn c) s = true →
      (x.own = .owned → on → x.retrain = [] → csr (.retrainNow c) fun v => (chanOf n v).retrainAt = s.cc)
      ∧ (∀ vol : BitVec 3, csr (.trainSel c vol) fun v => regOf (.chn c) oChnTrainSel v = vol.toNat)
      ∧ (on → x.own = .halted → x.shared = false →
        csr (.ownCmdClaim c) (fun v => (chanOf n v).own = .takeover)
        ∧ csr (.ownCmdForceClaim c) (fun v => (chanOf n v).own = .takeover))
      ∧ (on → x.own = .owned → csr (.ownCmdRelease c) fun v => (chanOf n v).own = .releasing))
    ∧ (x.own = .claiming → x.ownSince + usCc (regFld .peer oPeerCfg 0 16 s) ≤ s.cc →
      completes (.claimTimeout c) s fun v => (chanOf n v).own = .foreign)
    ∧ (x.own = .backoff → x.ownSince + usCc 16 ≤ s.cc → x.shared = false →
      completes (.backoffEnd c) s fun v => (chanOf n v).own = .takeover)
    ∧ (x.own = .takeover → x.take = none → busFree n s = true →
      completes (.takeoverEnd c) s fun v => (chanOf n v).own = .owned)
    ∧ (x.disabling = false → x.own = .releasing → x.rel = some .command → arrayOn n s = false → busFree n s = true →
      completes (.releaseComplete c) s fun v => (chanOf n v).own = .foreign ∧ (chanOf n v).driven = false)
    ∧ (∀ (block : BitVec 14) (d : DieId), pageAnswers .lvl s = true →
      (s.lvl.loadBusy = false → s.lvl.locked = false → csr (.levelLoad block d) fun v => v.lvl.loadBusy = true)
      ∧ csr .factoryLockSet (fun v => v.lvl.locked = true)
      ∧ csr (.tempSel d) (fun v => regOf .lvl oLvlTempSel v = d.toNat))
    ∧ (∀ d : DieId,
      let m := d.toNat
      let a := dieChannel m
      tempDue m s = true → dieQuiet m s = true → outPending m s = false → mayStart a s = true → burinDrives a s = true →
      s.pwr.state ≠ .doze → busTakes a (.feature m) s = true →
      completes (.tempSample d) s fun v => (chanOf a v).act = some (.feature m, s.cc))
    ∧ (∀ a : ActId,
      let m := a.toNat
      let y := dspOf m s
      (∀ f start r pos, y.frames = (f, start) :: r → decisionOf m f start s = some pos →
        completes (.wedgeDecision a) s fun v => (dspOf m v).frames = r)
      ∧ (∀ o, y.tx = .data → y.open_ = some o → o.closing = false → o.done + 8 < o.upTo →
        completes (.fmtTxBeat a) s fun v => ((dspOf m v).open_.map (·.done)) = some (o.done + 8))
      ∧ (∀ (b : ActId) (t : TagId) (q : Rec), a ≠ b → resolveDue m t.toNat s = [q] → resolveDue b.toNat t.toNat s = [] →
        syncValid m s = true → completes (.destageResolve t) s fun v =>
          ∀ r ∈ (dspOf m v).recs, r.base = q.base → r.frame ≠ none)
      ∧ (∀ (bytes : List Byte) (k : Decision) (t : Nat), pageActive (dspPage m) s = true → y.decision = some k →
        (y.armed.any fun z => z.capturing && decide (rxCount (tagOf z.tag s).entry k.wedge s < k.rx + 1)) = false →
        rxClaim m k.wedge (k.rx + 1) s = some t →
        let e := (tagOf t s).entry
        let z := zSize m (eHead e) (eZone e) s
        let off := (rxSector e k.wedge (k.rx + 1) s - eSector e) * z
        let user := ((progOf t s).map (·.user)).getD []
        bytes.length = z → (∃ b ∈ user, b.1 / 4096 = off / 4096) →
        stageLeft t (modProg t (fun b => { b with user := SMap.put (fun _ => []) b.user off bytes }) s) ≠ [] →
        completes (.fmtRxSector a bytes false) s fun v =>
          ((progOf t v).map fun b => SMap.get (fun _ => []) b.user off) = some bytes)
      ∧ (pageActive (.dsp a) s = true → s.tmb.state ≠ .off → y.ffAt + 128 ≤ s.cc →
        completes (.fireflyPulse a) s fun v => v.pins.ffPulse.getLsbD m = !s.pins.ffPulse.getLsbD m))


/-- Events and channel, engine and level commands complete: each has its own effect where the spec lets it run. -/
def Obligations.EventsComplete : Prop :=
  Claims.DiesAndBusesComplete ∧ Claims.EnginesAndDecodersComplete ∧ Claims.ChannelsAndPortsComplete
end

