-- ==== Sys2Proof/WellFormed.lean ====
section
/-!
DEFINITION. Which commands the outside can send: the bounds of their list operands. Every bit-vector operand is in
range by its width.
-/

namespace Sys2Proof

/-- A fabric read returns 1 to 64 beats (02 R33). -/
def beatsOk (beats : List (BitVec 512)) : Bool := decide (1 ≤ beats.length) && decide (beats.length ≤ 64)

/-- A bus action delivers at most the bytes of one data burst; a Code B codeword of 4,768 bytes is the longest
(10 Table 10.1). -/
def busBytesOk (bytes : List Byte) : Bool := decide (bytes.length ≤ 4768)

/-- A codeword leaves the pads as 4,640 bytes (Code A) or 4,768 bytes (Code B) (10 Table 10.1). -/
def codewordOk (bytes : List Byte) : Bool := decide (bytes.length = 4640) || decide (bytes.length = 4768)

/-- Bits that a decoder changes, ascending, inside the longer code of 38,144 bits (10 Table 10.1). -/
def flipsOk : Nat → List Nat → Bool
  | _, [] => true
  | b, f :: r => decide (b ≤ f) && decide (f < 38144) && flipsOk (f + 1) r

/-- A sector on fmt_rx is at most 65,536 bytes long on the port. -/
def sectorOk (bytes : List Byte) : Bool := decide (bytes.length ≤ 65536)

/-- What the outside can send. -/
def Instr.wellFormed : Instr → Bool
  | .pollData _ _ b _ => beatsOk b
  | .entryUnitData _ _ b _ => beatsOk b
  | .prefetchData _ _ b _ => beatsOk b
  | .contextData _ _ b _ => beatsOk b
  | .headData _ _ b _ => beatsOk b
  | .programData _ _ b _ => beatsOk b
  | .loadData _ _ b _ => beatsOk b
  | .busActionEnd _ b => busBytesOk b
  | .codewordReceived _ b => codewordOk b
  | .hardCorrectionEnd _ f => flipsOk 0 f
  | .softDecodeEnd _ f => flipsOk 0 f
  | .fmtRxSector _ b _ => sectorOk b
  | _ => true

end Sys2Proof
end

