-- ==== Sys2Proof/Laws/PerInstr.lean ====
section
/-!
SUPPORT. For every command: what a well-formed one bounds. The lists a command carries fit what the block can take at
one time: 64 beats on the fabric, one codeword or data burst on a channel, 65,536 bytes on a sector port.
-/

namespace Sys2Proof.Laws.Bounds

/-- How long the list is that a command carries; 0 where it carries none. -/
def listLength : Instr → Nat
  | .pollData _ _ b _ => b.length
  | .entryUnitData _ _ b _ => b.length
  | .prefetchData _ _ b _ => b.length
  | .contextData _ _ b _ => b.length
  | .headData _ _ b _ => b.length
  | .programData _ _ b _ => b.length
  | .loadData _ _ b _ => b.length
  | .busActionEnd _ b => b.length
  | .codewordReceived _ b => b.length
  | .hardCorrectionEnd _ f => f.length
  | .softDecodeEnd _ f => f.length
  | .fmtRxSector _ b _ => b.length
  | _ => 0

/-- A well-formed command carries at most 65,536 list elements. -/
def Statement (i : Instr) : Prop := i.wellFormed = true → listLength i ≤ 65536

theorem beatsOk_bound {b : List (BitVec 512)} (h : beatsOk b = true) : b.length ≤ 64 := by
  simp only [beatsOk, Bool.and_eq_true, decide_eq_true_eq] at h
  exact h.2

theorem flipsOk_bound {b : Nat} {f : List Nat} (hb : b ≤ 38144) (h : flipsOk b f = true) :
    f.length + b ≤ 38144 := by
  induction f generalizing b with
  | nil => simpa using hb
  | cons x r ih =>
    simp only [flipsOk, Bool.and_eq_true, decide_eq_true_eq] at h
    have := ih (b := x + 1) (by omega) h.2
    simp only [List.length_cons]
    omega

theorem codewordOk_bound {b : List Byte} (h : codewordOk b = true) : b.length ≤ 4768 := by
  simp only [codewordOk, Bool.or_eq_true, decide_eq_true_eq] at h
  omega

theorem por : Statement .por := fun _ => Nat.zero_le _
theorem sysReset : Statement .sysReset := fun _ => Nat.zero_le _
theorem swWarm : Statement .swWarm := fun _ => Nat.zero_le _
theorem swCold : Statement .swCold := fun _ => Nat.zero_le _
theorem frameWatchdog : Statement .frameWatchdog := fun _ => Nat.zero_le _
theorem memUe (cls : BitVec 3) (addr : BitVec 24) : Statement (.memUe cls addr) := fun _ => Nat.zero_le _
theorem fusePar (latched : Byte) : Statement (.fusePar latched) := fun _ => Nat.zero_le _
theorem resetRelease (boot : BitVec 2) (clk : BitVec 2) (peer : BitVec 2) (fuses : Byte) :
    Statement (.resetRelease boot clk peer fuses) := fun _ => Nat.zero_le _
theorem domainRelease : Statement .domainRelease := fun _ => Nat.zero_le _
theorem creditReturn (p : PortId) (stream : FabStream) : Statement (.creditReturn p stream) := fun _ => Nat.zero_le _
theorem fabIdle (p : PortId) : Statement (.fabIdle p) := fun _ => Nat.zero_le _
theorem pollDue (r : RingId) : Statement (.pollDue r) := fun _ => Nat.zero_le _
theorem pollData (p : PortId) (tkt : BitVec 9) (beats : List (BitVec 512)) (stat : BitVec 2) :
    Statement (.pollData p tkt beats stat) := fun h => Nat.le_trans (beatsOk_bound h) (by decide)
theorem entryUnitData (p : PortId) (tkt : BitVec 9) (beats : List (BitVec 512)) (stat : BitVec 2) :
    Statement (.entryUnitData p tkt beats stat) := fun h => Nat.le_trans (beatsOk_bound h) (by decide)
theorem prefetchData (p : PortId) (tkt : BitVec 9) (beats : List (BitVec 512)) (stat : BitVec 2) :
    Statement (.prefetchData p tkt beats stat) := fun h => Nat.le_trans (beatsOk_bound h) (by decide)
theorem contextData (p : PortId) (tkt : BitVec 9) (beats : List (BitVec 512)) (stat : BitVec 2) :
    Statement (.contextData p tkt beats stat) := fun h => Nat.le_trans (beatsOk_bound h) (by decide)
theorem contextWritebackResponse (p : PortId) (tkt : BitVec 9) (stat : BitVec 2) :
    Statement (.contextWritebackResponse p tkt stat) := fun _ => Nat.zero_le _
theorem headReread (r : RingId) : Statement (.headReread r) := fun _ => Nat.zero_le _
theorem headData (p : PortId) (tkt : BitVec 9) (beats : List (BitVec 512)) (stat : BitVec 2) :
    Statement (.headData p tkt beats stat) := fun h => Nat.le_trans (beatsOk_bound h) (by decide)
theorem pollDemandUpdate : Statement .pollDemandUpdate := fun _ => Nat.zero_le _
theorem activate (r : RingId) : Statement (.activate r) := fun _ => Nat.zero_le _
theorem fnReset (f : FnId) : Statement (.fnReset f) := fun _ => Nat.zero_le _
theorem fnResetDone (f : FnId) : Statement (.fnResetDone f) := fun _ => Nat.zero_le _
theorem invalHold (count : BitVec 15) (first : BitVec 15) : Statement (.invalHold count first) :=
    fun _ => Nat.zero_le _
theorem invalRelease (count : BitVec 15) (first : BitVec 15) : Statement (.invalRelease count first) :=
    fun _ => Nat.zero_le _
theorem read (r : RingId) : Statement (.read r) := fun _ => Nat.zero_le _
theorem readMp (r : RingId) : Statement (.readMp r) := fun _ => Nat.zero_le _
theorem program (r : RingId) : Statement (.program r) := fun _ => Nat.zero_le _
theorem erase (r : RingId) : Statement (.erase r) := fun _ => Nat.zero_le _
theorem destage (r : RingId) : Statement (.destage r) := fun _ => Nat.zero_le _
theorem stage (r : RingId) : Statement (.stage r) := fun _ => Nat.zero_le _
theorem copy (r : RingId) : Statement (.copy r) := fun _ => Nat.zero_le _
theorem fence (r : RingId) : Statement (.fence r) := fun _ => Nat.zero_le _
theorem nop (r : RingId) : Statement (.nop r) := fun _ => Nat.zero_le _
theorem census (r : RingId) : Statement (.census r) := fun _ => Nat.zero_le _
theorem calibrate (r : RingId) : Statement (.calibrate r) := fun _ => Nat.zero_le _
theorem featureGet (r : RingId) : Statement (.featureGet r) := fun _ => Nat.zero_le _
theorem featureSet (r : RingId) : Statement (.featureSet r) := fun _ => Nat.zero_le _
theorem raw (r : RingId) : Statement (.raw r) := fun _ => Nat.zero_le _
theorem fenceCommit (t : TagId) : Statement (.fenceCommit t) := fun _ => Nat.zero_le _
theorem expiry (t : TagId) : Statement (.expiry t) := fun _ => Nat.zero_le _
theorem completionWrite (r : RingId) : Statement (.completionWrite r) := fun _ => Nat.zero_le _
theorem completionWriteResponse (p : PortId) (tkt : BitVec 9) (stat : BitVec 2) :
    Statement (.completionWriteResponse p tkt stat) := fun _ => Nat.zero_le _
theorem dataWriteResponse (p : PortId) (tkt : BitVec 9) (stat : BitVec 2) :
    Statement (.dataWriteResponse p tkt stat) := fun _ => Nat.zero_le _
theorem programData (p : PortId) (tkt : BitVec 9) (beats : List (BitVec 512)) (stat : BitVec 2) :
    Statement (.programData p tkt beats stat) := fun h => Nat.le_trans (beatsOk_bound h) (by decide)
theorem earlyPop : Statement .earlyPop := fun _ => Nat.zero_le _
theorem tagSel (t : TagId) : Statement (.tagSel t) := fun _ => Nat.zero_le _
theorem frameTick : Statement .frameTick := fun _ => Nat.zero_le _
theorem planPublish (c : ChnId) : Statement (.planPublish c) := fun _ => Nat.zero_le _
theorem planOverrun : Statement .planOverrun := fun _ => Nat.zero_le _
theorem checkpointMiss (b : BurId) : Statement (.checkpointMiss b) := fun _ => Nat.zero_le _
theorem planAdopt (c : ChnId) : Statement (.planAdopt c) := fun _ => Nat.zero_le _
theorem planSel (c : ChnId) : Statement (.planSel c) := fun _ => Nat.zero_le _
theorem dieSel (d : DieId) : Statement (.dieSel d) := fun _ => Nat.zero_le _
theorem wedgeTick : Statement .wedgeTick := fun _ => Nat.zero_le _
theorem servoSample (a : ActId) (pos : BitVec 44) : Statement (.servoSample a pos) := fun _ => Nat.zero_le _
theorem sampleWaitExpiry : Statement .sampleWaitExpiry := fun _ => Nat.zero_le _
theorem miss : Statement .miss := fun _ => Nat.zero_le _
theorem holdExpired : Statement .holdExpired := fun _ => Nat.zero_le _
theorem acquireTimeout : Statement .acquireTimeout := fun _ => Nat.zero_le _
theorem frameWrite (frame : Word32) : Statement (.frameWrite frame) := fun _ => Nat.zero_le _
theorem startGrant (d : DieId) : Statement (.startGrant d) := fun _ => Nat.zero_le _
theorem resume (d : DieId) : Statement (.resume d) := fun _ => Nat.zero_le _
theorem dataInRestart (d : DieId) : Statement (.dataInRestart d) := fun _ => Nat.zero_le _
theorem plannedTransferStart (c : ChnId) : Statement (.plannedTransferStart c) := fun _ => Nat.zero_le _
theorem lateFill (c : ChnId) : Statement (.lateFill c) := fun _ => Nat.zero_le _
theorem suspendLate (d : DieId) : Statement (.suspendLate d) := fun _ => Nat.zero_le _
theorem statusPoll (d : DieId) : Statement (.statusPoll d) := fun _ => Nat.zero_le _
theorem dieTimeout (d : DieId) : Statement (.dieTimeout d) := fun _ => Nat.zero_le _
theorem ladderRetest (t : TagId) : Statement (.ladderRetest t) := fun _ => Nat.zero_le _
theorem jobPresent (e : Engine) (k : Bool) : Statement (.jobPresent e k) := fun _ => Nat.zero_le _
theorem contWord (e : Engine) (k : Bool) : Statement (.contWord e k) := fun _ => Nat.zero_le _
theorem jumpWord (e : Engine) (k : Bool) : Statement (.jumpWord e k) := fun _ => Nat.zero_le _
theorem dispatchWord (e : Engine) (k : Bool) : Statement (.dispatchWord e k) := fun _ => Nat.zero_le _
theorem callWord (e : Engine) (k : Bool) : Statement (.callWord e k) := fun _ => Nat.zero_le _
theorem returnWord (e : Engine) (k : Bool) : Statement (.returnWord e k) := fun _ => Nat.zero_le _
theorem brtWord (e : Engine) (k : Bool) : Statement (.brtWord e k) := fun _ => Nat.zero_le _
theorem brfWord (e : Engine) (k : Bool) : Statement (.brfWord e k) := fun _ => Nat.zero_le _
theorem haltWord (e : Engine) (k : Bool) : Statement (.haltWord e k) := fun _ => Nat.zero_le _
theorem waitTimerExpiry (e : Engine) (k : Bool) : Statement (.waitTimerExpiry e k) := fun _ => Nat.zero_le _
theorem busActionEnd (c : ChnId) (data : List Byte) : Statement (.busActionEnd c data) :=
    fun h => Nat.le_trans (of_decide_eq_true h) (by decide)
theorem codewordReceived (c : ChnId) (bytes : List Byte) : Statement (.codewordReceived c bytes) :=
    fun h => Nat.le_trans (codewordOk_bound h) (by decide)
theorem hardCorrectionEnd (c : ChnId) (flips : List Nat) : Statement (.hardCorrectionEnd c flips) :=
    fun h => Nat.le_trans (flipsOk_bound (by decide) h) (by decide)
theorem softDecodeStart (u : BitVec 5) : Statement (.softDecodeStart u) := fun _ => Nat.zero_le _
theorem softDecodeEnd (u : BitVec 5) (flips : List Nat) : Statement (.softDecodeEnd u flips) :=
    fun h => Nat.le_trans (flipsOk_bound (by decide) h) (by decide)
theorem stagingRegrant : Statement .stagingRegrant := fun _ => Nat.zero_le _
theorem contention (c : ChnId) (pads : BitVec 17) : Statement (.contention c pads) := fun _ => Nat.zero_le _
theorem earlyContentionRetest (c : ChnId) (pads : BitVec 17) : Statement (.earlyContentionRetest c pads) :=
    fun _ => Nat.zero_le _
theorem zqUpdate (g : GroupId) : Statement (.zqUpdate g) := fun _ => Nat.zero_le _
theorem retrain (c : ChnId) : Statement (.retrain c) := fun _ => Nat.zero_le _
theorem retrainNow (c : ChnId) : Statement (.retrainNow c) := fun _ => Nat.zero_le _
theorem trainSel (c : ChnId) (vol : BitVec 3) : Statement (.trainSel c vol) := fun _ => Nat.zero_le _
theorem ownCmdClaim (c : ChnId) : Statement (.ownCmdClaim c) := fun _ => Nat.zero_le _
theorem ownCmdRelease (c : ChnId) : Statement (.ownCmdRelease c) := fun _ => Nat.zero_le _
theorem ownCmdForceClaim (c : ChnId) : Statement (.ownCmdForceClaim c) := fun _ => Nat.zero_le _
theorem claim (msg : Word64) : Statement (.claim msg) := fun _ => Nat.zero_le _
theorem grant (msg : Word64) : Statement (.grant msg) := fun _ => Nat.zero_le _
theorem release (msg : Word64) : Statement (.release msg) := fun _ => Nat.zero_le _
theorem heartbeatInfo (msg : Word64) : Statement (.heartbeatInfo msg) := fun _ => Nat.zero_le _
theorem takeoverNotice (msg : Word64) : Statement (.takeoverNotice msg) := fun _ => Nat.zero_le _
theorem msgError (msg : Word64) (stop : Bool) : Statement (.msgError msg stop) := fun _ => Nat.zero_le _
theorem messageSend : Statement .messageSend := fun _ => Nat.zero_le _
theorem heartbeatInfoSend : Statement .heartbeatInfoSend := fun _ => Nat.zero_le _
theorem heartbeat : Statement .heartbeat := fun _ => Nat.zero_le _
theorem peerHbEdge : Statement .peerHbEdge := fun _ => Nat.zero_le _
theorem peerLost : Statement .peerLost := fun _ => Nat.zero_le _
theorem claimTimeout (c : ChnId) : Statement (.claimTimeout c) := fun _ => Nat.zero_le _
theorem backoffEnd (c : ChnId) : Statement (.backoffEnd c) := fun _ => Nat.zero_le _
theorem releaseComplete (c : ChnId) : Statement (.releaseComplete c) := fun _ => Nat.zero_le _
theorem takeoverEnd (c : ChnId) : Statement (.takeoverEnd c) := fun _ => Nat.zero_le _
theorem dispSel (e : Engine) (idx : Byte) : Statement (.dispSel e idx) := fun _ => Nat.zero_le _
theorem loadStart : Statement .loadStart := fun _ => Nat.zero_le _
theorem loadData (p : PortId) (tkt : BitVec 9) (beats : List (BitVec 512)) (stat : BitVec 2) :
    Statement (.loadData p tkt beats stat) := fun h => Nat.le_trans (beatsOk_bound h) (by decide)
theorem loadVerifyEnd : Statement .loadVerifyEnd := fun _ => Nat.zero_le _
theorem bootFetchTimeout : Statement .bootFetchTimeout := fun _ => Nat.zero_le _
theorem rollAdv (target : BitVec 7) : Statement (.rollAdv target) := fun _ => Nat.zero_le _
theorem fuseBurn : Statement .fuseBurn := fun _ => Nat.zero_le _
theorem unlock (key : BitVec 16) : Statement (.unlock key) := fun _ => Nat.zero_le _
theorem rawStart (reg : RawReg) (data : Word64) : Statement (.rawStart reg data) := fun _ => Nat.zero_le _
theorem rawWaitTimeout : Statement .rawWaitTimeout := fun _ => Nat.zero_le _
theorem levelLoad (block : BitVec 14) (d : DieId) : Statement (.levelLoad block d) := fun _ => Nat.zero_le _
theorem factoryLockSet : Statement .factoryLockSet := fun _ => Nat.zero_le _
theorem tempSample (d : DieId) : Statement (.tempSample d) := fun _ => Nat.zero_le _
theorem tempSel (d : DieId) : Statement (.tempSel d) := fun _ => Nat.zero_le _
theorem destageResolve (t : TagId) : Statement (.destageResolve t) := fun _ => Nat.zero_le _
theorem wedgeDecision (a : ActId) : Statement (.wedgeDecision a) := fun _ => Nat.zero_le _
theorem fmtTxBeat (a : ActId) : Statement (.fmtTxBeat a) := fun _ => Nat.zero_le _
theorem fmtRxSector (a : ActId) (bytes : List Byte) (bad : Bool) : Statement (.fmtRxSector a bytes bad) :=
    fun h => of_decide_eq_true h
theorem fireflyPulse (a : ActId) : Statement (.fireflyPulse a) := fun _ => Nat.zero_le _
theorem isenseStrobe (g : GroupId) (code : BitVec 12) : Statement (.isenseStrobe g code) := fun _ => Nat.zero_le _
theorem railCmdOn (g : GroupId) : Statement (.railCmdOn g) := fun _ => Nat.zero_le _
theorem railCmdOff (g : GroupId) : Statement (.railCmdOff g) := fun _ => Nat.zero_le _
theorem railPgoodRise (g : GroupId) : Statement (.railPgoodRise g) := fun _ => Nat.zero_le _
theorem railPgoodFall (g : GroupId) : Statement (.railPgoodFall g) := fun _ => Nat.zero_le _
theorem railTimeout (g : GroupId) : Statement (.railTimeout g) := fun _ => Nat.zero_le _
theorem railUp (g : GroupId) : Statement (.railUp g) := fun _ => Nat.zero_le _
theorem stateCmdRun : Statement .stateCmdRun := fun _ => Nat.zero_le _
theorem stateCmdDoze : Statement .stateCmdDoze := fun _ => Nat.zero_le _
theorem stateCmdRetain : Statement .stateCmdRetain := fun _ => Nat.zero_le _
theorem stateCmdCicada : Statement .stateCmdCicada := fun _ => Nat.zero_le _
theorem wakingEnd : Statement .wakingEnd := fun _ => Nat.zero_le _
theorem enteringEnd : Statement .enteringEnd := fun _ => Nat.zero_le _
theorem wakeReq (boot : BitVec 2) (clk : BitVec 2) (peer : BitVec 2) (fuses : Byte) :
    Statement (.wakeReq boot clk peer fuses) := fun _ => Nat.zero_le _
theorem wakeTimer (boot : BitVec 2) (clk : BitVec 2) (peer : BitVec 2) (fuses : Byte) :
    Statement (.wakeTimer boot clk peer fuses) := fun _ => Nat.zero_le _
theorem pfailWarn : Statement .pfailWarn := fun _ => Nat.zero_le _
theorem drainLimit : Statement .drainLimit := fun _ => Nat.zero_le _
theorem lwLimit : Statement .lwLimit := fun _ => Nat.zero_le _
theorem mapLoad : Statement .mapLoad := fun _ => Nat.zero_le _
theorem mapInit : Statement .mapInit := fun _ => Nat.zero_le _
theorem mapWrite : Statement .mapWrite := fun _ => Nat.zero_le _
theorem mapResolve (arg : BitVec 2) : Statement (.mapResolve arg) := fun _ => Nat.zero_le _
theorem mapRecover (arg : BitVec 2) : Statement (.mapRecover arg) := fun _ => Nat.zero_le _
theorem jrnlInit : Statement .jrnlInit := fun _ => Nat.zero_le _
theorem copiesResolved : Statement .copiesResolved := fun _ => Nat.zero_le _
theorem copiesWritten : Statement .copiesWritten := fun _ => Nat.zero_le _
theorem recoverDone : Statement .recoverDone := fun _ => Nat.zero_le _
theorem markAddGrown (d : DieId) (plane : BitVec 2) (block : BitVec 14) :
    Statement (.markAddGrown d plane block) := fun _ => Nat.zero_le _
theorem markAddFactory (d : DieId) (plane : BitVec 2) (block : BitVec 14) :
    Statement (.markAddFactory d plane block) := fun _ => Nat.zero_le _
theorem markRemove (d : DieId) (plane : BitVec 2) (block : BitVec 14) :
    Statement (.markRemove d plane block) := fun _ => Nat.zero_le _
theorem rosterWrite (value : Word64) : Statement (.rosterWrite value) := fun _ => Nat.zero_le _
theorem jrnlBatchClose : Statement .jrnlBatchClose := fun _ => Nat.zero_le _
theorem jrnlConfirmDue : Statement .jrnlConfirmDue := fun _ => Nat.zero_le _
theorem jrnlPageDone : Statement .jrnlPageDone := fun _ => Nat.zero_le _
theorem claimRead (t : TgtId) : Statement (.claimRead t) := fun _ => Nat.zero_le _
theorem complete (t : TgtId) (id : BitVec 11) : Statement (.complete t id) := fun _ => Nat.zero_le _
theorem unwind (t : TgtId) : Statement (.unwind t) := fun _ => Nat.zero_le _
theorem stickyClear (t : TgtId) : Statement (.stickyClear t) := fun _ => Nat.zero_le _
theorem fatalForce : Statement .fatalForce := fun _ => Nat.zero_le _
theorem fatalClear : Statement .fatalClear := fun _ => Nat.zero_le _
theorem noteRead : Statement .noteRead := fun _ => Nat.zero_le _
theorem noteMark : Statement .noteMark := fun _ => Nat.zero_le _
theorem noteRewind : Statement .noteRewind := fun _ => Nat.zero_le _
theorem noteRelease : Statement .noteRelease := fun _ => Nat.zero_le _
theorem logClear : Statement .logClear := fun _ => Nat.zero_le _
theorem logLostClear : Statement .logLostClear := fun _ => Nat.zero_le _
theorem ceTotalClear : Statement .ceTotalClear := fun _ => Nat.zero_le _
theorem logParityFail (entry : BitVec 4) : Statement (.logParityFail entry) := fun _ => Nat.zero_le _
theorem scrubStart (count : BitVec 24) : Statement (.scrubStart count) := fun _ => Nat.zero_le _
theorem scrubRead (found : ScrubFind) : Statement (.scrubRead found) := fun _ => Nat.zero_le _
theorem remapCmd (cls : BitVec 3) (index : BitVec 24) : Statement (.remapCmd cls index) := fun _ => Nat.zero_le _
theorem ctrlEnable (page : Page) (enable : Bool) : Statement (.ctrlEnable page enable) := fun _ => Nat.zero_le _
theorem l1Reset (page : Page) : Statement (.l1Reset page) := fun _ => Nat.zero_le _
theorem errorClear (page : Page) : Statement (.errorClear page) := fun _ => Nat.zero_le _
theorem evtPendClear (page : Page) (bits : Word32) : Statement (.evtPendClear page bits) := fun _ => Nat.zero_le _
theorem pageLock (page : Page) : Statement (.pageLock page) := fun _ => Nat.zero_le _
theorem windowWrite (addr : BitVec 24) (data : Word64) (strb : Byte) :
    Statement (.windowWrite addr data strb) := fun _ => Nat.zero_le _
theorem registerWrite (addr : BitVec 24) (data : Word64) (strb : Byte) :
    Statement (.registerWrite addr data strb) := fun _ => Nat.zero_le _
theorem nonReferenceWedgeTick : Statement .nonReferenceWedgeTick := fun _ => Nat.zero_le _

end Sys2Proof.Laws.Bounds
end

