-- ==== Sys2Proof/Laws/SMap.lean ====
section
/-!
SUPPORT. Laws of the sparse map: a read after a write, and that a write keeps the canonical form.
-/

namespace Sys2Proof

theorem SMap.get_nil {α : Type} (d : Nat → α) (k : Nat) : SMap.get d [] k = d k := rfl

/-- The key that was taken out reads as its default. -/
theorem SMap.get_erase_same {α : Type} (d : Nat → α) (m : SMap α) (k : Nat) :
    SMap.get d (SMap.erase k m) k = d k := by
  induction m with
  | nil => rfl
  | cons e r ih =>
    obtain ⟨j, v⟩ := e
    by_cases h : j = k <;> simp [SMap.erase, SMap.get, h, ih]

/-- Another key reads as before. -/
theorem SMap.get_erase_other {α : Type} (d : Nat → α) (m : SMap α) {k l : Nat} (h : l ≠ k) :
    SMap.get d (SMap.erase k m) l = SMap.get d m l := by
  induction m with
  | nil => rfl
  | cons e r ih =>
    obtain ⟨j, v⟩ := e
    by_cases hj : j = k
    · have : j ≠ l := fun x => h (x.symm.trans hj)
      simp [SMap.erase, SMap.get, hj, ih]
      simp [show ¬ k = l from fun x => h x.symm]
    · simp [SMap.erase, SMap.get, hj, ih]

theorem SMap.get_insert_same {α : Type} (d : Nat → α) (m : SMap α) (k : Nat) (v : α)
    (h : ∀ e ∈ m, e.1 ≠ k) : SMap.get d (SMap.insert k v m) k = v := by
  induction m with
  | nil => simp [SMap.insert, SMap.get]
  | cons e r ih =>
    obtain ⟨j, w⟩ := e
    have hj : j ≠ k := h (j, w) (by simp)
    by_cases hlt : k < j
    · simp [SMap.insert, SMap.get, hlt]
    · simp only [SMap.insert, hlt, if_false, SMap.get, hj]
      exact ih fun e he => h e (by simp [he])

theorem SMap.get_insert_other {α : Type} (d : Nat → α) (m : SMap α) {k l : Nat} (v : α) (h : l ≠ k) :
    SMap.get d (SMap.insert k v m) l = SMap.get d m l := by
  induction m with
  | nil => simp [SMap.insert, SMap.get, h.symm]
  | cons e r ih =>
    obtain ⟨j, w⟩ := e
    by_cases hlt : k < j
    · simp [SMap.insert, SMap.get, hlt, h.symm]
    · simp [SMap.insert, SMap.get, hlt, ih]

theorem SMap.erase_no_key {α : Type} (m : SMap α) (k : Nat) : ∀ e ∈ SMap.erase k m, e.1 ≠ k := by
  induction m with
  | nil => simp [SMap.erase]
  | cons e r ih =>
    obtain ⟨j, v⟩ := e
    by_cases h : j = k
    · simpa [SMap.erase, h] using ih
    · intro e he
      simp only [SMap.erase, h, if_false, List.mem_cons] at he
      rcases he with rfl | he
      · exact h
      · exact ih e he

/-- A read of the key just written gives the value written. -/
@[simp] theorem SMap.get_put_same {α : Type} [DecidableEq α] (d : Nat → α) (m : SMap α) (k : Nat) (v : α) :
    SMap.get d (SMap.put d m k v) k = v := by
  unfold SMap.put
  split
  · rename_i h
    rw [SMap.get_erase_same, h]
  · exact SMap.get_insert_same d _ k v (SMap.erase_no_key m k)

/-- A read of any other key gives what it gave before. -/
theorem SMap.get_put_other {α : Type} [DecidableEq α] (d : Nat → α) (m : SMap α) {k l : Nat} (v : α) (h : l ≠ k) :
    SMap.get d (SMap.put d m k v) l = SMap.get d m l := by
  unfold SMap.put
  split
  · exact SMap.get_erase_other d m h
  · rw [SMap.get_insert_other d _ v h, SMap.get_erase_other d m h]

/-- Both at once. -/
theorem SMap.get_put {α : Type} [DecidableEq α] (d : Nat → α) (m : SMap α) (k l : Nat) (v : α) :
    SMap.get d (SMap.put d m k v) l = if l = k then v else SMap.get d m l := by
  by_cases h : l = k
  · subst h; simp
  · simp [h, SMap.get_put_other d m v h]

/-! ### The canonical form -/

/-- Every key of a sorted map is at least its bound. -/
theorem SMap.sortedFrom_bound {α : Type} (b : Nat) (m : SMap α) (h : SMap.sortedFrom b m = true) :
    ∀ e ∈ m, b ≤ e.1 := by
  induction m generalizing b with
  | nil => simp
  | cons e r ih =>
    obtain ⟨j, v⟩ := e
    simp only [SMap.sortedFrom, Bool.and_eq_true, decide_eq_true_eq] at h
    intro e he
    simp only [List.mem_cons] at he
    rcases he with rfl | he
    · exact h.1
    · have := ih (j + 1) h.2 e he
      omega

theorem SMap.sortedFrom_mono {α : Type} {a b : Nat} (m : SMap α) (hab : a ≤ b) (h : SMap.sortedFrom b m = true) :
    SMap.sortedFrom a m = true := by
  cases m with
  | nil => rfl
  | cons e r =>
    simp only [SMap.sortedFrom, Bool.and_eq_true, decide_eq_true_eq] at h ⊢
    exact ⟨by omega, h.2⟩

theorem SMap.sortedFrom_erase {α : Type} (b k : Nat) (m : SMap α) (h : SMap.sortedFrom b m = true) :
    SMap.sortedFrom b (SMap.erase k m) = true := by
  induction m generalizing b with
  | nil => rfl
  | cons e r ih =>
    obtain ⟨j, v⟩ := e
    simp only [SMap.sortedFrom, Bool.and_eq_true, decide_eq_true_eq] at h
    by_cases hj : j = k
    · rw [SMap.erase, if_pos hj]
      exact SMap.sortedFrom_mono _ (by omega : b ≤ j + 1) (ih (j + 1) h.2)
    · rw [SMap.erase, if_neg hj]
      simp only [SMap.sortedFrom, Bool.and_eq_true, decide_eq_true_eq]
      exact ⟨h.1, ih (j + 1) h.2⟩

theorem SMap.sortedFrom_insert {α : Type} (b k : Nat) (v : α) (m : SMap α) (hb : b ≤ k)
    (hk : ∀ e ∈ m, e.1 ≠ k) (h : SMap.sortedFrom b m = true) : SMap.sortedFrom b (SMap.insert k v m) = true := by
  induction m generalizing b with
  | nil => simp [SMap.insert, SMap.sortedFrom, hb]
  | cons e r ih =>
    obtain ⟨j, w⟩ := e
    simp only [SMap.sortedFrom, Bool.and_eq_true, decide_eq_true_eq] at h
    have hj : j ≠ k := hk (j, w) (by simp)
    by_cases hlt : k < j
    · rw [SMap.insert, if_pos hlt]
      simp only [SMap.sortedFrom, Bool.and_eq_true, decide_eq_true_eq]
      exact ⟨hb, by omega, h.2⟩
    · rw [SMap.insert, if_neg hlt]
      simp only [SMap.sortedFrom, Bool.and_eq_true, decide_eq_true_eq]
      exact ⟨h.1, ih (j + 1) (by omega) (fun e he => hk e (by simp [he])) h.2⟩

theorem SMap.mem_erase {α : Type} {k : Nat} {m : SMap α} {e : Nat × α} (h : e ∈ SMap.erase k m) : e ∈ m := by
  induction m with
  | nil => simp [SMap.erase] at h
  | cons x r ih =>
    obtain ⟨j, v⟩ := x
    by_cases hj : j = k
    · rw [SMap.erase, if_pos hj] at h
      exact List.mem_cons_of_mem _ (ih h)
    · rw [SMap.erase, if_neg hj, List.mem_cons] at h
      rcases h with rfl | h
      · simp
      · exact List.mem_cons_of_mem _ (ih h)

theorem SMap.mem_insert {α : Type} {k : Nat} {v : α} {m : SMap α} {e : Nat × α} (h : e ∈ SMap.insert k v m) :
    e = (k, v) ∨ e ∈ m := by
  induction m with
  | nil => simpa [SMap.insert] using h
  | cons x r ih =>
    obtain ⟨j, w⟩ := x
    by_cases hlt : k < j
    · rw [SMap.insert, if_pos hlt, List.mem_cons] at h
      exact h
    · rw [SMap.insert, if_neg hlt, List.mem_cons] at h
      rcases h with rfl | h
      · simp
      · rcases ih h with h | h
        · exact .inl h
        · exact .inr (List.mem_cons_of_mem _ h)

/-- A write keeps the canonical form. -/
theorem SMap.wf_put {α : Type} [DecidableEq α] (d : Nat → α) (m : SMap α) (k : Nat) (v : α)
    (h : SMap.wf d m = true) : SMap.wf d (SMap.put d m k v) = true := by
  simp only [SMap.wf, Bool.and_eq_true, List.all_eq_true, Bool.not_eq_true', decide_eq_false_iff_not] at h ⊢
  unfold SMap.put
  split
  · exact ⟨SMap.sortedFrom_erase 0 k m h.1, fun e he => h.2 e (SMap.mem_erase he)⟩
  · rename_i hv
    refine ⟨SMap.sortedFrom_insert 0 k v _ (Nat.zero_le _) (SMap.erase_no_key m k) (SMap.sortedFrom_erase 0 k m h.1), ?_⟩
    intro e he
    rcases SMap.mem_insert he with rfl | he
    · exact hv
    · exact h.2 e (SMap.mem_erase he)

/-- The empty map has the canonical form. -/
theorem SMap.wf_nil {α : Type} [DecidableEq α] (d : Nat → α) : SMap.wf d ([] : SMap α) = true := rfl

/-- A key without entry can be taken out. -/
theorem SMap.erase_of_no_key {α : Type} (m : SMap α) (k : Nat) (h : ∀ e ∈ m, e.1 ≠ k) : SMap.erase k m = m := by
  induction m with
  | nil => rfl
  | cons e r ih =>
    obtain ⟨j, v⟩ := e
    have hj : j ≠ k := h (j, v) (List.mem_cons_self ..)
    rw [SMap.erase, if_neg hj, ih fun e he => h e (List.mem_cons_of_mem _ he)]

/-- Taking out a key that has just been inserted where it was not. -/
theorem SMap.erase_insert {α : Type} (m : SMap α) (k : Nat) (v : α) (h : ∀ e ∈ m, e.1 ≠ k) :
    SMap.erase k (SMap.insert k v m) = m := by
  induction m with
  | nil => simp [SMap.insert, SMap.erase]
  | cons e r ih =>
    obtain ⟨j, w⟩ := e
    have hj : j ≠ k := h (j, w) (List.mem_cons_self ..)
    have hr : ∀ e ∈ r, e.1 ≠ k := fun e he => h e (List.mem_cons_of_mem _ he)
    by_cases hk : k < j
    · rw [SMap.insert, if_pos hk, SMap.erase, if_pos rfl, SMap.erase, if_neg hj, SMap.erase_of_no_key r k hr]
    · rw [SMap.insert, if_neg hk, SMap.erase, if_neg hj, ih hr]

/-- Of two writes of one key the later stands. -/
@[simp] theorem SMap.put_put {α : Type} [DecidableEq α] (d : Nat → α) (m : SMap α) (k : Nat) (v w : α) :
    SMap.put d (SMap.put d m k v) k w = SMap.put d m k w := by
  have he : SMap.erase k (SMap.put d m k v) = SMap.erase k m := by
    unfold SMap.put
    split
    · exact SMap.erase_of_no_key _ k (SMap.erase_no_key m k)
    · exact SMap.erase_insert _ k v (SMap.erase_no_key m k)
  unfold SMap.put at he ⊢
  rw [he]

end Sys2Proof
end

