-- ==== Sys2Proof/Laws/State.lean ====
section
/-!
SUPPORT. What each write of a table, header, register or response leaves of State: one lemma per field, true by rfl, and
what the readers of the table find after it.
-/

namespace Sys2Proof.Machine

/-! ### Frames -/

/-- Writes of fab. -/
@[simp] theorem modFab_eq (k : Nat) (f : FabPort → FabPort) (s : State) :
    modFab k f s = setFab k (f (fabOf k s)) s := rfl
theorem setFab_fab (k : Nat) (v : FabPort) (s : State) :
    (setFab k v s).fab = SMap.put fabDefault s.fab k v := rfl
@[simp] theorem fabOf_setFab_same (k : Nat) (v : FabPort) (s : State) : fabOf k (setFab k v s) = v :=
  SMap.get_put_same fabDefault s.fab k v
@[simp] theorem setFab_setFab (k : Nat) (v w : FabPort) (s : State) : setFab k w (setFab k v s) = setFab k w s := by
  simp only [setFab]; rw [SMap.put_put]
theorem fabOf_setFab_other {k l : Nat} (v : FabPort) (s : State) (h : l ≠ k) : fabOf l (setFab k v s) = fabOf l s :=
  SMap.get_put_other fabDefault s.fab v h
@[simp] theorem setFab_pending (k : Nat) (v : FabPort) (s : State) : (setFab k v s).pending = s.pending := rfl
@[simp] theorem setFab_cc (k : Nat) (v : FabPort) (s : State) : (setFab k v s).cc = s.cc := rfl
@[simp] theorem setFab_free (k : Nat) (v : FabPort) (s : State) : (setFab k v s).free = s.free := rfl
@[simp] theorem setFab_pins (k : Nat) (v : FabPort) (s : State) : (setFab k v s).pins = s.pins := rfl
@[simp] theorem setFab_csr (k : Nat) (v : FabPort) (s : State) : (setFab k v s).csr = s.csr := rfl
@[simp] theorem setFab_hdr (k : Nat) (v : FabPort) (s : State) : (setFab k v s).hdr = s.hdr := rfl
@[simp] theorem setFab_regs (k : Nat) (v : FabPort) (s : State) : (setFab k v s).regs = s.regs := rfl
@[simp] theorem setFab_regsEff (k : Nat) (v : FabPort) (s : State) : (setFab k v s).regsEff = s.regsEff := rfl
@[simp] theorem setFab_win (k : Nat) (v : FabPort) (s : State) : (setFab k v s).win = s.win := rfl
@[simp] theorem setFab_rif (k : Nat) (v : FabPort) (s : State) : (setFab k v s).rif = s.rif := rfl
@[simp] theorem setFab_ops (k : Nat) (v : FabPort) (s : State) : (setFab k v s).ops = s.ops := rfl
@[simp] theorem setFab_tmb (k : Nat) (v : FabPort) (s : State) : (setFab k v s).tmb = s.tmb := rfl
@[simp] theorem setFab_sch (k : Nat) (v : FabPort) (s : State) : (setFab k v s).sch = s.sch := rfl
@[simp] theorem setFab_chn (k : Nat) (v : FabPort) (s : State) : (setFab k v s).chn = s.chn := rfl
@[simp] theorem setFab_peer (k : Nat) (v : FabPort) (s : State) : (setFab k v s).peer = s.peer := rfl
@[simp] theorem setFab_eng (k : Nat) (v : FabPort) (s : State) : (setFab k v s).eng = s.eng := rfl
@[simp] theorem setFab_sec (k : Nat) (v : FabPort) (s : State) : (setFab k v s).sec = s.sec := rfl
@[simp] theorem setFab_dpt (k : Nat) (v : FabPort) (s : State) : (setFab k v s).dpt = s.dpt := rfl
@[simp] theorem setFab_ecc (k : Nat) (v : FabPort) (s : State) : (setFab k v s).ecc = s.ecc := rfl
@[simp] theorem setFab_lvl (k : Nat) (v : FabPort) (s : State) : (setFab k v s).lvl = s.lvl := rfl
@[simp] theorem setFab_dsp (k : Nat) (v : FabPort) (s : State) : (setFab k v s).dsp = s.dsp := rfl
@[simp] theorem setFab_pwr (k : Nat) (v : FabPort) (s : State) : (setFab k v s).pwr = s.pwr := rfl
@[simp] theorem setFab_map (k : Nat) (v : FabPort) (s : State) : (setFab k v s).map = s.map := rfl
@[simp] theorem setFab_irq (k : Nat) (v : FabPort) (s : State) : (setFab k v s).irq = s.irq := rfl
@[simp] theorem setFab_note (k : Nat) (v : FabPort) (s : State) : (setFab k v s).note = s.note := rfl
@[simp] theorem setFab_rst (k : Nat) (v : FabPort) (s : State) : (setFab k v s).rst = s.rst := rfl
@[simp] theorem setFab_mem (k : Nat) (v : FabPort) (s : State) : (setFab k v s).mem = s.mem := rfl

/-- Writes of rif.rings. -/
@[simp] theorem modRing_eq (k : Nat) (f : Ring → Ring) (s : State) :
    modRing k f s = setRing k (f (ringOf k s)) s := rfl
theorem setRing_rif (k : Nat) (v : Ring) (s : State) :
    (setRing k v s).rif = { s.rif with rings := SMap.put ringDefault s.rif.rings k v } := rfl
@[simp] theorem ringOf_setRing_same (k : Nat) (v : Ring) (s : State) : ringOf k (setRing k v s) = v :=
  SMap.get_put_same ringDefault s.rif.rings k v
@[simp] theorem setRing_setRing (k : Nat) (v w : Ring) (s : State) : setRing k w (setRing k v s) = setRing k w s := by
  simp only [setRing]; rw [SMap.put_put]
theorem ringOf_setRing_other {k l : Nat} (v : Ring) (s : State) (h : l ≠ k) : ringOf l (setRing k v s) = ringOf l s :=
  SMap.get_put_other ringDefault s.rif.rings v h
@[simp] theorem setRing_pending (k : Nat) (v : Ring) (s : State) : (setRing k v s).pending = s.pending := rfl
@[simp] theorem setRing_cc (k : Nat) (v : Ring) (s : State) : (setRing k v s).cc = s.cc := rfl
@[simp] theorem setRing_free (k : Nat) (v : Ring) (s : State) : (setRing k v s).free = s.free := rfl
@[simp] theorem setRing_pins (k : Nat) (v : Ring) (s : State) : (setRing k v s).pins = s.pins := rfl
@[simp] theorem setRing_csr (k : Nat) (v : Ring) (s : State) : (setRing k v s).csr = s.csr := rfl
@[simp] theorem setRing_fab (k : Nat) (v : Ring) (s : State) : (setRing k v s).fab = s.fab := rfl
@[simp] theorem setRing_hdr (k : Nat) (v : Ring) (s : State) : (setRing k v s).hdr = s.hdr := rfl
@[simp] theorem setRing_regs (k : Nat) (v : Ring) (s : State) : (setRing k v s).regs = s.regs := rfl
@[simp] theorem setRing_regsEff (k : Nat) (v : Ring) (s : State) : (setRing k v s).regsEff = s.regsEff := rfl
@[simp] theorem setRing_win (k : Nat) (v : Ring) (s : State) : (setRing k v s).win = s.win := rfl
@[simp] theorem setRing_ops (k : Nat) (v : Ring) (s : State) : (setRing k v s).ops = s.ops := rfl
@[simp] theorem setRing_tmb (k : Nat) (v : Ring) (s : State) : (setRing k v s).tmb = s.tmb := rfl
@[simp] theorem setRing_sch (k : Nat) (v : Ring) (s : State) : (setRing k v s).sch = s.sch := rfl
@[simp] theorem setRing_chn (k : Nat) (v : Ring) (s : State) : (setRing k v s).chn = s.chn := rfl
@[simp] theorem setRing_peer (k : Nat) (v : Ring) (s : State) : (setRing k v s).peer = s.peer := rfl
@[simp] theorem setRing_eng (k : Nat) (v : Ring) (s : State) : (setRing k v s).eng = s.eng := rfl
@[simp] theorem setRing_sec (k : Nat) (v : Ring) (s : State) : (setRing k v s).sec = s.sec := rfl
@[simp] theorem setRing_dpt (k : Nat) (v : Ring) (s : State) : (setRing k v s).dpt = s.dpt := rfl
@[simp] theorem setRing_ecc (k : Nat) (v : Ring) (s : State) : (setRing k v s).ecc = s.ecc := rfl
@[simp] theorem setRing_lvl (k : Nat) (v : Ring) (s : State) : (setRing k v s).lvl = s.lvl := rfl
@[simp] theorem setRing_dsp (k : Nat) (v : Ring) (s : State) : (setRing k v s).dsp = s.dsp := rfl
@[simp] theorem setRing_pwr (k : Nat) (v : Ring) (s : State) : (setRing k v s).pwr = s.pwr := rfl
@[simp] theorem setRing_map (k : Nat) (v : Ring) (s : State) : (setRing k v s).map = s.map := rfl
@[simp] theorem setRing_irq (k : Nat) (v : Ring) (s : State) : (setRing k v s).irq = s.irq := rfl
@[simp] theorem setRing_note (k : Nat) (v : Ring) (s : State) : (setRing k v s).note = s.note := rfl
@[simp] theorem setRing_rst (k : Nat) (v : Ring) (s : State) : (setRing k v s).rst = s.rst := rfl
@[simp] theorem setRing_mem (k : Nat) (v : Ring) (s : State) : (setRing k v s).mem = s.mem := rfl

/-- Writes of rif.fns. -/
@[simp] theorem modFn_eq (k : Nat) (f : FnPerm → FnPerm) (s : State) :
    modFn k f s = setFn k (f (fnOf k s)) s := rfl
theorem setFn_rif (k : Nat) (v : FnPerm) (s : State) :
    (setFn k v s).rif = { s.rif with fns := SMap.put fnDefault s.rif.fns k v } := rfl
@[simp] theorem fnOf_setFn_same (k : Nat) (v : FnPerm) (s : State) : fnOf k (setFn k v s) = v :=
  SMap.get_put_same fnDefault s.rif.fns k v
@[simp] theorem setFn_setFn (k : Nat) (v w : FnPerm) (s : State) : setFn k w (setFn k v s) = setFn k w s := by
  simp only [setFn]; rw [SMap.put_put]
theorem fnOf_setFn_other {k l : Nat} (v : FnPerm) (s : State) (h : l ≠ k) : fnOf l (setFn k v s) = fnOf l s :=
  SMap.get_put_other fnDefault s.rif.fns v h
@[simp] theorem setFn_pending (k : Nat) (v : FnPerm) (s : State) : (setFn k v s).pending = s.pending := rfl
@[simp] theorem setFn_cc (k : Nat) (v : FnPerm) (s : State) : (setFn k v s).cc = s.cc := rfl
@[simp] theorem setFn_free (k : Nat) (v : FnPerm) (s : State) : (setFn k v s).free = s.free := rfl
@[simp] theorem setFn_pins (k : Nat) (v : FnPerm) (s : State) : (setFn k v s).pins = s.pins := rfl
@[simp] theorem setFn_csr (k : Nat) (v : FnPerm) (s : State) : (setFn k v s).csr = s.csr := rfl
@[simp] theorem setFn_fab (k : Nat) (v : FnPerm) (s : State) : (setFn k v s).fab = s.fab := rfl
@[simp] theorem setFn_hdr (k : Nat) (v : FnPerm) (s : State) : (setFn k v s).hdr = s.hdr := rfl
@[simp] theorem setFn_regs (k : Nat) (v : FnPerm) (s : State) : (setFn k v s).regs = s.regs := rfl
@[simp] theorem setFn_regsEff (k : Nat) (v : FnPerm) (s : State) : (setFn k v s).regsEff = s.regsEff := rfl
@[simp] theorem setFn_win (k : Nat) (v : FnPerm) (s : State) : (setFn k v s).win = s.win := rfl
@[simp] theorem setFn_ops (k : Nat) (v : FnPerm) (s : State) : (setFn k v s).ops = s.ops := rfl
@[simp] theorem setFn_tmb (k : Nat) (v : FnPerm) (s : State) : (setFn k v s).tmb = s.tmb := rfl
@[simp] theorem setFn_sch (k : Nat) (v : FnPerm) (s : State) : (setFn k v s).sch = s.sch := rfl
@[simp] theorem setFn_chn (k : Nat) (v : FnPerm) (s : State) : (setFn k v s).chn = s.chn := rfl
@[simp] theorem setFn_peer (k : Nat) (v : FnPerm) (s : State) : (setFn k v s).peer = s.peer := rfl
@[simp] theorem setFn_eng (k : Nat) (v : FnPerm) (s : State) : (setFn k v s).eng = s.eng := rfl
@[simp] theorem setFn_sec (k : Nat) (v : FnPerm) (s : State) : (setFn k v s).sec = s.sec := rfl
@[simp] theorem setFn_dpt (k : Nat) (v : FnPerm) (s : State) : (setFn k v s).dpt = s.dpt := rfl
@[simp] theorem setFn_ecc (k : Nat) (v : FnPerm) (s : State) : (setFn k v s).ecc = s.ecc := rfl
@[simp] theorem setFn_lvl (k : Nat) (v : FnPerm) (s : State) : (setFn k v s).lvl = s.lvl := rfl
@[simp] theorem setFn_dsp (k : Nat) (v : FnPerm) (s : State) : (setFn k v s).dsp = s.dsp := rfl
@[simp] theorem setFn_pwr (k : Nat) (v : FnPerm) (s : State) : (setFn k v s).pwr = s.pwr := rfl
@[simp] theorem setFn_map (k : Nat) (v : FnPerm) (s : State) : (setFn k v s).map = s.map := rfl
@[simp] theorem setFn_irq (k : Nat) (v : FnPerm) (s : State) : (setFn k v s).irq = s.irq := rfl
@[simp] theorem setFn_note (k : Nat) (v : FnPerm) (s : State) : (setFn k v s).note = s.note := rfl
@[simp] theorem setFn_rst (k : Nat) (v : FnPerm) (s : State) : (setFn k v s).rst = s.rst := rfl
@[simp] theorem setFn_mem (k : Nat) (v : FnPerm) (s : State) : (setFn k v s).mem = s.mem := rfl

/-- Writes of ops.tags. -/
@[simp] theorem modTag_eq (k : Nat) (f : TagRow → TagRow) (s : State) :
    modTag k f s = setTag k (f (tagOf k s)) s := rfl
theorem setTag_ops (k : Nat) (v : TagRow) (s : State) :
    (setTag k v s).ops = { s.ops with tags := SMap.put tagDefault s.ops.tags k v } := rfl
@[simp] theorem tagOf_setTag_same (k : Nat) (v : TagRow) (s : State) : tagOf k (setTag k v s) = v :=
  SMap.get_put_same tagDefault s.ops.tags k v
@[simp] theorem setTag_setTag (k : Nat) (v w : TagRow) (s : State) : setTag k w (setTag k v s) = setTag k w s := by
  simp only [setTag]; rw [SMap.put_put]
theorem tagOf_setTag_other {k l : Nat} (v : TagRow) (s : State) (h : l ≠ k) : tagOf l (setTag k v s) = tagOf l s :=
  SMap.get_put_other tagDefault s.ops.tags v h
@[simp] theorem setTag_pending (k : Nat) (v : TagRow) (s : State) : (setTag k v s).pending = s.pending := rfl
@[simp] theorem setTag_cc (k : Nat) (v : TagRow) (s : State) : (setTag k v s).cc = s.cc := rfl
@[simp] theorem setTag_free (k : Nat) (v : TagRow) (s : State) : (setTag k v s).free = s.free := rfl
@[simp] theorem setTag_pins (k : Nat) (v : TagRow) (s : State) : (setTag k v s).pins = s.pins := rfl
@[simp] theorem setTag_csr (k : Nat) (v : TagRow) (s : State) : (setTag k v s).csr = s.csr := rfl
@[simp] theorem setTag_fab (k : Nat) (v : TagRow) (s : State) : (setTag k v s).fab = s.fab := rfl
@[simp] theorem setTag_hdr (k : Nat) (v : TagRow) (s : State) : (setTag k v s).hdr = s.hdr := rfl
@[simp] theorem setTag_regs (k : Nat) (v : TagRow) (s : State) : (setTag k v s).regs = s.regs := rfl
@[simp] theorem setTag_regsEff (k : Nat) (v : TagRow) (s : State) : (setTag k v s).regsEff = s.regsEff := rfl
@[simp] theorem setTag_win (k : Nat) (v : TagRow) (s : State) : (setTag k v s).win = s.win := rfl
@[simp] theorem setTag_rif (k : Nat) (v : TagRow) (s : State) : (setTag k v s).rif = s.rif := rfl
@[simp] theorem setTag_tmb (k : Nat) (v : TagRow) (s : State) : (setTag k v s).tmb = s.tmb := rfl
@[simp] theorem setTag_sch (k : Nat) (v : TagRow) (s : State) : (setTag k v s).sch = s.sch := rfl
@[simp] theorem setTag_chn (k : Nat) (v : TagRow) (s : State) : (setTag k v s).chn = s.chn := rfl
@[simp] theorem setTag_peer (k : Nat) (v : TagRow) (s : State) : (setTag k v s).peer = s.peer := rfl
@[simp] theorem setTag_eng (k : Nat) (v : TagRow) (s : State) : (setTag k v s).eng = s.eng := rfl
@[simp] theorem setTag_sec (k : Nat) (v : TagRow) (s : State) : (setTag k v s).sec = s.sec := rfl
@[simp] theorem setTag_dpt (k : Nat) (v : TagRow) (s : State) : (setTag k v s).dpt = s.dpt := rfl
@[simp] theorem setTag_ecc (k : Nat) (v : TagRow) (s : State) : (setTag k v s).ecc = s.ecc := rfl
@[simp] theorem setTag_lvl (k : Nat) (v : TagRow) (s : State) : (setTag k v s).lvl = s.lvl := rfl
@[simp] theorem setTag_dsp (k : Nat) (v : TagRow) (s : State) : (setTag k v s).dsp = s.dsp := rfl
@[simp] theorem setTag_pwr (k : Nat) (v : TagRow) (s : State) : (setTag k v s).pwr = s.pwr := rfl
@[simp] theorem setTag_map (k : Nat) (v : TagRow) (s : State) : (setTag k v s).map = s.map := rfl
@[simp] theorem setTag_irq (k : Nat) (v : TagRow) (s : State) : (setTag k v s).irq = s.irq := rfl
@[simp] theorem setTag_note (k : Nat) (v : TagRow) (s : State) : (setTag k v s).note = s.note := rfl
@[simp] theorem setTag_rst (k : Nat) (v : TagRow) (s : State) : (setTag k v s).rst = s.rst := rfl
@[simp] theorem setTag_mem (k : Nat) (v : TagRow) (s : State) : (setTag k v s).mem = s.mem := rfl

/-- Writes of sch.dies. -/
@[simp] theorem modDie_eq (k : Nat) (f : Die → Die) (s : State) :
    modDie k f s = setDie k (f (dieOf k s)) s := rfl
theorem setDie_sch (k : Nat) (v : Die) (s : State) :
    (setDie k v s).sch = { s.sch with dies := SMap.put dieDefault s.sch.dies k v } := rfl
@[simp] theorem dieOf_setDie_same (k : Nat) (v : Die) (s : State) : dieOf k (setDie k v s) = v :=
  SMap.get_put_same dieDefault s.sch.dies k v
@[simp] theorem setDie_setDie (k : Nat) (v w : Die) (s : State) : setDie k w (setDie k v s) = setDie k w s := by
  simp only [setDie]; rw [SMap.put_put]
theorem dieOf_setDie_other {k l : Nat} (v : Die) (s : State) (h : l ≠ k) : dieOf l (setDie k v s) = dieOf l s :=
  SMap.get_put_other dieDefault s.sch.dies v h
@[simp] theorem setDie_pending (k : Nat) (v : Die) (s : State) : (setDie k v s).pending = s.pending := rfl
@[simp] theorem setDie_cc (k : Nat) (v : Die) (s : State) : (setDie k v s).cc = s.cc := rfl
@[simp] theorem setDie_free (k : Nat) (v : Die) (s : State) : (setDie k v s).free = s.free := rfl
@[simp] theorem setDie_pins (k : Nat) (v : Die) (s : State) : (setDie k v s).pins = s.pins := rfl
@[simp] theorem setDie_csr (k : Nat) (v : Die) (s : State) : (setDie k v s).csr = s.csr := rfl
@[simp] theorem setDie_fab (k : Nat) (v : Die) (s : State) : (setDie k v s).fab = s.fab := rfl
@[simp] theorem setDie_hdr (k : Nat) (v : Die) (s : State) : (setDie k v s).hdr = s.hdr := rfl
@[simp] theorem setDie_regs (k : Nat) (v : Die) (s : State) : (setDie k v s).regs = s.regs := rfl
@[simp] theorem setDie_regsEff (k : Nat) (v : Die) (s : State) : (setDie k v s).regsEff = s.regsEff := rfl
@[simp] theorem setDie_win (k : Nat) (v : Die) (s : State) : (setDie k v s).win = s.win := rfl
@[simp] theorem setDie_rif (k : Nat) (v : Die) (s : State) : (setDie k v s).rif = s.rif := rfl
@[simp] theorem setDie_ops (k : Nat) (v : Die) (s : State) : (setDie k v s).ops = s.ops := rfl
@[simp] theorem setDie_tmb (k : Nat) (v : Die) (s : State) : (setDie k v s).tmb = s.tmb := rfl
@[simp] theorem setDie_chn (k : Nat) (v : Die) (s : State) : (setDie k v s).chn = s.chn := rfl
@[simp] theorem setDie_peer (k : Nat) (v : Die) (s : State) : (setDie k v s).peer = s.peer := rfl
@[simp] theorem setDie_eng (k : Nat) (v : Die) (s : State) : (setDie k v s).eng = s.eng := rfl
@[simp] theorem setDie_sec (k : Nat) (v : Die) (s : State) : (setDie k v s).sec = s.sec := rfl
@[simp] theorem setDie_dpt (k : Nat) (v : Die) (s : State) : (setDie k v s).dpt = s.dpt := rfl
@[simp] theorem setDie_ecc (k : Nat) (v : Die) (s : State) : (setDie k v s).ecc = s.ecc := rfl
@[simp] theorem setDie_lvl (k : Nat) (v : Die) (s : State) : (setDie k v s).lvl = s.lvl := rfl
@[simp] theorem setDie_dsp (k : Nat) (v : Die) (s : State) : (setDie k v s).dsp = s.dsp := rfl
@[simp] theorem setDie_pwr (k : Nat) (v : Die) (s : State) : (setDie k v s).pwr = s.pwr := rfl
@[simp] theorem setDie_map (k : Nat) (v : Die) (s : State) : (setDie k v s).map = s.map := rfl
@[simp] theorem setDie_irq (k : Nat) (v : Die) (s : State) : (setDie k v s).irq = s.irq := rfl
@[simp] theorem setDie_note (k : Nat) (v : Die) (s : State) : (setDie k v s).note = s.note := rfl
@[simp] theorem setDie_rst (k : Nat) (v : Die) (s : State) : (setDie k v s).rst = s.rst := rfl
@[simp] theorem setDie_mem (k : Nat) (v : Die) (s : State) : (setDie k v s).mem = s.mem := rfl

/-- Writes of sch.cands. -/
@[simp] theorem modCands_eq (k : Nat) (f : (List Xfer) → (List Xfer)) (s : State) :
    modCands k f s = setCands k (f (candsOf k s)) s := rfl
theorem setCands_sch (k : Nat) (v : List Xfer) (s : State) :
    (setCands k v s).sch = { s.sch with cands := SMap.put candsDefault s.sch.cands k v } := rfl
@[simp] theorem candsOf_setCands_same (k : Nat) (v : List Xfer) (s : State) : candsOf k (setCands k v s) = v :=
  SMap.get_put_same candsDefault s.sch.cands k v
@[simp] theorem setCands_setCands (k : Nat) (v w : List Xfer) (s : State) : setCands k w (setCands k v s) = setCands k w s := by
  simp only [setCands]; rw [SMap.put_put]
theorem candsOf_setCands_other {k l : Nat} (v : List Xfer) (s : State) (h : l ≠ k) : candsOf l (setCands k v s) = candsOf l s :=
  SMap.get_put_other candsDefault s.sch.cands v h
@[simp] theorem setCands_pending (k : Nat) (v : List Xfer) (s : State) : (setCands k v s).pending = s.pending := rfl
@[simp] theorem setCands_cc (k : Nat) (v : List Xfer) (s : State) : (setCands k v s).cc = s.cc := rfl
@[simp] theorem setCands_free (k : Nat) (v : List Xfer) (s : State) : (setCands k v s).free = s.free := rfl
@[simp] theorem setCands_pins (k : Nat) (v : List Xfer) (s : State) : (setCands k v s).pins = s.pins := rfl
@[simp] theorem setCands_csr (k : Nat) (v : List Xfer) (s : State) : (setCands k v s).csr = s.csr := rfl
@[simp] theorem setCands_fab (k : Nat) (v : List Xfer) (s : State) : (setCands k v s).fab = s.fab := rfl
@[simp] theorem setCands_hdr (k : Nat) (v : List Xfer) (s : State) : (setCands k v s).hdr = s.hdr := rfl
@[simp] theorem setCands_regs (k : Nat) (v : List Xfer) (s : State) : (setCands k v s).regs = s.regs := rfl
@[simp] theorem setCands_regsEff (k : Nat) (v : List Xfer) (s : State) : (setCands k v s).regsEff = s.regsEff := rfl
@[simp] theorem setCands_win (k : Nat) (v : List Xfer) (s : State) : (setCands k v s).win = s.win := rfl
@[simp] theorem setCands_rif (k : Nat) (v : List Xfer) (s : State) : (setCands k v s).rif = s.rif := rfl
@[simp] theorem setCands_ops (k : Nat) (v : List Xfer) (s : State) : (setCands k v s).ops = s.ops := rfl
@[simp] theorem setCands_tmb (k : Nat) (v : List Xfer) (s : State) : (setCands k v s).tmb = s.tmb := rfl
@[simp] theorem setCands_chn (k : Nat) (v : List Xfer) (s : State) : (setCands k v s).chn = s.chn := rfl
@[simp] theorem setCands_peer (k : Nat) (v : List Xfer) (s : State) : (setCands k v s).peer = s.peer := rfl
@[simp] theorem setCands_eng (k : Nat) (v : List Xfer) (s : State) : (setCands k v s).eng = s.eng := rfl
@[simp] theorem setCands_sec (k : Nat) (v : List Xfer) (s : State) : (setCands k v s).sec = s.sec := rfl
@[simp] theorem setCands_dpt (k : Nat) (v : List Xfer) (s : State) : (setCands k v s).dpt = s.dpt := rfl
@[simp] theorem setCands_ecc (k : Nat) (v : List Xfer) (s : State) : (setCands k v s).ecc = s.ecc := rfl
@[simp] theorem setCands_lvl (k : Nat) (v : List Xfer) (s : State) : (setCands k v s).lvl = s.lvl := rfl
@[simp] theorem setCands_dsp (k : Nat) (v : List Xfer) (s : State) : (setCands k v s).dsp = s.dsp := rfl
@[simp] theorem setCands_pwr (k : Nat) (v : List Xfer) (s : State) : (setCands k v s).pwr = s.pwr := rfl
@[simp] theorem setCands_map (k : Nat) (v : List Xfer) (s : State) : (setCands k v s).map = s.map := rfl
@[simp] theorem setCands_irq (k : Nat) (v : List Xfer) (s : State) : (setCands k v s).irq = s.irq := rfl
@[simp] theorem setCands_note (k : Nat) (v : List Xfer) (s : State) : (setCands k v s).note = s.note := rfl
@[simp] theorem setCands_rst (k : Nat) (v : List Xfer) (s : State) : (setCands k v s).rst = s.rst := rfl
@[simp] theorem setCands_mem (k : Nat) (v : List Xfer) (s : State) : (setCands k v s).mem = s.mem := rfl

/-- Writes of sch.plans. -/
@[simp] theorem modPlan_eq (k : Nat) (f : (Option Plan) → (Option Plan)) (s : State) :
    modPlan k f s = setPlan k (f (planOf k s)) s := rfl
theorem setPlan_sch (k : Nat) (v : Option Plan) (s : State) :
    (setPlan k v s).sch = { s.sch with plans := SMap.put planDefault s.sch.plans k v } := rfl
@[simp] theorem planOf_setPlan_same (k : Nat) (v : Option Plan) (s : State) : planOf k (setPlan k v s) = v :=
  SMap.get_put_same planDefault s.sch.plans k v
@[simp] theorem setPlan_setPlan (k : Nat) (v w : Option Plan) (s : State) : setPlan k w (setPlan k v s) = setPlan k w s := by
  simp only [setPlan]; rw [SMap.put_put]
theorem planOf_setPlan_other {k l : Nat} (v : Option Plan) (s : State) (h : l ≠ k) : planOf l (setPlan k v s) = planOf l s :=
  SMap.get_put_other planDefault s.sch.plans v h
@[simp] theorem setPlan_pending (k : Nat) (v : Option Plan) (s : State) : (setPlan k v s).pending = s.pending := rfl
@[simp] theorem setPlan_cc (k : Nat) (v : Option Plan) (s : State) : (setPlan k v s).cc = s.cc := rfl
@[simp] theorem setPlan_free (k : Nat) (v : Option Plan) (s : State) : (setPlan k v s).free = s.free := rfl
@[simp] theorem setPlan_pins (k : Nat) (v : Option Plan) (s : State) : (setPlan k v s).pins = s.pins := rfl
@[simp] theorem setPlan_csr (k : Nat) (v : Option Plan) (s : State) : (setPlan k v s).csr = s.csr := rfl
@[simp] theorem setPlan_fab (k : Nat) (v : Option Plan) (s : State) : (setPlan k v s).fab = s.fab := rfl
@[simp] theorem setPlan_hdr (k : Nat) (v : Option Plan) (s : State) : (setPlan k v s).hdr = s.hdr := rfl
@[simp] theorem setPlan_regs (k : Nat) (v : Option Plan) (s : State) : (setPlan k v s).regs = s.regs := rfl
@[simp] theorem setPlan_regsEff (k : Nat) (v : Option Plan) (s : State) : (setPlan k v s).regsEff = s.regsEff := rfl
@[simp] theorem setPlan_win (k : Nat) (v : Option Plan) (s : State) : (setPlan k v s).win = s.win := rfl
@[simp] theorem setPlan_rif (k : Nat) (v : Option Plan) (s : State) : (setPlan k v s).rif = s.rif := rfl
@[simp] theorem setPlan_ops (k : Nat) (v : Option Plan) (s : State) : (setPlan k v s).ops = s.ops := rfl
@[simp] theorem setPlan_tmb (k : Nat) (v : Option Plan) (s : State) : (setPlan k v s).tmb = s.tmb := rfl
@[simp] theorem setPlan_chn (k : Nat) (v : Option Plan) (s : State) : (setPlan k v s).chn = s.chn := rfl
@[simp] theorem setPlan_peer (k : Nat) (v : Option Plan) (s : State) : (setPlan k v s).peer = s.peer := rfl
@[simp] theorem setPlan_eng (k : Nat) (v : Option Plan) (s : State) : (setPlan k v s).eng = s.eng := rfl
@[simp] theorem setPlan_sec (k : Nat) (v : Option Plan) (s : State) : (setPlan k v s).sec = s.sec := rfl
@[simp] theorem setPlan_dpt (k : Nat) (v : Option Plan) (s : State) : (setPlan k v s).dpt = s.dpt := rfl
@[simp] theorem setPlan_ecc (k : Nat) (v : Option Plan) (s : State) : (setPlan k v s).ecc = s.ecc := rfl
@[simp] theorem setPlan_lvl (k : Nat) (v : Option Plan) (s : State) : (setPlan k v s).lvl = s.lvl := rfl
@[simp] theorem setPlan_dsp (k : Nat) (v : Option Plan) (s : State) : (setPlan k v s).dsp = s.dsp := rfl
@[simp] theorem setPlan_pwr (k : Nat) (v : Option Plan) (s : State) : (setPlan k v s).pwr = s.pwr := rfl
@[simp] theorem setPlan_map (k : Nat) (v : Option Plan) (s : State) : (setPlan k v s).map = s.map := rfl
@[simp] theorem setPlan_irq (k : Nat) (v : Option Plan) (s : State) : (setPlan k v s).irq = s.irq := rfl
@[simp] theorem setPlan_note (k : Nat) (v : Option Plan) (s : State) : (setPlan k v s).note = s.note := rfl
@[simp] theorem setPlan_rst (k : Nat) (v : Option Plan) (s : State) : (setPlan k v s).rst = s.rst := rfl
@[simp] theorem setPlan_mem (k : Nat) (v : Option Plan) (s : State) : (setPlan k v s).mem = s.mem := rfl

/-- Writes of chn. -/
@[simp] theorem modChan_eq (k : Nat) (f : Chan → Chan) (s : State) :
    modChan k f s = setChan k (f (chanOf k s)) s := rfl
theorem setChan_chn (k : Nat) (v : Chan) (s : State) :
    (setChan k v s).chn = SMap.put chanDefault s.chn k v := rfl
@[simp] theorem chanOf_setChan_same (k : Nat) (v : Chan) (s : State) : chanOf k (setChan k v s) = v :=
  SMap.get_put_same chanDefault s.chn k v
@[simp] theorem setChan_setChan (k : Nat) (v w : Chan) (s : State) : setChan k w (setChan k v s) = setChan k w s := by
  simp only [setChan]; rw [SMap.put_put]
theorem chanOf_setChan_other {k l : Nat} (v : Chan) (s : State) (h : l ≠ k) : chanOf l (setChan k v s) = chanOf l s :=
  SMap.get_put_other chanDefault s.chn v h
@[simp] theorem setChan_pending (k : Nat) (v : Chan) (s : State) : (setChan k v s).pending = s.pending := rfl
@[simp] theorem setChan_cc (k : Nat) (v : Chan) (s : State) : (setChan k v s).cc = s.cc := rfl
@[simp] theorem setChan_free (k : Nat) (v : Chan) (s : State) : (setChan k v s).free = s.free := rfl
@[simp] theorem setChan_pins (k : Nat) (v : Chan) (s : State) : (setChan k v s).pins = s.pins := rfl
@[simp] theorem setChan_csr (k : Nat) (v : Chan) (s : State) : (setChan k v s).csr = s.csr := rfl
@[simp] theorem setChan_fab (k : Nat) (v : Chan) (s : State) : (setChan k v s).fab = s.fab := rfl
@[simp] theorem setChan_hdr (k : Nat) (v : Chan) (s : State) : (setChan k v s).hdr = s.hdr := rfl
@[simp] theorem setChan_regs (k : Nat) (v : Chan) (s : State) : (setChan k v s).regs = s.regs := rfl
@[simp] theorem setChan_regsEff (k : Nat) (v : Chan) (s : State) : (setChan k v s).regsEff = s.regsEff := rfl
@[simp] theorem setChan_win (k : Nat) (v : Chan) (s : State) : (setChan k v s).win = s.win := rfl
@[simp] theorem setChan_rif (k : Nat) (v : Chan) (s : State) : (setChan k v s).rif = s.rif := rfl
@[simp] theorem setChan_ops (k : Nat) (v : Chan) (s : State) : (setChan k v s).ops = s.ops := rfl
@[simp] theorem setChan_tmb (k : Nat) (v : Chan) (s : State) : (setChan k v s).tmb = s.tmb := rfl
@[simp] theorem setChan_sch (k : Nat) (v : Chan) (s : State) : (setChan k v s).sch = s.sch := rfl
@[simp] theorem setChan_peer (k : Nat) (v : Chan) (s : State) : (setChan k v s).peer = s.peer := rfl
@[simp] theorem setChan_eng (k : Nat) (v : Chan) (s : State) : (setChan k v s).eng = s.eng := rfl
@[simp] theorem setChan_sec (k : Nat) (v : Chan) (s : State) : (setChan k v s).sec = s.sec := rfl
@[simp] theorem setChan_dpt (k : Nat) (v : Chan) (s : State) : (setChan k v s).dpt = s.dpt := rfl
@[simp] theorem setChan_ecc (k : Nat) (v : Chan) (s : State) : (setChan k v s).ecc = s.ecc := rfl
@[simp] theorem setChan_lvl (k : Nat) (v : Chan) (s : State) : (setChan k v s).lvl = s.lvl := rfl
@[simp] theorem setChan_dsp (k : Nat) (v : Chan) (s : State) : (setChan k v s).dsp = s.dsp := rfl
@[simp] theorem setChan_pwr (k : Nat) (v : Chan) (s : State) : (setChan k v s).pwr = s.pwr := rfl
@[simp] theorem setChan_map (k : Nat) (v : Chan) (s : State) : (setChan k v s).map = s.map := rfl
@[simp] theorem setChan_irq (k : Nat) (v : Chan) (s : State) : (setChan k v s).irq = s.irq := rfl
@[simp] theorem setChan_note (k : Nat) (v : Chan) (s : State) : (setChan k v s).note = s.note := rfl
@[simp] theorem setChan_rst (k : Nat) (v : Chan) (s : State) : (setChan k v s).rst = s.rst := rfl
@[simp] theorem setChan_mem (k : Nat) (v : Chan) (s : State) : (setChan k v s).mem = s.mem := rfl

/-- Writes of eng.engines. -/
@[simp] theorem modEng_eq (k : Nat) (f : EngineSt → EngineSt) (s : State) :
    modEng k f s = setEng k (f (engOf k s)) s := rfl
theorem setEng_eng (k : Nat) (v : EngineSt) (s : State) :
    (setEng k v s).eng = { s.eng with engines := SMap.put engDefault s.eng.engines k v } := rfl
@[simp] theorem engOf_setEng_same (k : Nat) (v : EngineSt) (s : State) : engOf k (setEng k v s) = v :=
  SMap.get_put_same engDefault s.eng.engines k v
@[simp] theorem setEng_setEng (k : Nat) (v w : EngineSt) (s : State) : setEng k w (setEng k v s) = setEng k w s := by
  simp only [setEng]; rw [SMap.put_put]
theorem engOf_setEng_other {k l : Nat} (v : EngineSt) (s : State) (h : l ≠ k) : engOf l (setEng k v s) = engOf l s :=
  SMap.get_put_other engDefault s.eng.engines v h
@[simp] theorem setEng_pending (k : Nat) (v : EngineSt) (s : State) : (setEng k v s).pending = s.pending := rfl
@[simp] theorem setEng_cc (k : Nat) (v : EngineSt) (s : State) : (setEng k v s).cc = s.cc := rfl
@[simp] theorem setEng_free (k : Nat) (v : EngineSt) (s : State) : (setEng k v s).free = s.free := rfl
@[simp] theorem setEng_pins (k : Nat) (v : EngineSt) (s : State) : (setEng k v s).pins = s.pins := rfl
@[simp] theorem setEng_csr (k : Nat) (v : EngineSt) (s : State) : (setEng k v s).csr = s.csr := rfl
@[simp] theorem setEng_fab (k : Nat) (v : EngineSt) (s : State) : (setEng k v s).fab = s.fab := rfl
@[simp] theorem setEng_hdr (k : Nat) (v : EngineSt) (s : State) : (setEng k v s).hdr = s.hdr := rfl
@[simp] theorem setEng_regs (k : Nat) (v : EngineSt) (s : State) : (setEng k v s).regs = s.regs := rfl
@[simp] theorem setEng_regsEff (k : Nat) (v : EngineSt) (s : State) : (setEng k v s).regsEff = s.regsEff := rfl
@[simp] theorem setEng_win (k : Nat) (v : EngineSt) (s : State) : (setEng k v s).win = s.win := rfl
@[simp] theorem setEng_rif (k : Nat) (v : EngineSt) (s : State) : (setEng k v s).rif = s.rif := rfl
@[simp] theorem setEng_ops (k : Nat) (v : EngineSt) (s : State) : (setEng k v s).ops = s.ops := rfl
@[simp] theorem setEng_tmb (k : Nat) (v : EngineSt) (s : State) : (setEng k v s).tmb = s.tmb := rfl
@[simp] theorem setEng_sch (k : Nat) (v : EngineSt) (s : State) : (setEng k v s).sch = s.sch := rfl
@[simp] theorem setEng_chn (k : Nat) (v : EngineSt) (s : State) : (setEng k v s).chn = s.chn := rfl
@[simp] theorem setEng_peer (k : Nat) (v : EngineSt) (s : State) : (setEng k v s).peer = s.peer := rfl
@[simp] theorem setEng_sec (k : Nat) (v : EngineSt) (s : State) : (setEng k v s).sec = s.sec := rfl
@[simp] theorem setEng_dpt (k : Nat) (v : EngineSt) (s : State) : (setEng k v s).dpt = s.dpt := rfl
@[simp] theorem setEng_ecc (k : Nat) (v : EngineSt) (s : State) : (setEng k v s).ecc = s.ecc := rfl
@[simp] theorem setEng_lvl (k : Nat) (v : EngineSt) (s : State) : (setEng k v s).lvl = s.lvl := rfl
@[simp] theorem setEng_dsp (k : Nat) (v : EngineSt) (s : State) : (setEng k v s).dsp = s.dsp := rfl
@[simp] theorem setEng_pwr (k : Nat) (v : EngineSt) (s : State) : (setEng k v s).pwr = s.pwr := rfl
@[simp] theorem setEng_map (k : Nat) (v : EngineSt) (s : State) : (setEng k v s).map = s.map := rfl
@[simp] theorem setEng_irq (k : Nat) (v : EngineSt) (s : State) : (setEng k v s).irq = s.irq := rfl
@[simp] theorem setEng_note (k : Nat) (v : EngineSt) (s : State) : (setEng k v s).note = s.note := rfl
@[simp] theorem setEng_rst (k : Nat) (v : EngineSt) (s : State) : (setEng k v s).rst = s.rst := rfl
@[simp] theorem setEng_mem (k : Nat) (v : EngineSt) (s : State) : (setEng k v s).mem = s.mem := rfl

/-- Writes of ecc.running. -/
@[simp] theorem modSoft_eq (k : Nat) (f : (Option SoftRun) → (Option SoftRun)) (s : State) :
    modSoft k f s = setSoft k (f (softOf k s)) s := rfl
theorem setSoft_ecc (k : Nat) (v : Option SoftRun) (s : State) :
    (setSoft k v s).ecc = { s.ecc with running := SMap.put softDefault s.ecc.running k v } := rfl
@[simp] theorem softOf_setSoft_same (k : Nat) (v : Option SoftRun) (s : State) : softOf k (setSoft k v s) = v :=
  SMap.get_put_same softDefault s.ecc.running k v
@[simp] theorem setSoft_setSoft (k : Nat) (v w : Option SoftRun) (s : State) : setSoft k w (setSoft k v s) = setSoft k w s := by
  simp only [setSoft]; rw [SMap.put_put]
theorem softOf_setSoft_other {k l : Nat} (v : Option SoftRun) (s : State) (h : l ≠ k) : softOf l (setSoft k v s) = softOf l s :=
  SMap.get_put_other softDefault s.ecc.running v h
@[simp] theorem setSoft_pending (k : Nat) (v : Option SoftRun) (s : State) : (setSoft k v s).pending = s.pending := rfl
@[simp] theorem setSoft_cc (k : Nat) (v : Option SoftRun) (s : State) : (setSoft k v s).cc = s.cc := rfl
@[simp] theorem setSoft_free (k : Nat) (v : Option SoftRun) (s : State) : (setSoft k v s).free = s.free := rfl
@[simp] theorem setSoft_pins (k : Nat) (v : Option SoftRun) (s : State) : (setSoft k v s).pins = s.pins := rfl
@[simp] theorem setSoft_csr (k : Nat) (v : Option SoftRun) (s : State) : (setSoft k v s).csr = s.csr := rfl
@[simp] theorem setSoft_fab (k : Nat) (v : Option SoftRun) (s : State) : (setSoft k v s).fab = s.fab := rfl
@[simp] theorem setSoft_hdr (k : Nat) (v : Option SoftRun) (s : State) : (setSoft k v s).hdr = s.hdr := rfl
@[simp] theorem setSoft_regs (k : Nat) (v : Option SoftRun) (s : State) : (setSoft k v s).regs = s.regs := rfl
@[simp] theorem setSoft_regsEff (k : Nat) (v : Option SoftRun) (s : State) : (setSoft k v s).regsEff = s.regsEff := rfl
@[simp] theorem setSoft_win (k : Nat) (v : Option SoftRun) (s : State) : (setSoft k v s).win = s.win := rfl
@[simp] theorem setSoft_rif (k : Nat) (v : Option SoftRun) (s : State) : (setSoft k v s).rif = s.rif := rfl
@[simp] theorem setSoft_ops (k : Nat) (v : Option SoftRun) (s : State) : (setSoft k v s).ops = s.ops := rfl
@[simp] theorem setSoft_tmb (k : Nat) (v : Option SoftRun) (s : State) : (setSoft k v s).tmb = s.tmb := rfl
@[simp] theorem setSoft_sch (k : Nat) (v : Option SoftRun) (s : State) : (setSoft k v s).sch = s.sch := rfl
@[simp] theorem setSoft_chn (k : Nat) (v : Option SoftRun) (s : State) : (setSoft k v s).chn = s.chn := rfl
@[simp] theorem setSoft_peer (k : Nat) (v : Option SoftRun) (s : State) : (setSoft k v s).peer = s.peer := rfl
@[simp] theorem setSoft_eng (k : Nat) (v : Option SoftRun) (s : State) : (setSoft k v s).eng = s.eng := rfl
@[simp] theorem setSoft_sec (k : Nat) (v : Option SoftRun) (s : State) : (setSoft k v s).sec = s.sec := rfl
@[simp] theorem setSoft_dpt (k : Nat) (v : Option SoftRun) (s : State) : (setSoft k v s).dpt = s.dpt := rfl
@[simp] theorem setSoft_lvl (k : Nat) (v : Option SoftRun) (s : State) : (setSoft k v s).lvl = s.lvl := rfl
@[simp] theorem setSoft_dsp (k : Nat) (v : Option SoftRun) (s : State) : (setSoft k v s).dsp = s.dsp := rfl
@[simp] theorem setSoft_pwr (k : Nat) (v : Option SoftRun) (s : State) : (setSoft k v s).pwr = s.pwr := rfl
@[simp] theorem setSoft_map (k : Nat) (v : Option SoftRun) (s : State) : (setSoft k v s).map = s.map := rfl
@[simp] theorem setSoft_irq (k : Nat) (v : Option SoftRun) (s : State) : (setSoft k v s).irq = s.irq := rfl
@[simp] theorem setSoft_note (k : Nat) (v : Option SoftRun) (s : State) : (setSoft k v s).note = s.note := rfl
@[simp] theorem setSoft_rst (k : Nat) (v : Option SoftRun) (s : State) : (setSoft k v s).rst = s.rst := rfl
@[simp] theorem setSoft_mem (k : Nat) (v : Option SoftRun) (s : State) : (setSoft k v s).mem = s.mem := rfl

/-- Writes of ecc.correct. -/
@[simp] theorem modStage_eq (k : Nat) (f : (List (Nat × Nat × Nat × Nat)) → (List (Nat × Nat × Nat × Nat))) (s : State) :
    modStage k f s = setStage k (f (stageOf k s)) s := rfl
theorem setStage_ecc (k : Nat) (v : List (Nat × Nat × Nat × Nat)) (s : State) :
    (setStage k v s).ecc = { s.ecc with correct := SMap.put stageDefault s.ecc.correct k v } := rfl
@[simp] theorem stageOf_setStage_same (k : Nat) (v : List (Nat × Nat × Nat × Nat)) (s : State) : stageOf k (setStage k v s) = v :=
  SMap.get_put_same stageDefault s.ecc.correct k v
@[simp] theorem setStage_setStage (k : Nat) (v w : List (Nat × Nat × Nat × Nat)) (s : State) : setStage k w (setStage k v s) = setStage k w s := by
  simp only [setStage]; rw [SMap.put_put]
theorem stageOf_setStage_other {k l : Nat} (v : List (Nat × Nat × Nat × Nat)) (s : State) (h : l ≠ k) : stageOf l (setStage k v s) = stageOf l s :=
  SMap.get_put_other stageDefault s.ecc.correct v h
@[simp] theorem setStage_pending (k : Nat) (v : List (Nat × Nat × Nat × Nat)) (s : State) : (setStage k v s).pending = s.pending := rfl
@[simp] theorem setStage_cc (k : Nat) (v : List (Nat × Nat × Nat × Nat)) (s : State) : (setStage k v s).cc = s.cc := rfl
@[simp] theorem setStage_free (k : Nat) (v : List (Nat × Nat × Nat × Nat)) (s : State) : (setStage k v s).free = s.free := rfl
@[simp] theorem setStage_pins (k : Nat) (v : List (Nat × Nat × Nat × Nat)) (s : State) : (setStage k v s).pins = s.pins := rfl
@[simp] theorem setStage_csr (k : Nat) (v : List (Nat × Nat × Nat × Nat)) (s : State) : (setStage k v s).csr = s.csr := rfl
@[simp] theorem setStage_fab (k : Nat) (v : List (Nat × Nat × Nat × Nat)) (s : State) : (setStage k v s).fab = s.fab := rfl
@[simp] theorem setStage_hdr (k : Nat) (v : List (Nat × Nat × Nat × Nat)) (s : State) : (setStage k v s).hdr = s.hdr := rfl
@[simp] theorem setStage_regs (k : Nat) (v : List (Nat × Nat × Nat × Nat)) (s : State) : (setStage k v s).regs = s.regs := rfl
@[simp] theorem setStage_regsEff (k : Nat) (v : List (Nat × Nat × Nat × Nat)) (s : State) : (setStage k v s).regsEff = s.regsEff := rfl
@[simp] theorem setStage_win (k : Nat) (v : List (Nat × Nat × Nat × Nat)) (s : State) : (setStage k v s).win = s.win := rfl
@[simp] theorem setStage_rif (k : Nat) (v : List (Nat × Nat × Nat × Nat)) (s : State) : (setStage k v s).rif = s.rif := rfl
@[simp] theorem setStage_ops (k : Nat) (v : List (Nat × Nat × Nat × Nat)) (s : State) : (setStage k v s).ops = s.ops := rfl
@[simp] theorem setStage_tmb (k : Nat) (v : List (Nat × Nat × Nat × Nat)) (s : State) : (setStage k v s).tmb = s.tmb := rfl
@[simp] theorem setStage_sch (k : Nat) (v : List (Nat × Nat × Nat × Nat)) (s : State) : (setStage k v s).sch = s.sch := rfl
@[simp] theorem setStage_chn (k : Nat) (v : List (Nat × Nat × Nat × Nat)) (s : State) : (setStage k v s).chn = s.chn := rfl
@[simp] theorem setStage_peer (k : Nat) (v : List (Nat × Nat × Nat × Nat)) (s : State) : (setStage k v s).peer = s.peer := rfl
@[simp] theorem setStage_eng (k : Nat) (v : List (Nat × Nat × Nat × Nat)) (s : State) : (setStage k v s).eng = s.eng := rfl
@[simp] theorem setStage_sec (k : Nat) (v : List (Nat × Nat × Nat × Nat)) (s : State) : (setStage k v s).sec = s.sec := rfl
@[simp] theorem setStage_dpt (k : Nat) (v : List (Nat × Nat × Nat × Nat)) (s : State) : (setStage k v s).dpt = s.dpt := rfl
@[simp] theorem setStage_lvl (k : Nat) (v : List (Nat × Nat × Nat × Nat)) (s : State) : (setStage k v s).lvl = s.lvl := rfl
@[simp] theorem setStage_dsp (k : Nat) (v : List (Nat × Nat × Nat × Nat)) (s : State) : (setStage k v s).dsp = s.dsp := rfl
@[simp] theorem setStage_pwr (k : Nat) (v : List (Nat × Nat × Nat × Nat)) (s : State) : (setStage k v s).pwr = s.pwr := rfl
@[simp] theorem setStage_map (k : Nat) (v : List (Nat × Nat × Nat × Nat)) (s : State) : (setStage k v s).map = s.map := rfl
@[simp] theorem setStage_irq (k : Nat) (v : List (Nat × Nat × Nat × Nat)) (s : State) : (setStage k v s).irq = s.irq := rfl
@[simp] theorem setStage_note (k : Nat) (v : List (Nat × Nat × Nat × Nat)) (s : State) : (setStage k v s).note = s.note := rfl
@[simp] theorem setStage_rst (k : Nat) (v : List (Nat × Nat × Nat × Nat)) (s : State) : (setStage k v s).rst = s.rst := rfl
@[simp] theorem setStage_mem (k : Nat) (v : List (Nat × Nat × Nat × Nat)) (s : State) : (setStage k v s).mem = s.mem := rfl

/-- Writes of lvl.temps. -/
@[simp] theorem modTemp_eq (k : Nat) (f : DieTemp → DieTemp) (s : State) :
    modTemp k f s = setTemp k (f (tempOf k s)) s := rfl
theorem setTemp_lvl (k : Nat) (v : DieTemp) (s : State) :
    (setTemp k v s).lvl = { s.lvl with temps := SMap.put tempDefault s.lvl.temps k v } := rfl
@[simp] theorem tempOf_setTemp_same (k : Nat) (v : DieTemp) (s : State) : tempOf k (setTemp k v s) = v :=
  SMap.get_put_same tempDefault s.lvl.temps k v
@[simp] theorem setTemp_setTemp (k : Nat) (v w : DieTemp) (s : State) : setTemp k w (setTemp k v s) = setTemp k w s := by
  simp only [setTemp]; rw [SMap.put_put]
theorem tempOf_setTemp_other {k l : Nat} (v : DieTemp) (s : State) (h : l ≠ k) : tempOf l (setTemp k v s) = tempOf l s :=
  SMap.get_put_other tempDefault s.lvl.temps v h
@[simp] theorem setTemp_pending (k : Nat) (v : DieTemp) (s : State) : (setTemp k v s).pending = s.pending := rfl
@[simp] theorem setTemp_cc (k : Nat) (v : DieTemp) (s : State) : (setTemp k v s).cc = s.cc := rfl
@[simp] theorem setTemp_free (k : Nat) (v : DieTemp) (s : State) : (setTemp k v s).free = s.free := rfl
@[simp] theorem setTemp_pins (k : Nat) (v : DieTemp) (s : State) : (setTemp k v s).pins = s.pins := rfl
@[simp] theorem setTemp_csr (k : Nat) (v : DieTemp) (s : State) : (setTemp k v s).csr = s.csr := rfl
@[simp] theorem setTemp_fab (k : Nat) (v : DieTemp) (s : State) : (setTemp k v s).fab = s.fab := rfl
@[simp] theorem setTemp_hdr (k : Nat) (v : DieTemp) (s : State) : (setTemp k v s).hdr = s.hdr := rfl
@[simp] theorem setTemp_regs (k : Nat) (v : DieTemp) (s : State) : (setTemp k v s).regs = s.regs := rfl
@[simp] theorem setTemp_regsEff (k : Nat) (v : DieTemp) (s : State) : (setTemp k v s).regsEff = s.regsEff := rfl
@[simp] theorem setTemp_win (k : Nat) (v : DieTemp) (s : State) : (setTemp k v s).win = s.win := rfl
@[simp] theorem setTemp_rif (k : Nat) (v : DieTemp) (s : State) : (setTemp k v s).rif = s.rif := rfl
@[simp] theorem setTemp_ops (k : Nat) (v : DieTemp) (s : State) : (setTemp k v s).ops = s.ops := rfl
@[simp] theorem setTemp_tmb (k : Nat) (v : DieTemp) (s : State) : (setTemp k v s).tmb = s.tmb := rfl
@[simp] theorem setTemp_sch (k : Nat) (v : DieTemp) (s : State) : (setTemp k v s).sch = s.sch := rfl
@[simp] theorem setTemp_chn (k : Nat) (v : DieTemp) (s : State) : (setTemp k v s).chn = s.chn := rfl
@[simp] theorem setTemp_peer (k : Nat) (v : DieTemp) (s : State) : (setTemp k v s).peer = s.peer := rfl
@[simp] theorem setTemp_eng (k : Nat) (v : DieTemp) (s : State) : (setTemp k v s).eng = s.eng := rfl
@[simp] theorem setTemp_sec (k : Nat) (v : DieTemp) (s : State) : (setTemp k v s).sec = s.sec := rfl
@[simp] theorem setTemp_dpt (k : Nat) (v : DieTemp) (s : State) : (setTemp k v s).dpt = s.dpt := rfl
@[simp] theorem setTemp_ecc (k : Nat) (v : DieTemp) (s : State) : (setTemp k v s).ecc = s.ecc := rfl
@[simp] theorem setTemp_dsp (k : Nat) (v : DieTemp) (s : State) : (setTemp k v s).dsp = s.dsp := rfl
@[simp] theorem setTemp_pwr (k : Nat) (v : DieTemp) (s : State) : (setTemp k v s).pwr = s.pwr := rfl
@[simp] theorem setTemp_map (k : Nat) (v : DieTemp) (s : State) : (setTemp k v s).map = s.map := rfl
@[simp] theorem setTemp_irq (k : Nat) (v : DieTemp) (s : State) : (setTemp k v s).irq = s.irq := rfl
@[simp] theorem setTemp_note (k : Nat) (v : DieTemp) (s : State) : (setTemp k v s).note = s.note := rfl
@[simp] theorem setTemp_rst (k : Nat) (v : DieTemp) (s : State) : (setTemp k v s).rst = s.rst := rfl
@[simp] theorem setTemp_mem (k : Nat) (v : DieTemp) (s : State) : (setTemp k v s).mem = s.mem := rfl

/-- Writes of lvl.current. -/
@[simp] theorem modLevels_eq (k : Nat) (f : (Option SetLevels) → (Option SetLevels)) (s : State) :
    modLevels k f s = setLevels k (f (levelsOf k s)) s := rfl
theorem setLevels_lvl (k : Nat) (v : Option SetLevels) (s : State) :
    (setLevels k v s).lvl = { s.lvl with current := SMap.put levelsDefault s.lvl.current k v } := rfl
@[simp] theorem levelsOf_setLevels_same (k : Nat) (v : Option SetLevels) (s : State) : levelsOf k (setLevels k v s) = v :=
  SMap.get_put_same levelsDefault s.lvl.current k v
@[simp] theorem setLevels_setLevels (k : Nat) (v w : Option SetLevels) (s : State) : setLevels k w (setLevels k v s) = setLevels k w s := by
  simp only [setLevels]; rw [SMap.put_put]
theorem levelsOf_setLevels_other {k l : Nat} (v : Option SetLevels) (s : State) (h : l ≠ k) : levelsOf l (setLevels k v s) = levelsOf l s :=
  SMap.get_put_other levelsDefault s.lvl.current v h
@[simp] theorem setLevels_pending (k : Nat) (v : Option SetLevels) (s : State) : (setLevels k v s).pending = s.pending := rfl
@[simp] theorem setLevels_cc (k : Nat) (v : Option SetLevels) (s : State) : (setLevels k v s).cc = s.cc := rfl
@[simp] theorem setLevels_free (k : Nat) (v : Option SetLevels) (s : State) : (setLevels k v s).free = s.free := rfl
@[simp] theorem setLevels_pins (k : Nat) (v : Option SetLevels) (s : State) : (setLevels k v s).pins = s.pins := rfl
@[simp] theorem setLevels_csr (k : Nat) (v : Option SetLevels) (s : State) : (setLevels k v s).csr = s.csr := rfl
@[simp] theorem setLevels_fab (k : Nat) (v : Option SetLevels) (s : State) : (setLevels k v s).fab = s.fab := rfl
@[simp] theorem setLevels_hdr (k : Nat) (v : Option SetLevels) (s : State) : (setLevels k v s).hdr = s.hdr := rfl
@[simp] theorem setLevels_regs (k : Nat) (v : Option SetLevels) (s : State) : (setLevels k v s).regs = s.regs := rfl
@[simp] theorem setLevels_regsEff (k : Nat) (v : Option SetLevels) (s : State) : (setLevels k v s).regsEff = s.regsEff := rfl
@[simp] theorem setLevels_win (k : Nat) (v : Option SetLevels) (s : State) : (setLevels k v s).win = s.win := rfl
@[simp] theorem setLevels_rif (k : Nat) (v : Option SetLevels) (s : State) : (setLevels k v s).rif = s.rif := rfl
@[simp] theorem setLevels_ops (k : Nat) (v : Option SetLevels) (s : State) : (setLevels k v s).ops = s.ops := rfl
@[simp] theorem setLevels_tmb (k : Nat) (v : Option SetLevels) (s : State) : (setLevels k v s).tmb = s.tmb := rfl
@[simp] theorem setLevels_sch (k : Nat) (v : Option SetLevels) (s : State) : (setLevels k v s).sch = s.sch := rfl
@[simp] theorem setLevels_chn (k : Nat) (v : Option SetLevels) (s : State) : (setLevels k v s).chn = s.chn := rfl
@[simp] theorem setLevels_peer (k : Nat) (v : Option SetLevels) (s : State) : (setLevels k v s).peer = s.peer := rfl
@[simp] theorem setLevels_eng (k : Nat) (v : Option SetLevels) (s : State) : (setLevels k v s).eng = s.eng := rfl
@[simp] theorem setLevels_sec (k : Nat) (v : Option SetLevels) (s : State) : (setLevels k v s).sec = s.sec := rfl
@[simp] theorem setLevels_dpt (k : Nat) (v : Option SetLevels) (s : State) : (setLevels k v s).dpt = s.dpt := rfl
@[simp] theorem setLevels_ecc (k : Nat) (v : Option SetLevels) (s : State) : (setLevels k v s).ecc = s.ecc := rfl
@[simp] theorem setLevels_dsp (k : Nat) (v : Option SetLevels) (s : State) : (setLevels k v s).dsp = s.dsp := rfl
@[simp] theorem setLevels_pwr (k : Nat) (v : Option SetLevels) (s : State) : (setLevels k v s).pwr = s.pwr := rfl
@[simp] theorem setLevels_map (k : Nat) (v : Option SetLevels) (s : State) : (setLevels k v s).map = s.map := rfl
@[simp] theorem setLevels_irq (k : Nat) (v : Option SetLevels) (s : State) : (setLevels k v s).irq = s.irq := rfl
@[simp] theorem setLevels_note (k : Nat) (v : Option SetLevels) (s : State) : (setLevels k v s).note = s.note := rfl
@[simp] theorem setLevels_rst (k : Nat) (v : Option SetLevels) (s : State) : (setLevels k v s).rst = s.rst := rfl
@[simp] theorem setLevels_mem (k : Nat) (v : Option SetLevels) (s : State) : (setLevels k v s).mem = s.mem := rfl

/-- Writes of lvl.noise. -/
@[simp] theorem modNoise_eq (k : Nat) (f : Noise → Noise) (s : State) :
    modNoise k f s = setNoise k (f (noiseOf k s)) s := rfl
theorem setNoise_lvl (k : Nat) (v : Noise) (s : State) :
    (setNoise k v s).lvl = { s.lvl with noise := SMap.put noiseDefault s.lvl.noise k v } := rfl
@[simp] theorem noiseOf_setNoise_same (k : Nat) (v : Noise) (s : State) : noiseOf k (setNoise k v s) = v :=
  SMap.get_put_same noiseDefault s.lvl.noise k v
@[simp] theorem setNoise_setNoise (k : Nat) (v w : Noise) (s : State) : setNoise k w (setNoise k v s) = setNoise k w s := by
  simp only [setNoise]; rw [SMap.put_put]
theorem noiseOf_setNoise_other {k l : Nat} (v : Noise) (s : State) (h : l ≠ k) : noiseOf l (setNoise k v s) = noiseOf l s :=
  SMap.get_put_other noiseDefault s.lvl.noise v h
@[simp] theorem setNoise_pending (k : Nat) (v : Noise) (s : State) : (setNoise k v s).pending = s.pending := rfl
@[simp] theorem setNoise_cc (k : Nat) (v : Noise) (s : State) : (setNoise k v s).cc = s.cc := rfl
@[simp] theorem setNoise_free (k : Nat) (v : Noise) (s : State) : (setNoise k v s).free = s.free := rfl
@[simp] theorem setNoise_pins (k : Nat) (v : Noise) (s : State) : (setNoise k v s).pins = s.pins := rfl
@[simp] theorem setNoise_csr (k : Nat) (v : Noise) (s : State) : (setNoise k v s).csr = s.csr := rfl
@[simp] theorem setNoise_fab (k : Nat) (v : Noise) (s : State) : (setNoise k v s).fab = s.fab := rfl
@[simp] theorem setNoise_hdr (k : Nat) (v : Noise) (s : State) : (setNoise k v s).hdr = s.hdr := rfl
@[simp] theorem setNoise_regs (k : Nat) (v : Noise) (s : State) : (setNoise k v s).regs = s.regs := rfl
@[simp] theorem setNoise_regsEff (k : Nat) (v : Noise) (s : State) : (setNoise k v s).regsEff = s.regsEff := rfl
@[simp] theorem setNoise_win (k : Nat) (v : Noise) (s : State) : (setNoise k v s).win = s.win := rfl
@[simp] theorem setNoise_rif (k : Nat) (v : Noise) (s : State) : (setNoise k v s).rif = s.rif := rfl
@[simp] theorem setNoise_ops (k : Nat) (v : Noise) (s : State) : (setNoise k v s).ops = s.ops := rfl
@[simp] theorem setNoise_tmb (k : Nat) (v : Noise) (s : State) : (setNoise k v s).tmb = s.tmb := rfl
@[simp] theorem setNoise_sch (k : Nat) (v : Noise) (s : State) : (setNoise k v s).sch = s.sch := rfl
@[simp] theorem setNoise_chn (k : Nat) (v : Noise) (s : State) : (setNoise k v s).chn = s.chn := rfl
@[simp] theorem setNoise_peer (k : Nat) (v : Noise) (s : State) : (setNoise k v s).peer = s.peer := rfl
@[simp] theorem setNoise_eng (k : Nat) (v : Noise) (s : State) : (setNoise k v s).eng = s.eng := rfl
@[simp] theorem setNoise_sec (k : Nat) (v : Noise) (s : State) : (setNoise k v s).sec = s.sec := rfl
@[simp] theorem setNoise_dpt (k : Nat) (v : Noise) (s : State) : (setNoise k v s).dpt = s.dpt := rfl
@[simp] theorem setNoise_ecc (k : Nat) (v : Noise) (s : State) : (setNoise k v s).ecc = s.ecc := rfl
@[simp] theorem setNoise_dsp (k : Nat) (v : Noise) (s : State) : (setNoise k v s).dsp = s.dsp := rfl
@[simp] theorem setNoise_pwr (k : Nat) (v : Noise) (s : State) : (setNoise k v s).pwr = s.pwr := rfl
@[simp] theorem setNoise_map (k : Nat) (v : Noise) (s : State) : (setNoise k v s).map = s.map := rfl
@[simp] theorem setNoise_irq (k : Nat) (v : Noise) (s : State) : (setNoise k v s).irq = s.irq := rfl
@[simp] theorem setNoise_note (k : Nat) (v : Noise) (s : State) : (setNoise k v s).note = s.note := rfl
@[simp] theorem setNoise_rst (k : Nat) (v : Noise) (s : State) : (setNoise k v s).rst = s.rst := rfl
@[simp] theorem setNoise_mem (k : Nat) (v : Noise) (s : State) : (setNoise k v s).mem = s.mem := rfl

/-- Writes of dsp. -/
@[simp] theorem modDsp_eq (k : Nat) (f : Dsp → Dsp) (s : State) :
    modDsp k f s = setDsp k (f (dspOf k s)) s := rfl
theorem setDsp_dsp (k : Nat) (v : Dsp) (s : State) :
    (setDsp k v s).dsp = SMap.put dspDefault s.dsp k v := rfl
@[simp] theorem dspOf_setDsp_same (k : Nat) (v : Dsp) (s : State) : dspOf k (setDsp k v s) = v :=
  SMap.get_put_same dspDefault s.dsp k v
@[simp] theorem setDsp_setDsp (k : Nat) (v w : Dsp) (s : State) : setDsp k w (setDsp k v s) = setDsp k w s := by
  simp only [setDsp]; rw [SMap.put_put]
theorem dspOf_setDsp_other {k l : Nat} (v : Dsp) (s : State) (h : l ≠ k) : dspOf l (setDsp k v s) = dspOf l s :=
  SMap.get_put_other dspDefault s.dsp v h
@[simp] theorem setDsp_pending (k : Nat) (v : Dsp) (s : State) : (setDsp k v s).pending = s.pending := rfl
@[simp] theorem setDsp_cc (k : Nat) (v : Dsp) (s : State) : (setDsp k v s).cc = s.cc := rfl
@[simp] theorem setDsp_free (k : Nat) (v : Dsp) (s : State) : (setDsp k v s).free = s.free := rfl
@[simp] theorem setDsp_pins (k : Nat) (v : Dsp) (s : State) : (setDsp k v s).pins = s.pins := rfl
@[simp] theorem setDsp_csr (k : Nat) (v : Dsp) (s : State) : (setDsp k v s).csr = s.csr := rfl
@[simp] theorem setDsp_fab (k : Nat) (v : Dsp) (s : State) : (setDsp k v s).fab = s.fab := rfl
@[simp] theorem setDsp_hdr (k : Nat) (v : Dsp) (s : State) : (setDsp k v s).hdr = s.hdr := rfl
@[simp] theorem setDsp_regs (k : Nat) (v : Dsp) (s : State) : (setDsp k v s).regs = s.regs := rfl
@[simp] theorem setDsp_regsEff (k : Nat) (v : Dsp) (s : State) : (setDsp k v s).regsEff = s.regsEff := rfl
@[simp] theorem setDsp_win (k : Nat) (v : Dsp) (s : State) : (setDsp k v s).win = s.win := rfl
@[simp] theorem setDsp_rif (k : Nat) (v : Dsp) (s : State) : (setDsp k v s).rif = s.rif := rfl
@[simp] theorem setDsp_ops (k : Nat) (v : Dsp) (s : State) : (setDsp k v s).ops = s.ops := rfl
@[simp] theorem setDsp_tmb (k : Nat) (v : Dsp) (s : State) : (setDsp k v s).tmb = s.tmb := rfl
@[simp] theorem setDsp_sch (k : Nat) (v : Dsp) (s : State) : (setDsp k v s).sch = s.sch := rfl
@[simp] theorem setDsp_chn (k : Nat) (v : Dsp) (s : State) : (setDsp k v s).chn = s.chn := rfl
@[simp] theorem setDsp_peer (k : Nat) (v : Dsp) (s : State) : (setDsp k v s).peer = s.peer := rfl
@[simp] theorem setDsp_eng (k : Nat) (v : Dsp) (s : State) : (setDsp k v s).eng = s.eng := rfl
@[simp] theorem setDsp_sec (k : Nat) (v : Dsp) (s : State) : (setDsp k v s).sec = s.sec := rfl
@[simp] theorem setDsp_dpt (k : Nat) (v : Dsp) (s : State) : (setDsp k v s).dpt = s.dpt := rfl
@[simp] theorem setDsp_ecc (k : Nat) (v : Dsp) (s : State) : (setDsp k v s).ecc = s.ecc := rfl
@[simp] theorem setDsp_lvl (k : Nat) (v : Dsp) (s : State) : (setDsp k v s).lvl = s.lvl := rfl
@[simp] theorem setDsp_pwr (k : Nat) (v : Dsp) (s : State) : (setDsp k v s).pwr = s.pwr := rfl
@[simp] theorem setDsp_map (k : Nat) (v : Dsp) (s : State) : (setDsp k v s).map = s.map := rfl
@[simp] theorem setDsp_irq (k : Nat) (v : Dsp) (s : State) : (setDsp k v s).irq = s.irq := rfl
@[simp] theorem setDsp_note (k : Nat) (v : Dsp) (s : State) : (setDsp k v s).note = s.note := rfl
@[simp] theorem setDsp_rst (k : Nat) (v : Dsp) (s : State) : (setDsp k v s).rst = s.rst := rfl
@[simp] theorem setDsp_mem (k : Nat) (v : Dsp) (s : State) : (setDsp k v s).mem = s.mem := rfl

/-- Writes of pwr.groups. -/
@[simp] theorem modGroup_eq (k : Nat) (f : Group → Group) (s : State) :
    modGroup k f s = setGroup k (f (groupOf k s)) s := rfl
theorem setGroup_pwr (k : Nat) (v : Group) (s : State) :
    (setGroup k v s).pwr = { s.pwr with groups := SMap.put groupDefault s.pwr.groups k v } := rfl
@[simp] theorem groupOf_setGroup_same (k : Nat) (v : Group) (s : State) : groupOf k (setGroup k v s) = v :=
  SMap.get_put_same groupDefault s.pwr.groups k v
@[simp] theorem setGroup_setGroup (k : Nat) (v w : Group) (s : State) : setGroup k w (setGroup k v s) = setGroup k w s := by
  simp only [setGroup]; rw [SMap.put_put]
theorem groupOf_setGroup_other {k l : Nat} (v : Group) (s : State) (h : l ≠ k) : groupOf l (setGroup k v s) = groupOf l s :=
  SMap.get_put_other groupDefault s.pwr.groups v h
@[simp] theorem setGroup_pending (k : Nat) (v : Group) (s : State) : (setGroup k v s).pending = s.pending := rfl
@[simp] theorem setGroup_cc (k : Nat) (v : Group) (s : State) : (setGroup k v s).cc = s.cc := rfl
@[simp] theorem setGroup_free (k : Nat) (v : Group) (s : State) : (setGroup k v s).free = s.free := rfl
@[simp] theorem setGroup_pins (k : Nat) (v : Group) (s : State) : (setGroup k v s).pins = s.pins := rfl
@[simp] theorem setGroup_csr (k : Nat) (v : Group) (s : State) : (setGroup k v s).csr = s.csr := rfl
@[simp] theorem setGroup_fab (k : Nat) (v : Group) (s : State) : (setGroup k v s).fab = s.fab := rfl
@[simp] theorem setGroup_hdr (k : Nat) (v : Group) (s : State) : (setGroup k v s).hdr = s.hdr := rfl
@[simp] theorem setGroup_regs (k : Nat) (v : Group) (s : State) : (setGroup k v s).regs = s.regs := rfl
@[simp] theorem setGroup_regsEff (k : Nat) (v : Group) (s : State) : (setGroup k v s).regsEff = s.regsEff := rfl
@[simp] theorem setGroup_win (k : Nat) (v : Group) (s : State) : (setGroup k v s).win = s.win := rfl
@[simp] theorem setGroup_rif (k : Nat) (v : Group) (s : State) : (setGroup k v s).rif = s.rif := rfl
@[simp] theorem setGroup_ops (k : Nat) (v : Group) (s : State) : (setGroup k v s).ops = s.ops := rfl
@[simp] theorem setGroup_tmb (k : Nat) (v : Group) (s : State) : (setGroup k v s).tmb = s.tmb := rfl
@[simp] theorem setGroup_sch (k : Nat) (v : Group) (s : State) : (setGroup k v s).sch = s.sch := rfl
@[simp] theorem setGroup_chn (k : Nat) (v : Group) (s : State) : (setGroup k v s).chn = s.chn := rfl
@[simp] theorem setGroup_peer (k : Nat) (v : Group) (s : State) : (setGroup k v s).peer = s.peer := rfl
@[simp] theorem setGroup_eng (k : Nat) (v : Group) (s : State) : (setGroup k v s).eng = s.eng := rfl
@[simp] theorem setGroup_sec (k : Nat) (v : Group) (s : State) : (setGroup k v s).sec = s.sec := rfl
@[simp] theorem setGroup_dpt (k : Nat) (v : Group) (s : State) : (setGroup k v s).dpt = s.dpt := rfl
@[simp] theorem setGroup_ecc (k : Nat) (v : Group) (s : State) : (setGroup k v s).ecc = s.ecc := rfl
@[simp] theorem setGroup_lvl (k : Nat) (v : Group) (s : State) : (setGroup k v s).lvl = s.lvl := rfl
@[simp] theorem setGroup_dsp (k : Nat) (v : Group) (s : State) : (setGroup k v s).dsp = s.dsp := rfl
@[simp] theorem setGroup_map (k : Nat) (v : Group) (s : State) : (setGroup k v s).map = s.map := rfl
@[simp] theorem setGroup_irq (k : Nat) (v : Group) (s : State) : (setGroup k v s).irq = s.irq := rfl
@[simp] theorem setGroup_note (k : Nat) (v : Group) (s : State) : (setGroup k v s).note = s.note := rfl
@[simp] theorem setGroup_rst (k : Nat) (v : Group) (s : State) : (setGroup k v s).rst = s.rst := rfl
@[simp] theorem setGroup_mem (k : Nat) (v : Group) (s : State) : (setGroup k v s).mem = s.mem := rfl

/-- Writes of map.roster. -/
@[simp] theorem modRoster_eq (k : Nat) (f : Roster → Roster) (s : State) :
    modRoster k f s = setRoster k (f (rosterOf k s)) s := rfl
theorem setRoster_map (k : Nat) (v : Roster) (s : State) :
    (setRoster k v s).map = { s.map with roster := SMap.put rosterDefault s.map.roster k v } := rfl
@[simp] theorem rosterOf_setRoster_same (k : Nat) (v : Roster) (s : State) : rosterOf k (setRoster k v s) = v :=
  SMap.get_put_same rosterDefault s.map.roster k v
@[simp] theorem setRoster_setRoster (k : Nat) (v w : Roster) (s : State) : setRoster k w (setRoster k v s) = setRoster k w s := by
  simp only [setRoster]; rw [SMap.put_put]
theorem rosterOf_setRoster_other {k l : Nat} (v : Roster) (s : State) (h : l ≠ k) : rosterOf l (setRoster k v s) = rosterOf l s :=
  SMap.get_put_other rosterDefault s.map.roster v h
@[simp] theorem setRoster_pending (k : Nat) (v : Roster) (s : State) : (setRoster k v s).pending = s.pending := rfl
@[simp] theorem setRoster_cc (k : Nat) (v : Roster) (s : State) : (setRoster k v s).cc = s.cc := rfl
@[simp] theorem setRoster_free (k : Nat) (v : Roster) (s : State) : (setRoster k v s).free = s.free := rfl
@[simp] theorem setRoster_pins (k : Nat) (v : Roster) (s : State) : (setRoster k v s).pins = s.pins := rfl
@[simp] theorem setRoster_csr (k : Nat) (v : Roster) (s : State) : (setRoster k v s).csr = s.csr := rfl
@[simp] theorem setRoster_fab (k : Nat) (v : Roster) (s : State) : (setRoster k v s).fab = s.fab := rfl
@[simp] theorem setRoster_hdr (k : Nat) (v : Roster) (s : State) : (setRoster k v s).hdr = s.hdr := rfl
@[simp] theorem setRoster_regs (k : Nat) (v : Roster) (s : State) : (setRoster k v s).regs = s.regs := rfl
@[simp] theorem setRoster_regsEff (k : Nat) (v : Roster) (s : State) : (setRoster k v s).regsEff = s.regsEff := rfl
@[simp] theorem setRoster_win (k : Nat) (v : Roster) (s : State) : (setRoster k v s).win = s.win := rfl
@[simp] theorem setRoster_rif (k : Nat) (v : Roster) (s : State) : (setRoster k v s).rif = s.rif := rfl
@[simp] theorem setRoster_ops (k : Nat) (v : Roster) (s : State) : (setRoster k v s).ops = s.ops := rfl
@[simp] theorem setRoster_tmb (k : Nat) (v : Roster) (s : State) : (setRoster k v s).tmb = s.tmb := rfl
@[simp] theorem setRoster_sch (k : Nat) (v : Roster) (s : State) : (setRoster k v s).sch = s.sch := rfl
@[simp] theorem setRoster_chn (k : Nat) (v : Roster) (s : State) : (setRoster k v s).chn = s.chn := rfl
@[simp] theorem setRoster_peer (k : Nat) (v : Roster) (s : State) : (setRoster k v s).peer = s.peer := rfl
@[simp] theorem setRoster_eng (k : Nat) (v : Roster) (s : State) : (setRoster k v s).eng = s.eng := rfl
@[simp] theorem setRoster_sec (k : Nat) (v : Roster) (s : State) : (setRoster k v s).sec = s.sec := rfl
@[simp] theorem setRoster_dpt (k : Nat) (v : Roster) (s : State) : (setRoster k v s).dpt = s.dpt := rfl
@[simp] theorem setRoster_ecc (k : Nat) (v : Roster) (s : State) : (setRoster k v s).ecc = s.ecc := rfl
@[simp] theorem setRoster_lvl (k : Nat) (v : Roster) (s : State) : (setRoster k v s).lvl = s.lvl := rfl
@[simp] theorem setRoster_dsp (k : Nat) (v : Roster) (s : State) : (setRoster k v s).dsp = s.dsp := rfl
@[simp] theorem setRoster_pwr (k : Nat) (v : Roster) (s : State) : (setRoster k v s).pwr = s.pwr := rfl
@[simp] theorem setRoster_irq (k : Nat) (v : Roster) (s : State) : (setRoster k v s).irq = s.irq := rfl
@[simp] theorem setRoster_note (k : Nat) (v : Roster) (s : State) : (setRoster k v s).note = s.note := rfl
@[simp] theorem setRoster_rst (k : Nat) (v : Roster) (s : State) : (setRoster k v s).rst = s.rst := rfl
@[simp] theorem setRoster_mem (k : Nat) (v : Roster) (s : State) : (setRoster k v s).mem = s.mem := rfl

/-- Writes of map.copies. -/
@[simp] theorem modCopy_eq (k : Nat) (f : CopyRead → CopyRead) (s : State) :
    modCopy k f s = setCopy k (f (copyOf k s)) s := rfl
theorem setCopy_map (k : Nat) (v : CopyRead) (s : State) :
    (setCopy k v s).map = { s.map with copies := SMap.put copyDefault s.map.copies k v } := rfl
@[simp] theorem copyOf_setCopy_same (k : Nat) (v : CopyRead) (s : State) : copyOf k (setCopy k v s) = v :=
  SMap.get_put_same copyDefault s.map.copies k v
@[simp] theorem setCopy_setCopy (k : Nat) (v w : CopyRead) (s : State) : setCopy k w (setCopy k v s) = setCopy k w s := by
  simp only [setCopy]; rw [SMap.put_put]
theorem copyOf_setCopy_other {k l : Nat} (v : CopyRead) (s : State) (h : l ≠ k) : copyOf l (setCopy k v s) = copyOf l s :=
  SMap.get_put_other copyDefault s.map.copies v h
@[simp] theorem setCopy_pending (k : Nat) (v : CopyRead) (s : State) : (setCopy k v s).pending = s.pending := rfl
@[simp] theorem setCopy_cc (k : Nat) (v : CopyRead) (s : State) : (setCopy k v s).cc = s.cc := rfl
@[simp] theorem setCopy_free (k : Nat) (v : CopyRead) (s : State) : (setCopy k v s).free = s.free := rfl
@[simp] theorem setCopy_pins (k : Nat) (v : CopyRead) (s : State) : (setCopy k v s).pins = s.pins := rfl
@[simp] theorem setCopy_csr (k : Nat) (v : CopyRead) (s : State) : (setCopy k v s).csr = s.csr := rfl
@[simp] theorem setCopy_fab (k : Nat) (v : CopyRead) (s : State) : (setCopy k v s).fab = s.fab := rfl
@[simp] theorem setCopy_hdr (k : Nat) (v : CopyRead) (s : State) : (setCopy k v s).hdr = s.hdr := rfl
@[simp] theorem setCopy_regs (k : Nat) (v : CopyRead) (s : State) : (setCopy k v s).regs = s.regs := rfl
@[simp] theorem setCopy_regsEff (k : Nat) (v : CopyRead) (s : State) : (setCopy k v s).regsEff = s.regsEff := rfl
@[simp] theorem setCopy_win (k : Nat) (v : CopyRead) (s : State) : (setCopy k v s).win = s.win := rfl
@[simp] theorem setCopy_rif (k : Nat) (v : CopyRead) (s : State) : (setCopy k v s).rif = s.rif := rfl
@[simp] theorem setCopy_ops (k : Nat) (v : CopyRead) (s : State) : (setCopy k v s).ops = s.ops := rfl
@[simp] theorem setCopy_tmb (k : Nat) (v : CopyRead) (s : State) : (setCopy k v s).tmb = s.tmb := rfl
@[simp] theorem setCopy_sch (k : Nat) (v : CopyRead) (s : State) : (setCopy k v s).sch = s.sch := rfl
@[simp] theorem setCopy_chn (k : Nat) (v : CopyRead) (s : State) : (setCopy k v s).chn = s.chn := rfl
@[simp] theorem setCopy_peer (k : Nat) (v : CopyRead) (s : State) : (setCopy k v s).peer = s.peer := rfl
@[simp] theorem setCopy_eng (k : Nat) (v : CopyRead) (s : State) : (setCopy k v s).eng = s.eng := rfl
@[simp] theorem setCopy_sec (k : Nat) (v : CopyRead) (s : State) : (setCopy k v s).sec = s.sec := rfl
@[simp] theorem setCopy_dpt (k : Nat) (v : CopyRead) (s : State) : (setCopy k v s).dpt = s.dpt := rfl
@[simp] theorem setCopy_ecc (k : Nat) (v : CopyRead) (s : State) : (setCopy k v s).ecc = s.ecc := rfl
@[simp] theorem setCopy_lvl (k : Nat) (v : CopyRead) (s : State) : (setCopy k v s).lvl = s.lvl := rfl
@[simp] theorem setCopy_dsp (k : Nat) (v : CopyRead) (s : State) : (setCopy k v s).dsp = s.dsp := rfl
@[simp] theorem setCopy_pwr (k : Nat) (v : CopyRead) (s : State) : (setCopy k v s).pwr = s.pwr := rfl
@[simp] theorem setCopy_irq (k : Nat) (v : CopyRead) (s : State) : (setCopy k v s).irq = s.irq := rfl
@[simp] theorem setCopy_note (k : Nat) (v : CopyRead) (s : State) : (setCopy k v s).note = s.note := rfl
@[simp] theorem setCopy_rst (k : Nat) (v : CopyRead) (s : State) : (setCopy k v s).rst = s.rst := rfl
@[simp] theorem setCopy_mem (k : Nat) (v : CopyRead) (s : State) : (setCopy k v s).mem = s.mem := rfl

/-- Writes of irq.targets. -/
@[simp] theorem modTarget_eq (k : Nat) (f : Target → Target) (s : State) :
    modTarget k f s = setTarget k (f (targetOf k s)) s := rfl
theorem setTarget_irq (k : Nat) (v : Target) (s : State) :
    (setTarget k v s).irq = { s.irq with targets := SMap.put targetDefault s.irq.targets k v } := rfl
@[simp] theorem targetOf_setTarget_same (k : Nat) (v : Target) (s : State) : targetOf k (setTarget k v s) = v :=
  SMap.get_put_same targetDefault s.irq.targets k v
@[simp] theorem setTarget_setTarget (k : Nat) (v w : Target) (s : State) : setTarget k w (setTarget k v s) = setTarget k w s := by
  simp only [setTarget]; rw [SMap.put_put]
theorem targetOf_setTarget_other {k l : Nat} (v : Target) (s : State) (h : l ≠ k) : targetOf l (setTarget k v s) = targetOf l s :=
  SMap.get_put_other targetDefault s.irq.targets v h
@[simp] theorem setTarget_pending (k : Nat) (v : Target) (s : State) : (setTarget k v s).pending = s.pending := rfl
@[simp] theorem setTarget_cc (k : Nat) (v : Target) (s : State) : (setTarget k v s).cc = s.cc := rfl
@[simp] theorem setTarget_free (k : Nat) (v : Target) (s : State) : (setTarget k v s).free = s.free := rfl
@[simp] theorem setTarget_pins (k : Nat) (v : Target) (s : State) : (setTarget k v s).pins = s.pins := rfl
@[simp] theorem setTarget_csr (k : Nat) (v : Target) (s : State) : (setTarget k v s).csr = s.csr := rfl
@[simp] theorem setTarget_fab (k : Nat) (v : Target) (s : State) : (setTarget k v s).fab = s.fab := rfl
@[simp] theorem setTarget_hdr (k : Nat) (v : Target) (s : State) : (setTarget k v s).hdr = s.hdr := rfl
@[simp] theorem setTarget_regs (k : Nat) (v : Target) (s : State) : (setTarget k v s).regs = s.regs := rfl
@[simp] theorem setTarget_regsEff (k : Nat) (v : Target) (s : State) : (setTarget k v s).regsEff = s.regsEff := rfl
@[simp] theorem setTarget_win (k : Nat) (v : Target) (s : State) : (setTarget k v s).win = s.win := rfl
@[simp] theorem setTarget_rif (k : Nat) (v : Target) (s : State) : (setTarget k v s).rif = s.rif := rfl
@[simp] theorem setTarget_ops (k : Nat) (v : Target) (s : State) : (setTarget k v s).ops = s.ops := rfl
@[simp] theorem setTarget_tmb (k : Nat) (v : Target) (s : State) : (setTarget k v s).tmb = s.tmb := rfl
@[simp] theorem setTarget_sch (k : Nat) (v : Target) (s : State) : (setTarget k v s).sch = s.sch := rfl
@[simp] theorem setTarget_chn (k : Nat) (v : Target) (s : State) : (setTarget k v s).chn = s.chn := rfl
@[simp] theorem setTarget_peer (k : Nat) (v : Target) (s : State) : (setTarget k v s).peer = s.peer := rfl
@[simp] theorem setTarget_eng (k : Nat) (v : Target) (s : State) : (setTarget k v s).eng = s.eng := rfl
@[simp] theorem setTarget_sec (k : Nat) (v : Target) (s : State) : (setTarget k v s).sec = s.sec := rfl
@[simp] theorem setTarget_dpt (k : Nat) (v : Target) (s : State) : (setTarget k v s).dpt = s.dpt := rfl
@[simp] theorem setTarget_ecc (k : Nat) (v : Target) (s : State) : (setTarget k v s).ecc = s.ecc := rfl
@[simp] theorem setTarget_lvl (k : Nat) (v : Target) (s : State) : (setTarget k v s).lvl = s.lvl := rfl
@[simp] theorem setTarget_dsp (k : Nat) (v : Target) (s : State) : (setTarget k v s).dsp = s.dsp := rfl
@[simp] theorem setTarget_pwr (k : Nat) (v : Target) (s : State) : (setTarget k v s).pwr = s.pwr := rfl
@[simp] theorem setTarget_map (k : Nat) (v : Target) (s : State) : (setTarget k v s).map = s.map := rfl
@[simp] theorem setTarget_note (k : Nat) (v : Target) (s : State) : (setTarget k v s).note = s.note := rfl
@[simp] theorem setTarget_rst (k : Nat) (v : Target) (s : State) : (setTarget k v s).rst = s.rst := rfl
@[simp] theorem setTarget_mem (k : Nat) (v : Target) (s : State) : (setTarget k v s).mem = s.mem := rfl

/-- Writes of note.fifos. -/
@[simp] theorem modFifo_eq (k : Nat) (f : NoteFifo → NoteFifo) (s : State) :
    modFifo k f s = setFifo k (f (fifoOf k s)) s := rfl
theorem setFifo_note (k : Nat) (v : NoteFifo) (s : State) :
    (setFifo k v s).note = { s.note with fifos := SMap.put fifoDefault s.note.fifos k v } := rfl
@[simp] theorem fifoOf_setFifo_same (k : Nat) (v : NoteFifo) (s : State) : fifoOf k (setFifo k v s) = v :=
  SMap.get_put_same fifoDefault s.note.fifos k v
@[simp] theorem setFifo_setFifo (k : Nat) (v w : NoteFifo) (s : State) : setFifo k w (setFifo k v s) = setFifo k w s := by
  simp only [setFifo]; rw [SMap.put_put]
theorem fifoOf_setFifo_other {k l : Nat} (v : NoteFifo) (s : State) (h : l ≠ k) : fifoOf l (setFifo k v s) = fifoOf l s :=
  SMap.get_put_other fifoDefault s.note.fifos v h
@[simp] theorem setFifo_pending (k : Nat) (v : NoteFifo) (s : State) : (setFifo k v s).pending = s.pending := rfl
@[simp] theorem setFifo_cc (k : Nat) (v : NoteFifo) (s : State) : (setFifo k v s).cc = s.cc := rfl
@[simp] theorem setFifo_free (k : Nat) (v : NoteFifo) (s : State) : (setFifo k v s).free = s.free := rfl
@[simp] theorem setFifo_pins (k : Nat) (v : NoteFifo) (s : State) : (setFifo k v s).pins = s.pins := rfl
@[simp] theorem setFifo_csr (k : Nat) (v : NoteFifo) (s : State) : (setFifo k v s).csr = s.csr := rfl
@[simp] theorem setFifo_fab (k : Nat) (v : NoteFifo) (s : State) : (setFifo k v s).fab = s.fab := rfl
@[simp] theorem setFifo_hdr (k : Nat) (v : NoteFifo) (s : State) : (setFifo k v s).hdr = s.hdr := rfl
@[simp] theorem setFifo_regs (k : Nat) (v : NoteFifo) (s : State) : (setFifo k v s).regs = s.regs := rfl
@[simp] theorem setFifo_regsEff (k : Nat) (v : NoteFifo) (s : State) : (setFifo k v s).regsEff = s.regsEff := rfl
@[simp] theorem setFifo_win (k : Nat) (v : NoteFifo) (s : State) : (setFifo k v s).win = s.win := rfl
@[simp] theorem setFifo_rif (k : Nat) (v : NoteFifo) (s : State) : (setFifo k v s).rif = s.rif := rfl
@[simp] theorem setFifo_ops (k : Nat) (v : NoteFifo) (s : State) : (setFifo k v s).ops = s.ops := rfl
@[simp] theorem setFifo_tmb (k : Nat) (v : NoteFifo) (s : State) : (setFifo k v s).tmb = s.tmb := rfl
@[simp] theorem setFifo_sch (k : Nat) (v : NoteFifo) (s : State) : (setFifo k v s).sch = s.sch := rfl
@[simp] theorem setFifo_chn (k : Nat) (v : NoteFifo) (s : State) : (setFifo k v s).chn = s.chn := rfl
@[simp] theorem setFifo_peer (k : Nat) (v : NoteFifo) (s : State) : (setFifo k v s).peer = s.peer := rfl
@[simp] theorem setFifo_eng (k : Nat) (v : NoteFifo) (s : State) : (setFifo k v s).eng = s.eng := rfl
@[simp] theorem setFifo_sec (k : Nat) (v : NoteFifo) (s : State) : (setFifo k v s).sec = s.sec := rfl
@[simp] theorem setFifo_dpt (k : Nat) (v : NoteFifo) (s : State) : (setFifo k v s).dpt = s.dpt := rfl
@[simp] theorem setFifo_ecc (k : Nat) (v : NoteFifo) (s : State) : (setFifo k v s).ecc = s.ecc := rfl
@[simp] theorem setFifo_lvl (k : Nat) (v : NoteFifo) (s : State) : (setFifo k v s).lvl = s.lvl := rfl
@[simp] theorem setFifo_dsp (k : Nat) (v : NoteFifo) (s : State) : (setFifo k v s).dsp = s.dsp := rfl
@[simp] theorem setFifo_pwr (k : Nat) (v : NoteFifo) (s : State) : (setFifo k v s).pwr = s.pwr := rfl
@[simp] theorem setFifo_map (k : Nat) (v : NoteFifo) (s : State) : (setFifo k v s).map = s.map := rfl
@[simp] theorem setFifo_irq (k : Nat) (v : NoteFifo) (s : State) : (setFifo k v s).irq = s.irq := rfl
@[simp] theorem setFifo_rst (k : Nat) (v : NoteFifo) (s : State) : (setFifo k v s).rst = s.rst := rfl
@[simp] theorem setFifo_mem (k : Nat) (v : NoteFifo) (s : State) : (setFifo k v s).mem = s.mem := rfl

/-- Writes of rst.bkp. -/
@[simp] theorem modBkp_eq (k : Nat) (f : Word32 → Word32) (s : State) :
    modBkp k f s = setBkp k (f (bkpOf k s)) s := rfl
theorem setBkp_rst (k : Nat) (v : Word32) (s : State) :
    (setBkp k v s).rst = { s.rst with bkp := SMap.put bkpDefault s.rst.bkp k v } := rfl
@[simp] theorem bkpOf_setBkp_same (k : Nat) (v : Word32) (s : State) : bkpOf k (setBkp k v s) = v :=
  SMap.get_put_same bkpDefault s.rst.bkp k v
@[simp] theorem setBkp_setBkp (k : Nat) (v w : Word32) (s : State) : setBkp k w (setBkp k v s) = setBkp k w s := by
  simp only [setBkp]; rw [SMap.put_put]
theorem bkpOf_setBkp_other {k l : Nat} (v : Word32) (s : State) (h : l ≠ k) : bkpOf l (setBkp k v s) = bkpOf l s :=
  SMap.get_put_other bkpDefault s.rst.bkp v h
@[simp] theorem setBkp_pending (k : Nat) (v : Word32) (s : State) : (setBkp k v s).pending = s.pending := rfl
@[simp] theorem setBkp_cc (k : Nat) (v : Word32) (s : State) : (setBkp k v s).cc = s.cc := rfl
@[simp] theorem setBkp_free (k : Nat) (v : Word32) (s : State) : (setBkp k v s).free = s.free := rfl
@[simp] theorem setBkp_pins (k : Nat) (v : Word32) (s : State) : (setBkp k v s).pins = s.pins := rfl
@[simp] theorem setBkp_csr (k : Nat) (v : Word32) (s : State) : (setBkp k v s).csr = s.csr := rfl
@[simp] theorem setBkp_fab (k : Nat) (v : Word32) (s : State) : (setBkp k v s).fab = s.fab := rfl
@[simp] theorem setBkp_hdr (k : Nat) (v : Word32) (s : State) : (setBkp k v s).hdr = s.hdr := rfl
@[simp] theorem setBkp_regs (k : Nat) (v : Word32) (s : State) : (setBkp k v s).regs = s.regs := rfl
@[simp] theorem setBkp_regsEff (k : Nat) (v : Word32) (s : State) : (setBkp k v s).regsEff = s.regsEff := rfl
@[simp] theorem setBkp_win (k : Nat) (v : Word32) (s : State) : (setBkp k v s).win = s.win := rfl
@[simp] theorem setBkp_rif (k : Nat) (v : Word32) (s : State) : (setBkp k v s).rif = s.rif := rfl
@[simp] theorem setBkp_ops (k : Nat) (v : Word32) (s : State) : (setBkp k v s).ops = s.ops := rfl
@[simp] theorem setBkp_tmb (k : Nat) (v : Word32) (s : State) : (setBkp k v s).tmb = s.tmb := rfl
@[simp] theorem setBkp_sch (k : Nat) (v : Word32) (s : State) : (setBkp k v s).sch = s.sch := rfl
@[simp] theorem setBkp_chn (k : Nat) (v : Word32) (s : State) : (setBkp k v s).chn = s.chn := rfl
@[simp] theorem setBkp_peer (k : Nat) (v : Word32) (s : State) : (setBkp k v s).peer = s.peer := rfl
@[simp] theorem setBkp_eng (k : Nat) (v : Word32) (s : State) : (setBkp k v s).eng = s.eng := rfl
@[simp] theorem setBkp_sec (k : Nat) (v : Word32) (s : State) : (setBkp k v s).sec = s.sec := rfl
@[simp] theorem setBkp_dpt (k : Nat) (v : Word32) (s : State) : (setBkp k v s).dpt = s.dpt := rfl
@[simp] theorem setBkp_ecc (k : Nat) (v : Word32) (s : State) : (setBkp k v s).ecc = s.ecc := rfl
@[simp] theorem setBkp_lvl (k : Nat) (v : Word32) (s : State) : (setBkp k v s).lvl = s.lvl := rfl
@[simp] theorem setBkp_dsp (k : Nat) (v : Word32) (s : State) : (setBkp k v s).dsp = s.dsp := rfl
@[simp] theorem setBkp_pwr (k : Nat) (v : Word32) (s : State) : (setBkp k v s).pwr = s.pwr := rfl
@[simp] theorem setBkp_map (k : Nat) (v : Word32) (s : State) : (setBkp k v s).map = s.map := rfl
@[simp] theorem setBkp_irq (k : Nat) (v : Word32) (s : State) : (setBkp k v s).irq = s.irq := rfl
@[simp] theorem setBkp_note (k : Nat) (v : Word32) (s : State) : (setBkp k v s).note = s.note := rfl
@[simp] theorem setBkp_mem (k : Nat) (v : Word32) (s : State) : (setBkp k v s).mem = s.mem := rfl

/-! ### Headers, registers, the CSR port -/

@[simp] theorem setHdr_pending (p : Page) (h : Hdr) (s : State) : (setHdr p h s).pending = s.pending := rfl
@[simp] theorem setHdr_cc (p : Page) (h : Hdr) (s : State) : (setHdr p h s).cc = s.cc := rfl
@[simp] theorem setHdr_free (p : Page) (h : Hdr) (s : State) : (setHdr p h s).free = s.free := rfl
@[simp] theorem setHdr_pins (p : Page) (h : Hdr) (s : State) : (setHdr p h s).pins = s.pins := rfl
@[simp] theorem setHdr_csr (p : Page) (h : Hdr) (s : State) : (setHdr p h s).csr = s.csr := rfl
@[simp] theorem setHdr_fab (p : Page) (h : Hdr) (s : State) : (setHdr p h s).fab = s.fab := rfl
@[simp] theorem setHdr_regs (p : Page) (h : Hdr) (s : State) : (setHdr p h s).regs = s.regs := rfl
@[simp] theorem setHdr_regsEff (p : Page) (h : Hdr) (s : State) : (setHdr p h s).regsEff = s.regsEff := rfl
@[simp] theorem setHdr_win (p : Page) (h : Hdr) (s : State) : (setHdr p h s).win = s.win := rfl
@[simp] theorem setHdr_rif (p : Page) (h : Hdr) (s : State) : (setHdr p h s).rif = s.rif := rfl
@[simp] theorem setHdr_ops (p : Page) (h : Hdr) (s : State) : (setHdr p h s).ops = s.ops := rfl
@[simp] theorem setHdr_tmb (p : Page) (h : Hdr) (s : State) : (setHdr p h s).tmb = s.tmb := rfl
@[simp] theorem setHdr_sch (p : Page) (h : Hdr) (s : State) : (setHdr p h s).sch = s.sch := rfl
@[simp] theorem setHdr_chn (p : Page) (h : Hdr) (s : State) : (setHdr p h s).chn = s.chn := rfl
@[simp] theorem setHdr_peer (p : Page) (h : Hdr) (s : State) : (setHdr p h s).peer = s.peer := rfl
@[simp] theorem setHdr_eng (p : Page) (h : Hdr) (s : State) : (setHdr p h s).eng = s.eng := rfl
@[simp] theorem setHdr_sec (p : Page) (h : Hdr) (s : State) : (setHdr p h s).sec = s.sec := rfl
@[simp] theorem setHdr_dpt (p : Page) (h : Hdr) (s : State) : (setHdr p h s).dpt = s.dpt := rfl
@[simp] theorem setHdr_ecc (p : Page) (h : Hdr) (s : State) : (setHdr p h s).ecc = s.ecc := rfl
@[simp] theorem setHdr_lvl (p : Page) (h : Hdr) (s : State) : (setHdr p h s).lvl = s.lvl := rfl
@[simp] theorem setHdr_dsp (p : Page) (h : Hdr) (s : State) : (setHdr p h s).dsp = s.dsp := rfl
@[simp] theorem setHdr_pwr (p : Page) (h : Hdr) (s : State) : (setHdr p h s).pwr = s.pwr := rfl
@[simp] theorem setHdr_map (p : Page) (h : Hdr) (s : State) : (setHdr p h s).map = s.map := rfl
@[simp] theorem setHdr_irq (p : Page) (h : Hdr) (s : State) : (setHdr p h s).irq = s.irq := rfl
@[simp] theorem setHdr_note (p : Page) (h : Hdr) (s : State) : (setHdr p h s).note = s.note := rfl
@[simp] theorem setHdr_rst (p : Page) (h : Hdr) (s : State) : (setHdr p h s).rst = s.rst := rfl
@[simp] theorem setHdr_mem (p : Page) (h : Hdr) (s : State) : (setHdr p h s).mem = s.mem := rfl

@[simp] theorem setReg_pending (p : Page) (off v : Nat) (s : State) : (setReg p off v s).pending = s.pending := rfl
@[simp] theorem setReg_cc (p : Page) (off v : Nat) (s : State) : (setReg p off v s).cc = s.cc := rfl
@[simp] theorem setReg_free (p : Page) (off v : Nat) (s : State) : (setReg p off v s).free = s.free := rfl
@[simp] theorem setReg_pins (p : Page) (off v : Nat) (s : State) : (setReg p off v s).pins = s.pins := rfl
@[simp] theorem setReg_csr (p : Page) (off v : Nat) (s : State) : (setReg p off v s).csr = s.csr := rfl
@[simp] theorem setReg_fab (p : Page) (off v : Nat) (s : State) : (setReg p off v s).fab = s.fab := rfl
@[simp] theorem setReg_hdr (p : Page) (off v : Nat) (s : State) : (setReg p off v s).hdr = s.hdr := rfl
@[simp] theorem setReg_regsEff (p : Page) (off v : Nat) (s : State) : (setReg p off v s).regsEff = s.regsEff := rfl
@[simp] theorem setReg_win (p : Page) (off v : Nat) (s : State) : (setReg p off v s).win = s.win := rfl
@[simp] theorem setReg_rif (p : Page) (off v : Nat) (s : State) : (setReg p off v s).rif = s.rif := rfl
@[simp] theorem setReg_ops (p : Page) (off v : Nat) (s : State) : (setReg p off v s).ops = s.ops := rfl
@[simp] theorem setReg_tmb (p : Page) (off v : Nat) (s : State) : (setReg p off v s).tmb = s.tmb := rfl
@[simp] theorem setReg_sch (p : Page) (off v : Nat) (s : State) : (setReg p off v s).sch = s.sch := rfl
@[simp] theorem setReg_chn (p : Page) (off v : Nat) (s : State) : (setReg p off v s).chn = s.chn := rfl
@[simp] theorem setReg_peer (p : Page) (off v : Nat) (s : State) : (setReg p off v s).peer = s.peer := rfl
@[simp] theorem setReg_eng (p : Page) (off v : Nat) (s : State) : (setReg p off v s).eng = s.eng := rfl
@[simp] theorem setReg_sec (p : Page) (off v : Nat) (s : State) : (setReg p off v s).sec = s.sec := rfl
@[simp] theorem setReg_dpt (p : Page) (off v : Nat) (s : State) : (setReg p off v s).dpt = s.dpt := rfl
@[simp] theorem setReg_ecc (p : Page) (off v : Nat) (s : State) : (setReg p off v s).ecc = s.ecc := rfl
@[simp] theorem setReg_lvl (p : Page) (off v : Nat) (s : State) : (setReg p off v s).lvl = s.lvl := rfl
@[simp] theorem setReg_dsp (p : Page) (off v : Nat) (s : State) : (setReg p off v s).dsp = s.dsp := rfl
@[simp] theorem setReg_pwr (p : Page) (off v : Nat) (s : State) : (setReg p off v s).pwr = s.pwr := rfl
@[simp] theorem setReg_map (p : Page) (off v : Nat) (s : State) : (setReg p off v s).map = s.map := rfl
@[simp] theorem setReg_irq (p : Page) (off v : Nat) (s : State) : (setReg p off v s).irq = s.irq := rfl
@[simp] theorem setReg_note (p : Page) (off v : Nat) (s : State) : (setReg p off v s).note = s.note := rfl
@[simp] theorem setReg_rst (p : Page) (off v : Nat) (s : State) : (setReg p off v s).rst = s.rst := rfl
@[simp] theorem setReg_mem (p : Page) (off v : Nat) (s : State) : (setReg p off v s).mem = s.mem := rfl

@[simp] theorem setWinByte_pending (a : Nat) (v : Byte) (s : State) : (setWinByte a v s).pending = s.pending := rfl
@[simp] theorem setWinByte_cc (a : Nat) (v : Byte) (s : State) : (setWinByte a v s).cc = s.cc := rfl
@[simp] theorem setWinByte_free (a : Nat) (v : Byte) (s : State) : (setWinByte a v s).free = s.free := rfl
@[simp] theorem setWinByte_pins (a : Nat) (v : Byte) (s : State) : (setWinByte a v s).pins = s.pins := rfl
@[simp] theorem setWinByte_csr (a : Nat) (v : Byte) (s : State) : (setWinByte a v s).csr = s.csr := rfl
@[simp] theorem setWinByte_fab (a : Nat) (v : Byte) (s : State) : (setWinByte a v s).fab = s.fab := rfl
@[simp] theorem setWinByte_hdr (a : Nat) (v : Byte) (s : State) : (setWinByte a v s).hdr = s.hdr := rfl
@[simp] theorem setWinByte_regs (a : Nat) (v : Byte) (s : State) : (setWinByte a v s).regs = s.regs := rfl
@[simp] theorem setWinByte_regsEff (a : Nat) (v : Byte) (s : State) : (setWinByte a v s).regsEff = s.regsEff := rfl
@[simp] theorem setWinByte_rif (a : Nat) (v : Byte) (s : State) : (setWinByte a v s).rif = s.rif := rfl
@[simp] theorem setWinByte_ops (a : Nat) (v : Byte) (s : State) : (setWinByte a v s).ops = s.ops := rfl
@[simp] theorem setWinByte_tmb (a : Nat) (v : Byte) (s : State) : (setWinByte a v s).tmb = s.tmb := rfl
@[simp] theorem setWinByte_sch (a : Nat) (v : Byte) (s : State) : (setWinByte a v s).sch = s.sch := rfl
@[simp] theorem setWinByte_chn (a : Nat) (v : Byte) (s : State) : (setWinByte a v s).chn = s.chn := rfl
@[simp] theorem setWinByte_peer (a : Nat) (v : Byte) (s : State) : (setWinByte a v s).peer = s.peer := rfl
@[simp] theorem setWinByte_eng (a : Nat) (v : Byte) (s : State) : (setWinByte a v s).eng = s.eng := rfl
@[simp] theorem setWinByte_sec (a : Nat) (v : Byte) (s : State) : (setWinByte a v s).sec = s.sec := rfl
@[simp] theorem setWinByte_dpt (a : Nat) (v : Byte) (s : State) : (setWinByte a v s).dpt = s.dpt := rfl
@[simp] theorem setWinByte_ecc (a : Nat) (v : Byte) (s : State) : (setWinByte a v s).ecc = s.ecc := rfl
@[simp] theorem setWinByte_lvl (a : Nat) (v : Byte) (s : State) : (setWinByte a v s).lvl = s.lvl := rfl
@[simp] theorem setWinByte_dsp (a : Nat) (v : Byte) (s : State) : (setWinByte a v s).dsp = s.dsp := rfl
@[simp] theorem setWinByte_pwr (a : Nat) (v : Byte) (s : State) : (setWinByte a v s).pwr = s.pwr := rfl
@[simp] theorem setWinByte_map (a : Nat) (v : Byte) (s : State) : (setWinByte a v s).map = s.map := rfl
@[simp] theorem setWinByte_irq (a : Nat) (v : Byte) (s : State) : (setWinByte a v s).irq = s.irq := rfl
@[simp] theorem setWinByte_note (a : Nat) (v : Byte) (s : State) : (setWinByte a v s).note = s.note := rfl
@[simp] theorem setWinByte_rst (a : Nat) (v : Byte) (s : State) : (setWinByte a v s).rst = s.rst := rfl

@[simp] theorem csrOk_pending (data : Word64) (s : State) : (csrOk data s).pending = s.pending := rfl
@[simp] theorem csrOk_cc (data : Word64) (s : State) : (csrOk data s).cc = s.cc := rfl
@[simp] theorem csrOk_free (data : Word64) (s : State) : (csrOk data s).free = s.free := rfl
@[simp] theorem csrOk_pins (data : Word64) (s : State) : (csrOk data s).pins = s.pins := rfl
@[simp] theorem csrOk_fab (data : Word64) (s : State) : (csrOk data s).fab = s.fab := rfl
@[simp] theorem csrOk_hdr (data : Word64) (s : State) : (csrOk data s).hdr = s.hdr := rfl
@[simp] theorem csrOk_regs (data : Word64) (s : State) : (csrOk data s).regs = s.regs := rfl
@[simp] theorem csrOk_regsEff (data : Word64) (s : State) : (csrOk data s).regsEff = s.regsEff := rfl
@[simp] theorem csrOk_win (data : Word64) (s : State) : (csrOk data s).win = s.win := rfl
@[simp] theorem csrOk_rif (data : Word64) (s : State) : (csrOk data s).rif = s.rif := rfl
@[simp] theorem csrOk_ops (data : Word64) (s : State) : (csrOk data s).ops = s.ops := rfl
@[simp] theorem csrOk_tmb (data : Word64) (s : State) : (csrOk data s).tmb = s.tmb := rfl
@[simp] theorem csrOk_sch (data : Word64) (s : State) : (csrOk data s).sch = s.sch := rfl
@[simp] theorem csrOk_chn (data : Word64) (s : State) : (csrOk data s).chn = s.chn := rfl
@[simp] theorem csrOk_peer (data : Word64) (s : State) : (csrOk data s).peer = s.peer := rfl
@[simp] theorem csrOk_eng (data : Word64) (s : State) : (csrOk data s).eng = s.eng := rfl
@[simp] theorem csrOk_sec (data : Word64) (s : State) : (csrOk data s).sec = s.sec := rfl
@[simp] theorem csrOk_dpt (data : Word64) (s : State) : (csrOk data s).dpt = s.dpt := rfl
@[simp] theorem csrOk_ecc (data : Word64) (s : State) : (csrOk data s).ecc = s.ecc := rfl
@[simp] theorem csrOk_lvl (data : Word64) (s : State) : (csrOk data s).lvl = s.lvl := rfl
@[simp] theorem csrOk_dsp (data : Word64) (s : State) : (csrOk data s).dsp = s.dsp := rfl
@[simp] theorem csrOk_pwr (data : Word64) (s : State) : (csrOk data s).pwr = s.pwr := rfl
@[simp] theorem csrOk_map (data : Word64) (s : State) : (csrOk data s).map = s.map := rfl
@[simp] theorem csrOk_irq (data : Word64) (s : State) : (csrOk data s).irq = s.irq := rfl
@[simp] theorem csrOk_note (data : Word64) (s : State) : (csrOk data s).note = s.note := rfl
@[simp] theorem csrOk_rst (data : Word64) (s : State) : (csrOk data s).rst = s.rst := rfl
@[simp] theorem csrOk_mem (data : Word64) (s : State) : (csrOk data s).mem = s.mem := rfl

@[simp] theorem csrErr_pending  (s : State) : (csrErr s).pending = s.pending := rfl
@[simp] theorem csrErr_cc  (s : State) : (csrErr s).cc = s.cc := rfl
@[simp] theorem csrErr_free  (s : State) : (csrErr s).free = s.free := rfl
@[simp] theorem csrErr_pins  (s : State) : (csrErr s).pins = s.pins := rfl
@[simp] theorem csrErr_fab  (s : State) : (csrErr s).fab = s.fab := rfl
@[simp] theorem csrErr_hdr  (s : State) : (csrErr s).hdr = s.hdr := rfl
@[simp] theorem csrErr_regs  (s : State) : (csrErr s).regs = s.regs := rfl
@[simp] theorem csrErr_regsEff  (s : State) : (csrErr s).regsEff = s.regsEff := rfl
@[simp] theorem csrErr_win  (s : State) : (csrErr s).win = s.win := rfl
@[simp] theorem csrErr_rif  (s : State) : (csrErr s).rif = s.rif := rfl
@[simp] theorem csrErr_ops  (s : State) : (csrErr s).ops = s.ops := rfl
@[simp] theorem csrErr_tmb  (s : State) : (csrErr s).tmb = s.tmb := rfl
@[simp] theorem csrErr_sch  (s : State) : (csrErr s).sch = s.sch := rfl
@[simp] theorem csrErr_chn  (s : State) : (csrErr s).chn = s.chn := rfl
@[simp] theorem csrErr_peer  (s : State) : (csrErr s).peer = s.peer := rfl
@[simp] theorem csrErr_eng  (s : State) : (csrErr s).eng = s.eng := rfl
@[simp] theorem csrErr_sec  (s : State) : (csrErr s).sec = s.sec := rfl
@[simp] theorem csrErr_dpt  (s : State) : (csrErr s).dpt = s.dpt := rfl
@[simp] theorem csrErr_ecc  (s : State) : (csrErr s).ecc = s.ecc := rfl
@[simp] theorem csrErr_lvl  (s : State) : (csrErr s).lvl = s.lvl := rfl
@[simp] theorem csrErr_dsp  (s : State) : (csrErr s).dsp = s.dsp := rfl
@[simp] theorem csrErr_pwr  (s : State) : (csrErr s).pwr = s.pwr := rfl
@[simp] theorem csrErr_map  (s : State) : (csrErr s).map = s.map := rfl
@[simp] theorem csrErr_irq  (s : State) : (csrErr s).irq = s.irq := rfl
@[simp] theorem csrErr_note  (s : State) : (csrErr s).note = s.note := rfl
@[simp] theorem csrErr_rst  (s : State) : (csrErr s).rst = s.rst := rfl
@[simp] theorem csrErr_mem  (s : State) : (csrErr s).mem = s.mem := rfl

@[simp] theorem dropLatches_pending (p : Page) (s : State) : (dropLatches p s).pending = s.pending := rfl
@[simp] theorem dropLatches_cc (p : Page) (s : State) : (dropLatches p s).cc = s.cc := rfl
@[simp] theorem dropLatches_free (p : Page) (s : State) : (dropLatches p s).free = s.free := rfl
@[simp] theorem dropLatches_pins (p : Page) (s : State) : (dropLatches p s).pins = s.pins := rfl
@[simp] theorem dropLatches_fab (p : Page) (s : State) : (dropLatches p s).fab = s.fab := rfl
@[simp] theorem dropLatches_hdr (p : Page) (s : State) : (dropLatches p s).hdr = s.hdr := rfl
@[simp] theorem dropLatches_regs (p : Page) (s : State) : (dropLatches p s).regs = s.regs := rfl
@[simp] theorem dropLatches_regsEff (p : Page) (s : State) : (dropLatches p s).regsEff = s.regsEff := rfl
@[simp] theorem dropLatches_win (p : Page) (s : State) : (dropLatches p s).win = s.win := rfl
@[simp] theorem dropLatches_rif (p : Page) (s : State) : (dropLatches p s).rif = s.rif := rfl
@[simp] theorem dropLatches_ops (p : Page) (s : State) : (dropLatches p s).ops = s.ops := rfl
@[simp] theorem dropLatches_tmb (p : Page) (s : State) : (dropLatches p s).tmb = s.tmb := rfl
@[simp] theorem dropLatches_sch (p : Page) (s : State) : (dropLatches p s).sch = s.sch := rfl
@[simp] theorem dropLatches_chn (p : Page) (s : State) : (dropLatches p s).chn = s.chn := rfl
@[simp] theorem dropLatches_peer (p : Page) (s : State) : (dropLatches p s).peer = s.peer := rfl
@[simp] theorem dropLatches_eng (p : Page) (s : State) : (dropLatches p s).eng = s.eng := rfl
@[simp] theorem dropLatches_sec (p : Page) (s : State) : (dropLatches p s).sec = s.sec := rfl
@[simp] theorem dropLatches_dpt (p : Page) (s : State) : (dropLatches p s).dpt = s.dpt := rfl
@[simp] theorem dropLatches_ecc (p : Page) (s : State) : (dropLatches p s).ecc = s.ecc := rfl
@[simp] theorem dropLatches_lvl (p : Page) (s : State) : (dropLatches p s).lvl = s.lvl := rfl
@[simp] theorem dropLatches_dsp (p : Page) (s : State) : (dropLatches p s).dsp = s.dsp := rfl
@[simp] theorem dropLatches_pwr (p : Page) (s : State) : (dropLatches p s).pwr = s.pwr := rfl
@[simp] theorem dropLatches_map (p : Page) (s : State) : (dropLatches p s).map = s.map := rfl
@[simp] theorem dropLatches_irq (p : Page) (s : State) : (dropLatches p s).irq = s.irq := rfl
@[simp] theorem dropLatches_note (p : Page) (s : State) : (dropLatches p s).note = s.note := rfl
@[simp] theorem dropLatches_rst (p : Page) (s : State) : (dropLatches p s).rst = s.rst := rfl
@[simp] theorem dropLatches_mem (p : Page) (s : State) : (dropLatches p s).mem = s.mem := rfl

@[simp] theorem takeFree_pending  (s : State) : (takeFree s).pending = s.pending := rfl
@[simp] theorem takeFree_cc  (s : State) : (takeFree s).cc = s.cc := rfl
@[simp] theorem takeFree_pins  (s : State) : (takeFree s).pins = s.pins := rfl
@[simp] theorem takeFree_csr  (s : State) : (takeFree s).csr = s.csr := rfl
@[simp] theorem takeFree_fab  (s : State) : (takeFree s).fab = s.fab := rfl
@[simp] theorem takeFree_hdr  (s : State) : (takeFree s).hdr = s.hdr := rfl
@[simp] theorem takeFree_regs  (s : State) : (takeFree s).regs = s.regs := rfl
@[simp] theorem takeFree_regsEff  (s : State) : (takeFree s).regsEff = s.regsEff := rfl
@[simp] theorem takeFree_win  (s : State) : (takeFree s).win = s.win := rfl
@[simp] theorem takeFree_rif  (s : State) : (takeFree s).rif = s.rif := rfl
@[simp] theorem takeFree_ops  (s : State) : (takeFree s).ops = s.ops := rfl
@[simp] theorem takeFree_tmb  (s : State) : (takeFree s).tmb = s.tmb := rfl
@[simp] theorem takeFree_sch  (s : State) : (takeFree s).sch = s.sch := rfl
@[simp] theorem takeFree_chn  (s : State) : (takeFree s).chn = s.chn := rfl
@[simp] theorem takeFree_peer  (s : State) : (takeFree s).peer = s.peer := rfl
@[simp] theorem takeFree_eng  (s : State) : (takeFree s).eng = s.eng := rfl
@[simp] theorem takeFree_sec  (s : State) : (takeFree s).sec = s.sec := rfl
@[simp] theorem takeFree_dpt  (s : State) : (takeFree s).dpt = s.dpt := rfl
@[simp] theorem takeFree_ecc  (s : State) : (takeFree s).ecc = s.ecc := rfl
@[simp] theorem takeFree_lvl  (s : State) : (takeFree s).lvl = s.lvl := rfl
@[simp] theorem takeFree_dsp  (s : State) : (takeFree s).dsp = s.dsp := rfl
@[simp] theorem takeFree_pwr  (s : State) : (takeFree s).pwr = s.pwr := rfl
@[simp] theorem takeFree_map  (s : State) : (takeFree s).map = s.map := rfl
@[simp] theorem takeFree_irq  (s : State) : (takeFree s).irq = s.irq := rfl
@[simp] theorem takeFree_note  (s : State) : (takeFree s).note = s.note := rfl
@[simp] theorem takeFree_rst  (s : State) : (takeFree s).rst = s.rst := rfl
@[simp] theorem takeFree_mem  (s : State) : (takeFree s).mem = s.mem := rfl

@[simp] theorem applyTick_pending  (s : State) : (applyTick s).pending = s.pending := rfl
@[simp] theorem applyTick_cc  (s : State) : (applyTick s).cc = s.cc := rfl
@[simp] theorem applyTick_free  (s : State) : (applyTick s).free = s.free := rfl
@[simp] theorem applyTick_pins  (s : State) : (applyTick s).pins = s.pins := rfl
@[simp] theorem applyTick_csr  (s : State) : (applyTick s).csr = s.csr := rfl
@[simp] theorem applyTick_fab  (s : State) : (applyTick s).fab = s.fab := rfl
@[simp] theorem applyTick_hdr  (s : State) : (applyTick s).hdr = s.hdr := rfl
@[simp] theorem applyTick_regs  (s : State) : (applyTick s).regs = s.regs := rfl
@[simp] theorem applyTick_win  (s : State) : (applyTick s).win = s.win := rfl
@[simp] theorem applyTick_rif  (s : State) : (applyTick s).rif = s.rif := rfl
@[simp] theorem applyTick_ops  (s : State) : (applyTick s).ops = s.ops := rfl
@[simp] theorem applyTick_tmb  (s : State) : (applyTick s).tmb = s.tmb := rfl
@[simp] theorem applyTick_sch  (s : State) : (applyTick s).sch = s.sch := rfl
@[simp] theorem applyTick_chn  (s : State) : (applyTick s).chn = s.chn := rfl
@[simp] theorem applyTick_peer  (s : State) : (applyTick s).peer = s.peer := rfl
@[simp] theorem applyTick_eng  (s : State) : (applyTick s).eng = s.eng := rfl
@[simp] theorem applyTick_sec  (s : State) : (applyTick s).sec = s.sec := rfl
@[simp] theorem applyTick_dpt  (s : State) : (applyTick s).dpt = s.dpt := rfl
@[simp] theorem applyTick_ecc  (s : State) : (applyTick s).ecc = s.ecc := rfl
@[simp] theorem applyTick_lvl  (s : State) : (applyTick s).lvl = s.lvl := rfl
@[simp] theorem applyTick_dsp  (s : State) : (applyTick s).dsp = s.dsp := rfl
@[simp] theorem applyTick_pwr  (s : State) : (applyTick s).pwr = s.pwr := rfl
@[simp] theorem applyTick_map  (s : State) : (applyTick s).map = s.map := rfl
@[simp] theorem applyTick_irq  (s : State) : (applyTick s).irq = s.irq := rfl
@[simp] theorem applyTick_note  (s : State) : (applyTick s).note = s.note := rfl
@[simp] theorem applyTick_rst  (s : State) : (applyTick s).rst = s.rst := rfl
@[simp] theorem applyTick_mem  (s : State) : (applyTick s).mem = s.mem := rfl

/-- The page written to has the header written; another page's number is another key. -/
@[simp] theorem hdrOf_setHdr_same (p : Page) (h : Hdr) (s : State) : hdrOf p (setHdr p h s) = h :=
  SMap.get_put_same hdrReset s.hdr (pageNum p) h
theorem hdrOf_setHdr_other {p q : Page} (h : Hdr) (s : State) (hn : pageNum q ≠ pageNum p) :
    hdrOf q (setHdr p h s) = hdrOf q s := SMap.get_put_other hdrReset s.hdr h hn

/-- A register reads as written, in 64 bits; another address as before. -/
theorem regOf_setReg_same (p : Page) (off v : Nat) (s : State) : regOf p off (setReg p off v s) = v % 2 ^ 64 := by
  simp [regOf, setReg, SMap.get_put_same, BitVec.toNat_ofNat]
theorem regOf_setReg_other {p q : Page} {off l : Nat} (v : Nat) (s : State) (h : pageAddr q l ≠ pageAddr p off) :
    regOf q l (setReg p off v s) = regOf q l s := by
  simp only [regOf, setReg]
  rw [SMap.get_put_other regReset s.regs _ h]

/-- Responses and latches leave headers, registers and tables as they are. -/
@[simp] theorem hdrOf_csrOk (p : Page) (d : Word64) (s : State) : hdrOf p (csrOk d s) = hdrOf p s := rfl
@[simp] theorem hdrOf_csrErr (p : Page) (s : State) : hdrOf p (csrErr s) = hdrOf p s := rfl
@[simp] theorem hdrOf_dropLatches (p q : Page) (s : State) : hdrOf q (dropLatches p s) = hdrOf q s := rfl
@[simp] theorem regOf_dropLatches (p q : Page) (off : Nat) (s : State) : regOf q off (dropLatches p s) = regOf q off s := rfl
@[simp] theorem regFld_dropLatches (p q : Page) (off lo w : Nat) (s : State) :
    regFld q off lo w (dropLatches p s) = regFld q off lo w s := rfl
@[simp] theorem pageActive_dropLatches (p q : Page) (s : State) : pageActive q (dropLatches p s) = pageActive q s := rfl
@[simp] theorem pageAnswers_dropLatches (p q : Page) (s : State) : pageAnswers q (dropLatches p s) = pageAnswers q s := rfl

@[simp] theorem fabOf_dropLatches (p : Page) (k : Nat) (s : State) : fabOf k (dropLatches p s) = fabOf k s := rfl
@[simp] theorem ringOf_dropLatches (p : Page) (k : Nat) (s : State) : ringOf k (dropLatches p s) = ringOf k s := rfl
@[simp] theorem fnOf_dropLatches (p : Page) (k : Nat) (s : State) : fnOf k (dropLatches p s) = fnOf k s := rfl
@[simp] theorem tagOf_dropLatches (p : Page) (k : Nat) (s : State) : tagOf k (dropLatches p s) = tagOf k s := rfl
@[simp] theorem dieOf_dropLatches (p : Page) (k : Nat) (s : State) : dieOf k (dropLatches p s) = dieOf k s := rfl
@[simp] theorem candsOf_dropLatches (p : Page) (k : Nat) (s : State) : candsOf k (dropLatches p s) = candsOf k s := rfl
@[simp] theorem planOf_dropLatches (p : Page) (k : Nat) (s : State) : planOf k (dropLatches p s) = planOf k s := rfl
@[simp] theorem chanOf_dropLatches (p : Page) (k : Nat) (s : State) : chanOf k (dropLatches p s) = chanOf k s := rfl
@[simp] theorem engOf_dropLatches (p : Page) (k : Nat) (s : State) : engOf k (dropLatches p s) = engOf k s := rfl
@[simp] theorem softOf_dropLatches (p : Page) (k : Nat) (s : State) : softOf k (dropLatches p s) = softOf k s := rfl
@[simp] theorem stageOf_dropLatches (p : Page) (k : Nat) (s : State) : stageOf k (dropLatches p s) = stageOf k s := rfl
@[simp] theorem tempOf_dropLatches (p : Page) (k : Nat) (s : State) : tempOf k (dropLatches p s) = tempOf k s := rfl
@[simp] theorem levelsOf_dropLatches (p : Page) (k : Nat) (s : State) : levelsOf k (dropLatches p s) = levelsOf k s := rfl
@[simp] theorem noiseOf_dropLatches (p : Page) (k : Nat) (s : State) : noiseOf k (dropLatches p s) = noiseOf k s := rfl
@[simp] theorem dspOf_dropLatches (p : Page) (k : Nat) (s : State) : dspOf k (dropLatches p s) = dspOf k s := rfl
@[simp] theorem groupOf_dropLatches (p : Page) (k : Nat) (s : State) : groupOf k (dropLatches p s) = groupOf k s := rfl
@[simp] theorem rosterOf_dropLatches (p : Page) (k : Nat) (s : State) : rosterOf k (dropLatches p s) = rosterOf k s := rfl
@[simp] theorem copyOf_dropLatches (p : Page) (k : Nat) (s : State) : copyOf k (dropLatches p s) = copyOf k s := rfl
@[simp] theorem targetOf_dropLatches (p : Page) (k : Nat) (s : State) : targetOf k (dropLatches p s) = targetOf k s := rfl
@[simp] theorem fifoOf_dropLatches (p : Page) (k : Nat) (s : State) : fifoOf k (dropLatches p s) = fifoOf k s := rfl
@[simp] theorem bkpOf_dropLatches (p : Page) (k : Nat) (s : State) : bkpOf k (dropLatches p s) = bkpOf k s := rfl

/-! ### Canonical form -/


theorem setFab_wf (k : Nat) (v : FabPort) (s : State) (h : SMap.wf fabDefault s.fab = true) :
    SMap.wf fabDefault (setFab k v s).fab = true := SMap.wf_put fabDefault s.fab k v h
theorem setRing_wf (k : Nat) (v : Ring) (s : State) (h : SMap.wf ringDefault s.rif.rings = true) :
    SMap.wf ringDefault (setRing k v s).rif.rings = true := SMap.wf_put ringDefault s.rif.rings k v h
theorem setFn_wf (k : Nat) (v : FnPerm) (s : State) (h : SMap.wf fnDefault s.rif.fns = true) :
    SMap.wf fnDefault (setFn k v s).rif.fns = true := SMap.wf_put fnDefault s.rif.fns k v h
theorem setTag_wf (k : Nat) (v : TagRow) (s : State) (h : SMap.wf tagDefault s.ops.tags = true) :
    SMap.wf tagDefault (setTag k v s).ops.tags = true := SMap.wf_put tagDefault s.ops.tags k v h
theorem setDie_wf (k : Nat) (v : Die) (s : State) (h : SMap.wf dieDefault s.sch.dies = true) :
    SMap.wf dieDefault (setDie k v s).sch.dies = true := SMap.wf_put dieDefault s.sch.dies k v h
theorem setCands_wf (k : Nat) (v : List Xfer) (s : State) (h : SMap.wf candsDefault s.sch.cands = true) :
    SMap.wf candsDefault (setCands k v s).sch.cands = true := SMap.wf_put candsDefault s.sch.cands k v h
theorem setPlan_wf (k : Nat) (v : Option Plan) (s : State) (h : SMap.wf planDefault s.sch.plans = true) :
    SMap.wf planDefault (setPlan k v s).sch.plans = true := SMap.wf_put planDefault s.sch.plans k v h
theorem setChan_wf (k : Nat) (v : Chan) (s : State) (h : SMap.wf chanDefault s.chn = true) :
    SMap.wf chanDefault (setChan k v s).chn = true := SMap.wf_put chanDefault s.chn k v h
theorem setEng_wf (k : Nat) (v : EngineSt) (s : State) (h : SMap.wf engDefault s.eng.engines = true) :
    SMap.wf engDefault (setEng k v s).eng.engines = true := SMap.wf_put engDefault s.eng.engines k v h
theorem setSoft_wf (k : Nat) (v : Option SoftRun) (s : State) (h : SMap.wf softDefault s.ecc.running = true) :
    SMap.wf softDefault (setSoft k v s).ecc.running = true := SMap.wf_put softDefault s.ecc.running k v h
theorem setStage_wf (k : Nat) (v : List (Nat × Nat × Nat × Nat)) (s : State) (h : SMap.wf stageDefault s.ecc.correct = true) :
    SMap.wf stageDefault (setStage k v s).ecc.correct = true := SMap.wf_put stageDefault s.ecc.correct k v h
theorem setTemp_wf (k : Nat) (v : DieTemp) (s : State) (h : SMap.wf tempDefault s.lvl.temps = true) :
    SMap.wf tempDefault (setTemp k v s).lvl.temps = true := SMap.wf_put tempDefault s.lvl.temps k v h
theorem setLevels_wf (k : Nat) (v : Option SetLevels) (s : State) (h : SMap.wf levelsDefault s.lvl.current = true) :
    SMap.wf levelsDefault (setLevels k v s).lvl.current = true := SMap.wf_put levelsDefault s.lvl.current k v h
theorem setNoise_wf (k : Nat) (v : Noise) (s : State) (h : SMap.wf noiseDefault s.lvl.noise = true) :
    SMap.wf noiseDefault (setNoise k v s).lvl.noise = true := SMap.wf_put noiseDefault s.lvl.noise k v h
theorem setDsp_wf (k : Nat) (v : Dsp) (s : State) (h : SMap.wf dspDefault s.dsp = true) :
    SMap.wf dspDefault (setDsp k v s).dsp = true := SMap.wf_put dspDefault s.dsp k v h
theorem setGroup_wf (k : Nat) (v : Group) (s : State) (h : SMap.wf groupDefault s.pwr.groups = true) :
    SMap.wf groupDefault (setGroup k v s).pwr.groups = true := SMap.wf_put groupDefault s.pwr.groups k v h
theorem setRoster_wf (k : Nat) (v : Roster) (s : State) (h : SMap.wf rosterDefault s.map.roster = true) :
    SMap.wf rosterDefault (setRoster k v s).map.roster = true := SMap.wf_put rosterDefault s.map.roster k v h
theorem setCopy_wf (k : Nat) (v : CopyRead) (s : State) (h : SMap.wf copyDefault s.map.copies = true) :
    SMap.wf copyDefault (setCopy k v s).map.copies = true := SMap.wf_put copyDefault s.map.copies k v h
theorem setTarget_wf (k : Nat) (v : Target) (s : State) (h : SMap.wf targetDefault s.irq.targets = true) :
    SMap.wf targetDefault (setTarget k v s).irq.targets = true := SMap.wf_put targetDefault s.irq.targets k v h
theorem setFifo_wf (k : Nat) (v : NoteFifo) (s : State) (h : SMap.wf fifoDefault s.note.fifos = true) :
    SMap.wf fifoDefault (setFifo k v s).note.fifos = true := SMap.wf_put fifoDefault s.note.fifos k v h
theorem setBkp_wf (k : Nat) (v : Word32) (s : State) (h : SMap.wf bkpDefault s.rst.bkp = true) :
    SMap.wf bkpDefault (setBkp k v s).rst.bkp = true := SMap.wf_put bkpDefault s.rst.bkp k v h
theorem setHdr_wf (p : Page) (h : Hdr) (s : State) (hw : SMap.wf hdrReset s.hdr = true) :
    SMap.wf hdrReset (setHdr p h s).hdr = true := SMap.wf_put hdrReset s.hdr (pageNum p) h hw
theorem setReg_wf (p : Page) (off v : Nat) (s : State) (hw : SMap.wf regReset s.regs = true) :
    SMap.wf regReset (setReg p off v s).regs = true := SMap.wf_put regReset s.regs _ _ hw
theorem setWinByte_wf (a : Nat) (v : Byte) (s : State) (hw : SMap.wf winReset s.win = true) :
    SMap.wf winReset (setWinByte a v s).win = true := SMap.wf_put winReset s.win a v hw

end Sys2Proof.Machine
end

