-- ==== Sys2Proof/Laws/Settle.lean ====
section
/-!
SUPPORT. What the shared operations can do: counters, events and errors touch headers only, port operations only the
ports, the flags' settling headers and FATAL only; every command answers a settled next state.
-/

namespace Sys2Proof.Machine

/-! ### Counters, events, errors (03 R67 to R69) -/

/-- Counting changes one header, or nothing while the counters are frozen. -/
theorem bumpBy_eq (p : Page) (i n : Nat) (s : State) :
    bumpBy p i n s = s ∨ ∃ h, bumpBy p i n s = setHdr p h s := by
  unfold bumpBy countTo
  split
  · exact .inl rfl
  · exact .inr ⟨_, rfl⟩

/-- An event changes one header. -/
theorem raiseEvt_eq (p : Page) (i : Nat) (s : State) : ∃ h, raiseEvt p i s = setHdr p h s := ⟨_, rfl⟩

/-- An error changes one header. -/
theorem raiseErr_eq (p : Page) (code info : Nat) (s : State) : ∃ h, raiseErr p code info s = setHdr p h s := by
  simp only [raiseErr]
  split
  · exact ⟨_, rfl⟩
  · split <;> exact ⟨_, rfl⟩

@[simp] theorem bumpBy_pending (p : Page) (i n : Nat) (s : State) : (bumpBy p i n s).pending = s.pending := by
  rcases bumpBy_eq p i n s with h | ⟨_, h⟩ <;> rw [h]; rfl
@[simp] theorem bump_pending (p : Page) (i : Nat) (s : State) : (bump p i s).pending = s.pending := bumpBy_pending p i 1 s
@[simp] theorem raiseEvt_pending (p : Page) (i : Nat) (s : State) : (raiseEvt p i s).pending = s.pending := rfl
@[simp] theorem raiseErr_pending (p : Page) (c i : Nat) (s : State) : (raiseErr p c i s).pending = s.pending := by
  obtain ⟨_, h⟩ := raiseErr_eq p c i s; rw [h]; rfl
@[simp] theorem bumpBy_cc (p : Page) (i n : Nat) (s : State) : (bumpBy p i n s).cc = s.cc := by
  rcases bumpBy_eq p i n s with h | ⟨_, h⟩ <;> rw [h]; rfl
@[simp] theorem bump_cc (p : Page) (i : Nat) (s : State) : (bump p i s).cc = s.cc := bumpBy_cc p i 1 s
@[simp] theorem raiseEvt_cc (p : Page) (i : Nat) (s : State) : (raiseEvt p i s).cc = s.cc := rfl
@[simp] theorem raiseErr_cc (p : Page) (c i : Nat) (s : State) : (raiseErr p c i s).cc = s.cc := by
  obtain ⟨_, h⟩ := raiseErr_eq p c i s; rw [h]; rfl
@[simp] theorem bumpBy_free (p : Page) (i n : Nat) (s : State) : (bumpBy p i n s).free = s.free := by
  rcases bumpBy_eq p i n s with h | ⟨_, h⟩ <;> rw [h]; rfl
@[simp] theorem bump_free (p : Page) (i : Nat) (s : State) : (bump p i s).free = s.free := bumpBy_free p i 1 s
@[simp] theorem raiseEvt_free (p : Page) (i : Nat) (s : State) : (raiseEvt p i s).free = s.free := rfl
@[simp] theorem raiseErr_free (p : Page) (c i : Nat) (s : State) : (raiseErr p c i s).free = s.free := by
  obtain ⟨_, h⟩ := raiseErr_eq p c i s; rw [h]; rfl
@[simp] theorem bumpBy_pins (p : Page) (i n : Nat) (s : State) : (bumpBy p i n s).pins = s.pins := by
  rcases bumpBy_eq p i n s with h | ⟨_, h⟩ <;> rw [h]; rfl
@[simp] theorem bump_pins (p : Page) (i : Nat) (s : State) : (bump p i s).pins = s.pins := bumpBy_pins p i 1 s
@[simp] theorem raiseEvt_pins (p : Page) (i : Nat) (s : State) : (raiseEvt p i s).pins = s.pins := rfl
@[simp] theorem raiseErr_pins (p : Page) (c i : Nat) (s : State) : (raiseErr p c i s).pins = s.pins := by
  obtain ⟨_, h⟩ := raiseErr_eq p c i s; rw [h]; rfl
@[simp] theorem bumpBy_csr (p : Page) (i n : Nat) (s : State) : (bumpBy p i n s).csr = s.csr := by
  rcases bumpBy_eq p i n s with h | ⟨_, h⟩ <;> rw [h]; rfl
@[simp] theorem bump_csr (p : Page) (i : Nat) (s : State) : (bump p i s).csr = s.csr := bumpBy_csr p i 1 s
@[simp] theorem raiseEvt_csr (p : Page) (i : Nat) (s : State) : (raiseEvt p i s).csr = s.csr := rfl
@[simp] theorem raiseErr_csr (p : Page) (c i : Nat) (s : State) : (raiseErr p c i s).csr = s.csr := by
  obtain ⟨_, h⟩ := raiseErr_eq p c i s; rw [h]; rfl
@[simp] theorem bumpBy_fab (p : Page) (i n : Nat) (s : State) : (bumpBy p i n s).fab = s.fab := by
  rcases bumpBy_eq p i n s with h | ⟨_, h⟩ <;> rw [h]; rfl
@[simp] theorem bump_fab (p : Page) (i : Nat) (s : State) : (bump p i s).fab = s.fab := bumpBy_fab p i 1 s
@[simp] theorem raiseEvt_fab (p : Page) (i : Nat) (s : State) : (raiseEvt p i s).fab = s.fab := rfl
@[simp] theorem raiseErr_fab (p : Page) (c i : Nat) (s : State) : (raiseErr p c i s).fab = s.fab := by
  obtain ⟨_, h⟩ := raiseErr_eq p c i s; rw [h]; rfl
@[simp] theorem bumpBy_regs (p : Page) (i n : Nat) (s : State) : (bumpBy p i n s).regs = s.regs := by
  rcases bumpBy_eq p i n s with h | ⟨_, h⟩ <;> rw [h]; rfl
@[simp] theorem bump_regs (p : Page) (i : Nat) (s : State) : (bump p i s).regs = s.regs := bumpBy_regs p i 1 s
@[simp] theorem raiseEvt_regs (p : Page) (i : Nat) (s : State) : (raiseEvt p i s).regs = s.regs := rfl
@[simp] theorem raiseErr_regs (p : Page) (c i : Nat) (s : State) : (raiseErr p c i s).regs = s.regs := by
  obtain ⟨_, h⟩ := raiseErr_eq p c i s; rw [h]; rfl
@[simp] theorem bumpBy_regsEff (p : Page) (i n : Nat) (s : State) : (bumpBy p i n s).regsEff = s.regsEff := by
  rcases bumpBy_eq p i n s with h | ⟨_, h⟩ <;> rw [h]; rfl
@[simp] theorem bump_regsEff (p : Page) (i : Nat) (s : State) : (bump p i s).regsEff = s.regsEff := bumpBy_regsEff p i 1 s
@[simp] theorem raiseEvt_regsEff (p : Page) (i : Nat) (s : State) : (raiseEvt p i s).regsEff = s.regsEff := rfl
@[simp] theorem raiseErr_regsEff (p : Page) (c i : Nat) (s : State) : (raiseErr p c i s).regsEff = s.regsEff := by
  obtain ⟨_, h⟩ := raiseErr_eq p c i s; rw [h]; rfl
@[simp] theorem bumpBy_win (p : Page) (i n : Nat) (s : State) : (bumpBy p i n s).win = s.win := by
  rcases bumpBy_eq p i n s with h | ⟨_, h⟩ <;> rw [h]; rfl
@[simp] theorem bump_win (p : Page) (i : Nat) (s : State) : (bump p i s).win = s.win := bumpBy_win p i 1 s
@[simp] theorem raiseEvt_win (p : Page) (i : Nat) (s : State) : (raiseEvt p i s).win = s.win := rfl
@[simp] theorem raiseErr_win (p : Page) (c i : Nat) (s : State) : (raiseErr p c i s).win = s.win := by
  obtain ⟨_, h⟩ := raiseErr_eq p c i s; rw [h]; rfl
@[simp] theorem bumpBy_rif (p : Page) (i n : Nat) (s : State) : (bumpBy p i n s).rif = s.rif := by
  rcases bumpBy_eq p i n s with h | ⟨_, h⟩ <;> rw [h]; rfl
@[simp] theorem bump_rif (p : Page) (i : Nat) (s : State) : (bump p i s).rif = s.rif := bumpBy_rif p i 1 s
@[simp] theorem raiseEvt_rif (p : Page) (i : Nat) (s : State) : (raiseEvt p i s).rif = s.rif := rfl
@[simp] theorem raiseErr_rif (p : Page) (c i : Nat) (s : State) : (raiseErr p c i s).rif = s.rif := by
  obtain ⟨_, h⟩ := raiseErr_eq p c i s; rw [h]; rfl
@[simp] theorem bumpBy_ops (p : Page) (i n : Nat) (s : State) : (bumpBy p i n s).ops = s.ops := by
  rcases bumpBy_eq p i n s with h | ⟨_, h⟩ <;> rw [h]; rfl
@[simp] theorem bump_ops (p : Page) (i : Nat) (s : State) : (bump p i s).ops = s.ops := bumpBy_ops p i 1 s
@[simp] theorem raiseEvt_ops (p : Page) (i : Nat) (s : State) : (raiseEvt p i s).ops = s.ops := rfl
@[simp] theorem raiseErr_ops (p : Page) (c i : Nat) (s : State) : (raiseErr p c i s).ops = s.ops := by
  obtain ⟨_, h⟩ := raiseErr_eq p c i s; rw [h]; rfl
@[simp] theorem bumpBy_tmb (p : Page) (i n : Nat) (s : State) : (bumpBy p i n s).tmb = s.tmb := by
  rcases bumpBy_eq p i n s with h | ⟨_, h⟩ <;> rw [h]; rfl
@[simp] theorem bump_tmb (p : Page) (i : Nat) (s : State) : (bump p i s).tmb = s.tmb := bumpBy_tmb p i 1 s
@[simp] theorem raiseEvt_tmb (p : Page) (i : Nat) (s : State) : (raiseEvt p i s).tmb = s.tmb := rfl
@[simp] theorem raiseErr_tmb (p : Page) (c i : Nat) (s : State) : (raiseErr p c i s).tmb = s.tmb := by
  obtain ⟨_, h⟩ := raiseErr_eq p c i s; rw [h]; rfl
@[simp] theorem bumpBy_sch (p : Page) (i n : Nat) (s : State) : (bumpBy p i n s).sch = s.sch := by
  rcases bumpBy_eq p i n s with h | ⟨_, h⟩ <;> rw [h]; rfl
@[simp] theorem bump_sch (p : Page) (i : Nat) (s : State) : (bump p i s).sch = s.sch := bumpBy_sch p i 1 s
@[simp] theorem raiseEvt_sch (p : Page) (i : Nat) (s : State) : (raiseEvt p i s).sch = s.sch := rfl
@[simp] theorem raiseErr_sch (p : Page) (c i : Nat) (s : State) : (raiseErr p c i s).sch = s.sch := by
  obtain ⟨_, h⟩ := raiseErr_eq p c i s; rw [h]; rfl
@[simp] theorem bumpBy_chn (p : Page) (i n : Nat) (s : State) : (bumpBy p i n s).chn = s.chn := by
  rcases bumpBy_eq p i n s with h | ⟨_, h⟩ <;> rw [h]; rfl
@[simp] theorem bump_chn (p : Page) (i : Nat) (s : State) : (bump p i s).chn = s.chn := bumpBy_chn p i 1 s
@[simp] theorem raiseEvt_chn (p : Page) (i : Nat) (s : State) : (raiseEvt p i s).chn = s.chn := rfl
@[simp] theorem raiseErr_chn (p : Page) (c i : Nat) (s : State) : (raiseErr p c i s).chn = s.chn := by
  obtain ⟨_, h⟩ := raiseErr_eq p c i s; rw [h]; rfl
@[simp] theorem bumpBy_peer (p : Page) (i n : Nat) (s : State) : (bumpBy p i n s).peer = s.peer := by
  rcases bumpBy_eq p i n s with h | ⟨_, h⟩ <;> rw [h]; rfl
@[simp] theorem bump_peer (p : Page) (i : Nat) (s : State) : (bump p i s).peer = s.peer := bumpBy_peer p i 1 s
@[simp] theorem raiseEvt_peer (p : Page) (i : Nat) (s : State) : (raiseEvt p i s).peer = s.peer := rfl
@[simp] theorem raiseErr_peer (p : Page) (c i : Nat) (s : State) : (raiseErr p c i s).peer = s.peer := by
  obtain ⟨_, h⟩ := raiseErr_eq p c i s; rw [h]; rfl
@[simp] theorem bumpBy_eng (p : Page) (i n : Nat) (s : State) : (bumpBy p i n s).eng = s.eng := by
  rcases bumpBy_eq p i n s with h | ⟨_, h⟩ <;> rw [h]; rfl
@[simp] theorem bump_eng (p : Page) (i : Nat) (s : State) : (bump p i s).eng = s.eng := bumpBy_eng p i 1 s
@[simp] theorem raiseEvt_eng (p : Page) (i : Nat) (s : State) : (raiseEvt p i s).eng = s.eng := rfl
@[simp] theorem raiseErr_eng (p : Page) (c i : Nat) (s : State) : (raiseErr p c i s).eng = s.eng := by
  obtain ⟨_, h⟩ := raiseErr_eq p c i s; rw [h]; rfl
@[simp] theorem bumpBy_sec (p : Page) (i n : Nat) (s : State) : (bumpBy p i n s).sec = s.sec := by
  rcases bumpBy_eq p i n s with h | ⟨_, h⟩ <;> rw [h]; rfl
@[simp] theorem bump_sec (p : Page) (i : Nat) (s : State) : (bump p i s).sec = s.sec := bumpBy_sec p i 1 s
@[simp] theorem raiseEvt_sec (p : Page) (i : Nat) (s : State) : (raiseEvt p i s).sec = s.sec := rfl
@[simp] theorem raiseErr_sec (p : Page) (c i : Nat) (s : State) : (raiseErr p c i s).sec = s.sec := by
  obtain ⟨_, h⟩ := raiseErr_eq p c i s; rw [h]; rfl
@[simp] theorem bumpBy_dpt (p : Page) (i n : Nat) (s : State) : (bumpBy p i n s).dpt = s.dpt := by
  rcases bumpBy_eq p i n s with h | ⟨_, h⟩ <;> rw [h]; rfl
@[simp] theorem bump_dpt (p : Page) (i : Nat) (s : State) : (bump p i s).dpt = s.dpt := bumpBy_dpt p i 1 s
@[simp] theorem raiseEvt_dpt (p : Page) (i : Nat) (s : State) : (raiseEvt p i s).dpt = s.dpt := rfl
@[simp] theorem raiseErr_dpt (p : Page) (c i : Nat) (s : State) : (raiseErr p c i s).dpt = s.dpt := by
  obtain ⟨_, h⟩ := raiseErr_eq p c i s; rw [h]; rfl
@[simp] theorem bumpBy_ecc (p : Page) (i n : Nat) (s : State) : (bumpBy p i n s).ecc = s.ecc := by
  rcases bumpBy_eq p i n s with h | ⟨_, h⟩ <;> rw [h]; rfl
@[simp] theorem bump_ecc (p : Page) (i : Nat) (s : State) : (bump p i s).ecc = s.ecc := bumpBy_ecc p i 1 s
@[simp] theorem raiseEvt_ecc (p : Page) (i : Nat) (s : State) : (raiseEvt p i s).ecc = s.ecc := rfl
@[simp] theorem raiseErr_ecc (p : Page) (c i : Nat) (s : State) : (raiseErr p c i s).ecc = s.ecc := by
  obtain ⟨_, h⟩ := raiseErr_eq p c i s; rw [h]; rfl
@[simp] theorem bumpBy_lvl (p : Page) (i n : Nat) (s : State) : (bumpBy p i n s).lvl = s.lvl := by
  rcases bumpBy_eq p i n s with h | ⟨_, h⟩ <;> rw [h]; rfl
@[simp] theorem bump_lvl (p : Page) (i : Nat) (s : State) : (bump p i s).lvl = s.lvl := bumpBy_lvl p i 1 s
@[simp] theorem raiseEvt_lvl (p : Page) (i : Nat) (s : State) : (raiseEvt p i s).lvl = s.lvl := rfl
@[simp] theorem raiseErr_lvl (p : Page) (c i : Nat) (s : State) : (raiseErr p c i s).lvl = s.lvl := by
  obtain ⟨_, h⟩ := raiseErr_eq p c i s; rw [h]; rfl
@[simp] theorem bumpBy_dsp (p : Page) (i n : Nat) (s : State) : (bumpBy p i n s).dsp = s.dsp := by
  rcases bumpBy_eq p i n s with h | ⟨_, h⟩ <;> rw [h]; rfl
@[simp] theorem bump_dsp (p : Page) (i : Nat) (s : State) : (bump p i s).dsp = s.dsp := bumpBy_dsp p i 1 s
@[simp] theorem raiseEvt_dsp (p : Page) (i : Nat) (s : State) : (raiseEvt p i s).dsp = s.dsp := rfl
@[simp] theorem raiseErr_dsp (p : Page) (c i : Nat) (s : State) : (raiseErr p c i s).dsp = s.dsp := by
  obtain ⟨_, h⟩ := raiseErr_eq p c i s; rw [h]; rfl
@[simp] theorem bumpBy_pwr (p : Page) (i n : Nat) (s : State) : (bumpBy p i n s).pwr = s.pwr := by
  rcases bumpBy_eq p i n s with h | ⟨_, h⟩ <;> rw [h]; rfl
@[simp] theorem bump_pwr (p : Page) (i : Nat) (s : State) : (bump p i s).pwr = s.pwr := bumpBy_pwr p i 1 s
@[simp] theorem raiseEvt_pwr (p : Page) (i : Nat) (s : State) : (raiseEvt p i s).pwr = s.pwr := rfl
@[simp] theorem raiseErr_pwr (p : Page) (c i : Nat) (s : State) : (raiseErr p c i s).pwr = s.pwr := by
  obtain ⟨_, h⟩ := raiseErr_eq p c i s; rw [h]; rfl
@[simp] theorem bumpBy_map (p : Page) (i n : Nat) (s : State) : (bumpBy p i n s).map = s.map := by
  rcases bumpBy_eq p i n s with h | ⟨_, h⟩ <;> rw [h]; rfl
@[simp] theorem bump_map (p : Page) (i : Nat) (s : State) : (bump p i s).map = s.map := bumpBy_map p i 1 s
@[simp] theorem raiseEvt_map (p : Page) (i : Nat) (s : State) : (raiseEvt p i s).map = s.map := rfl
@[simp] theorem raiseErr_map (p : Page) (c i : Nat) (s : State) : (raiseErr p c i s).map = s.map := by
  obtain ⟨_, h⟩ := raiseErr_eq p c i s; rw [h]; rfl
@[simp] theorem bumpBy_irq (p : Page) (i n : Nat) (s : State) : (bumpBy p i n s).irq = s.irq := by
  rcases bumpBy_eq p i n s with h | ⟨_, h⟩ <;> rw [h]; rfl
@[simp] theorem bump_irq (p : Page) (i : Nat) (s : State) : (bump p i s).irq = s.irq := bumpBy_irq p i 1 s
@[simp] theorem raiseEvt_irq (p : Page) (i : Nat) (s : State) : (raiseEvt p i s).irq = s.irq := rfl
@[simp] theorem raiseErr_irq (p : Page) (c i : Nat) (s : State) : (raiseErr p c i s).irq = s.irq := by
  obtain ⟨_, h⟩ := raiseErr_eq p c i s; rw [h]; rfl
@[simp] theorem bumpBy_note (p : Page) (i n : Nat) (s : State) : (bumpBy p i n s).note = s.note := by
  rcases bumpBy_eq p i n s with h | ⟨_, h⟩ <;> rw [h]; rfl
@[simp] theorem bump_note (p : Page) (i : Nat) (s : State) : (bump p i s).note = s.note := bumpBy_note p i 1 s
@[simp] theorem raiseEvt_note (p : Page) (i : Nat) (s : State) : (raiseEvt p i s).note = s.note := rfl
@[simp] theorem raiseErr_note (p : Page) (c i : Nat) (s : State) : (raiseErr p c i s).note = s.note := by
  obtain ⟨_, h⟩ := raiseErr_eq p c i s; rw [h]; rfl
@[simp] theorem bumpBy_rst (p : Page) (i n : Nat) (s : State) : (bumpBy p i n s).rst = s.rst := by
  rcases bumpBy_eq p i n s with h | ⟨_, h⟩ <;> rw [h]; rfl
@[simp] theorem bump_rst (p : Page) (i : Nat) (s : State) : (bump p i s).rst = s.rst := bumpBy_rst p i 1 s
@[simp] theorem raiseEvt_rst (p : Page) (i : Nat) (s : State) : (raiseEvt p i s).rst = s.rst := rfl
@[simp] theorem raiseErr_rst (p : Page) (c i : Nat) (s : State) : (raiseErr p c i s).rst = s.rst := by
  obtain ⟨_, h⟩ := raiseErr_eq p c i s; rw [h]; rfl
@[simp] theorem bumpBy_mem (p : Page) (i n : Nat) (s : State) : (bumpBy p i n s).mem = s.mem := by
  rcases bumpBy_eq p i n s with h | ⟨_, h⟩ <;> rw [h]; rfl
@[simp] theorem bump_mem (p : Page) (i : Nat) (s : State) : (bump p i s).mem = s.mem := bumpBy_mem p i 1 s
@[simp] theorem raiseEvt_mem (p : Page) (i : Nat) (s : State) : (raiseEvt p i s).mem = s.mem := rfl
@[simp] theorem raiseErr_mem (p : Page) (c i : Nat) (s : State) : (raiseErr p c i s).mem = s.mem := by
  obtain ⟨_, h⟩ := raiseErr_eq p c i s; rw [h]; rfl

/-! ### The flags' settling (15 R368) -/

/-- A level changes one header, or nothing. -/
theorem latchLevel_eq (s : State) (e : Page × Nat) : latchLevel s e = s ∨ latchLevel s e = raiseEvt e.1 e.2 s := by
  unfold latchLevel
  split
  · exact .inr rfl
  · exact .inl rfl

/-- A fact that no header decides survives the latching of levels. -/
theorem latchLevels_keeps {α : Type} (f : State → α) (hf : ∀ p h s, f (setHdr p h s) = f s) (s : State) :
    f (latchLevels s) = f s := by
  have step : ∀ (l : List (Page × Nat)) (t : State), f (l.foldl latchLevel t) = f t := by
    intro l
    induction l with
    | nil => exact fun _ => rfl
    | cons e r ih =>
      intro t
      rw [List.foldl_cons, ih]
      rcases latchLevel_eq t e with h | h <;> rw [h]
      exact hf _ _ _
  exact step levelList s

/-- A fact that neither a header nor FATAL decides survives the settling. -/
theorem settle_keeps {α : Type} (f : State → α) (hf : ∀ p h s, f (setHdr p h s) = f s)
    (hi : ∀ (q : Irq) (s : State), f { s with irq := q } = f s) (s : State) : f (settle s) = f s := by
  unfold settle
  split
  · rcases latchLevel_eq (latchFatal (latchLevels s)) (.irq, 0) with h | h <;> rw [h]
    · unfold latchFatal
      split
      · exact latchLevels_keeps f hf s
      · split
        · rw [hi]; exact latchLevels_keeps f hf s
        · exact latchLevels_keeps f hf s
    · refine (hf _ _ _).trans ?_
      unfold latchFatal
      split
      · exact latchLevels_keeps f hf s
      · split
        · rw [hi]; exact latchLevels_keeps f hf s
        · exact latchLevels_keeps f hf s
  · rfl

@[simp] theorem settle_pending (s : State) : (settle s).pending = s.pending :=
  settle_keeps State.pending (fun _ _ _ => rfl) (fun _ _ => rfl) s
@[simp] theorem settle_cc (s : State) : (settle s).cc = s.cc :=
  settle_keeps State.cc (fun _ _ _ => rfl) (fun _ _ => rfl) s
@[simp] theorem settle_free (s : State) : (settle s).free = s.free :=
  settle_keeps State.free (fun _ _ _ => rfl) (fun _ _ => rfl) s
@[simp] theorem settle_pins (s : State) : (settle s).pins = s.pins :=
  settle_keeps State.pins (fun _ _ _ => rfl) (fun _ _ => rfl) s
@[simp] theorem settle_csr (s : State) : (settle s).csr = s.csr :=
  settle_keeps State.csr (fun _ _ _ => rfl) (fun _ _ => rfl) s
@[simp] theorem settle_fab (s : State) : (settle s).fab = s.fab :=
  settle_keeps State.fab (fun _ _ _ => rfl) (fun _ _ => rfl) s
@[simp] theorem settle_regs (s : State) : (settle s).regs = s.regs :=
  settle_keeps State.regs (fun _ _ _ => rfl) (fun _ _ => rfl) s
@[simp] theorem settle_regsEff (s : State) : (settle s).regsEff = s.regsEff :=
  settle_keeps State.regsEff (fun _ _ _ => rfl) (fun _ _ => rfl) s
@[simp] theorem settle_win (s : State) : (settle s).win = s.win :=
  settle_keeps State.win (fun _ _ _ => rfl) (fun _ _ => rfl) s
@[simp] theorem settle_rif (s : State) : (settle s).rif = s.rif :=
  settle_keeps State.rif (fun _ _ _ => rfl) (fun _ _ => rfl) s
@[simp] theorem settle_ops (s : State) : (settle s).ops = s.ops :=
  settle_keeps State.ops (fun _ _ _ => rfl) (fun _ _ => rfl) s
@[simp] theorem settle_tmb (s : State) : (settle s).tmb = s.tmb :=
  settle_keeps State.tmb (fun _ _ _ => rfl) (fun _ _ => rfl) s
@[simp] theorem settle_sch (s : State) : (settle s).sch = s.sch :=
  settle_keeps State.sch (fun _ _ _ => rfl) (fun _ _ => rfl) s
@[simp] theorem settle_chn (s : State) : (settle s).chn = s.chn :=
  settle_keeps State.chn (fun _ _ _ => rfl) (fun _ _ => rfl) s
@[simp] theorem settle_peer (s : State) : (settle s).peer = s.peer :=
  settle_keeps State.peer (fun _ _ _ => rfl) (fun _ _ => rfl) s
@[simp] theorem settle_eng (s : State) : (settle s).eng = s.eng :=
  settle_keeps State.eng (fun _ _ _ => rfl) (fun _ _ => rfl) s
@[simp] theorem settle_sec (s : State) : (settle s).sec = s.sec :=
  settle_keeps State.sec (fun _ _ _ => rfl) (fun _ _ => rfl) s
@[simp] theorem settle_dpt (s : State) : (settle s).dpt = s.dpt :=
  settle_keeps State.dpt (fun _ _ _ => rfl) (fun _ _ => rfl) s
@[simp] theorem settle_ecc (s : State) : (settle s).ecc = s.ecc :=
  settle_keeps State.ecc (fun _ _ _ => rfl) (fun _ _ => rfl) s
@[simp] theorem settle_lvl (s : State) : (settle s).lvl = s.lvl :=
  settle_keeps State.lvl (fun _ _ _ => rfl) (fun _ _ => rfl) s
@[simp] theorem settle_dsp (s : State) : (settle s).dsp = s.dsp :=
  settle_keeps State.dsp (fun _ _ _ => rfl) (fun _ _ => rfl) s
@[simp] theorem settle_pwr (s : State) : (settle s).pwr = s.pwr :=
  settle_keeps State.pwr (fun _ _ _ => rfl) (fun _ _ => rfl) s
@[simp] theorem settle_map (s : State) : (settle s).map = s.map :=
  settle_keeps State.map (fun _ _ _ => rfl) (fun _ _ => rfl) s
@[simp] theorem settle_note (s : State) : (settle s).note = s.note :=
  settle_keeps State.note (fun _ _ _ => rfl) (fun _ _ => rfl) s
@[simp] theorem settle_rst (s : State) : (settle s).rst = s.rst :=
  settle_keeps State.rst (fun _ _ _ => rfl) (fun _ _ => rfl) s
@[simp] theorem settle_mem (s : State) : (settle s).mem = s.mem :=
  settle_keeps State.mem (fun _ _ _ => rfl) (fun _ _ => rfl) s
@[simp] theorem fabOf_settle (k : Nat) (s : State) : fabOf k (settle s) = fabOf k s :=
  settle_keeps (fabOf k) (fun _ _ _ => rfl) (fun _ _ => rfl) s
@[simp] theorem ringOf_settle (k : Nat) (s : State) : ringOf k (settle s) = ringOf k s :=
  settle_keeps (ringOf k) (fun _ _ _ => rfl) (fun _ _ => rfl) s
@[simp] theorem fnOf_settle (k : Nat) (s : State) : fnOf k (settle s) = fnOf k s :=
  settle_keeps (fnOf k) (fun _ _ _ => rfl) (fun _ _ => rfl) s
@[simp] theorem tagOf_settle (k : Nat) (s : State) : tagOf k (settle s) = tagOf k s :=
  settle_keeps (tagOf k) (fun _ _ _ => rfl) (fun _ _ => rfl) s
@[simp] theorem dieOf_settle (k : Nat) (s : State) : dieOf k (settle s) = dieOf k s :=
  settle_keeps (dieOf k) (fun _ _ _ => rfl) (fun _ _ => rfl) s
@[simp] theorem candsOf_settle (k : Nat) (s : State) : candsOf k (settle s) = candsOf k s :=
  settle_keeps (candsOf k) (fun _ _ _ => rfl) (fun _ _ => rfl) s
@[simp] theorem planOf_settle (k : Nat) (s : State) : planOf k (settle s) = planOf k s :=
  settle_keeps (planOf k) (fun _ _ _ => rfl) (fun _ _ => rfl) s
@[simp] theorem chanOf_settle (k : Nat) (s : State) : chanOf k (settle s) = chanOf k s :=
  settle_keeps (chanOf k) (fun _ _ _ => rfl) (fun _ _ => rfl) s
@[simp] theorem engOf_settle (k : Nat) (s : State) : engOf k (settle s) = engOf k s :=
  settle_keeps (engOf k) (fun _ _ _ => rfl) (fun _ _ => rfl) s
@[simp] theorem softOf_settle (k : Nat) (s : State) : softOf k (settle s) = softOf k s :=
  settle_keeps (softOf k) (fun _ _ _ => rfl) (fun _ _ => rfl) s
@[simp] theorem stageOf_settle (k : Nat) (s : State) : stageOf k (settle s) = stageOf k s :=
  settle_keeps (stageOf k) (fun _ _ _ => rfl) (fun _ _ => rfl) s
@[simp] theorem tempOf_settle (k : Nat) (s : State) : tempOf k (settle s) = tempOf k s :=
  settle_keeps (tempOf k) (fun _ _ _ => rfl) (fun _ _ => rfl) s
@[simp] theorem levelsOf_settle (k : Nat) (s : State) : levelsOf k (settle s) = levelsOf k s :=
  settle_keeps (levelsOf k) (fun _ _ _ => rfl) (fun _ _ => rfl) s
@[simp] theorem noiseOf_settle (k : Nat) (s : State) : noiseOf k (settle s) = noiseOf k s :=
  settle_keeps (noiseOf k) (fun _ _ _ => rfl) (fun _ _ => rfl) s
@[simp] theorem dspOf_settle (k : Nat) (s : State) : dspOf k (settle s) = dspOf k s :=
  settle_keeps (dspOf k) (fun _ _ _ => rfl) (fun _ _ => rfl) s
@[simp] theorem groupOf_settle (k : Nat) (s : State) : groupOf k (settle s) = groupOf k s :=
  settle_keeps (groupOf k) (fun _ _ _ => rfl) (fun _ _ => rfl) s
@[simp] theorem rosterOf_settle (k : Nat) (s : State) : rosterOf k (settle s) = rosterOf k s :=
  settle_keeps (rosterOf k) (fun _ _ _ => rfl) (fun _ _ => rfl) s
@[simp] theorem copyOf_settle (k : Nat) (s : State) : copyOf k (settle s) = copyOf k s :=
  settle_keeps (copyOf k) (fun _ _ _ => rfl) (fun _ _ => rfl) s
@[simp] theorem fifoOf_settle (k : Nat) (s : State) : fifoOf k (settle s) = fifoOf k s :=
  settle_keeps (fifoOf k) (fun _ _ _ => rfl) (fun _ _ => rfl) s
@[simp] theorem bkpOf_settle (k : Nat) (s : State) : bkpOf k (settle s) = bkpOf k s :=
  settle_keeps (bkpOf k) (fun _ _ _ => rfl) (fun _ _ => rfl) s

/-- The flags stand still while the block is in reset or without core power. -/
theorem settle_down {s : State} (h : corePowered s = false ∨ stepReleased 1 s = false) : settle s = s := by
  unfold settle
  rcases h with h | h <;> simp [h]

/-- Every command answers a next state, whose flags have settled. -/
theorem exec_settles (c : Instr) (s : State) : ∃ u, exec c s = .next (settle u) := by
  cases c <;> exact ⟨_, rfl⟩

/-- Every step answers a next state: no run stops. -/
theorem step_next (s : State) : ∃ t, step s = .next t := by
  unfold step
  split
  · exact ⟨_, rfl⟩
  · obtain ⟨u, h⟩ := exec_settles ‹Instr› { s with pending := _ }
    exact ⟨_, h⟩

/-! ### The CSR port (02 R41, R42) -/

theorem csrDo_answers {p : Page} {s : State} (act : State → State) (h : pageAnswers p s = true) :
    csrDo p act s = csrOk 0 (act (dropLatches p s)) := by simp [csrDo, h]

theorem csrDo_refused {p : Page} {s : State} (act : State → State) (h : pageAnswers p s = false) :
    csrDo p act s = csrErr s := by simp [csrDo, h]

/-! ### The fabric ports (02 R31 to R39) -/

/-- A port operation changes one port. -/
theorem drain_eq (p : Nat) (s : State) : drain p s = setFab p (drainPort (fabOf p s)) s := rfl

theorem fabRead_eq (p : Nat) (q : RdReq) (s : State) : ∃ f, fabRead p q s = setFab p f s := by
  refine ⟨drainPort { fabOf p s with rdWait := (fabOf p s).rdWait ++ [q] }, ?_⟩
  simp [fabRead, drain_eq, setFab_setFab]

theorem fabWrite_eq (p : Nat) (q : WrReq) (s : State) : ∃ f, fabWrite p q s = setFab p f s := by
  refine ⟨drainPort { fabOf p s with wrWait := (fabOf p s).wrWait ++ [q] }, ?_⟩
  simp [fabWrite, drain_eq, setFab_setFab]

/-- A fact that no port decides survives the requests for a transfer. -/
theorem fabReads_keeps {α : Type} (f : State → α) (hf : ∀ p v s, f (setFab p v s) = f s) (p addr len kind : Nat)
    (mk : Nat → ReadFor) (s : State) : f (fabReads p addr len kind mk s) = f s := by
  unfold fabReads
  generalize fabPieces (pieceFuel len) addr len = l
  induction l generalizing s with
  | nil => rfl
  | cons e r ih =>
    rw [List.foldl_cons, ih]
    obtain ⟨_, h⟩ := fabRead_eq p { addr := e.1, len := e.2, kind := kind, purpose := mk (e.1 - addr) } s
    rw [h, hf]

theorem fabWrites_keeps {α : Type} (f : State → α) (hf : ∀ p v s, f (setFab p v s) = f s) (p addr : Nat)
    (bytes : List Byte) (kind : Nat) (why : WriteFor) (s : State) : f (fabWrites p addr bytes kind why s) = f s := by
  unfold fabWrites
  generalize fabPieces (pieceFuel bytes.length) addr bytes.length = l
  induction l generalizing s with
  | nil => rfl
  | cons e r ih =>
    rw [List.foldl_cons, ih]
    obtain ⟨_, h⟩ := fabWrite_eq p
      { addr := e.1, bytes := (bytes.drop (e.1 - addr)).take e.2, kind := kind, purpose := why } s
    rw [h, hf]

end Sys2Proof.Machine
end

