-- ==== Sys2Proof/Tests/Slice0.lean ====
section
/-!
SUPPORT. The tests: the checks of well-formedness refuse ill-formed commands; steps whose results the spec's worked
examples and tables give; and for every statement with hypotheses a state and operands that meet them (witness_<its
name>, one conjunct per clause).
-/

open Sys2Proof Sys2Proof.Machine

namespace Sys2Proof.Tests

set_option Elab.async false

/-- Pages enabled. -/
def on (ps : List Page) (s : State) : State := ps.foldl (fun s p => setHdr p { hdrOf p s with enable := true } s) s

/-- A page locked. -/
def lockPage (p : Page) (s : State) : State := setHdr p { hdrOf p s with locked := true } s

/-- The block with its main pages, CHN[0], Burin 0 and the Graver enabled, and the tracker LOCKED. -/
def up : State :=
  on [.glb, .tmb, .rif, .ops, .sch, .dpt, .ecc, .lvl, .dsp 0, .dsp 1, .pwr, .map, .peer, .grv, .chn 0, .bur 0, .irqt 0]
    { State.reset with tmb := { State.reset.tmb with state := .locked } }

/-! ### Well-formedness -/

theorem test_ill_formed_beats : (Instr.pollData 0 0 [] 0).wellFormed = false
    ∧ (Instr.loadData 0 0 (List.replicate 65 0) 0).wellFormed = false
    ∧ (Instr.contextData 0 0 [0] 0).wellFormed = true := by decide +kernel

theorem test_ill_formed_bus_bytes : (Instr.busActionEnd 0 (List.replicate 4769 0)).wellFormed = false
    ∧ (Instr.busActionEnd 0 (List.replicate 4768 0)).wellFormed = true := by decide +kernel

theorem test_ill_formed_codeword : (Instr.codewordReceived 0 (List.replicate 4641 0)).wellFormed = false
    ∧ (Instr.codewordReceived 0 (List.replicate 4640 0)).wellFormed = true := by decide +kernel

theorem test_ill_formed_flips : (Instr.hardCorrectionEnd 0 [5, 5]).wellFormed = false
    ∧ (Instr.softDecodeEnd 0 [38144]).wellFormed = false
    ∧ (Instr.hardCorrectionEnd 0 [0, 38143]).wellFormed = true := by decide +kernel

theorem test_ill_formed_sector : (Instr.fmtRxSector 0 (List.replicate 65537 0) false).wellFormed = false
    ∧ (Instr.fmtRxSector 0 (List.replicate 65536 0) false).wellFormed = true := by
  simp only [Instr.wellFormed, sectorOk, List.length_replicate]; decide

/-! ### The step, the flags, the header -/

theorem witness_IdleStepPassesOneCycle :
    let l : State := { up with tmb := { up.tmb with phase := 24413 } }
    let m : State := { up with tmb := { up.tmb with phase := 24412 } }
    let w : State := { up with tmb := { up.tmb with phase := planWindow up - 1 } }
    let at_ := fun (x : State) => ({ ccEnded x with tmb := { (ccEnded x).tmb with phase := x.tmb.phase + 1 } } : State)
    (l.pending = [] ∧ l.tmb.state ≠ .off ∧ corePowered l = true ∧ l.tmb.frameLen ≤ l.tmb.phase + 1)
    ∧ (State.reset.pending = [] ∧ State.reset.tmb.state = .off ∧ plainCc State.reset)
    ∧ (m.pending = [] ∧ m.tmb.state ≠ .off ∧ m.tmb.phase + 1 < m.tmb.frameLen ∧ plainCc m
      ∧ (at_ m).tmb.phase ≠ planWindow (at_ m))
    ∧ (w.tmb.phase + 1 < w.tmb.frameLen ∧ plainCc w ∧ (at_ w).tmb.phase = planWindow (at_ w)
      ∧ checkpointsDue (at_ w) = true ∧ pageActive .sch (at_ w) = true ∧ (at_ w).tmb.planJudged = false
      ∧ (at_ w).sch.toPlan = []) := by
  unfold plainCc
  decide +kernel

/-- The tracker in REVERSE with its level event latched, and a lock of PWR waiting. -/
def reversed : State :=
  raiseEvt .tmb 3 { up with tmb := { up.tmb with state := .reverse }, pending := [.pageLock .pwr] }

theorem reversed_levels : ∀ e ∈ levelList, levelEvt e.1 e.2 reversed = true →
    (hdrOf e.1 reversed).evtPend.toNat.testBit e.2 = true := by decide +kernel

theorem witness_EveryStepKeepsFlagsInAgreement :
    flagsAgree reversed ∧ ∃ t, step reversed = .next t := by
  refine ⟨fun _ _ => ⟨fun p i m h => reversed_levels (p, i) m h, ?_, ?_⟩, _, rfl⟩ <;> decide +kernel

theorem witness_FirstErrorLatched :
    let e := raiseErr .pwr 2 7 up
    pageNum .map ≠ pageNum .pwr ∧ (hdrOf .pwr up).errCode = 0
    ∧ ((hdrOf .pwr e).errCode ≠ 0 ∧ (hdrOf .pwr e).errCode.toNat ≤ 2)
    ∧ ((hdrOf .pwr { e with cc := 1 }).errCode ≠ 0 ∧ (hdrOf .pwr { e with cc := 1 }).errCc ≠ 1)
    ∧ ((hdrOf .pwr e).errCode ≠ 0 ∧ (hdrOf .pwr e).errCc = e.cc ∧ 1 < (hdrOf .pwr e).errCode.toNat) := by
  decide +kernel

theorem witness_EventsAndCounters :
    let z : State := setHdr .glb { hdrOf .glb up with freeze := true } up
    pageNum .map ≠ pageNum .pwr ∧ ((hdrOf .pwr up).freeze = false ∧ (hdrOf .glb up).freeze = false ∧ (3 : Nat) ≠ 2)
    ∧ ((hdrOf .pwr z).freeze = true ∨ (hdrOf .glb z).freeze = true) := by decide +kernel

theorem witness_HeaderCommands :
    let e := raiseErr .pwr 2 7 up
    (pageAnswers .pwr up = true ∧ (nowOf .pwr up).errs = 0)
    ∧ (pageAnswers .pwr e = true ∧ (nowOf .pwr e).errs ≠ 0) := by decide +kernel

theorem witness_ControlEnable :
    let z : State := State.reset
    pageAnswers .pwr up = true ∧ (hdrOf .pwr up).enable = true
    ∧ (pageAnswers .sec z = true ∧ servicePage .sec = true ∧ Page.sec ≠ .glb)
    ∧ (pageAnswers .pwr z = true ∧ servicePage .pwr = false ∧ (hdrOf .glb z).enable = false)
    ∧ ((hdrOf .pwr up).enable ≠ false ∧ servicePage .pwr = false ∧ (hdrOf .glb up).enable = true)
    ∧ (pageAnswers .glb z = true ∧ (hdrOf .glb z).enable ≠ true) := by decide +kernel

theorem witness_SubsystemReset :
    let b : State := { up with map := { up.map with state := .loading } }
    (pageAnswers .map up = true ∧ l1Ok .map = true ∧ l1Free .map up = true)
    ∧ (pageAnswers .dpt up = true ∧ l1Ok .dpt = true ∧ l1Free .dpt up = true)
    ∧ (pageAnswers .ecc up = true ∧ l1Ok .ecc = true ∧ l1Free .ecc up = true)
    ∧ (pageAnswers .tmb up = true ∧ l1Ok .tmb = true ∧ l1Free .tmb State.reset = true)
    ∧ (pageAnswers .map b = true ∧ l1Free .map b = false) := by decide +kernel

theorem witness_RegisterWriteStoresFields :
    let v := lockPage .pwr up
    (pageAnswers .pwr up = true ∧ (hdrOf .pwr up).locked = false ∧ (1 : Word64).toNat % 2 ^ 16 ≠ 0)
    ∧ (0xFFFF0000 : Word64).toNat % 2 ^ 16 = 0
    ∧ (pageAnswers .pwr v = true ∧ (hdrOf .pwr v).locked = true) := by decide +kernel

theorem witness_RefusedWritesChangeNothing :
    let z : State := { up with rst := { up.rst with phase := .releasing, step := 1 } }
    ((0x1F : Byte) ≠ 0x0F ∧ (0x1F : Byte) ≠ 0xF0 ∧ (0x1F : Byte) ≠ 0xFF)
    ∧ (winPage 0x1B000 = none ∧ pageAt (0x1B000 / 4096) = none ∧ winPage 0x3FFFF8 = none
      ∧ pageAt (0x3FFFF8 / 4096) = none)
    ∧ (pageAt (pageAddr .pwr 0 / 4096) = some .pwr ∧ winPage (pageAddr .pwr 0) = none ∧ pageAnswers .pwr z = false)
    ∧ (winPage 0x400000 = some .lvl ∧ winAnswers .lvl z = false) := by decide +kernel

theorem witness_WindowWriteStoresBytes :
    let v := lockPage .lvl up
    (winPage 0x5FFFF8 = some .lvl ∧ winAnswers .lvl up = true ∧ winRefused .lvl 0x5FFFF8 up = false
      ∧ winHolds 0x5FFFF8 = true)
    ∧ (winPage 0x600000 = some (.dsp 0) ∧ winAnswers (.dsp 0) up = true ∧ winRefused (.dsp 0) 0x600000 up = false
      ∧ winHolds 0x600000 = true)
    ∧ (winPage 0x400000 = some .lvl ∧ winAnswers .lvl v = true ∧ winRefused .lvl 0x400000 v = true) := by
  decide +kernel

/-! ### IRQ and NOTE -/

/-- Sources 2 (TMB), 11 (PWR) and 512 configured for target 0, the first two pending, and the private ID 1,071. -/
def irqs : State :=
  let c := setSrc 2 { targets := 1, prio := 3, fatal := true } (setSrc 11 { targets := 1, prio := 7 }
    (setSrc 512 { targets := 1, prio := 7, edge := true } (setPriv 0 1071 { prio := 7, edge := true } up)))
  let m := fun p => fun s : State => setHdr p { hdrOf p s with evtMask := 1, evtPend := 1 } s
  on [.irq, .irqt 0] (m .tmb (m .pwr c))

theorem witness_ClaimReturnsBestSource : claimPick 0 irqs = some 11 ∧ deliverable 0 512 irqs = true
    ∧ deliverable 0 1071 irqs = true ∧ deliverable 0 2 irqs = true := by decide +kernel

theorem witness_ClaimFindsDeliverable :
    deliverable 0 512 irqs = true
    ∧ deliverable 0 1072 (setTarget 0 { sticky := true } irqs) = true := by decide +kernel

theorem witness_ClaimReadEffect :
    (pageAnswers (irqtPage (0 : TgtId).toNat) irqs = true ∧ claimPick (0 : TgtId).toNat irqs = some 11)
    ∧ (pageAnswers (irqtPage (7 : TgtId).toNat) irqs = true ∧ claimPick (7 : TgtId).toNat irqs = none) := by
  decide +kernel

theorem witness_CompletePopsOrFaults :
    let s := setTarget 7 { stack := [(1071, 7), (2, 3)] } irqs
    pageAnswers (irqtPage (7 : TgtId).toNat) s = true
    ∧ ((0 : BitVec 11).toNat = 0 ∧ (2047 : BitVec 11).toNat = 2047)
    ∧ ((1071 : BitVec 11).toNat ≠ 0 ∧ (1071 : BitVec 11).toNat ≠ 2047 ∧
        (targetOf (7 : TgtId).toNat s).stack = ((1071 : BitVec 11).toNat, 7) :: [(2, 3)])
    ∧ ((2046 : BitVec 11).toNat ≠ 0 ∧ (2046 : BitVec 11).toNat ≠ 2047 ∧ 1071 ≠ (2046 : BitVec 11).toNat)
    ∧ ((1 : BitVec 11).toNat ≠ 0 ∧ (1 : BitVec 11).toNat ≠ 2047 ∧ (targetOf (0 : TgtId).toNat s).stack = []) := by
  decide +kernel

theorem witness_UnwindAndStickyClear :
    pageAnswers (irqtPage (0 : TgtId).toNat) (setTarget 0 { stack := [(2, 3)], sticky := true } irqs) = true
    ∧ (1 : Nat) ≠ (0 : TgtId).toNat
    ∧ 2 ∈ (targetOf (0 : TgtId).toNat (setTarget 0 { stack := [(2, 3)], sticky := true } irqs)).stack.map (·.1)
    ∧ 11 ∉ (targetOf (0 : TgtId).toNat (setTarget 0 { stack := [(2, 3)], sticky := true } irqs)).stack.map (·.1) := by
  decide +kernel

theorem witness_FatalForceAndClear :
    let l : State := { irqs with irq := { irqs.irq with latched := true } }
    pageAnswers .irq irqs = true ∧ irqs.irq.latched = false ∧ (pageAnswers .irq l = true ∧ l.irq.latched = true)
    ∧ fatalSource irqs ≠ none ∧ (pageAnswers .irq up = true ∧ fatalSource up = none) := by decide +kernel

/-- Engine 64 holds a packet of one halfword and an open packet; NOTE.SEL names engine 64. -/
def noted : State :=
  let f : NoteFifo := { stages := [{ val := 1, len := true }, { val := 7 }, { val := 0, len := true }, { val := 9 }],
                        open_ := some (2, false, false), mark := some 0, read := 1 }
  setReg .note oNoteCfg 0 (setReg .note oNoteSel 64 (setFifo 64 f up))

theorem witness_NoteReadConsumes :
    (pageAnswers .note noted = true ∧ noteEngine noted = some 64)
    ∧ (pageAnswers .note up = true ∧ noteEngine up = none) := by decide +kernel

theorem witness_NoteTakeKeepsPacketsApart :
    (noteTake (fifoOf 64 { noted with note := { fifos := [(64, { (fifoOf 64 noted) with read := 0 })] } })).length = 2
    ∧ (0 < readable (fifoOf 64 noted) ∧ (fifoOf 64 noted).read < (fifoOf 64 noted).stages.length) := by
  decide +kernel

theorem witness_NoteMarks :
    let a := setReg .note oNoteCfg 1 noted
    let b := setReg .note oNoteCfg 0 (setReg .note oNoteSel 0 up)
    let z := setReg .note oNoteSel 127 up
    (pageAnswers .note noted = true ∧ autoRel noted = false ∧ noteSel noted ≠ 127
      ∧ (fifoOf (noteSel noted) noted).mark = some 0)
    ∧ (pageAnswers .note b = true ∧ autoRel b = false ∧ noteSel b ≠ 127 ∧ (fifoOf (noteSel b) b).mark = none)
    ∧ (pageAnswers .note a = true ∧ autoRel a = true) ∧ (pageAnswers .note z = true ∧ noteSel z = 127) := by
  decide +kernel

/-! ### SEC -/

/-- SEC enabled, a load of a header whose one request of 128 bytes is outstanding on FAB[0]. -/
def loading : State :=
  let q : RdReq := { addr := 0, len := 128, kind := 2, purpose := .load 0 }
  let s := modFab 0 (fun f => { f with live := true, begun := true, reads := [(5, some q)] }) (on [.sec] up)
  { s with sec := { s.sec with load := some { waiting := 1 } } }

/-- The same with another phase, count of requests and result. -/
def loadingAt (ph : LoadPhase) (n : Nat) : State :=
  { loading with sec := { loading.sec with load := some { phase := ph, waiting := n } } }

theorem witness_LoadStartReadsHeader :
    let s := on [.sec] up
    let l := lockPage .sec s
    (pageAnswers .sec s = true ∧ (hdrOf .sec s).locked = false ∧ (hdrOf .sec s).enable = true ∧ s.sec.load = none)
    ∧ (pageAnswers .sec loading = true ∧ (hdrOf .sec loading).locked = false ∧ (hdrOf .sec loading).enable = true
      ∧ loading.sec.load ≠ none)
    ∧ (pageAnswers .sec l = true ∧ (hdrOf .sec l).locked = true) := by decide +kernel

theorem witness_LoadDataFillsImage :
    let q : RdReq := { addr := 0, len := 128, kind := 2, purpose := .load 0 }
    let b : List (BitVec 512) := [0, 0]
    readAt 0 5 loading = some q ∧ loading.sec.load = some { waiting := 1 }
    ∧ b.length = beatsFor q.addr q.len
    ∧ (readAt 0 5 (loadingAt .body 2) = some q ∧ (loadingAt .body 2).sec.load = some { phase := .body, waiting := 2 })
    ∧ (readAt 0 5 (loadingAt .body 1) = some q ∧ (loadingAt .body 1).sec.load = some { phase := .body, waiting := 1 })
    ∧ (3 : BitVec 2) ≠ 0
    ∧ headerCheck (loadImage { waiting := 0, got := [(0, readBytes q b)] }) false loading ≠ 0 := by decide +kernel

/-- A header that passes the checks whose constants the spec gives. -/
def goodHeader : List Byte :=
  [0x4E, 0x42, 0x50, 0x4E, 1, 0, 128, 0, 16, 0, 0, 0, 1, 0, 0, 0, 64, 0, 0, 0, 0x28, 0x01, 0x5C, 0x0A, 2, 1]
    ++ List.replicate 102 0

/-- With the fused key hash and at most 64 fuses blown the remaining checks pass too. -/
theorem witness_LoadDataFillsImage_accepted (h1 : Config.sha256 (List.replicate 32 0) = Config.keyHash)
    (h2 : Config.rollbackFuses.toNat ≤ 64) : headerCheck goodHeader false State.reset = 0 := by
  have e1 : (goodHeader.drop 40).take 32 = List.replicate 32 0 := by decide +kernel
  have e2 : enginesRunning (hdrNat goodHeader 12 4) false State.reset = false := by decide +kernel
  have e3 : headerGood goodHeader = true := by decide +kernel
  have e4 : hdrNat goodHeader 20 4 = 0x0A5C0128 ∧ hdrNat goodHeader 24 2 = 0x0102
      ∧ hdrNat goodHeader 16 4 = 64 := by decide +kernel
  have e5 : rollCount State.reset = Config.rollbackFuses.toNat := by simp [rollCount, State.reset]
  unfold headerCheck
  rw [e1, e2, e3, e4.1, e4.2.1, e4.2.2, e5, h1]
  simp only [Bool.false_eq_true, Bool.not_true, if_false]
  simp; omega

/-- An image of the good header: its body is judged by the fused functions. -/
def goodImage : List Byte := goodHeader ++ List.replicate 96 0

/-- A body of an end record alone. -/
def endRecord : List Byte := 0x0F :: List.replicate 15 0

/-- Where the signature holds and the tag opens to an end record the image is accepted, and where the signature fails
RESULT is 0x08. -/
theorem witness_LoadVerifyEnd_outcomes (e : List Byte → List Byte → List Byte → Bool) (h1 : Config.ed25519 = e)
    (h2 : ∀ a b c d, Config.gcmOpen a b c d = some endRecord) :
    (e = (fun _ _ _ => true) → bodyCheck goodImage = 1) ∧ (e = (fun _ _ _ => false) → bodyCheck goodImage = 8) := by
  have r : imgRecords (hdrNat goodImage 12 4) (bodyLen goodImage / 16 + 1) endRecord = some [] := by decide +kernel
  refine ⟨fun k => ?_, fun k => ?_⟩ <;> subst k <;> unfold bodyCheck <;> rw [h1]
  · simp only [h2]; exact congrArg (fun x => match x with | none => 0x0A | some _ => 1) r
  · rfl

theorem witness_LoadVerifyEndAcceptsOrRejects :
    let l : Load := { phase := .verify, got := [(0, goodImage)] }
    let s : State := { up with sec := { up.sec with load := some l } }
    s.sec.load = some l ∧ l.phase = .verify := by decide +kernel

theorem witness_BootFetchTimeoutFails :
    let s : State := { up with cc := 15000001, sec := { up.sec with boot := .channelWait, bootOn := 1 } }
    let r : State := { up with cc := 15000001, sec := { up.sec with boot := .bringUp, bootOn := 1 } }
    (s.sec.boot = .channelWait ∧ s.sec.load = none ∧ s.sec.bootOn + 10000 * Config.ccPerUs ≤ s.cc)
    ∧ (r.sec.boot = .bringUp ∧ r.sec.load = none ∧ r.sec.bootOn + 10000 * Config.ccPerUs ≤ r.cc) := by
  decide +kernel

/-- While no fuse is blown: a burn is accepted, and its first and last fuse. -/
theorem witness_RollbackFusesBurn (h : Config.rollbackFuses = 0) :
    let s := on [.sec] { up with sec := { up.sec with loadedGrv := true, svn := 64 } }
    let b : State := { s with sec := { s.sec with burnTo := some 64 } }
    let e : State := { b with sec := { b.sec with burned := 63 } }
    (pageAnswers .sec s = true ∧ (hdrOf .sec s).locked = false ∧ (hdrOf .sec s).enable = true
      ∧ s.sec.loadedGrv = true ∧ (64 : BitVec 7).toNat ≤ s.sec.svn ∧ s.sec.burnTo = none)
    ∧ rollCount s < (64 : BitVec 7).toNat ∧ (0 : BitVec 7).toNat ≤ rollCount s
    ∧ s.sec.svn < (65 : BitVec 7).toNat ∧ b.sec.burnTo ≠ none
    ∧ (hdrOf .sec (lockPage .sec s)).locked = true
    ∧ (b.sec.burnTo = some (64 : BitVec 7).toNat ∧ corePowered b = true)
    ∧ rollCount b + 1 < (64 : BitVec 7).toNat ∧ (64 : BitVec 7).toNat ≤ rollCount e + 1 := by
  refine ⟨by decide +kernel, ?_, ?_, by decide +kernel, by decide +kernel, by decide +kernel, by decide +kernel, ?_, ?_⟩ <;>
    simp only [rollCount, h] <;> decide +kernel

theorem witness_UnlockSequence :
    let s := on [.sec] up
    let k : State := { s with cc := 65, sec := { s.sec with unlockAt := some 1 } }
    let o : State := { s with sec := { s.sec with open_ := true } }
    (pageAnswers .sec s = true ∧ (hdrOf .sec s).locked = false ∧ (hdrOf .sec s).enable = true
      ∧ s.sec.open_ = false ∧ s.sec.unlockAt = none)
    ∧ (pageAnswers .sec k = true ∧ (hdrOf .sec k).locked = false ∧ (hdrOf .sec k).enable = true
      ∧ k.sec.open_ = false ∧ k.sec.unlockAt = some 1 ∧ k.cc ≤ 1 + 64)
    ∧ 1 + 64 < ({ k with cc := 66 } : State).cc
    ∧ (pageAnswers .sec o = true ∧ (hdrOf .sec o).locked = false ∧ (hdrOf .sec o).enable = true
      ∧ o.sec.open_ = true) := by decide +kernel

theorem witness_RawCommandStartAndTimeout :
    let s := on [.sec] up
    let o : State := { s with sec := { s.sec with open_ := true, wrAddr := true } }
    let w : State := { s with sec := { s.sec with open_ := true, wrAddr := true, wrData := true } }
    let c := setChan 0 { own := .owned } w
    let gate := fun x : State =>
      let y := setReg .sec (rawOffset .cmd) ((0 : Word64).toNat &&& rawMask .cmd) (dropLatches .sec x)
      ({ y with sec := { x.sec with open_ := false, wrCmd := false, wrAddr := false, wrData := false } } : State)
    let b : State := { up with cc := 30000001, sec := { up.sec with rawBusy := true, rawSince := 1 } }
    let q : State := { b with sec := { b.sec with rawOut := true } }
    (pageAnswers .sec s = true ∧ s.sec.open_ = false)
    ∧ (pageAnswers .sec o = true ∧ o.sec.open_ = true ∧ o.sec.wrData = false)
    ∧ (pageAnswers .sec c = true ∧ c.sec.open_ = true ∧ c.sec.wrAddr = true ∧ c.sec.wrData = true
      ∧ rawCheck (gate c) = 0)
    ∧ (pageAnswers .sec w = true ∧ w.sec.open_ = true ∧ rawCheck (gate w) ≠ 0)
    ∧ (b.sec.rawBusy = true ∧ b.sec.rawSince ≠ 0 ∧ b.sec.rawOut = false
      ∧ b.sec.rawSince + 20000 * Config.ccPerUs ≤ b.cc)
    ∧ q.sec.rawOut ≠ false := by
  decide +kernel

/-! ### RST and PWR -/

theorem witness_ResetSourcesTaken :
    let c : State := { up with pwr := { up.pwr with state := .cicada } }
    let w : State := { up with rst := { up.rst with wdogFired := some 3 } }
    up.rst.phase = .done ∧ corePowered up = true ∧ pageAnswers .rst up = true ∧ up.rst.fuseBad = false
    ∧ (c.rst.phase = .done ∧ corePowered c = false) ∧ (w.rst.phase = .done ∧ w.rst.wdogFired = some 3)
    ∧ (1 ≤ (1 : BitVec 3).toNat ∧ (4 : BitVec 3).toNat ≤ 4 ∧ memWord (1 : BitVec 3).toNat (65535 : BitVec 24).toNat = true
      ∧ memWord (4 : BitVec 3).toNat (127 : BitVec 24).toNat = true)
    ∧ fusesOdd 0x81 = false := by decide +kernel

/-- A release that has reached step k, begun at cc 1. -/
def releasing (k g : Nat) (now : Nat) : State :=
  { State.reset with cc := now, rst := { State.reset.rst with phase := .releasing, step := k, groups := g, since := 1 } }

theorem witness_ResetSourcesMerge :
    let a : State := { up with rst := { up.rst with phase := .asserted, fuses := 0x01 } }
    let r : State := { releasing 2 0 700 with rst := { (releasing 2 0 700).rst with fuses := 0x01 } }
    let w : State := { a with rst := { a.rst with first := 7, began := 0 }, cc := 1 }
    (a.rst.phase ≠ .done ∧ corePowered a = true ∧ a.rst.fuses.toNat.testBit 0 = true
      ∧ a.rst.first ≠ 7 ∧ a.rst.began = a.cc)
    ∧ (w.rst.phase ≠ .done ∧ corePowered w = true ∧ w.rst.first = 7 ∧ aonPeriod w.rst.began = aonPeriod w.cc)
    ∧ (r.rst.phase = .releasing ∧ r.rst.step ≠ 0 ∧ corePowered r = true ∧ r.rst.fuses.toNat.testBit 0 = true) := by
  decide +kernel

theorem witness_ReleaseBegins :
    let a : State := { up with cc := 65, rst := { up.rst with phase := .asserted, since := 1 } }
    let p : State := { up with rst := { up.rst with phase := .asserted, pin := true } }
    (a.rst.phase = .asserted ∧ a.rst.pin = false ∧ a.rst.since + 64 ≤ a.cc)
    ∧ (p.rst.phase = .asserted ∧ p.rst.pin = true ∧ (2 : BitVec 2) ≠ 3 ∧ (hdrOf .glb p).errCode = 0) := by
  decide +kernel

theorem witness_DomainsReleasedInOrder :
    (∀ p ∈ [(0, 592), (1, 656), (2, 912), (4, 33744), (5, 33808), (6, 33872), (7, 33936), (8, 34000)],
      (releasing p.1 0 (1 + p.2)).rst.phase = .releasing ∧ (releasing p.1 0 (1 + p.2)).rst.step = p.1
      ∧ 1 + p.2 ≤ (releasing p.1 0 (1 + p.2)).cc ∧ (releasing p.1 0 p.2).cc < 1 + p.2)
    ∧ ((releasing 3 7 29648).rst.step = 3 ∧ (releasing 3 7 29648).rst.groups < 8
      ∧ (releasing 3 7 29648).cc < 1 + 976 + 4096 * 7)
    ∧ ((releasing 0 0 593).rst.step = 0 ∧ peerStrapped (releasing 0 0 593) = false ∧ 1 + 592 ≤ (releasing 0 0 593).cc)
    ∧ ((releasing 3 7 29649).rst.step = 3 ∧ (releasing 3 7 29649).rst.groups = 7
      ∧ 1 + 976 + 4096 * 7 ≤ (releasing 3 7 29649).cc)
    ∧ ((releasing 6 8 33873).rst.step = 6 ∧ (releasing 6 8 33873).pins.pfailWarn = false
      ∧ 1 + 33872 ≤ (releasing 6 8 33873).cc)
    ∧ ((releasing 7 8 33937).rst.step = 7 ∧ (releasing 7 8 33937).rst.sources.getLsbD 0 = true
      ∧ ({ (releasing 7 8 33937).rst with sources := 2 } : Rst).sources.getLsbD 0 = false) := by decide +kernel

/-- Group 7 with a rail state that began at cc 1. -/
def rail (r : RailState) (now : Nat) : State := setGroup 7 { rail := r, since := 1 } { up with cc := now }

theorem witness_RailCommandOnRamps :
    let w := setGroup 0 { rail := .ramp } up
    (pageActive .pwr up = true ∧ (groupOf (7 : GroupId).toNat up).rail = .off ∧ rampRuns up = false)
    ∧ (∀ k, k ≠ (7 : GroupId).toNat → (groupOf k up).onWait = false)
    ∧ (pageActive .pwr w = true ∧ (groupOf (7 : GroupId).toNat w).rail = .off ∧ rampRuns w = true) := by
  refine ⟨by decide +kernel, fun _ _ => rfl, by decide +kernel⟩

theorem witness_RailCommandOffAndRefusals :
    let b := on [.chn 112] (rail .on 1)
    (pageActive .pwr (rail .on 1) = true ∧ (groupOf (7 : GroupId).toNat (rail .on 1)).rail = .on
      ∧ groupBusy 7 (rail .on 1) = false)
    ∧ (pageActive .pwr b = true ∧ (groupOf (7 : GroupId).toNat b).rail = .on ∧ groupBusy 7 b = true)
    ∧ (groupOf (7 : GroupId).toNat (rail .fault 1)).rail = .fault
    ∧ (groupOf (7 : GroupId).toNat (rail .ramp 1)).rail = .ramp
    ∧ (groupOf (7 : GroupId).toNat (rail .settle 1)).rail = .settle := by decide +kernel

theorem witness_RailPinEvents :
    let s := rail .settle 90000001
    let h : State := { s with pins := { s.pins with railPgood := 0x80 } }
    let r := rail .ramp 90000001
    ((groupOf (7 : GroupId).toNat r).rail = .ramp
      ∧ (groupOf (7 : GroupId).toNat r).since + regFld .pwr oPwrRailCfg 0 16 r * Config.ccPerUs ≤ r.cc)
    ∧ ((groupOf (7 : GroupId).toNat h).rail = .settle ∧ h.pins.railPgood.getLsbD (7 : GroupId).toNat = true
      ∧ (groupOf (7 : GroupId).toNat h).since + regFld .pwr oPwrRailCfg 16 16 h * Config.ccPerUs ≤ h.cc
      ∧ h.pwr.step = .none)
    ∧ ((groupOf (0 : GroupId).toNat up).rail ≠ .ramp ∧ (groupOf (0 : GroupId).toNat up).rail ≠ .settle
      ∧ (groupOf (0 : GroupId).toNat up).rail ≠ .on) := by decide +kernel

theorem witness_IsenseSamples :
    (pageAnswers .pwr up = true ∧ pageActive .pwr up = true ∧ (0xFFE : BitVec 12) ≠ 0xFFF)
    ∧ (pageAnswers .pwr State.reset = true ∧ pageActive .pwr State.reset = false) := by decide +kernel

theorem witness_PowerStateCommands :
    let at_ := fun (p : PState) => ({ up with pwr := { up.pwr with state := p } } : State)
    let w := setReg .pwr oPwrWakeCfg (2 ^ 63) up
    let b := setGroup 0 { rail := .ramp } up
    let z := setReg .pwr oPwrWakeCfg 0 up
    (pageAnswers .pwr up = true ∧ up.pwr.state = .run ∧ quietResult up = 1)
    ∧ (pageAnswers .pwr z = true ∧ z.pwr.state = .run ∧ sleepResult z ≠ 1)
    ∧ (pageAnswers .pwr w = true ∧ w.pwr.state = .run ∧ sleepResult w = 1)
    ∧ (pageAnswers .pwr b = true ∧ b.pwr.state = .run ∧ quietResult b ≠ 1)
    ∧ (pageAnswers .pwr (at_ .doze) = true ∧ (at_ .doze).pwr.state = .doze)
    ∧ (pageAnswers .pwr (at_ .waking) = true ∧ (at_ .waking).pwr.state = .waking)
    ∧ (pageAnswers .pwr (at_ .pfail) = true ∧ (at_ .pfail).pwr.state = .pfail) := by decide +kernel

theorem witness_WakingAndEnteringEnd :
    let w : State := { up with cc := 3001, pwr := { up.pwr with state := .waking, since := 1 } }
    let e : State := { up with cc := 257, pwr := { up.pwr with state := .entering, since := 1 } }
    (w.pwr.state = .waking ∧ w.pwr.since + 2 * Config.ccPerUs ≤ w.cc)
    ∧ ({ w with cc := 3000 } : State).cc < w.pwr.since + 2 * Config.ccPerUs
    ∧ (e.pwr.state = .entering ∧ e.pwr.since + 256 ≤ e.cc)
    ∧ ({ e with cc := 256 } : State).cc < e.pwr.since + 256 := by decide +kernel

theorem witness_WakeReleasesBlock :
    let r : State := { up with pwr := { up.pwr with state := .retain, wakeCfg := BitVec.ofNat 64 (2 ^ 62) } }
    let c : State := { up with cc := 3 * 45777, pwr := { up.pwr with state := .cicada, wakeCfg := BitVec.ofNat 64 (2 ^ 63 + 2) } }
    fusesOdd 0x80 = true
    ∧ (r.rst.phase = .done ∧ r.pwr.state = .retain ∧ r.pwr.wakeCfg.getLsbD 62 = true)
    ∧ (c.rst.phase = .done ∧ c.pwr.state = .cicada ∧ timerDue c = true) := by decide +kernel

theorem witness_PowerFailWithNothingToDo :
    corePowered up = true ∧ stepReleased 7 up = true ∧ up.pwr.step = .none ∧ up.ops.tags = [] ∧ up.sch.dies = []
    ∧ up.dsp = [] ∧ up.map.jrnl ≠ .running := by decide +kernel

theorem witness_PowerFailLimits :
    let d : State := { up with cc := 1, pwr := { up.pwr with step := .drain, pfAt := 1 } }
    let l : State := { up with cc := 10 ^ 9, pwr := { up.pwr with step := .lastWords, stepAt := 1 } }
    (d.pwr.step = .drain ∧ d.pwr.pfAt + maxProg d ≤ d.cc ∧ d.map.jrnl ≠ .running ∧ d.ops.tags = [] ∧ runningTags d = [])
    ∧ (l.pwr.step = .lastWords ∧ l.pwr.stepAt + regFld .pwr oPwrPfCfg 0 16 l * Config.ccPerUs ≤ l.cc) := by
  decide +kernel

/-! ### MEM and MAP -/

theorem witness_ErrorLogCommands :
    let b : State := { up with mem := { up.mem with logBad := true } }
    let h : State := setHdr .mem { hdrOf .mem up with now := { cc := up.cc, cnts := [ceCount] } } up
    (pageAnswers .mem up = true ∧ up.mem.logBad = false ∧ hwSet .mem oMemBkpClr 31 up = false
      ∧ ceCount ∉ (nowOf .mem up).cnts)
    ∧ (pageAnswers .mem b = true ∧ b.mem.logBad = true) ∧ ceCount ∈ (nowOf .mem h).cnts := by decide +kernel

theorem witness_ScrubRuns :
    let s := setReg .mem oMemScrubCfg (1 * 2 ^ 28 + 65535) up
    let x : Scrub := { cls := 1, next := 65534, left := 2 }
    let r : State := { s with mem := { s.mem with scrub := some x } }
    let y : Scrub := { cls := 1, next := 65535, left := 1 }
    let z : Scrub := { cls := 7, next := 9, left := 1 }
    let v : State := setValid 1 65535 (setValid 7 9 r)
    let none_ : State := setReg .mem oMemScrubCfg (7 * 2 ^ 28 + 2 ^ 24 - 1) up
    (pageActive .mem s = true ∧ s.mem.scrub = none
      ∧ nextWord (regFld .mem oMemScrubCfg 28 3 s) (regFld .mem oMemScrubCfg 0 24 s)
          (regFld .mem oMemScrubCfg 0 24 s + (1 : BitVec 24).toNat) = some 65535)
    ∧ (pageActive .mem r = true ∧ r.mem.scrub ≠ none ∧ r.mem.scrub = some x
      ∧ nextWord x.cls (x.next + 1) (x.next + 1 + (x.left - 1)) = some 65535)
    ∧ (wordValid x.cls x.next r = false ∧ 1 ≤ y.left ∧ nextWord y.cls (y.next + 1) (y.next + y.left) = none)
    ∧ nextWord (regFld .mem oMemScrubCfg 28 3 none_) (regFld .mem oMemScrubCfg 0 24 none_)
        (regFld .mem oMemScrubCfg 0 24 none_ + (1 : BitVec 24).toNat) = none
    ∧ (wordValid y.cls y.next v = true ∧ memWord y.cls y.next = true)
    ∧ (upsetsOf y.cls y.next v = [] ∧ upsetsOf z.cls z.next v = [] ∧ wordValid z.cls z.next v = true ∧ memWord z.cls z.next = true
      ∧ 5 ≤ z.cls ∧ z.cls ≤ 7) := by decide +kernel

theorem witness_CorrectableErrorLogged :
    pageActive .mem up = true ∧ up.mem.logBad = false ∧ up.mem.log.length < 16 ∧ inLog 1 65535 up = false := by
  decide +kernel

theorem witness_RemapCommandTakesSpare :
    let s : State := { up with mem := { up.mem with remap := (List.range 7).map fun k => (8 + k, some (2, k)) } }
    let f : State := { up with mem := { up.mem with remap := (List.range 8).map fun k => (8 + k, some (2, k)) } }
    (pageActive .mem s = true ∧ (65535 : BitVec 24).toNat < 65536 ∧ spareOf 1 7 s = none
      ∧ ∀ j, j < 7 → spareOf 1 j s ≠ none)
    ∧ (pageActive .mem f = true ∧ ∀ k, k < 8 → spareOf 1 k f ≠ none)
    ∧ 65536 ≤ (65536 : BitVec 24).toNat := by decide +kernel

/-- Three PRESENT dies in three rail groups carry the copies, and the first two the journal of each side. -/
def mapped : State :=
  let r : Roster := { valid := true, state := .present }
  let l := fun (k d : Nat) => fun s : State => setReg .map (oMapCopyLoc + 4 * k) (d * 2 ^ 20) s
  let j := fun (k d : Nat) => fun s : State => setReg .map (oMapJrnlLoc + 4 * k) (d * 2 ^ 20) s
  let s := l 0 0 (l 1 512 (l 2 1024 (j 0 0 (j 1 512 (j 2 0 (j 3 512 up))))))
  setReg .map oMapImgBase 4096 (setRoster 0 r (setRoster 512 r (setRoster 1024 r s)))

/-- The map in a state. -/
def mapIn (m : MapState) : State := { mapped with map := { mapped.map with state := m } }

theorem witness_MapCommandsRun :
    let c : State := { mapIn .conflict with map := { (mapIn .conflict).map with valid := 4 } }
    (pageActive .map mapped = true ∧ mapBusy mapped = false ∧ mapped.map.state = .empty
      ∧ regOf .map oMapImgBase mapped ≠ 0 ∧ copiesPlaced mapped = true)
    ∧ (pageActive .map (mapIn .ready) = true ∧ mapBusy (mapIn .ready) = false ∧ (mapIn .ready).map.state = .ready
      ∧ copiesPlaced (mapIn .ready) = true)
    ∧ (pageActive .map c = true ∧ mapBusy c = false ∧ c.map.state = .conflict ∧ copiesPlaced c = true
      ∧ (2 : BitVec 2) ≠ 3 ∧ c.map.valid.getLsbD (2 : BitVec 2).toNat = true) := by decide +kernel

theorem witness_RecoverAndJournalInitRun :
    pageActive .map mapped = true ∧ mapBusy mapped = false ∧ mapped.map.jrnl = .stopped
    ∧ (1 : BitVec 2).toNat ≤ 1 ∧ jrnlPlaced (2 * (1 : BitVec 2).toNat) (2 * (1 : BitVec 2).toNat + 1) mapped = true
    ∧ jrnlPlaced (2 * (0 : BitVec 2).toNat) (2 * (0 : BitVec 2).toNat + 1) mapped = true := by decide +kernel

theorem witness_MapCommandsRefused :
    let off : State := State.reset
    let c : State := { up with map := { up.map with state := .conflict, valid := 2 } }
    let y : State := { up with map := { up.map with state := .ready } }
    let j : State := { up with map := { up.map with jrnl := .running } }
    (pageAnswers .map off = true ∧ pageActive .map off = false)
    ∧ (pageActive .map (mapIn .loading) = true ∧ mapBusy (mapIn .loading) = true)
    ∧ (pageActive .map up = true ∧ mapBusy up = false ∧ up.map.state = .empty ∧ regOf .map oMapImgBase up = 0)
    ∧ (pageActive .map y = true ∧ mapBusy y = false ∧ y.map.state = .ready ∧ copiesPlaced y = false)
    ∧ (pageActive .map c = true ∧ mapBusy c = false ∧ c.map.state = .conflict ∧ c.map.valid.getLsbD 0 = false
      ∧ c.map.valid.getLsbD 1 = true ∧ copiesPlaced c = false)
    ∧ (pageActive .map j = true ∧ mapBusy j = false ∧ j.map.jrnl ≠ .stopped ∧ jrnlPlaced 0 1 j = false
      ∧ jrnlPlaced 2 3 j = false)
    ∧ 2 ≤ (2 : BitVec 2).toNat := by decide +kernel

/-- A load whose three copies have been judged, with the given validity and generations. -/
def judged (v : Bool) (g0 g1 g2 : Word32) : State :=
  let c := fun g => ({ judged := true, valid := v, gen := g } : CopyRead)
  setCopy 0 (c g0) (setCopy 1 (c g1) (setCopy 2 (c g2) (mapIn .loading)))

theorem witness_CopiesResolvedTakesLatest :
    (mapped.map.state ≠ .loading)
    ∧ ((judged false 1 1 1).map.state = .loading ∧ (copyOf 0 (judged false 1 1 1)).judged = true
      ∧ (copyOf 1 (judged false 1 1 1)).judged = true ∧ (copyOf 2 (judged false 1 1 1)).judged = true
      ∧ validCopies (judged false 1 1 1) = [])
    ∧ (validCopies (judged true 0 0x80000000 0) ≠ []
      ∧ gensApart (validCopies (judged true 0 0x80000000 0)) (judged true 0 0x80000000 0) = true)
    ∧ (validCopies (judged true 0xFFFFFFFF 0xFFFFFFFF 0xFFFFFFFF) ≠ []
      ∧ gensApart (validCopies (judged true 0xFFFFFFFF 0xFFFFFFFF 0xFFFFFFFF))
          (judged true 0xFFFFFFFF 0xFFFFFFFF 0xFFFFFFFF) = false
      ∧ topCopies (validCopies (judged true 0xFFFFFFFF 0xFFFFFFFF 0xFFFFFFFF))
          (judged true 0xFFFFFFFF 0xFFFFFFFF 0xFFFFFFFF) = [0, 1, 2]
      ∧ copiesSame [0, 1, 2] (judged true 0xFFFFFFFF 0xFFFFFFFF 0xFFFFFFFF) = true) := by decide +kernel

theorem witness_CopiesWrittenEndsWrite :
    let w : CopyWrite := { entries := [1], todo := [], pages := 0, erased := false, failed := false, rewrite := false }
    let at_ := fun (x : CopyWrite) => ({ mapIn .writing with map := { (mapIn .writing).map with write := some x } } : State)
    ((at_ w).map.write = some w ∧ w.todo = [] ∧ w.failed = false ∧ w.rewrite = false ∧ (at_ w).map.state = .writing)
    ∧ ((at_ { w with failed := true }).map.write = some { w with failed := true }
      ∧ (at_ { w with failed := true }).map.state = .writing)
    ∧ ((at_ { w with todo := [2] }).map.write = some { w with todo := [2] } ∧ [2] ≠ ([] : List Nat)) := by decide +kernel

theorem witness_RecoverDoneReports :
    let x : Recover := { peer := true, scanned := true }
    let y : Recover := { peer := true, scanned := true, done := [(1, 2, 3, 0, 0, 0)] }
    let at_ := fun (x : Recover) => ({ mapped with map := { mapped.map with recover := some x } } : State)
    ((at_ x).map.recover = some x ∧ x.scanned = true ∧ x.todo = [] ∧ x.peer = true ∧ x.done = [])
    ∧ ((at_ y).map.recover = some y ∧ y.scanned = true ∧ y.todo = [] ∧ y.peer = true ∧ y.done ≠ [])
    ∧ ((at_ { x with scanned := false }).map.recover = some { x with scanned := false }) := by decide +kernel

theorem witness_MarkCommands :
    let at_ := fun (kind : Nat) =>
      ({ mapped with map := { mapped.map with marks := [markWord 4095 3 kind 16383] } } : State)
    let k := blockKey (4095 : DieId).toNat (3 : BitVec 2).toNat (16383 : BitVec 14).toNat
    (pageActive .map mapped = true ∧ markIn k mapped.map.marks = none ∧ mapped.map.marks.length < 253952)
    ∧ (pageActive .map (at_ 2) = true ∧ markIn k (at_ 2).map.marks = some (markWord 4095 3 2 16383)
      ∧ markKind (markWord 4095 3 2 16383) = 2)
    ∧ (pageActive .map (at_ 1) = true ∧ markIn k (at_ 1).map.marks = some (markWord 4095 3 1 16383)
      ∧ markKind (markWord 4095 3 1 16383) = 1) := by decide +kernel

/-- A full list without the mark. -/
theorem witness_MarkCommands_full :
    let s : State := { mapped with map := { mapped.map with marks := List.replicate 253952 0 } }
    pageActive .map s = true ∧ markIn (blockKey (4095 : DieId).toNat (3 : BitVec 2).toNat 16383) s.map.marks = none
    ∧ 253952 ≤ s.map.marks.length := by
  refine ⟨by decide +kernel, List.find?_eq_none.mpr fun x h => ?_, Nat.le_of_eq List.length_replicate.symm⟩
  rw [List.eq_of_mem_replicate h]
  decide +kernel

theorem witness_PutMarkKeepsOrder :
    keysRise [markWord 0 0 1 0, markWord 0 3 2 16383] = true
    ∧ markKey (markWord 0 0 1 0) ≠ markKey (markWord 0 3 2 16383) := by decide +kernel

theorem witness_RosterWriteEffect :
    let v : Word64 := BitVec.ofNat 64 (2 ^ 63 + 2 ^ 59)
    let t := setTag 65535 { state := .queued, entry := ⟨0, 0, List.replicate 16 0⟩ } up
    (pageActive .map mapped = true ∧ regFld .map oMapRosterSel 0 12 mapped = 0
      ∧ v.getLsbD 63 = (rosterOf 0 mapped).valid ∧ v.toNat / 2 ^ 52 % 16 = (rosterOf 0 mapped).profile
      ∧ v.extractLsb' 0 32 = (rosterOf 0 mapped).id ∧ v.getLsbD 59 = true ∧ (rosterOf 0 mapped).hold = false
      ∧ (rosterOf 0 mapped).valid = true ∧ (rosterOf 0 mapped).state = .present)
    ∧ ((0 : Word64).getLsbD 63 = (rosterOf 0 up).valid ∧ (0 : Word64).getLsbD 59 = false)
    ∧ (pageActive .map t = true ∧ v.getLsbD 63 ≠ (rosterOf 0 t).valid ∧ dieTagged 0 t = true)
    ∧ (pageActive .map up = true ∧ v.getLsbD 63 ≠ (rosterOf 0 up).valid ∧ dieTagged 0 up = false
      ∧ (rosterOf 0 up).state ≠ .present) := by decide +kernel

/-- The journal RUNNING with n intents forming since cc 1. -/
def journal (n : Nat) (now : Nat) : State :=
  let i : Intent := { tag := 1, die := 4095, planes := 15, slc := true, block := 16383 }
  { mapped with cc := now, map := { mapped.map with jrnl := .running, forming := List.replicate n i, formingAt := 1 } }

theorem witness_JournalBatchesClose :
    let p : JPage := { intents := [], seq := 1 }
    let i : Intent := { tag := 1, die := 4095, planes := 15, slc := true, block := 16383, done := true, doneAt := 1 }
    let l : List JBatch := [{ seq := 1, intents := [{ i with doneAt := 2 }, i] }]
    let b : State := { journal 64 1 with map := { (journal 64 1).map with jpage := some p, batches := l } }
    let c : State := { journal 0 98303501 with map := { (journal 0 1).map with batches := l } }
    let q : State := { c with map := { c.map with closed := [[{ i with done := false }]] } }
    let e : State := { journal 0 1 with map := { (journal 0 1).map with batches := l } }
    (pageActive .map b = true ∧ b.map.jrnl = .running ∧ 64 ≤ b.map.forming.length ∧ b.map.jpage ≠ none
      ∧ confirmSince b = some 1)
    ∧ (64 ≤ (journal 64 1).map.forming.length ∧ (journal 64 1).map.jpage = none ∧ (journal 64 1).map.closed = []
      ∧ openBatches (journal 64 1) < openMax (journal 64 1))
    ∧ ((journal 1 98303501).map.forming ≠ []
      ∧ 1 + regFld .map oMapJrnlCfg 16 16 (journal 1 98303501) * Config.ccPerUs ≤ (journal 1 98303501).cc)
    ∧ (pageActive .map c = true ∧ c.map.jrnl = .running ∧ confirmSince c = some 1 ∧ c.map.jpage = none
      ∧ c.map.closed = [] ∧ 1 + regFld .map oMapJrnlCfg 16 16 c * Config.ccPerUs ≤ c.cc)
    ∧ (confirmSince e = some 1 ∧ e.cc < 1 + regFld .map oMapJrnlCfg 16 16 e * Config.ccPerUs)
    ∧ (pageActive .map q = true ∧ q.map.jrnl = .running ∧ confirmSince q = some 1 ∧ q.map.jpage = none
      ∧ q.map.closed ≠ [] ∧ (∀ x ∈ q.map.closed, x ≠ []) ∧ openBatches q < openMax q
      ∧ 1 + regFld .map oMapJrnlCfg 16 16 q * Config.ccPerUs ≤ q.cc)
    ∧ confirmSince (journal 64 1) = none := by decide +kernel

theorem witness_JournalPageEnds :
    let i : Intent := { tag := 1, die := 4095, planes := 15, slc := true, block := 16383 }
    let at_ := fun (p : JPage) => ({ journal 0 1 with map := { (journal 0 1).map with jpage := some p } } : State)
    let p : JPage := { intents := [i], seq := 7, res0 := some true, res1 := some true }
    let f : JPage := { intents := [i], seq := 7, res0 := some false, res1 := some false }
    ((at_ p).map.jpage = some p ∧ p.lastWords = false ∧ (at_ p).pwr.step = .none ∧ (at_ p).map.closed = []
      ∧ p.dones = [] ∧ (at_ p).map.batches = [] ∧ p.intents ≠ [] ∧ ∀ i ∈ p.intents, i.written = false)
    ∧ ((at_ f).map.jpage = some f ∧ f.second = false ∧ pageActive .map (at_ f) = true
      ∧ pageActive .map { at_ f with hdr := State.reset.hdr } = false)
    ∧ (at_ { f with second := true }).map.jpage = some { f with second := true } := by decide +kernel

theorem witness_JournalPageReadsBack :
    let i : Intent := { tag := 1, die := 4095, planes := 15, slc := true, block := 16383 }
    let p : JPage := { intents := List.replicate 64 i, seq := 7 }
    p.intents.length ≤ 64 ∧ ∀ i ∈ p.intents, i.die < 4096 ∧ i.planes < 16 ∧ i.block < 16384 := by decide +kernel

theorem witness_MapCopyReadsBack : 2 < 3 ∧ (List.replicate 253952 (0 : Word32)).length ≤ 253952 :=
  ⟨by decide, Nat.le_of_eq List.length_replicate⟩

/-! ### The fabric ports and RIF -/

/-- The largest ring number. -/
def top : Nat := 262143

theorem witness_PortSpendsItsCredits :
    ({ live := true } : FabPort).begun = false ∧ ({ begun := true } : FabPort).live = false
    ∧ (({ live := true, begun := true } : FabPort).live = true ∧ ({ live := true, begun := true } : FabPort).begun = true) := by
  decide +kernel

theorem witness_TransfersSplitAtBlocks :
    let ps := fabPieces (pieceFuel 4097) 4095 4097
    1 < ps.length ∧ (4095, 1) ∈ ps := by decide +kernel

theorem witness_CreditReturnAndFabIdle :
    (fabOf (3 : PortId).toNat up).live = true ∧ (fabOf (3 : PortId).toNat { up with fab := [] }).live = false := by
  decide +kernel

/-- A submission ring whose poll is due. -/
def polled : Ring := { state := .active, cached := true, due := some 0, fn := 255, size := 15, index := 32767 }

/-- A full completion ring whose HEAD is due. -/
def fullCq : Ring :=
  { state := .active, cq := true, cached := true, size := 15, index := 7, phase := true, head := 7, headDue := some 0 }

theorem witness_PollsAndHeadReads :
    let a := setRing top polled up
    let b := setRing top { polled with cached := false } up
    let c := setRing top fullCq up
    (pollPick a = some (262143 : RingId).toNat ∧ (ringOf (262143 : RingId).toNat a).cq = false
      ∧ (ringOf (262143 : RingId).toNat a).cached = true)
    ∧ (pollPick b = some (262143 : RingId).toNat ∧ (ringOf (262143 : RingId).toNat b).cq = false
      ∧ (ringOf (262143 : RingId).toNat b).cached = false ∧ (ringOf (262143 : RingId).toNat b).ctxRead = false)
    ∧ (pollPick c = some (262143 : RingId).toNat ∧ (ringOf (262143 : RingId).toNat c).cq = true)
    ∧ pollPick a ≠ some (0 : RingId).toNat := by decide +kernel

theorem witness_PollerServesEarliest :
    pollPick (setRing 5 { polled with express := true } (setRing 4 polled up)) = some 5 := by decide +kernel

/-- A read outstanding on FAB[3] under ticket 255. -/
def asked (len : Nat) (why : ReadFor) (s : State) : State :=
  modFab 3 (fun f => { f with live := true, begun := true, reads := [(255, some ⟨0, len, 1, why⟩)] }) s

/-- A write outstanding on FAB[3] under ticket 383. -/
def wrote (len : Nat) (why : WriteFor) (s : State) : State :=
  modFab 3 (fun f => { f with live := true, begun := true,
                              writes := [(383, some ⟨0, List.replicate len 0, 1, why⟩)] }) s

/-- The words of a FENCE of one unit. -/
def fence : List Word32 := [0x80200000, 0, 0, 0, 0, 0, 0, 0]

/-- A ring whose poll is out. -/
def polling : Ring := { state := .active, cached := true, polling := true, size := 15, phase := true, gen := 2 }

theorem witness_PollDataJudged :
    let q : RdReq := ⟨0, 32, 1, .poll top 2⟩
    let s := asked 32 (.poll top 2) (setRing top polling up)
    let old := asked 32 (.poll top 2) (setRing top { polling with gen := 3 } up)
    let b : List (BitVec 512) := [0x80200000]
    let u := readOver 3 255 s
    let w := (unitsIn q b).headD []
    let e : Entry := ⟨top, 0, w⟩
    (readAt 3 255 s = some q ∧ b.length = beatsFor q.addr q.len ∧ (ringOf top u).gen = 2)
    ∧ (readAt 3 255 old = some q ∧ (ringOf top (readOver 3 255 old)).gen ≠ 2)
    ∧ unitPhase ((unitsIn q [0]).headD []) ≠ polling.phase
    ∧ (unitPhase w = polling.phase ∧ polling.state = .active ∧ s.pwr.state = .run ∧ entryHeld top 0 0 s = false
      ∧ eLen e = 0 ∧ entryCause e (2 ^ 15) s = 0 ∧ eOpcode e ≠ opNop ∧ polling.pfDepth = 0) := by decide +kernel

theorem witness_LaterUnitsCollected :
    let nop : List Word32 := [0xA0210000, 0, 0, 0, 0, 0, 0, 0]
    let g : Ring := { polling with polling := false, partialUnit := some nop }
    let s := asked 32 (.units top 2 1) (setRing top g up)
    let us := unitsIn ⟨0, 32, 1, .units top 2 1⟩ [0x80000000]
    let got := keepUnits 1 us []
    let all := keepUnits 1 us (keepUnits 2 us [])
    let h : Ring := { polling with polling := false, pfAwait := 2, offer := some ⟨top, 0, fence⟩ }
    let p := asked 32 (.prefetch top 2 1) (setRing top h up)
    let l := asked 32 (.prefetch top 2 1) (setRing top { h with pfAwait := 1 } up)
    (readAt 3 255 s = some ⟨0, 32, 1, .units top 2 1⟩ ∧ (ringOf top (readOver 3 255 s)).gen = 2
      ∧ (ringOf top (readOver 3 255 s)).partialUnit = some nop
      ∧ got.length < eLen ⟨top, 0, nop ++ got.flatMap (·.2)⟩)
    ∧ (eLen ⟨top, 0, nop ++ all.flatMap (·.2)⟩ ≤ all.length ∧ entryHeld top 0 2 s = false
      ∧ entryHeld top 0 2 { s with rif := { s.rif with hold := some (top, 2, 2) } } = true)
    ∧ (readAt 3 255 p = some ⟨0, 32, 1, .prefetch top 2 1⟩ ∧ us.length < h.pfAwait)
    ∧ (readAt 3 255 l = some ⟨0, 32, 1, .prefetch top 2 1⟩ ∧ (ringOf top (readOver 3 255 l)).pfAwait = us.length
      ∧ l.rif.hold = none ∧ h.offer.isSome = true ∧ (phaseRun true (keepUnits 1 (unitsIn ⟨0, 32, 1, .units top 2 1⟩ [0]) [])).length
        < (keepUnits 1 (unitsIn ⟨0, 32, 1, .units top 2 1⟩ [0]) []).length)
    ∧ (ringOf top (readOver 3 255 (asked 32 (.units top 1 1) (setRing top g up)))).gen ≠ 1 := by decide +kernel

theorem witness_EntryOfferedOrRingStopped :
    let s := setRing top { polling with polling := false } up
    let d : State := { s with pwr := { s.pwr with state := .doze } }
    entryCause ⟨top, 32767, 0xF0200000 :: fence.tail⟩ (2 ^ (ringOf top s).size) s ≠ 0
    ∧ (entryCause ⟨top, 32767, fence⟩ (2 ^ (ringOf top s).size) s = 0 ∧ s.pwr.state ≠ .doze ∧ s.pwr.state ≠ .waking
      ∧ eOpcode ⟨top, 32767, fence⟩ ≠ opNop)
    ∧ (entryCause ⟨top, 0, 0x80210001 :: fence.tail⟩ (2 ^ (ringOf top s).size) s = 0
      ∧ eOpcode ⟨top, 0, 0x80210001 :: fence.tail⟩ = opNop ∧ eSkip ⟨top, 0, 0x80210001 :: fence.tail⟩ = true)
    ∧ (entryCause ⟨top, 0, fence⟩ (2 ^ (ringOf top d).size) d = 0 ∧ d.pwr.state = .doze)
    ∧ entryCause ⟨top, 0, fence⟩ (2 ^ (ringOf top d).size) { d with pwr := { d.pwr with state := .waking } } = 0 := by decide +kernel

theorem witness_StoppedRingShowsCause :
    (ringOf top up).state ≠ .active ∧ (ringOf top (setRing top polling up)).state = .active := by decide +kernel

theorem witness_ActivationBegins :
    let p : State := { up with rif := { up.rif with actPending := true } }
    let c := setRing top { ctxRead := true } up
    let a := setRing top polling up
    (pageAnswers .rif p = true ∧ p.rif.actPending = true)
    ∧ (pageAnswers .rif up = true ∧ up.rif.actPending = false ∧ (ringOf (262143 : RingId).toNat up).state = .idle
      ∧ (ringOf (262143 : RingId).toNat up).ctxRead = false)
    ∧ (c.rif.actPending = false ∧ (ringOf (262143 : RingId).toNat c).state = .idle
      ∧ (ringOf (262143 : RingId).toNat c).ctxRead = true)
    ∧ (a.rif.actPending = false ∧ (ringOf (262143 : RingId).toNat a).state ≠ .idle) := by decide +kernel

/-- The context of a completion ring of 256 units at address 4,096, as one beat. -/
def goodContext : BitVec 512 := BitVec.ofNat 512 (0x808000FF + 0x1000 * 2 ^ 32 + 7 * 2 ^ 128 + 0x8000 * 2 ^ 448)

/-- Ring 262,143 with its context being read for an activation that is pending. -/
def activating (act : Bool) (g : Ring) : State :=
  let s := asked 64 (.context top act) (setRing top { g with ctxRead := true } up)
  { s with rif := { s.rif with actPending := true, actRing := top } }

theorem witness_ContextReadEnds :
    let q : RdReq := ⟨0, 64, 1, .context top true⟩
    let a := setFn 255 { enable := true } (activating true {})
    let o := readOver 3 255 a
    let u := setRing top { ringOf top o with ctxRead := false } o
    let w := wordsOf (readBytes q [goodContext])
    let n : State := { a with rif := { a.rif with actRing := 5 } }
    let c := activating false { state := .active }
    (readAt 3 255 a = some q ∧ q.purpose = .context top true ∧ [goodContext].length = beatsFor q.addr q.len
      ∧ a.rif.actPending = true ∧ a.rif.actRing = top ∧ actCheck w u = 0 ∧ (cachedRings a).length < 8192)
    ∧ (readAt 3 255 n = some q ∧ n.rif.actRing ≠ top) ∧ actCheck (wordsOf (readBytes q [0])) u ≠ 0
    ∧ (readAt 3 255 (activating false {}) = some ⟨0, 64, 1, .context top false⟩
      ∧ (ringOf top (readOver 3 255 (activating false {}))).state = .idle
      ∧ (activating false {}).rif.actRing = top)
    ∧ (readAt 3 255 c = some ⟨0, 64, 1, .context top false⟩ ∧ (ringOf top (readOver 3 255 c)).state ≠ .idle
      ∧ (ringOf top (readOver 3 255 c)).cq = false ∧ (cachedRings c).length < 8192) := by decide +kernel

theorem witness_WriteBackHeadAndDemand :
    let g : Ring := { polling with life := 1, wbOut := [(0, 9), (1, 3)] }
    let s := wrote 8 (.writeback top 1 3 none) (setRing top g up)
    let e := wrote 8 (.writeback top 1 3 (some 0x0D)) (setRing top { g with state := .error } up)
    let o := wrote 8 (.writeback top 0 9 none) (setRing top g up)
    let h := asked 4 (.head top) (setRing top fullCq up)
    let d : State := { up with rif := { up.rif with demandDue := 1 } }
    (writeAt 3 383 s = some ⟨0, List.replicate 8 0, 1, .writeback top 1 3 none⟩
      ∧ (ringOf top (writeOver 3 383 s)).life = 1 ∧ (ringOf top (writeOver 3 383 s)).state = .active)
    ∧ writeAt 3 383 e = some ⟨0, List.replicate 8 0, 1, .writeback top 1 3 (some 0x0D)⟩
    ∧ (writeAt 3 383 o = some ⟨0, List.replicate 8 0, 1, .writeback top 0 9 none⟩
      ∧ 0 ≠ (ringOf top (writeOver 3 383 o)).life)
    ∧ (readAt 3 255 h = some ⟨0, 4, 1, .head top⟩ ∧ [(0 : BitVec 512)].length = beatsFor 0 4
      ∧ cqFull { ringOf top h with head := 0 } = false ∧ cqFull { ringOf top h with head := 7 } = true)
    ∧ (pageAnswers .rif up = true ∧ up.rif.demandDue ≤ up.cc ∧ 0 < regFld .rif oRifPollBudget 0 10 up)
    ∧ d.cc < d.rif.demandDue := by decide +kernel

theorem witness_FunctionResetBeginsAndEnds :
    let b := setFn 255 { busy := true } up
    let t := setTag 1 { state := .queued, fn := 255 } b
    let r := setRing top { state := .fnResetting, fn := 255 } b
    let a := setRing top { state := .active, fn := 255 } up
    (pageAnswers .rif r = true ∧ (fnOf (255 : FnId).toNat r).busy = true ∧ fnHasTag (255 : FnId).toNat r = false
      ∧ fnRings (255 : FnId).toNat isResetting r = [top])
    ∧ (pageAnswers .rif a = true ∧ (fnOf (255 : FnId).toNat a).busy = false
      ∧ fnRings (255 : FnId).toNat stopsAtReset a = [top])
    ∧ (pageAnswers .rif up = true ∧ (fnOf (255 : FnId).toNat up).busy = false
      ∧ fnRings (255 : FnId).toNat stopsAtReset up = [] ∧ ∀ t ∈ liveTags up, (tagOf t up).fn ≠ (255 : FnId).toNat)
    ∧ fnHasTag (255 : FnId).toNat t = true := by decide +kernel

theorem witness_FunctionResetOfRing : (2 : Nat) ≠ 1 := by decide

theorem witness_HoldPlacedAndReleased :
    let g : Ring := { polling with polling := false, due := none }
    let a := setReg .rif oRifInvalRing top (setRing top g up)
    let h : State := { a with rif := { a.rif with hold := some (top, 5, 32768) } }
    (pageAnswers .rif a = true ∧ regFld .rif oRifInvalRing 0 18 a = top ∧ (ringOf top a).state = .active
      ∧ a.rif.hold = none ∧ (ringOf top a).prefetched = [] ∧ (ringOf top a).offer = none
      ∧ (ringOf top a).partialUnit = none ∧ (ringOf top a).polling = false ∧ (ringOf top a).pfAwait = 0)
    ∧ (ringOf top (setReg .rif oRifInvalRing top (setRing top polling up))).polling = true
    ∧ (pageAnswers .rif up = true ∧ (ringOf (regFld .rif oRifInvalRing 0 18 up) up).state ≠ .active)
    ∧ (pageAnswers .rif h = true ∧ h.rif.hold = some (top, 5, 32768) ∧ (ringOf top h).state = .active
      ∧ (ringOf top h).offer = none ∧ (ringOf top h).partialUnit = none ∧ (ringOf top h).prefetched = [])
    ∧ (ringOf top (setRing top {} h)).state ≠ .active := by decide +kernel

/-- A completion that waits for no write-back. -/
def cpl : Cpl :=
  { batch := false, status := 0xFF, count := 1, cookie := 0xFFFFFFFF, frame := 5, tag := 65535, rung := 6, maxbits := 255,
    covers := [65535], ring := 1, need := 0 }

/-- A completion ring at its last unit, with a completion due. -/
def cq : Ring :=
  { state := .active, cq := true, cached := true, size := 15, index := 32767, phase := true, head := 0x8000,
    cplDue := [cpl], cplOut := [(7, cpl)] }

theorem witness_CompletionWritten :
    let s := setRing top cq up
    let f := setRing top { fullCq with cplDue := [cpl], headDue := none } up
    let n := setRing top { cq with cached := false } up
    cplNext (ringOf (262143 : RingId).toNat up) up = none
    ∧ (cplNext cq s = some cpl ∧ pageAnswers .rif s = true ∧ cq.cq = true ∧ cq.state = .active ∧ cqFull cq = false)
    ∧ (cplNext (ringOf top f) f = some cpl ∧ (ringOf top f).cached = true ∧ cqFull (ringOf top f) = true
      ∧ (ringOf top f).headDue = none ∧ (ringOf top f).headRead = false)
    ∧ (cplNext (ringOf top n) n = some cpl ∧ (ringOf top n).cached = false ∧ (ringOf top n).ctxRead = false) := by
  decide +kernel

theorem witness_CompletionAnswered :
    let s := wrote 16 (.completion top 7) (setRing top cq up)
    writeAt 3 383 s = some ⟨0, List.replicate 16 0, 1, .completion top 7⟩
    ∧ (ringOf top (writeOver 3 383 s)).cplOut.find? (fun e => decide (e.1 = 7)) = some (7, cpl)
    ∧ (ringOf top (writeOver 3 383 s)).state ≠ .fnResetting ∧ (ringOf top (writeOver 3 383 s)).state ≠ .error
    ∧ (ringOf top (writeOver 3 383 (wrote 16 (.completion top 7) (setRing top { cq with state := .error } up)))).state
      = .error
    ∧ (ringOf top (writeOver 3 383 (wrote 16 (.completion top 7)
        (setRing top { cq with state := .fnResetting, wasErr := true } up)))).wasErr = true
    ∧ (ringOf top (writeOver 3 383 (wrote 16 (.completion top 7) (setRing top { cq with state := .fnResetting } up)))).state
      = .fnResetting := by decide +kernel

/-! ### OPS -/

/-- An entry of an opcode, with 16 words and the fields given. -/
def ent (opcode : Nat) (w0 w5 w10 w11 : Nat) : Entry :=
  ⟨0, 63, [BitVec.ofNat 32 (2 ^ 31 + opcode * 2 ^ 16 + w0), 0, 0, 0xC0, 0, BitVec.ofNat 32 w5, 0, 0, 0, 0,
           BitVec.ofNat 32 w10, BitVec.ofNat 32 w11, 0, 0, 0, 0]⟩

/-- Ring 0 at its last unit offers an entry. -/
def offering (e : Entry) (s : State) : State :=
  setRing 0 { state := .active, cached := true, size := 6, index := 63, phase := true, offer := some e, fn := 255,
              cqId := 9 } s

theorem witness_EntryTaken :
    ∀ x ∈ takers, (ringOf (0 : RingId).toNat (offering (ent x.1 0 0 0 1) up)).offer = some (ent x.1 0 0 0 1)
      ∧ eOpcode (ent x.1 0 0 0 1) = x.1 ∧ opsTakes (offering (ent x.1 0 0 0 1) up) = true
      ∧ nextTag (offering (ent x.1 0 0 0 1) up) = some 0
      ∧ recsNeeded (ent x.1 0 0 0 1) ≤ freeRecs (eAct (ent x.1 0 0 0 1)) (offering (ent x.1 0 0 0 1) up) := by
  decide +kernel

theorem witness_EntryStays :
    let full := fun s : State => ({ s with ops := { s.ops with fresh := 65536 } } : State)
    let many := ent 0x10 0 0 0 65535
    let held := fun (e : Entry) => modRing 0 (fun g => { g with tagWait := true, recWait := true }) (offering e up)
    ((ringOf (0 : RingId).toNat (held many)).tagWait = true ∧ (ringOf (0 : RingId).toNat (held many)).recWait = true) ∧
    (ringOf (0 : RingId).toNat up).offer = none
    ∧ (∀ x ∈ takers, opsTakes (offering (ent x.1 0 0 0 1) State.reset) = false
      ∧ nextTag (full (offering (ent x.1 0 0 0 1) up)) = none
      ∧ opsTakes (full (offering (ent x.1 0 0 0 1) up)) = true)
    ∧ (opsTakes (offering many up) = true ∧ nextTag (offering many up) ≠ none
      ∧ freeRecs (eAct many) (offering many up) < recsNeeded many) := by decide +kernel

theorem witness_TagFreeLongest :
    let f : State := { up with ops := { up.ops with fresh := 65536, freed := [7, 3] } }
    up.ops.fresh < 65536 ∧ 65536 ≤ f.ops.fresh ∧ f.ops.freed = 7 :: [3] := by decide +kernel

theorem witness_CommitmentFixesStatus :
    let g : Ring := { state := .active, batches := [{ members := [⟨65535, 1, 0, none⟩] }] }
    let c := setTag 65535 { state := .committed, commitRank := 4, entry := ent 0x21 0 0 0 0 } (setRing 0 g up)
    (tagOf 65535 up).state = .free
    ∧ ((tagOf 65535 (setTag 65535 { state := .queued } up)).state ≠ .free)
    ∧ ((tagOf 65535 { c with cc := 1 }).state = .committed ∧ (tagOf 65535 { c with cc := 1 }).commitCc ≠ 1)
    ∧ ((tagOf 65535 c).state = .committed ∧ (tagOf 65535 c).commitCc = c.cc ∧ 1 < (tagOf 65535 c).commitRank) := by decide +kernel

/-- A profile of four planes, three pages a program unit, 16,383 blocks of 4,095 pages. -/
def profile : List Byte :=
  [2 * 2 ^ 30 + 3 * 2 ^ 28 + 2 * 2 ^ 26 + 2 ^ 23 + 2 * 2 ^ 21 + 2 ^ 19 + 4 * 2 ^ 11 + 6 * 2 ^ 8 + 2 * 2 ^ 5,
   16383 * 2 ^ 16 + 4095, 2208 * 2 ^ 16 + 16384, 1000 * 2 ^ 16 + 500, 6000 * 2 ^ 16 + 4000, 9000 * 2 ^ 16 + 5000,
   500 * 2 ^ 16 + 300, 100].flatMap (leBytes 4)

/-- Function 255 may do everything on every channel; die 0 is PRESENT with that profile and its channel owned. -/
def serving (s : State) : State :=
  let s := setWinBytes 0x610000 profile { s with map := { s.map with state := .ready } }
  setFn 255 { enable := true, ops := 0xFFFFF, chan := BitVec.allOnes 128 }
    (setRoster 0 { valid := true, state := .present } (setChan 0 { own := .owned } s))

/-- Tag 65,535 just taken with an entry of function 255. -/
def taken (e : Entry) (s : State) : State := 
  setTag 65535 { state := .fenced, entry := e, fn := 255, allowed := permitted 255 e s } s

/-- The status that admission gives it. -/
def judgedAs (e : Entry) (s : State) : Nat := admitStatus (permitted 255 e s) 0 e 0 (mapReads e (taken e s))

theorem witness_AdmissionJudges :
    let strict := fun (fr : Nat) => (⟨0, 0, [0x81010000, BitVec.ofNat 32 fr, 0, 0, 0, 0, 0, 0]⟩ : Entry)
    (tagOf 65535 (taken (ent 0x3F 0 0 0 0) up)).state = .fenced
    ∧ permitted 255 (ent 0x01 0 0 0 0) up = false
    ∧ (permitted 255 (ent 0x01 0 0 0 0) (setRoster 0 {} (serving up)) = true
      ∧ diesServe (ent 0x01 0 0 0 0) (setRoster 0 {} (serving up)) = false)
    ∧ (permitted 255 (ent 0x01 0 0 0 0) (setChan 0 {} (serving up)) = true
      ∧ diesServe (ent 0x01 0 0 0 0) (setChan 0 {} (serving up)) = true
      ∧ channelsOwned (ent 0x01 0 0 0 0) (setChan 0 {} (serving up)) = false)
    ∧ (let b := serving { up with map := { up.map with marks := [markWord 0 0 2 0] } }
       permitted 255 (ent 0x0C 0 0x1C00 0 0) b = true ∧ diesServe (ent 0x0C 0 0x1C00 0 0) b = true
       ∧ channelsOwned (ent 0x0C 0 0x1C00 0 0) b = true ∧ writtenAny (blockBadFor 0) (ent 0x0C 0 0x1C00 0 0) b = true)
    ∧ (let w := markWord 0 0 2 0
       let b0 := serving up
       let b : State := { b0 with map := { b0.map with state := .conflict, marks := [w], disputed := [w] } }
       let e := ent 0x0C 0 0x1C00 0 0
       permitted 255 e b = true ∧ diesServe e b = true ∧ channelsOwned e b = true
       ∧ writtenAny (blockBadFor 0) e b = false ∧ writtenAny blockDisputed e b = true)
    ∧ judgedAs (strict 0x80000000) (serving up) = 0x11 ∧ judgedAs (strict 0) (serving up) = 0x10
    ∧ judgedAs (strict 60) (serving up) = 0 ∧ eClass (strict 60) ≠ 0
    ∧ judgedAs (ent 0x21 0 0 0 0) up = 0 ∧ judgedAs (ent 0x20 0 0 0 0) up = 0
    ∧ judgedAs (ent 0x28 0 0 0 0) (serving up) = 0 := by decide +kernel

theorem witness_AdmittedWorkQueued :
    ∀ o ∈ [0x02, 0x10, 0x18, 0x29, 0x01, 0x0C, 0x30, 0x31, 0x08, 0x11],
      judgedAs (ent o 0 0x1C00 0x1000 1) (serving up) = 0
      ∧ (taken (ent o 0 0x1C00 0x1000 1) (serving up)).ops.tags.length = 1
      ∧ eCwFirst (ent o 0 0x1C00 0x1000 1) ≤ eCwLast (ent o 0 0x1C00 0x1000 1)
      ∧ (tagOf 65535 (taken (ent o 0 0x1C00 0x1000 1) (serving up))).allowed = true
      ∧ (tagOf 65535 (taken (ent o 0 0x1C00 0x1000 1) (serving up))).state = .fenced
      ∧ (taken (ent o 0 0x1C00 0x1000 1) (serving up)).ops.tags.all (fun y => decide (y.1 < 65536)) = true := by
  decide +kernel

theorem witness_FenceAndExpiry :
    let f := setTag 65535 { state := .queued, entry := ent 0x20 0 0 0 0, order := 1 } up
    let b := setTag 1 { state := .queued, entry := ent 0x01 0 0 0 0 } f
    let x := setTag 65535 { state := .queued, entry := ent 0x01 0x1000000 0 0 0, armed := true } up
    let c := setTag 65535 { state := .queued, entry := ent 0x08 0x1000000 0 0 0, armed := true, confirmed := true } up
    ((tagOf (65535 : TagId).toNat f).state = .queued ∧ eOpcode (tagOf (65535 : TagId).toNat f).entry = 0x20
      ∧ reachedNow (65535 : TagId).toNat 1 f = true ∧ fenceClear (65535 : TagId).toNat f = true)
    ∧ fenceClear (65535 : TagId).toNat b = false
    ∧ expires (65535 : TagId).toNat up = false
    ∧ (expires (65535 : TagId).toNat c = true ∧ (tagOf (65535 : TagId).toNat c).confirmed = true)
    ∧ (expires (65535 : TagId).toNat x = true ∧ (tagOf (65535 : TagId).toNat x).confirmed = false
      ∧ eOpcode (tagOf (65535 : TagId).toNat x).entry ≠ 0x10)
    ∧ (tagOf (65535 : TagId).toNat up).armed = false := by decide +kernel

theorem witness_DataWritesAnswered :
    let r := setTag 65535 { state := .issued, entry := ent 0x01 0 0 0 0, wrOut := 1 } up
    let c := fun (n : Nat) => setTag 65535 { state := .issued, entry := ent 0x28 0 0 0 0, wrOut := n } up
    writeAt 3 383 (wrote 8 .map up) = some ⟨0, List.replicate 8 0, 1, .map⟩
    ∧ (writeAt 3 383 (wrote 8 (.data 65535 0 0) r) = some ⟨0, List.replicate 8 0, 1, .data 65535 0 0⟩
      ∧ (tagOf 65535 (wrote 8 (.data 65535 0 0) r)).state = .issued
      ∧ eOpcode (tagOf 65535 (wrote 8 (.data 65535 0 0) r)).entry = 0x01
      ∧ (tagOf 65535 (wrote 8 (.data 65535 0 0) r)).todo = []
      ∧ (tagOf 65535 (wrote 8 (.data 65535 0 0) r)).wrOut = 1)
    ∧ (∀ n ∈ [1, 2], writeAt 3 383 (wrote 8 (.report 65535) (c n)) = some ⟨0, List.replicate 8 0, 1, .report 65535⟩
      ∧ (tagOf 65535 (wrote 8 (.report 65535) (c n))).state = .issued
      ∧ (tagOf 65535 (wrote 8 (.report 65535) (c n))).wrOut = n) := by decide +kernel

/-- A program of tag 65,535 that waits for n bytes of its data, 32 of them on their way. -/
def waiting (w0 n : Nat) : State :=
  asked 32 (.program 65535 5 0 0)
    (setTag 65535 { state := .issued, entry := ent 0x08 w0 0x1C00 0 0, order := 5, dataLeft := n }
      { up with dpt := { up.dpt with progs := [{ id := 65535, granules := 64, early := false }] } })

theorem witness_ProgramDataArrives :
    let q : RdReq := ⟨0, 32, 1, .program 65535 5 0 0⟩
    (readAt 3 255 (waiting 0 33) = some q ∧ [(0 : BitVec 512)].length = beatsFor q.addr q.len ∧ 65535 < 65536
      ∧ 65536 ≤ (waiting 0 33).ops.earlyNext ∧ reachedNow 65535 1 (waiting 0 33) = true
      ∧ (tagOf 65535 (waiting 0 33)).order = 5 ∧ (tagOf 65535 (waiting 0 33)).dataLeft ≠ 0
      ∧ (readBytes q [0]).length < (tagOf 65535 (waiting 0 33)).dataLeft)
    ∧ (readAt 3 255 (waiting 0 0) = some q ∧ (tagOf 65535 (waiting 0 0)).dataLeft = 0)
    ∧ (readAt 3 255 (waiting 0 32) = some q ∧ (tagOf 65535 (waiting 0 32)).dataLeft ≤ (readBytes q [0]).length
      ∧ eClass (tagOf 65535 (waiting 0 32)).entry ≠ 3
      ∧ pageActive .ecc { waiting 0 32 with hdr := State.reset.hdr } = false)
    ∧ (readAt 3 255 (waiting 0x3000000 32) = some q ∧ eClass (tagOf 65535 (waiting 0x3000000 32)).entry = 3
      ∧ pageActive .ecc (waiting 0x3000000 32) = true) := by
  decide +kernel

theorem witness_EarlyPopAndTagSelect :
    let c := setTag 65535 { state := .committed, entry := ent 0x08 0x1000000 0 0 0, status := 0xFF } up
    pageAnswers .ops c = true ∧ (tagOf (65535 : TagId).toNat c).state ≠ .free
    ∧ eClass (tagOf (65535 : TagId).toNat c).entry ≠ 0
    ∧ (pageAnswers .ops up = true ∧ (tagOf (65535 : TagId).toNat up).state = .free) := by decide +kernel

/-! ### TMB and the plans of SCH -/

/-- The block with a tracker, well after reset. -/
def trk (t : Tmb) : State := { up with tmb := t, cc := 100000 }

/-- The tracker in a state. -/
def inState (x : TrkState) : Tmb := { up.tmb with state := x }

/-- A tick taken for the running frame that waits for its sample. -/
def tick0 : PendTick := { tau := 99998, at_ := 100000, own := 0, err := 7, interval := some 24414, stray := false }

/-- A usable sample of an index. -/
def sample (idx : Nat) : BitVec 44 := BitVec.ofNat 44 (2 ^ 41 + idx)

theorem witness_FrameTickBegins :
    let s := trk { up.tmb with phase := 24413, wedgeValid := true, wedgeIndex := 2047 }
    (trk (inState .off)).tmb.state = .off ∧ up.tmb.phase + 1 < up.tmb.frameLen
    ∧ (corePowered s = true ∧ s.tmb.state ≠ .off ∧ s.tmb.frameLen ≤ s.tmb.phase + 1 ∧ refAct (applyTick s) = refAct s
      ∧ (∀ a, a < 2 → (dspOf a s).recs = [] ∧ (dspOf a s).open_ = none) ∧ s.tmb.wedgeValid = true)
    ∧ pageActive .sch { s with hdr := [] } = false ∧ corePowered { s with pwr := { s.pwr with state := .cicada } } = false := by decide +kernel

theorem witness_FrameLengths :
    (trk (inState .reverse)).tmb.state = .reverse ∧ up.tmb.state = .locked
    ∧ frameLater 0 0xFFFFFFFF = true ∧ frameLater 0 up.tmb.frame = false ∧ 2 ≤ (trk up.tmb).cc := by decide +kernel

theorem witness_WedgeTickWaits :
    (trk (inState .off)).tmb.state = .off
    ∧ (corePowered up = true ∧ up.tmb.state ≠ .off ∧ up.tmb.pend = none ∧ (up.tmb.state = .locked ∨ (dspOf 0 up).valid = false)) := by
  decide +kernel

theorem witness_TickClasses :
    let seen := trk { up.tmb with lastUsable := some 5 }
    let half := wedges up / 2
    inService up = true ∧ ({ tick0 with stray := true } : PendTick).stray = true
    ∧ posValid (0 : BitVec 44) = false
    ∧ (posValid (sample 0 ||| 0x80000000000) = true ∧ posStale (sample 0 ||| 0x80000000000) = true)
    ∧ (posValid (sample 0 ||| 0x40000000000) = true ∧ posStale (sample 0 ||| 0x40000000000) = false
      ∧ posDefect (sample 0 ||| 0x40000000000) = true)
    ∧ (posUsable (sample (5 + half)) = true ∧ seen.tmb.lastUsable = some 5
      ∧ wedges seen ≤ 2 * ((posWedge (sample (5 + half)) + wedges seen * 4096 - 5) % max 1 (wedges seen)))
    ∧ 2 * ((posWedge (sample (5 + half - 1)) + wedges seen * 4096 - 5) % max 1 (wedges seen)) < wedges seen
    ∧ (posWedge (sample 7) ≠ (5 + seen.tmb.sinceUsable + 1) % max 1 (wedges seen)
      ∧ posWedge (sample 6) = (5 + seen.tmb.sinceUsable + 1) % max 1 (wedges seen) ∧ acquiring seen = false)
    ∧ (posUsable (sample 0) = true ∧ up.tmb.lastUsable = none ∧ acquiring (trk (inState .freerun)) = true
      ∧ ({ tick0 with interval := none } : PendTick).interval = none ∧ tick0.interval = some 24414) := by decide +kernel

theorem witness_SampleDecidesTick :
    let s := trk { up.tmb with pend := some tick0 }
    let a := trk { inState .acquire with pend := some tick0, acqCount := 7 }
    let b := trk { up.tmb with pend := some tick0, lastUsable := some 2047, backRun := 1 }
    let l := trk { up.tmb with pend := some { tick0 with at_ := 0 } }
    (tick0.at_ + sampleWait s = s.cc + sampleWait s ∧ ({ tick0 with at_ := 0 } : PendTick).at_ + sampleWait l < l.cc
      ∧ l.tmb.state = .locked ∧ l.tmb.run < 7) ∧
    corePowered s = true ∧ corePowered a = true ∧ corePowered b = true ∧ corePowered l = true
    ∧ corePowered { s with pwr := { s.pwr with state := .cicada } } = false
    ∧ (1 : ActId).toNat ≠ refAct up ∧ (0 : ActId).toNat = refAct up
    ∧ (s.tmb.pend = some tick0 ∧ s.tmb.state = .locked ∧ classify tick0 (some (sample 0)) s = .good)
    ∧ (a.tmb.state = .acquire ∧ classify tick0 (some (sample 4095)) a = .good ∧ 7 ≤ a.tmb.acqCount
      ∧ tick0.err.natAbs ≤ loopWindow a ∧ (dspOf 0 a).valid = false ∧ (dspOf 1 a).valid = false)
    ∧ (b.tmb.state = .locked ∧ classify tick0 (some (sample 2046)) b = .backward ∧ b.tmb.backRun = 1
      ∧ ∀ a, a < 2 → (dspOf a b).recs = [] ∧ (dspOf a b).open_ = none) := by decide +kernel

theorem witness_MissingTicksLoseLock :
    let w := fun (n : Nat) => trk { up.tmb with pend := some { tick0 with at_ := 0 }, run := n }
    let m := fun (n k : Nat) => trk { up.tmb with starts := [(0, 0)], run := n, missRun := k }
    waitOver up = false ∧ missDue up = false
    ∧ (∀ n ∈ [6, 7], (w n).tmb.state = .locked ∧ waitOver (w n) = true ∧ (w n).tmb.run = n)
    ∧ (∀ x ∈ [(6, 0), (7, 0), (0, 1)], missDue (m x.1 x.2) = true ∧ (m x.1 x.2).tmb.state = .locked
      ∧ (m x.1 x.2).tmb.run = x.1 ∧ (m x.1 x.2).tmb.missRun = x.2)
    ∧ (∀ a, a < 2 → (dspOf a up).recs = [] ∧ (dspOf a up).open_ = none) := by decide +kernel

theorem witness_HoldAndAcquireEnd :
    let h := trk { inState .hold with idleFrames := holdLimit up }
    let a := trk { inState .acquire with idleFrames := 8 }
    corePowered h = true ∧ corePowered a = true ∧
    (h.tmb.state = .hold ∧ holdLimit h ≤ h.tmb.idleFrames ∧ (dspOf 0 h).valid = false ∧ (dspOf 1 h).valid = false)
    ∧ (a.tmb.state = .acquire ∧ 8 ≤ a.tmb.idleFrames ∧ (dspOf 0 a).valid = false ∧ (dspOf 1 a).valid = false)
    ∧ (trk (inState .hold)).tmb.idleFrames < holdLimit (trk (inState .hold))
    ∧ (trk { inState .acquire with idleFrames := 7 }).tmb.idleFrames < 8 := by decide +kernel

theorem witness_FrameWriteAndOtherTick :
    let at_ := fun (n : Nat) => trk { up.tmb with phase := n, frame := 9 }
    let s : State := { at_ 12000 with cc := 12002 }
    let e : State := { at_ 24413 with cc := 24415 }
    let f := fun (s : State) =>
      nearestFrame (s.cc - 2) (if (dspOf 1 s).ofsSet then (dspOf 1 s).ofs else (tickPlace s).2.1) s
    let w := setDsp 1 { dspOf 1 e with ofs := 0, ofsSet := true } e
    let d := setDsp 1 { dspOf 1 s with ticked := [9] } s
    (pageAnswers .tmb (trk (inState .off)) = true ∧ (trk (inState .off)).tmb.state = .off)
    ∧ (pageAnswers .tmb up = true ∧ up.tmb.state ≠ .off ∧ corePowered s = true ∧ refAct s = 0)
    ∧ ((dspOf 1 s).ticks = [] ∧ f s ∉ (dspOf 1 s).ticked ∧ (∃ x ∈ (dspOf 1 (setDsp 1 { dspOf 1 s with frames := [(9, 2)] } s)).frames, x.1 = f s))
    ∧ frameLater (f w) w.tmb.frame = true
    ∧ (frameLater (f s) s.tmb.frame = false ∧ (dspOf 1 s).frames = [])
    ∧ f d ∈ (dspOf 1 d).ticked := by decide +kernel

/-- Channels yet to be planned in the running frame. -/
def planning (cs : List Nat) (s : State) : State := { s with sch := { s.sch with toPlan := cs, planned := cs } }

theorem witness_PlannerOverrun :
    overrunDue up = false ∧ overrunDue (planning [0, 127] (trk { up.tmb with phase := planWindow up })) = true := by
  decide +kernel

theorem witness_BurinMissesCheckpoint :
    let s := trk { up.tmb with ckptOwed := 0x8000000000000001 }
    let r := trk { up.tmb with ckptOwed := 0x8000000000000000, ckptMiss := 1 }
    up.tmb.ckptOwed.getLsbD (63 : BurId).toNat = false
    ∧ (s.tmb.ckptOwed.getLsbD (63 : BurId).toNat = true ∧ s.tmb.ckptMiss = 0)
    ∧ (r.tmb.ckptOwed.getLsbD (63 : BurId).toNat = true ∧ r.tmb.ckptMiss ≠ 0) := by decide +kernel

theorem witness_PlanPublishedAndAdopted :
    let s := planning [127] (trk { up.tmb with phase := planWindow up })
    let a : State := setThr 0 false { thrOf 0 false up with state := .idle } { up with sch := { up.sch with planned := [0] } }
    ((127 : ChnId).toNat ∈ s.sch.toPlan ∧ pageActive .sch s = true ∧ 16 ≤ s.tmb.phase
      ∧ s.tmb.phase ≤ planWindow s)
    ∧ (127 : ChnId).toNat ∉ up.sch.toPlan
    ∧ ((0 : ChnId).toNat ∈ a.sch.planned ∧ (0 : ChnId).toNat ∉ a.sch.toPlan
      ∧ safeSince (chanThread (0 : ChnId).toNat a) (publishedAt (0 : ChnId).toNat a) = true) := by decide +kernel

theorem witness_PlanKeepsGaps :
    let x : Xfer := { kind := 1, die := 0, plane := 3, id := 65535, len := 100, ready := 0, cls := 0, key := ⟨0, 0⟩, order := 0 }
    (buildPlan 0 (setCands 0 [x, x] up)).length = 2 := by decide +kernel

theorem witness_SchedulerSnapshots :
    let e : PlanEnt := { x := { kind := 3, die := 31, plane := 3, id := 65535, len := 65535, ready := 0, cls := 0, key := ⟨0, 0⟩, order := 0 }, start := 4095 }
    let s := setPlan 127 (some { frame := 0, carried := true, entries := [e] }) up
    pageAnswers .sch s = true ∧ planOf (0 : ChnId).toNat s = none
    ∧ planOf (127 : ChnId).toNat s = some { frame := 0, carried := true, entries := [e] }
    ∧ (e.x.kind < 4 ∧ e.x.die < 32 ∧ e.x.plane < 4 ∧ e.x.len < 2 ^ 16 ∧ e.x.id < 65536) := by decide +kernel

/-! ### SCH and the buses -/

/-- Channel 0 may run: Burin thread 0 is IDLE, group 0 is ON. -/
def able (s : State) : State :=
  setGroup 0 { rail := .on } (setThr 0 false { thrOf 0 false s with state := .idle } (serving s))

/-- An operation of a tag that waits for a die. -/
def item (k : DieOpKind) (t : Nat) : QItem :=
  { id := t, kind := k, planes := 8, block := 16382, page := 4094, slc := false, rung := 0, attempt := 0, cls := 2,
    key := ⟨0, 0⟩, order := 0 }

/-- The same operation on its die. -/
def dieOp (k : DieOpKind) (t : Nat) (arr : Bool) : DieOp :=
  { kind := k, ids := [t], planes := 8, block := 16382, page := 4094, slc := false, rung := 0, attempt := 0,
    key := ⟨0, 0⟩, inArray := arr, since := 0, ran := 0, pollAt := 0, dropped := false }

/-- Die 0 in some state. -/
def die0 (x : Die) : State := setDie 0 x (able { up with cc := 500000 })

/-- The same with tag 65,535 issued with an entry. -/
def withTag (e : Entry) (s : State) : State := setTag 65535 { state := .issued, entry := e } s

theorem witness_StartGateConditions :
    let s := die0 { queue := [item .sense 65535] }
    gatedKind DieOpKind.sense = true ∧ gateFreeJob 65535 s = false ∧ pageActive .pwr s = true
    ∧ granted 0 (item .sense 65535) s = true := by decide +kernel

theorem witness_StartGrantedOrHeld :
    let r := die0 { queue := [item .sense 65535] }
    let p := die0 { queue := [item .program 65535] }
    let h := setGroup 0 { rail := .off } r
    let w := setDie 0 { queue := [item .sense 65535], startWait := some 1 } h
    let f := die0 { heldItem := some (item .sense 65535), startWait := some 1 }
    startChoice (0 : DieId).toNat (die0 {}) = none ∧ (dieOf 0 (die0 {})).heldItem = none
    ∧ (startChoice (0 : DieId).toNat f = none ∧ (dieOf 0 f).startWait.isSome = true
      ∧ granted 0 (item .sense 65535) f = true)
    ∧ (startChoice (0 : DieId).toNat r = some (item .sense 65535) ∧ granted 0 (item .sense 65535) r = true
      ∧ mergeSet 0 (item .sense 65535) r = [])
    ∧ (startChoice (0 : DieId).toNat p = some (item .program 65535) ∧ granted 0 (item .program 65535) p = true
      ∧ mergeSet 0 (item .program 65535) p = [] ∧ (dieOf 0 p).state = .idle ∧ (dieOf 0 p).run = none)
    ∧ (startChoice (0 : DieId).toNat h = some (item .sense 65535) ∧ granted 0 (item .sense 65535) h = false
      ∧ (dieOf 0 h).startWait = none)
    ∧ (startChoice (0 : DieId).toNat w = some (item .sense 65535) ∧ granted 0 (item .sense 65535) w = false
      ∧ (dieOf 0 w).startWait ≠ none) := by decide +kernel

theorem witness_ResumeAndRestart :
    let r := die0 { state := .suspended, held := some (dieOp .erase 65535 true) }
    let a := die0 { abandoned := some (dieOp .program 65535 false) }
    (resumeWanted (0 : DieId).toNat r = true ∧ suspendFirst 0 r = some (0 : DieId).toNat)
    ∧ resumeWanted (0 : DieId).toNat up = false ∧ inAgain (0 : DieId).toNat up = false
    ∧ ((dieOf 0 a).abandoned = some (dieOp .program 65535 false) ∧ (dieOp .program 65535 false).ids = 65535 :: []
      ∧ inAgain (0 : DieId).toNat a = true)
    ∧ (granted (0 : DieId).toNat (restartItem (dieOp .program 65535 false) a) a = true
      ∧ granted (0 : DieId).toNat (restartItem (dieOp .program 65535 false) a) (setGroup 0 { rail := .off } a) = false
      ∧ inAgain (0 : DieId).toNat (setGroup 0 { rail := .off } a) = true) := by decide +kernel

/-- A data-in of tag 65,535 to die 0. -/
def xferIn : Xfer :=
  { id := 65535, die := 0, plane := 3, kind := 1, len := 20000, ready := 0, cls := 2, key := ⟨0, 0⟩, order := 0 }

theorem witness_PlannedTransferStarts :
    let e : PlanEnt := { x := xferIn, start := 0 }
    let p : Plan := { frame := 0, entries := [e], adopted := true }
    let a := setPlan 0 (some p) (die0 { dataIn := some (dieOp .program 65535 false, 0) })
    let n := setPlan 0 (some p) (die0 {})
    entryDue (0 : ChnId).toNat up = none
    ∧ (entryDue (0 : ChnId).toNat n = some e ∧ xferReady 0 e.x n = false)
    ∧ (entryDue (0 : ChnId).toNat a = some e ∧ busFree 0 a = true ∧ busServes 0 a = true ∧ xferReady 0 e.x a = true
      ∧ e.x.kind = 1 ∧ a.mem.upsets = []) := by decide +kernel

theorem witness_LateFillOrder :
    let q := die0 { state := .suspReq, suspErase := true, suspTaken := true, run := some (dieOp .erase 65535 true),
                    queue := [{ item .sense 65535 with cls := 1 }] }
    let r := die0 { state := .busy, run := some (dieOp .sense 65535 false) }
    let b := setChan 127 { act := some (.statusPoll 4064, 0) } up
    busFree (127 : ChnId).toNat b = false
    ∧ (∀ s ∈ [q, r], busFree (0 : ChnId).toNat s = true ∧ (chanOf 0 s).own = .owned ∧ busServes 0 s = true
      ∧ s.pwr.resetDies = [] ∧ candsOf 0 s = [] ∧ burinDrives 0 s = true ∧ chanDies_ 0 s = [0]
      ∧ (dieOf 0 s).dataIn = none)
    ∧ ((dieOf 0 q).state = .suspReq ∧ (dieOf 0 q).suspTaken = true ∧ trigger 0 q = true ∧ suspAllowed 0 q = true
      ∧ busTakes 0 (.suspendCmd 0) q = true)
    ∧ ((dieOf 0 r).state ≠ .suspReq ∧ resumeWanted 0 r = false ∧ (dieOf 0 r).run = some (dieOp .sense 65535 false)
      ∧ (dieOp .sense 65535 false).inArray = false ∧ featureKind DieOpKind.sense = false ∧ mayStart 0 r = true
      ∧ drives 0 [65535] r = true ∧ busTakes 0 (startAct 0 (dieOp .sense 65535 false) r) r = true) := by decide +kernel

theorem witness_SuspendLateAndStatusPoll :
    let l := die0 { state := .suspending, suspSince := 500000 - 2 * 45000 }
    let e := die0 { state := .suspending, suspSince := 500001 - 2 * 45000 }
    let p := die0 { state := .erase, run := some (dieOp .erase 65535 true) }
    ((dieOf (0 : DieId).toNat l).state = .suspending ∧ (dieOf 0 l).suspLate = false
      ∧ (dieOf 0 l).suspSince + 2 * pfSusMax (dieProf 0 l) l ≤ l.cc)
    ∧ e.cc < (dieOf (0 : DieId).toNat e).suspSince + 2 * pfSusMax (dieProf 0 e) e
    ∧ pollIsDue (0 : DieId).toNat up = false ∧ pollIsDue (0 : DieId).toNat p = true
    ∧ shortFirst 0 p = none := by decide +kernel

/-- Tag 65,535 held by the ladder until a cc. -/
def held (w0 due : Nat) : State :=
  setTag 65535 { state := .issued, entry := ent 0x01 w0 0 0 0, ladderHeld := some due } (able up)

/-- What the ladder decides for it. -/
def heldNext (s : State) : Next × Nat :=
  ladderNext (tagOf 65535 s).entry (tagOf 65535 s).key (tagOf 65535 s).rung (tagOf 65535 s).todo.length
    (allStriped 65535 s) s

theorem witness_TimeoutAndRetest :
    let o := dieOp .sense 65535 true
    let s := withTag (ent 0x01 0 0 0 0) (die0 { state := .busy, run := some o })
    timedOut (0 : DieId).toNat up = false
    ∧ (timedOut (0 : DieId).toNat s = true ∧ (dieOf 0 s).run = some o ∧ o.ids = [65535]
      ∧ (tagOf 65535 s).state ≠ .free ∧ (tagOf 65535 s).state ≠ .committed)
    ∧ retestNext s ≠ some (65535 : TagId).toNat ∧ retestNext (held 0 1) ≠ some (65535 : TagId).toNat
    ∧ (retestNext (held 0x1000500 0) = some 65535 ∧ heldNext (held 0x1000500 0) = (.hold, 4))
    ∧ (retestNext (held 0x500 0) = some 65535 ∧ heldNext (held 0x500 0) = (.run 1, 0)) := by decide +kernel

/-- Channel 0 with something on its bus. -/
def onBus (a : BusAct) (s : State) : State := setChan 0 { chanOf 0 s with act := some (a, 0) } s

theorem witness_BusActionEnds :
    let act : CmdAct := { act := 0, arg := 0 }
    let two := setThr 63 true { thrOf 63 true up with cmdq := [act, act] } up
    ((thrOf (chanBur (127 : ChnId).toNat) (chanThr (127 : ChnId).toNat) up).cmdq = []
      ∧ (chanOf (127 : ChnId).toNat up).act = none)
    ∧ (∀ f : Bool, (if f then (thrOf (chanBur (127 : ChnId).toNat) (chanThr (127 : ChnId).toNat) two).cmdq.tail
        else (thrOf (chanBur (127 : ChnId).toNat) (chanThr (127 : ChnId).toNat) two).cmdq) ≠ [])
    ∧ (chanOf 127 two).onFifo = false
    ∧ (chanOf 127 (setChan 127 { chanOf 127 two with onFifo := true } two)).onFifo = true := by decide +kernel

theorem witness_BusActionEnds_starts :
    let s := onBus (.suspendCmd 0) (die0 { state := .suspReq, suspErase := true, run := some (dieOp .erase 65535 true) })
    let a := onBus (.arrayStart 0) (die0 { run := some (dieOp .erase 65535 false) })
    let e := onBus (.arrayStart 0)
      (withTag (ent 0x0C 0 0 0 0) (die0 { run := some (dieOp .erase 65535 false) }))
    let r := onBus (.arrayStart 0) (die0 { run := some (dieOp .sense 65535 false) })
    (opWanted (dieOp .erase 65535 false) a = false ∧ opWanted (dieOp .erase 65535 false) e = true
      ∧ (dieOf 0 r).run = some (dieOp .sense 65535 false)) ∧
    (∀ x ∈ [s, a, e, r], (thrOf (chanBur (0 : ChnId).toNat) (chanThr (0 : ChnId).toNat) x).cmdq = [])
    ∧ (∀ x ∈ [s, a, e, r], (chanOf 0 x).own = .owned ∧ (chanOf 0 x).census = none)
    ∧ (∀ x ∈ [s, a, e, r], x.sec.boot = .notStarted ∧ x.pwr.step = .none)
    ∧ (dieOf 0 s).run = some (dieOp .erase 65535 true) ∧ (chanOf 0 s).act = some (.suspendCmd 0, 0)
    ∧ (dieOf 0 a).run = some (dieOp .erase 65535 false) ∧ (chanOf 0 a).act = some (.arrayStart 0, 0) := by
  decide +kernel

theorem witness_BusActionEnds_polls :
    let p := onBus (.statusPoll 0)
      (withTag (ent 0x10 0 0 0 0) (die0 { state := .erase, run := some (dieOp .erase 65535 true) }))
    ((dieOf 0 p).run = some (dieOp .erase 65535 true) ∧ (chanOf 0 p).act = some (.statusPoll 0, 0)
      ∧ (thrOf (chanBur (0 : ChnId).toNat) (chanThr (0 : ChnId).toNat) p).cmdq = [] ∧ (chanOf 0 p).own = .owned
      ∧ (chanOf 0 p).census = none ∧ p.sec.boot = .notStarted ∧ p.pwr.step = .none
      ∧ (0x00 : Byte).getLsbD (pfRdyBit (dieProf 0 p) p) = false
      ∧ (0x41 : Byte).getLsbD (pfRdyBit (dieProf 0 p) p) = true
      ∧ (0x41 : Byte).getLsbD (pfFailBit (dieProf 0 p) p) = true
      ∧ (0x40 : Byte).getLsbD (pfFailBit (dieProf 0 p) p) = false ∧ (dieOf 0 p).state = .erase
      ∧ (tagOf 65535 p).state ≠ .free ∧ (tagOf 65535 p).state ≠ .committed) := by decide +kernel

theorem witness_DiesAndBusesComplete :
    let g := die0 { queue := [item .sense 65535] }
    let r := die0 { state := .suspended, held := some (dieOp .erase 65535 true) }
    let a := die0 { abandoned := some (dieOp .program 65535 false) }
    let e : PlanEnt := { x := xferIn, start := 0 }
    let p := setPlan 0 (some { frame := 0, entries := [e], adopted := true })
      (die0 { dataIn := some (dieOp .program 65535 false, 0) })
    let q := die0 { state := .suspReq, suspErase := true, suspTaken := true, run := some (dieOp .erase 65535 true),
                    queue := [{ item .sense 65535 with cls := 1 }] }
    let l := die0 { state := .suspending, run := some (dieOp .erase 65535 true) }
    let b := withTag (ent 0x01 0 0 0 0) (die0 { state := .busy, run := some (dieOp .sense 65535 true) })
    let o := onBus (.suspendCmd 0) (die0 { run := some (dieOp .erase 65535 true) })
    (startChoice 0 g = some (item .sense 65535) ∧ granted 0 (item .sense 65535) g = true
      ∧ mergeSet 0 (item .sense 65535) g = [])
    ∧ (resumeWanted 0 r = true ∧ suspendFirst 0 r = some 0)
    ∧ ((dieOf 0 a).abandoned = some (dieOp .program 65535 false) ∧ inAgain 0 a = true
      ∧ granted 0 (restartItem (dieOp .program 65535 false) a) a = true)
    ∧ (entryDue 0 p = some e ∧ busFree 0 p = true ∧ busServes 0 p = true ∧ xferReady 0 e.x p = true ∧ e.x.kind = 1
      ∧ p.mem.upsets = [])
    ∧ (busFree 0 q = true ∧ (chanOf 0 q).own = .owned ∧ busServes 0 q = true ∧ q.pwr.resetDies = []
      ∧ candsOf 0 q = [] ∧ burinDrives 0 q = true ∧ chanDies_ 0 q = [0] ∧ (dieOf 0 q).dataIn = none
      ∧ trigger 0 q = true ∧ suspAllowed 0 q = true ∧ busTakes 0 (.suspendCmd 0) q = true)
    ∧ (dieOf 0 l).suspSince + 2 * pfSusMax (dieProf 0 l) l ≤ l.cc
    ∧ (pollIsDue 0 b = true ∧ shortFirst 0 b = none)
    ∧ (timedOut 0 b = true ∧ tagOpen 65535 b = true)
    ∧ (retestNext (held 0x500 0) = some 65535 ∧ (heldNext (held 0x500 0)).1 = .run 1)
    ∧ (cmdqOf 0 o = [] ∧ (chanOf 0 o).own = .owned ∧ (chanOf 0 o).census = none ∧ o.sec.boot = .notStarted
      ∧ o.pwr.step = .none) := by decide +kernel

/-! ### The engines -/

/-- A word of fields given as (bit, value), made odd. -/
def word (l : List (Nat × Nat)) : Nat :=
  let w := l.foldl (fun a f => a + f.2 * 2 ^ f.1) 0
  if wordOdd w then w else w + 2 ^ 127

/-- Burin 0 with a word at address 2,047, where the thread given stands. -/
def engine (w : Nat) (t : Thread) : State :=
  setThr 0 true { t with pc := 2047 }
    { up with cc := 500, eng := { up.eng with patchBur := SMap.put noWord [] 2047 (BitVec.ofNat 128 w) } }

/-- The Graver with Graver jobs waiting. -/
def graver (t : Thread) (l : List GravJob) : State :=
  setThr 64 true { t with pc := 4095 } { up with cc := 500, eng := { up.eng with grvQueue := l } }

/-- A running thread. -/
def go : Thread := { state := .run, stack := [7] }

/-- Burin 0. -/
def bur0 : Engine := .bur 0

/-- The word at thread 1 of Burin 0 may execute. -/
def runs (seq : Nat) (s : State) : Bool :=
  hasTurn 0 true s && decide (mSeq (wordAt 0 true s) = seq)
  && decide (wordFault (wordAt 0 true s) (thrOf 0 true s) = 0) && !wordBlocked 0 true (wordAt 0 true s) s

/-- A job of channel 1. -/
def job : Job :=
  { kind := 0, profile := 15, channel := 1, die := 32, tag := none, planes := 1, cwFirst := 0, cwLast := 3,
    slc := false, key := ⟨0, 0⟩ }

/-- A Graver job. -/
def gravJob : GravJob := { id := 1000000, job := { job with kind := 6 } }

theorem witness_WordsGoOn :
    (∀ q ∈ [0, 1, 3, 4, 5, 6], runs q (engine (word [(0, q), (3, 4095)]) go) = true)
    ∧ mSafe (wordAt 0 true (engine (word [(0, 6), (3, 4095)]) go)) = false
    ∧ endsHandler (thrOf 0 true (wordActs 0 true (engine (word [(0, 4)]) go))) = false
    ∧ (thrOf 0 true (wordActs 0 true (engine (word [(0, 4)]) go))).stack = [7]
    ∧ condTrue 0 true 0 up = true ∧ condTrue 0 true 47 up = false := by decide +kernel

theorem witness_HaltAndDispatch :
    let d := word [(0, 2)]
    let s := engine d { go with stopping := true }
    let n := engine d go
    let j := engine d { go with offered := some job }
    let i := engine d { go with state := .idle }
    let o := engine d { go with state := .idle, offered := some job }
    let a := engine d { go with abortPend := true, stack := List.replicate 8 0 }
    let p := engine d { go with preemptPend := [job], handler := some 14 }
    let q := modDie 32 (fun x => { x with state := .suspReq }) (engine d { go with stack := List.replicate 7 0 })
    let f := modDie 32 (fun x => { x with state := .suspReq }) (engine d { go with stack := List.replicate 8 0 })
    let h := engine d { go with preemptPend := [job], handler := some 15 }
    runs 7 (engine (word [(0, 7)]) go) = true ∧ bur0.num ≠ 64
    ∧ (∀ x ∈ [s, n, j], runs 2 x = true ∧ (thrOf 0 true x).state = .run
      ∧ (thrOf 0 true (wordActs 0 true x)).handler = none ∧ reqAny 0 true (wordActs 0 true x) = false)
    ∧ (thrOf 0 true (wordActs 0 true s)).stopping = true ∧ (thrOf 0 true (wordActs 0 true n)).stopping = false
    ∧ (thrOf 0 true (wordActs 0 true n)).offered = none
    ∧ (thrOf 0 true (wordActs 0 true j)).stopping = false
    ∧ (thrOf 0 true (wordActs 0 true j)).offered = some job
    ∧ (thrOf 0 true i).state = .idle ∧ reqAny 0 true i = false ∧ (thrOf 0 true i).offered = none
    ∧ ((thrOf 0 true o).state = .idle ∧ reqAny 0 true o = false ∧ (thrOf 0 true o).offered = some job
      ∧ pageAnswers (enginePage 0) o = true ∧ o.pwr.state ≠ .doze ∧ (thrOf 0 true o).stopping = false)
    ∧ (∀ x ∈ [a, p, q], runs 2 x = true ∧ reqAny 0 true (wordActs 0 true x) = true
      ∧ ((thrOf 0 true (wordActs 0 true x)).handler = none ∨ (thrOf 0 true (wordActs 0 true x)).handler = some 14)
      ∧ ((thrOf 0 true (wordActs 0 true x)).abortPend = true ∨ (thrOf 0 true (wordActs 0 true x)).stack.length < 8))
    ∧ (runs 2 f = true ∧ (thrOf 0 true (wordActs 0 true f)).abortPend = false
      ∧ 8 ≤ (thrOf 0 true (wordActs 0 true f)).stack.length)
    ∧ (runs 2 h = true ∧ (thrOf 0 true (wordActs 0 true h)).handler = some 15)
    ∧ (let y := graver { go with state := .idle, offered := some job } []
      (thrOf 64 true y).state = .idle ∧ pageAnswers (enginePage 64) y = true ∧ y.pwr.state ≠ .doze
      ∧ (thrOf 64 true y).stopping = false ∧ reqAny 64 true y = false ∧ (thrOf 64 true y).offered = some job
      ∧ (thrOf 64 true y).job = none) := by decide +kernel

/-- The Graver's word is of its ROM: with DISPATCH there, it runs, with and without a job to take. -/
theorem witness_HaltAndDispatch_graver (h : Config.romWord true 4095 = BitVec.ofNat 128 (word [(0, 2)])) :
    ∀ x ∈ [graver go [], graver go [gravJob]], wordRuns 2 64 true x
      ∧ (thrOf 64 true (wordActs 64 true x)).stopping = false ∧ (thrOf 64 true (wordActs 64 true x)).job = none
      ∧ reqAny 64 true (wordActs 64 true x) = false
      ∧ gravNext x.eng.grvQueue (wordActs 64 true x) = x.eng.grvQueue.head? := by
  have e : ∀ x ∈ [graver go [], graver go [gravJob]], wordAt 64 true x = word [(0, 2)] := by
    intro x hx
    have : wordAt 64 true x = (Config.romWord true 4095).toNat := by
      simp only [List.mem_cons, List.not_mem_nil, or_false] at hx
      rcases hx with rfl | rfl <;> rfl
    rw [this, h]
    decide +kernel
  intro x hx
  unfold wordRuns wordActs
  rw [e x hx]
  revert x hx
  decide +kernel

theorem witness_WordsThatDoNotRun :
    let f := engine (word [(0, 7), (92, 1)]) go
    let b := engine (word [(0, 7), (37, 5)]) { go with cmdq := List.replicate 8 { act := 5, arg := 0, dp := 0, cycles := [] } }
    (thrOf 0 true up).state ≠ .idle ∧ hasTurn 0 true up = false
    ∧ (hasTurn 0 true (engine (word [(0, 6)]) go) = true ∧ mSeq (wordAt 0 true (engine (word [(0, 6)]) go)) ≠ 7)
    ∧ (hasTurn 0 true f = true ∧ mSeq (wordAt 0 true f) = 7 ∧ wordFault (wordAt 0 true f) (thrOf 0 true f) = 2
      ∧ (engOf 0 f).fault.getLsbD 31 = false)
    ∧ (engOf 0 (modEng 0 (fun x => { x with fault := 0x90000000 }) f)).fault.getLsbD 31 = true
    ∧ (hasTurn 0 true b = true ∧ mSeq (wordAt 0 true b) = 7 ∧ wordFault (wordAt 0 true b) (thrOf 0 true b) = 0
      ∧ wordBlocked 0 true (wordAt 0 true b) b = true) := by decide +kernel

theorem witness_WordFieldsAct :
    let full : Thread := { go with stack := List.replicate 8 0 }
    let pl := engine 0 { go with job := some { job with planes := 8 } }
    let ld := engine 0 { go with job := some { job with tag := some 65535 } }
    let q := engine 0 { go with cmdq := [{ act := 5, arg := 0, dp := 0, cycles := [] }] }
    wordOdd 0 = false ∧ (wordOdd (word [(15, 24)]) = true ∧ wordReserved (word [(15, 24)]) = true)
    ∧ (wordOdd (word [(0, 3)]) = true ∧ wordReserved (word [(0, 3)]) = false ∧ mSeq (word [(0, 3)]) = 3
      ∧ 8 ≤ full.stack.length)
    ∧ (wordOdd (word [(0, 4)]) = true ∧ wordReserved (word [(0, 4)]) = false ∧ mSeq (word [(0, 4)]) = 4)
    ∧ (mAct (word [(37, 15)]) = 15 ∧ mAct 0 = 0) ∧ (mCount (word [(41, 32767)]) ≠ 0 ∧ thrFifo 63 true up = [])
    ∧ (mAnchor (word [(41, 1), (56, 1)]) = true ∧ mCount (word [(41, 1), (56, 1)]) ≠ 0 ∧ thrFifo 0 true q ≠ [])
    ∧ busFree (2 * 63 + bit true) up = true ∧ nextPlane (thrOf 0 true pl) = some 3
    ∧ (curJob (thrOf 0 true ld)).bind (·.tag) ≠ none
    ∧ mReport (word [(59, 1)]) = 1 ∧ mReport (word [(59, 3)]) = 3
    ∧ ∀ k ∈ [1, 2, 3, 4, 6, 7], mImmOp (word [(71, k * 4096 + 4095)]) = k := by decide +kernel

theorem witness_RequestsRanked :
    let h := engine 0 { go with handler := some 15 }
    let a := engine 0 { go with abortPend := true, preemptPend := [job] }
    let f := engine 0 { go with stack := List.replicate 8 0 }
    let p := engine 0 { go with preemptPend := [job], stack := List.replicate 7 0 }
    let q := modDie 32 (fun x => { x with state := .suspReq }) (engine 0 go)
    (thrOf 0 true h).handler ≠ none
    ∧ (∀ x ∈ [a, f, p, q, engine 0 go], (thrOf 0 true x).handler = none)
    ∧ (thrOf 0 true a).abortPend = true ∧ (thrOf 0 true f).abortPend = false ∧ 8 ≤ (thrOf 0 true f).stack.length
    ∧ ((thrOf 0 true p).abortPend = false ∧ (thrOf 0 true p).stack.length < 8
      ∧ (thrOf 0 true p).preemptPend = job :: [])
    ∧ (∀ x ∈ [q, engine 0 go], (thrOf 0 true x).abortPend = false ∧ (thrOf 0 true x).stack.length < 8
      ∧ (thrOf 0 true x).preemptPend = [])
    ∧ suspWanted 1 q = some 32 ∧ suspWanted 1 (engine 0 go) = none := by decide +kernel

theorem witness_JobsTimersAndDispatchTable :
    let n := engine 0 go
    let w := engine 0 { go with waiting := [job, job] }
    let g := fun (q : List GravJob) => setThr 64 true go { up with eng := { up.eng with grvQueue := q } }
    let a : GravJob := ⟨1000000, job⟩
    let b : GravJob := ⟨1000001, { job with kind := 7 }⟩
    (thrOf 0 true up).state = .held
    ∧ (∀ x ∈ [n, w], (thrOf 0 true x).offered = none ∧ alive (thrOf 0 true x) = true
      ∧ pageAnswers (enginePage 0) x = true)
    ∧ (thrOf 0 true n).waiting = [] ∧ (thrOf 0 true w).waiting = job :: [job]
    ∧ (∀ q ∈ [[], [a], [b, a]], (thrOf 64 true (g q)).offered = none ∧ alive (thrOf 64 true (g q)) = true
      ∧ pageAnswers (enginePage 64) (g q) = true ∧ bootRuns (g q) = false ∧ (g q).eng.grvQueue = q)
    ∧ gravNext [] (g []) = none ∧ gravNext [b, a] (g [b, a]) = some b
    ∧ (let x := setThr 64 true { go with state := .idle } (g [b, a])
      (thrOf 64 true x).state = .idle ∧ gravNext x.eng.grvQueue x = some b)
    ∧ (thrOf 0 true (engine 0 { go with timer := some 500 })).timer = some 500
    ∧ (engine 0 { go with timer := some 501 }).cc < 501 ∧ (thrOf 0 true n).timer = none := by decide +kernel

/-! ### Codewords and their decoders -/

theorem witness_EncodedCodewordDecodes :
    (List.replicate 4096 (0xFF : Byte)).length = 4096 ∧ 2 ^ 40 - 1 < 2 ^ 40 ∧ 3 < 4 := by decide +kernel

/-- Die 0 is an override die that is not scrambled. -/
def clear0 (s : State) : State := setReg .dpt (oDptSeedOvr : Nat) 1 (setReg .dpt oDptSeedCfg 1 s)

theorem witness_ScramblingIsItsOwnInverse : unscrambled 0 (clear0 up) = true := by decide +kernel

/-- A data-out of codeword 3 of plane 3 from die 0 to tag 65,535. -/
def xferOut : Xfer :=
  { id := 65535, die := 0, plane := 3, kind := 0, cws := [3], len := 4000, ready := 0, cls := 2, key := ⟨0, 0⟩,
    order := 0 }

/-- That codeword in staging. -/
def stagedCw (b : List Byte) : Cw :=
  { id := 65535, die := 0, block := 16383, page := 4095, plane := 3, idx := 3, bytes := b }

/-- A READ of it by tag 65,535. -/
def reading (s : State) : State :=
  let t := setTag 65535 { state := .issued, entry := ent 0x01 0 0 0 0, todo := [{ plane := 3, idx := 3 }] } (able s)
  onBus (.transfer xferOut) { t with dpt := { t.dpt with cws := [stagedCw [1]] } }

theorem witness_CodewordJudgedOnArrival :
    let s := setReg .ecc (oEccErasedThr : Nat) 0 (reading up)
    let k := keyByte (cwSeed (seedConst 0 s) 16383 4095 3)
    let off := setHdr .ecc {} s
    let two := setStage 0 [(65535, 0, 3, 3), (65535, 0, 3, 3)] (clear0 s)
    (chanOf (127 : ChnId).toNat up).act = none
    ∧ (∀ y ∈ [s, clear0 s, off, two], (chanOf (0 : ChnId).toNat y).act = some (.transfer xferOut, 0)
      ∧ cwAt 65535 0 3 3 y = some (stagedCw [1]) ∧ rawJob 65535 y = false ∧ bootRead 65535 y = false
      ∧ bitAt (dpOf 0 (stagedCw [1]) y) 5 = false ∧ bitAt (dpOf 0 (stagedCw [1]) y) 9 = true
      ∧ bitAt (dpOf 0 (stagedCw [1]) y) 11 = true ∧ bitAt (dpOf 0 (stagedCw [1]) y) 6 = true
      ∧ idOp 65535 y ≠ opCalibrate ∧ (tagOf 65535 y).state = .issued)
    ∧ (isJob 65535 = false ∧ (stagedCw [1]).member = false ∧ xferOut.cws = 3 :: [] ∧ xferOut.kind ≠ 1)
    ∧ (pageActive .ecc off = false ∧ pageActive .ecc s = true ∧ pageActive .ecc (clear0 s) = true)
    ∧ (pageActive .ecc two = true ∧ 2 ≤ (stageOf 0 two).length ∧ (stageOf 0 s).length < 2
      ∧ syndromeZero (pfCodeB (dieProf 0 two) two) (scrambleAt 0 16383 4095 3 [1] two) = false)
    ∧ (zerosOf [0xFF] ≤ regFld .ecc oEccErasedThr 0 13 s ∧ (stagedCw [1]).rung = 0)
    ∧ (regFld .ecc oEccErasedThr 0 13 s < zerosOf [1]
      ∧ syndromeZero (pfCodeB (dieProf 0 (clear0 s)) (clear0 s))
          (scrambleAt 0 16383 4095 3 [1] (clear0 s)) = false) ∧ k ≠ 0xFF := by decide +kernel

theorem witness_CodewordJudgedOnArrival_decoded :
    let s := setReg .ecc (oEccErasedThr : Nat) 0 (reading up)
    let k := keyByte (cwSeed (seedConst 0 s) 16383 4095 3)
    let o := clear0 s
    dpOf 0 (stagedCw [1]) s = (stagedCw [1]).dp ∧ dpOf 0 (stagedCw [1]) o = (stagedCw [1]).dp
    ∧ (regFld .ecc oEccErasedThr 0 13 s < zerosOf [k] ∧ scrambleAt 0 16383 4095 3 [k] s = [0]
      ∧ syndromeZero (pfCodeB (dieProf 0 s) s) [0] = true ∧ checkDecoded (stagedCw [1]) [0] .clean s = .echoBad)
    ∧ (regFld .ecc oEccErasedThr 0 13 o < zerosOf [0] ∧ scrambleAt 0 16383 4095 3 [0] o = [0]
      ∧ syndromeZero (pfCodeB (dieProf 0 o) o) [0] = true ∧ checkDecoded (stagedCw [1]) [0] .clean o = .clean
      ∧ (tagOf 65535 o).todo = [{ plane := 3, idx := 3 }] ∧ eOpcode (tagOf 65535 o).entry = opRead
      ∧ (readStaged 65535 (15 * 256) ((stagedCw [1]).gRead + (stagedCw [1]).gAcc)
          (clearStaged 65535 (15 * 256) (cwGran 0 o) o)).2 = false) := by decide +kernel

/-- That codeword at the head of channel 0's correction stage. -/
def correcting (s : State) : State := setStage 0 [(65535, 0, 3, 3)] (reading s)

theorem witness_HardCorrectionEnds :
    let s := correcting up
    let o := clear0 s
    stageOf (127 : ChnId).toNat up = []
    ∧ (stageOf 0 (setHdr .ecc {} s) = (65535, 0, 3, 3) :: [] ∧ pageActive .ecc (setHdr .ecc {} s) = false
      ∧ bootRead 65535 (setHdr .ecc {} s) = false)
    ∧ (pageActive .ecc s = true ∧ pageActive .ecc o = true ∧ bitAt (stagedCw [1]).dp 6 = true)
    ∧ (∀ y ∈ [s, o], stageOf (0 : ChnId).toNat y = (65535, 0, 3, 3) :: [] ∧ cwAt 65535 0 3 3 y = some (stagedCw [1])
      ∧ idOp 65535 y ≠ opCalibrate ∧ (tagOf 65535 y).state = .issued)
    ∧ (syndromeZero (pfCodeB (dieProf 0 o) o) (flipBits [1] [0]) = true
      ∧ checkDecoded (stagedCw [1]) (flipBits [1] [0]) .corrected o = .corrected
      ∧ (tagOf 65535 o).todo = [{ plane := 3, idx := 3 }]
      ∧ (readStaged 65535 (15 * 256) ((stagedCw [1]).gRead + (stagedCw [1]).gAcc) o).2 = false)
    ∧ (syndromeZero (pfCodeB (dieProf 0 s) s) (flipBits [1] [0]) = true
      ∧ checkDecoded (stagedCw [1]) (flipBits [1] [0]) .corrected s = .echoBad)
    ∧ syndromeZero (pfCodeB (dieProf 0 s) s) (flipBits [1] []) = false := by decide +kernel

theorem witness_HardCorrectionEnds_more_to_judge :
    let s := correcting up
    let t := modTag 65535 (fun x => { x with todo := [{ plane := 3, idx := 2 }, { plane := 3, idx := 3 }] })
      { s with dpt := { s.dpt with cws := [{ stagedCw [] with idx := 2 }, stagedCw [1]] } }
    let u := setOut 65535 0 3 3 [1] .failed 0 (bump .ecc 2 (setStage 0 [] t))
    cwAt 65535 0 3 3 t = some (stagedCw [1]) ∧ pageActive .ecc t = true ∧ (tagOf 65535 t).todo ≠ []
    ∧ softRung (tagOf 65535 t).rung = false
    ∧ ((todoRows 65535 u).any fun c => decide (c.out = .none ∨ c.out = .clean ∨ c.out = .corrected)) = true := by decide +kernel

/-- A request of the soft pool for it. -/
def softReq0 : SoftReq :=
  { id := 65535, plane := 3, idx := 3, key := ⟨0, 0⟩, cls := 2, order := 0, channel := 0, iters := 1, codeB := true }

theorem witness_SoftPoolServes :
    let s := setReg .ecc (oEccSoftEn : Nat) 0xFFFFFFFF { up with ecc := { up.ecc with queue := [softReq0] } }
    let d := setSoft 31 (some { req := softReq0, since := 0, dropped := true }) up
    let r := setSoft 31 (some { req := softReq0, since := 0 }) (clear0 (reading up))
    let off := setHdr .ecc {} r
    (softOf (31 : BitVec 5).toNat off = some { req := softReq0, since := 0 } ∧ pageActive .ecc off = false
      ∧ bootRead 65535 off = false)
    ∧ pageActive .ecc r = true ∧ bitAt (stagedCw [1]).dp 6 = true
    ∧ softPick up = none ∧ softFree (31 : BitVec 5).toNat d = false
    ∧ (softPick s = some softReq0 ∧ softFree (31 : BitVec 5).toNat s = true ∧ pageActive .ecc s = true)
    ∧ softOf (31 : BitVec 5).toNat up = none
    ∧ (softOf (31 : BitVec 5).toNat d = some { req := softReq0, since := 0, dropped := true })
    ∧ (softOf (31 : BitVec 5).toNat r = some { req := softReq0, since := 0 }
      ∧ cwAt 65535 (paDie (ePaddr (tagOf 65535 r).entry)) 3 3 r = some (stagedCw [1])
      ∧ syndromeZero true (flipBits [1] [0]) = true
      ∧ checkDecoded (stagedCw [1]) (flipBits [1] [0]) .corrected r = .corrected
      ∧ (tagOf 65535 r).todo = [{ plane := 3, idx := 3 }]
      ∧ (readStaged 65535 (15 * 256) (stagedCw [1]).gRead r).2 = false) := by decide +kernel

/-- The two pages of a PROGRAM's data that staging holds. -/
def twoPages : ProgBuf := { id := 65535, granules := 1160, early := false }

/-- A PROGRAM whose third page waits for staging. -/
def fetching (res : Nat) : State :=
  let s := setTag 65535 { state := .queued, entry := ent 0x08 0 0x1000 0 0, fetchWait := true, dataLeft := 16384 }
    (serving up)
  setReg .dpt (oDptReadRes : Nat) res { s with dpt := { s.dpt with progs := [twoPages] } }

theorem witness_WaitingFetchesJudgedAgain :
    let a := fetching 0
    let n := fetching 524288
    let g := pageGran 0 a
    fetchWaiters up = [] ∧ (∀ y ∈ [a, n, setHdr .ecc {} a], fetchWaiters y = [65535] ∧ progOf 65535 y = some twoPages
      ∧ (tagOf 65535 y).pageWait = none ∧ (tagOf 65535 y).dataLeft ≠ 0
      ∧ eOpcode (tagOf 65535 y).entry ≠ opStage ∧ isJob 65535 = false)
    ∧ pageActive .ecc (setHdr .ecc {} a) = false ∧ pageActive .ecc n = true
    ∧ grantOther (pageGran 0 n) n = false
    ∧ (grantOther g a = true ∧ pageActive .dpt a = true ∧ pageActive .ecc a = true
      ∧ 1160 / max 1 g + 1 = progPages (tagOf 65535 a).entry a) := by decide +kernel

theorem witness_WaitingFetchesJudgedAgain_nothing_to_encode : ∀ k, (some twoPages).bind (toEncode k) = none :=
  fun _ => rfl

/-! ### Channels and the peer link -/

/-- The peer-strapped block with channel 0 in an ownership state. -/
def own (x : Chan) : State := setChan 0 x { up with pins := { up.pins with strapPeer := 1 }, cc := 100000 }

/-- A driven OWNED channel. -/
def owned : Chan := { own := .owned, driven := true }

theorem witness_ContentionIsACollision :
    let w := own owned
    let b := own { owned with own := .takeover, ownSince := 99997 }
    let e := own { owned with early := some 0x10000 }
    watched (127 : ChnId).toNat up = false
    ∧ (watched (0 : ChnId).toNat w = true ∧ (0x1FFFF : BitVec 17) ≠ 0 ∧ blanked 0 w = false ∧ pairHit 0 w = false
      ∧ (chanOf 0 w).early = none)
    ∧ (watched (0 : ChnId).toNat b = true ∧ blanked 0 b = true)
    ∧ pairHit 0 (setChan 1 { own := .backoff } w) = true
    ∧ (watched (0 : ChnId).toNat e = true ∧ (chanOf 0 e).early ≠ none ∧ blanked 0 e = false) := by decide +kernel

theorem witness_CalibrationAndTraining :
    let r := setReg (chnPage 0) oChnRetrain (1 : Nat) (own { owned with retrainCount := 0 })
    (groupReleased (7 : GroupId).toNat up = true ∧ corePowered up = true ∧ up.pwr.state ≠ .doze
      ∧ up.pwr.state ≠ .waking ∧ (groupOf 7 up).zqDue ≤ up.cc)
    ∧ ({ up with pwr := { up.pwr with state := .waking } } : State).pwr.state = .waking
    ∧ (let z := own { owned with zqPend := true, freeAt := 0 }
      (z.chn.map (·.1)).Nodup ∧ (chanOf 0 z).zqPend = true ∧ busFree 0 z = true
      ∧ (chanOf 0 z).freeAt + phyCc 8 ≤ z.cc)
    ∧ ({ up with pwr := { up.pwr with state := .doze } } : State).pwr.state = .doze
    ∧ retrainDue (0 : ChnId).toNat up = false ∧ retrainDue (0 : ChnId).toNat r = true
    ∧ (pageAnswers (.chn 0) r = true ∧ pageActive (.chn 0) r = true ∧ (chanOf 0 r).own = .owned) := by decide +kernel

theorem witness_OwnershipCommands :
    let f := own { own := .foreign, shared := true }
    let h := own { own := .halted }
    (∀ y ∈ [f, h, own owned], pageAnswers (.chn 0) y = true ∧ pageActive (.chn 0) y = true)
    ∧ (pageAnswers (.chn 127) up = true ∧ pageActive (.chn 127) up = false)
    ∧ ((chanOf (0 : ChnId).toNat f).own = .foreign ∧ (chanOf 0 f).shared = true)
    ∧ ((chanOf (0 : ChnId).toNat h).own = .halted ∧ (chanOf 0 h).shared = false)
    ∧ (chanOf (0 : ChnId).toNat (own owned)).own = .owned := by decide +kernel

theorem witness_OwnershipStatesEnd :
    let t := own { own := .claiming, ownSince := 0 }
    let s := setReg .peer (oPeerCfg : Nat) 1 t
    let b := fun (sh : Bool) => own { own := .backoff, ownSince := 76000, shared := sh }
    let d := own { owned with own := .takeover, takeLost := true }
    (chanOf (0 : ChnId).toNat up).own = .foreign
    ∧ ((chanOf 0 s).own = .claiming ∧ (chanOf 0 s).ownSince + usCc (regFld .peer oPeerCfg 0 16 s) ≤ s.cc)
    ∧ (∀ sh ∈ [true, false], (chanOf 0 (b sh)).own = .backoff ∧ (chanOf 0 (b sh)).ownSince + usCc 16 ≤ (b sh).cc
      ∧ (chanOf 0 (b sh)).shared = sh)
    ∧ ((chanOf 0 d).own = .takeover ∧ (chanOf 0 d).take = none ∧ busFree 0 d = true
      ∧ (chanOf 0 d).takeLost = true ∧ lostLeft 0 d = false) := by decide +kernel

/-- A channel in RELEASING. -/
def leaving (k : RelKind) (busy : Bool) : State :=
  own { owned with own := .releasing, rel := some k, shared := true, ownSince := 99000,
                   act := if busy then some (.statusPoll 0, 99000) else none }

theorem witness_ReleaseCompletes :
    let x := own { owned with disabling := true }
    let a := setDie 0 { run := some (dieOp .erase 65535 true), state := .erase } x
    ((chanOf (0 : ChnId).toNat a).disabling = true ∧ arrayOn 0 a = true) ∧ arrayOn 0 x = false
    ∧ ((chanOf 0 (own owned)).disabling = false ∧ (chanOf 0 (own owned)).own ≠ .releasing)
    ∧ (∀ k ∈ [RelKind.command, .yielded 15, .forcedClaim 15, .forcedInfo], ∀ b ∈ [true, false],
      let s := leaving k b
      (chanOf 0 s).disabling = false ∧ (chanOf 0 s).own = .releasing ∧ (chanOf 0 s).rel = some k
      ∧ (b = true → busFree 0 s = false ∧ s.cc < (chanOf 0 s).ownSince + 8850)
      ∧ (b = false → arrayOn 0 s = false ∧ busFree 0 s = true)
      ∧ s.peer.txq.length < 16 ∧ pageActive .peer s = true ∧ s.peer.freshAt ≠ s.cc) := by decide +kernel

theorem witness_MessagesCarryFieldsAndCrc : 15 < 16 ∧ 3 < 4 ∧ 2 ^ 32 - 1 < 2 ^ 32 := by decide +kernel

theorem witness_BadMessagesDiscarded :
    let m := mkMsg 1 15 3 0xFFFFFFFF true true true
    linkOn up = false ∧ linkOn (own owned) = true ∧ crcGoodMsg (m ^^^ 1) = false
    ∧ (crcGoodMsg m = true ∧ msgType m = 1) ∧ msgType (mkMsg 6 0 0 0 false false false) = 6 := by decide +kernel

theorem witness_ClaimReceived :
    let m := mkMsg 1 15 0 1 false false false
    let s := fun (o : Own) => own { own := o, shared := true, driven := true }
    (∀ o ∈ [Own.foreign, .claiming, .backoff, .owned], linkOn (s o) = true ∧ namedChans m (s o) = [0]
      ∧ (chanOf 0 (s o)).own = o ∧ (s o).peer.txq.length < 16 ∧ (s o).peer.freshAt ≠ (s o).cc)
    ∧ (crcGoodMsg m = true ∧ msgType m = 1 ∧ msgForce m = false) ∧ seniorOn 0 (s .claiming) = true
    ∧ seniorOn 0 { s .claiming with pins := { up.pins with strapPeer := 2 } } = false
    ∧ yieldBit 0 (s .owned) = false ∧ msgForce (mkMsg 1 15 0 1 true false false) = true := by decide +kernel

theorem witness_GrantAndReleaseReceived :
    let s := fun (o : Own) => own { own := o, shared := true, appointed := 0xFF }
    (∀ x ∈ [(2, true), (2, false), (3, true)],
      let m := mkMsg x.1 0 0 1 false true x.2
      linkOn (s .claiming) = true ∧ crcGoodMsg m = true ∧ msgType m = x.1 ∧ namedChans m (s .claiming) = [0]
      ∧ msgGranted m = x.2 ∧ msgClean m = true)
    ∧ (chanOf 0 (s .claiming)).own = .claiming
    ∧ ((chanOf 0 (s .foreign)).own = .foreign ∧ pageActive (chnPage 0) (s .foreign) = true
      ∧ namedChans (mkMsg 3 0 0 1 false true true) (s .foreign) = [0]) := by decide +kernel

theorem witness_InfoAndNoticeReceived :
    let s := fun (o : Own) => own { own := o, shared := true, driven := true }
    (∀ t ∈ [4, 5], let m := mkMsg t 0 0 1 false false false
      linkOn (s .owned) = true ∧ crcGoodMsg m = true ∧ msgType m = t ∧ namedChans m (s .owned) = [0])
    ∧ (chanOf 0 (s .owned)).own = .owned ∧ seniorOn 0 (s .owned) = true
    ∧ seniorOn 0 { s .owned with pins := { up.pins with strapPeer := 2 } } = false
    ∧ ((msgMask (mkMsg 4 0 0 2 false false false)).testBit 0 = false ∧ shared 0 (s .foreign) = true
      ∧ (chanOf 0 (s .foreign)).own = .foreign ∧ pageActive (chnPage 0) (s .foreign) = true)
    ∧ noticeTakes 0 (s .owned) = true
    ∧ (linkOn (s .releasing) = true ∧ namedChans (mkMsg 4 0 0 1 false false false) (s .releasing) = [0]
      ∧ (chanOf 0 (s .releasing)).own = .releasing)
    ∧ (chanOf 0 (s .takeover)).own = .takeover := by decide +kernel

/-- Messages that wait to be sent. -/
def toSend (l : List Word64) : State := { own owned with peer := { up.peer with txq := l } }

theorem witness_MessagesSent :
    let a : Word64 := 0x4000000000010050
    let g : Word64 := 0x20000000000103bd
    let b : Word64 := 0x1100000000010019
    let s := toSend [a, g, b]
    let h := setReg .peer (oPeerCfg : Nat) 0x10000 (own owned)
    linkOn up = false ∧ (toSend []).peer.txq = []
    ∧ (linkOn s = true ∧ s.peer.linkFree ≤ s.cc ∧ s.peer.txq = [a] ++ g :: [b]
      ∧ [a, g, b].map msgRank = [3, 1, 2] ∧ msgType g = 2 ∧ msgGranted g = true)
    ∧ (linkOn h = true ∧ regFld .peer oPeerCfg 16 8 h ≠ 0 ∧ h.peer.infoDue ≤ h.cc) := by decide +kernel

/-- The state of the heartbeat. -/
def beating (lost : Bool) (n last : Nat) : State :=
  { own { own := .claiming, shared := true } with peer := { up.peer with lost := lost, edges := n, lastEdge := some last } }

theorem witness_HeartbeatAndLoss :
    let b := beating false 3 99000
    let r := beating true 7 98500
    let g := beating false 3 95500
    (corePowered b = true ∧ groupReleased 0 b = true ∧ b.peer.hbAt + nsCc 500 ≤ b.cc)
    ∧ up.cc < up.peer.hbAt + nsCc 500 ∧ peerStrapped up = false
    ∧ (stepReleased 1 b = true ∧ peerStrapped b = true ∧ b.peer.lost = false)
    ∧ (corePowered r = true ∧ stepReleased 1 r = true ∧ peerStrapped r = true ∧ pageActive .peer r = true
      ∧ r.peer.lost = true ∧ min 8 (edgeRun r) = 8)
    ∧ (linkOn b = true ∧ hbGone b = false)
    ∧ (linkOn g = true ∧ g.peer.lost = false ∧ hbGone g = true ∧ lostChans g = [0] ∧ g.peer.txq.length < 16
      ∧ g.peer.freshAt ≠ g.cc ∧ g.sec.boot ≠ .railWait)
    ∧ (chanOf 0 (leaving .command false)).own = .releasing := by decide +kernel

/-! ### Read levels -/

theorem witness_LevelLoadAndLock :
    let b : State := { up with lvl := { up.lvl with loadBusy := true } }
    let l : State := { up with lvl := { up.lvl with locked := true } }
    (pageAnswers .lvl b = true ∧ b.lvl.loadBusy = true)
    ∧ (pageAnswers .lvl l = true ∧ l.lvl.loadBusy = false ∧ l.lvl.locked = true)
    ∧ (pageAnswers .lvl up = true ∧ up.lvl.loadBusy = false ∧ up.lvl.locked = false) := by decide +kernel

/-- Die 0 stands quiet on a channel that may run, and a sample of it is due. -/
def tempReady : State := setReg .lvl oLvlTempCfg (1 : Nat) (die0 {})

theorem witness_TemperatureSampled :
    tempDue (4095 : DieId).toNat up = false
    ∧ (tempDue (0 : DieId).toNat tempReady = true ∧ dieQuiet 0 tempReady = true ∧ outPending 0 tempReady = false
      ∧ mayStart 0 tempReady = true ∧ burinDrives 0 tempReady = true ∧ tempReady.pwr.state ≠ .doze
      ∧ busTakes 0 (.feature 0) tempReady = true) := by decide +kernel

/-! ### The disk stream port -/

/-- A sector of tag 65,535 in wedge 2, not resolved. -/
def rec0 : Rec :=
  { tag := 65535, sector := 65535, pos := 0, wedge := 2, order := 0, head := 31, track := 0xFFFFFF, zone := 0,
    size := 4096 }

/-- A DESTAGE of wedge 2 on port 0, issued. -/
def destage (o : Nat) : TagRow :=
  { state := .issued, entry := ⟨0, 0, [BitVec.ofNat 32 (2 ^ 31 + o * 2 ^ 16), 0, 0, 0, 0, 0, 0, 0, 0, 0, 0x7C000200,
                                       0xFFFF0001, 0, 0, 0, 0]⟩ }

/-- Port 0 in some state, with that tag, well after reset. -/
def port (d : Dsp) : State := setTag 65535 (destage 0x10) (setDsp 0 d { up with cc := 100000 })

theorem witness_DestageResolved :
    let b := port { recs := [rec0] }
    let s : State := { b with tmb := { b.tmb with frame := 255 } }
    let h : State := { s with tmb := { s.tmb with state := .hold } }
    (dspOf 0 up).recs = [] ∧ (dspOf 1 up).recs = [] ∧ (0 : ActId) ≠ 1
    ∧ (resolveDue 0 (65535 : TagId).toNat s = [rec0] ∧ resolveDue 1 (65535 : TagId).toNat s = []
      ∧ syncValid 0 s = true)
    ∧ (resolveDue 0 (65535 : TagId).toNat h = [rec0] ∧ resolveDue 1 (65535 : TagId).toNat h = []
      ∧ syncValid 0 h = false ∧ bitAt (regOf (dspPage 0) oDspConfig h) 16 = false ∧ tagOpen 65535 h = true
      ∧ rec0.dead = false) := by decide +kernel

theorem witness_WedgeDecisionTaken :
    let s := port { frames := [(7, 0), (8, 1)] }
    let w := port { frames := [(7, 100000)] }
    (dspOf (1 : ActId).toNat up).frames = []
    ∧ ((dspOf (0 : ActId).toNat s).frames = (7, 0) :: [(8, 1)] ∧ decisionOf 0 7 0 s = some none
      ∧ (0 : ActId).toNat = refAct s)
    ∧ ((dspOf (0 : ActId).toNat w).frames = (7, 100000) :: [] ∧ decisionOf 0 7 100000 w = none) := by decide +kernel

/-- The sector resolved, in frame 7, whose decision is due with a sample. -/
def sectorReleasing (p : BitVec 44) (dead full : Bool) : State :=
  port { frames := [(7, 0)], ticks := [{ frame := 7, tau := 0, at_ := 2, sample := some p }],
         recs := [{ rec0 with frame := some 7, dead := dead }],
         slots := [{ tag := 65535, idx := 0, data := if full then some [] else none }] }

/-- The sample of head 31, track 0xFFFFFF (Gray 0x800000), wedge 2. -/
def onTrack : BitVec 44 := BitVec.ofNat 44 (2 ^ 41 + 31 * 2 ^ 36 + 0x800000 * 2 ^ 12 + 2)

theorem witness_SectorReleasedOrHeld :
    let r : Rec := { rec0 with frame := some 7 }
    (∀ x ∈ [(true, false), (false, false), (false, true)],
      let s := sectorReleasing onTrack x.1 x.2
      (0 : ActId).toNat = refAct s ∧ (dspOf 0 s).frames = (7, 0) :: [] ∧ decisionOf 0 7 0 s = some (some onTrack)
      ∧ (dspOf 0 s).open_ = none ∧ (dspOf 0 s).tx = .none ∧ (dspOf 0 s).armed = []
      ∧ nextRec 0 s = some { r with dead := x.1 })
    ∧ holdCheck 0 r (some onTrack) (sectorReleasing onTrack false false) = 5
    ∧ holdCheck 0 r (some onTrack) (sectorReleasing onTrack false true) = 0
    ∧ bitAt (regOf (dspPage 0) oDspConfig (sectorReleasing onTrack false false)) 16 = false
    ∧ tagOpen 65535 (sectorReleasing onTrack false false) = true := by decide +kernel

/-- The sector open at a byte. -/
def sending (done upTo : Nat) : State :=
  port { tx := .data, open_ := some { rec_ := rec0, done := done, upTo := upTo, nextWedge := 3, nextFrame := 8 } }

/-- The same after the commitment of its tag. -/
def closing (done : Nat) : State :=
  port { tx := .data, open_ := some { rec_ := rec0, done := done, upTo := 4096, nextWedge := 3, nextFrame := 8,
                                      closing := true } }

theorem witness_BeatsAccepted :
    let k := port { tx := .skip }
    (dspOf (1 : ActId).toNat up).tx = .none
    ∧ ((dspOf (0 : ActId).toNat k).tx = .skip ∧ nextRec 0 k = none)
    ∧ ((dspOf (0 : ActId).toNat (port { tx := .data })).tx = .data ∧ (dspOf 0 (port { tx := .data })).open_ = none)
    ∧ (∀ x ∈ [(0, 4096), (2040, 2048), (4088, 4096)],
      let s := sending x.1 x.2
      (dspOf 0 s).tx = .data ∧ ((dspOf 0 s).open_.map fun o => (o.done, o.upTo, o.cont)) = some (x.1, x.2, none)
      ∧ nextRec 0 s = none ∧ (dspOf 0 s).recs = [] ∧ tagOpen 65535 s = true)
    ∧ (∀ x ∈ [0, 4088], ((dspOf 0 (closing x)).open_.map fun o => (o.closing, o.done)) = some (true, x)
      ∧ (dspOf 0 (closing x)).tx = .data ∧ nextRec 0 (closing x) = none)
    ∧ (sampleCheck rec0 (3 % max 1 (wedges (sending 2040 2048)))
        (some (BitVec.ofNat 44 (2 ^ 41 + 31 * 2 ^ 36 + 0x800000 * 2 ^ 12 + 3))) = 0
      ∧ min 2048 (2040 + 8) = 2048 ∧ 2048 < rec0.size)
    ∧ min 4096 (0 + 8) ≠ 4096 ∧ (min 2048 (2040 + 8) = 2048 ∧ 2048 < rec0.size)
    ∧ (min 4096 (4088 + 8) = 4096 ∧ rec0.size ≤ 4096) := by decide +kernel

/-- A STAGE of the eight 512-byte sectors of a zone's one wedge, capturing in wedge 0, with one sector in staging. -/
def capturing (rx : Nat) : State :=
  let e : Entry := ⟨0, 0, [0x80110000, 0, 0, 0, 0, 0, 0, 0, 0, 0, 0, 8, 0, 0, 0, 0]⟩
  let s := setWinBytes 0x600000 ([0x80000000, 0x00080400, 0, 0xFFFFFF].flatMap (leBytes 4))
    (setWinBytes 0x606000 (leBytes 4 0x80000000) (on [.dsp 0] up))
  let s := setDsp 0 { decision := some { frame := 0, sample := none, wedge := 0, rx := rx },
                      armed := [{ tag := 65535, capturing := true }] } s
  setTag 65535 { state := .issued, entry := e }
    { s with dpt := { s.dpt with progs := [{ id := 65535, granules := 145, early := false,
                                             user := [(0, List.replicate 512 0)] }] } }

theorem witness_SectorsCaptured :
    let s := capturing 0
    let x := capturing 8
    let n := setDsp 0 { dspOf 0 s with armed := [] } s
    let e := (tagOf 65535 s).entry
    pageActive (dspPage 0) (setHdr (dspPage 0) {} s) = false
    ∧ (pageActive (dspPage 1) up = true ∧ (dspOf 1 up).decision = none)
    ∧ (∀ y ∈ [s, x, n], pageActive (dspPage 0) y = true ∧ (dspOf 0 y).decision.isSome = true)
    ∧ ((dspOf 0 x).armed.any fun a => a.capturing && decide (rxCount (tagOf a.tag x).entry 0 x < 9)) = true
    ∧ (((dspOf 0 n).armed.any fun a => a.capturing && decide (rxCount (tagOf a.tag n).entry 0 n < 1)) = false
      ∧ rxClaim 0 0 1 n = none)
    ∧ (((dspOf 0 s).armed.any fun a => a.capturing && decide (rxCount (tagOf a.tag s).entry 0 s < 1)) = false
      ∧ rxClaim 0 0 1 s = some 65535 ∧ zSize 0 (eHead e) (eZone e) s = 512 ∧ pageActive .ecc s = true
      ∧ (((progOf 65535 s).map (·.user)).getD []).any (fun b => decide (b.1 / 4096 = 0)) = true
      ∧ stageLeft 65535 s ≠ []) := by decide +kernel

theorem witness_FireflyPulses :
    let s := port {}
    (pageActive (.dsp 0) s = true ∧ s.tmb.state ≠ .off ∧ (dspOf 0 s).ffAt + 128 ≤ s.cc)
    ∧ ¬((dspOf 0 up).ffAt + 128 ≤ up.cc) := by decide +kernel

/-! ### Formats -/

theorem witness_TrackIsGrayDecoded :
    let r : Rec := { rec0 with frame := some 7 }
    let e : Entry := ⟨0, 0, [0x80110000, 0, 0, 0, 0, 0, 0, 0, 0, 0xFFFFFF, 0x7C000200, 8, 0, 0, 0, 0]⟩
    sampleCheck r 2 (some onTrack) = 0
    ∧ (posUsable onTrack = true ∧ posHead onTrack = r.head ∧ posWedge onTrack = r.wedge)
    ∧ captureStarts e 2 (some onTrack) = true
    ∧ captureBreaks 65535 2 (some onTrack) (setTag 65535 { entry := e } up) = false := by decide +kernel

/-! ### Worked examples and constants of the spec -/

/-- 10 R231: the CRC of the nine bytes "123456789". -/
theorem test_crc32c_standard :
    crc32c [0x31, 0x32, 0x33, 0x34, 0x35, 0x36, 0x37, 0x38, 0x39] = 0xE3069283 := by decide +kernel

/-- 10 R234, the worked example: block 1,000, page 417, codeword 1. -/
theorem test_seed_and_first_key_byte :
    cwSeed 0x5A17C3E9 1000 417 1 = 0x5AEDC56C ∧ keyByte 0x5AEDC56C = 0x5A
    ∧ lfsrSteps 8 0x5AEDC56C = 0xFB456D86 := by decide +kernel

/-- 10 R235, the worked example: information column 57. -/
theorem test_information_column_57 :
    (List.range 4).map (infoRow false 57) = [11, 15, 3, 7] ∧ (List.range 4).map (infoRow true 57) = [11, 16, 1, 6]
    ∧ (List.range 4).map (infoShift 57) = [61, 133, 205, 21] := by decide +kernel

/-- 09 R202, the worked example: the words at 0x144 (78h) and 0x145 (wait for the poll interval). -/
theorem test_status_poll_words :
    let a := 0x200F000000
    let b := 2 ^ 91 + 0x8000 + 0xA28 + 5
    (mSeq a = 0 ∧ mAct a = 1 ∧ mArg a = 0x78 ∧ mCount a = 0 ∧ mSafe a = false)
    ∧ (mSeq b = 5 ∧ mAddr b = 0x145 ∧ mCond b = 1 ∧ mAct b = 0 ∧ mSafe b = true) := by decide +kernel

/-- A window word written byte by byte. -/
def winWord (a v : Nat) (s : State) : State :=
  (List.range 4).foldl (fun s i => { s with win := SMap.put winReset s.win (a + i) (BitVec.ofNat 8 (v / 256 ^ i)) }) s

/-- Profile P0 of the reference build as far as read levels need it: TLC, 7 levels, 3 pages to a program unit, 2,304
pages to a block (00 Table 0.1). -/
def tlc : State :=
  winWord 0x610000 (2 * 2 ^ 30 + 2 * 2 ^ 26 + 2 * 2 ^ 21) (winWord 0x610004 2304 up)

/-- 11 R254 to R256, the worked example: page 417 of die 1,193, zone 1, band 2, levels 1 and 5 of element 0x49_5260. -/
theorem test_levels_of_entry_A :
    pageType 1193 417 false tlc = 0 ∧ zoneOf 1193 417 false tlc = 1 ∧ elemAddr 1193 1 2 = 0x495260
    ∧ ptLevels 1193 0 tlc = [1, 5]
    ∧ readPlaces 1193 417 false 2 tlc = [(0x495260, 0), (0x495260, 4)] := by decide +kernel

/-- Effective levels of the same example: F −6 and U +2, F +3 and U −1. -/
theorem test_effective_levels :
    let w := fun (a : Nat) (b : Byte) (s : State) => ({ s with win := SMap.put winReset s.win a b } : State)
    let s := w 0x495260 0xFA (w 0x495268 2 (w 0x495264 3 (w 0x49526C 0xFF up)))
    effLevel (0x495260, 0) s = -4 ∧ effLevel (0x495260, 4) s = 2 := by decide +kernel

/-- 05 R117, the worked example: dist, the cost of rung 0 of row 2 for two codewords, and the estimate in fractions. -/
theorem test_admission_of_entry_A :
    let s : State := { up with tmb := { up.tmb with frame := 0x00012C41, phase := 6103 } }
    let a : Entry := ⟨0, 0, [0x81011500, 0, 0, 0, 0, 0, 0, 0, 0, 0x00800000, 0, 0, 0, 0, 0, 0]⟩
    phaseFrac s = 16382 ∧ distTo ⟨0x00012C44, 0x8000⟩ s = 212994 ∧ toFrac 72256 s = 193962
    ∧ eLrow a = 2 ∧ leBase (ladderElem 2 0 s) + 2 * lePerCw (ladderElem 2 0 s) = 49500 := by decide +kernel

/-- 06 Table 6.4: the distance across the wrap of FRAME. -/
theorem test_distance_across_the_wrap :
    let s : State := { up with tmb := { up.tmb with frame := 0xFFFFFFFE, phase := 20000 } }
    phaseFrac s = 53687 ∧ distTo ⟨1, 0x4000⟩ s = 159305 := by decide +kernel

/-- 03, the worked example of page addresses: PAGE_ID of CHN[37], BUR[12] and IRQT[3], and their addresses. -/
theorem test_page_addresses :
    (pageAddr (.chn 37) 0x048 = 0x0A5048 ∧ hdrView (.chn 37) 0 up = 0x00150025)
    ∧ (pageAddr (.bur 12) 0 = 0x02C000 ∧ hdrView (.bur 12) 0 up = 0x0014000C)
    ∧ (pageAddr (.irqt 3) 0 = 0x010000 ∧ hdrView (.irqt 3) 0 up = 0x000D0003)
    ∧ (pageAddr (.dsp 1) 4 = 0x009004 ∧ hdrView (.dsp 1) 4 up = 0x00000102) := by decide +kernel

/-- The state that a command leaves. -/
def after (c : Instr) (s : State) : State :=
  match exec c s with
  | .next t => t
  | _ => s

/-- 03, the worked example of a lock and two refused writes, at FRAME 0x0001_2C40. -/
def locking : State :=
  after (.registerWrite 0x00003C 0x0000000100000001 0x0F)
    { up with tmb := { up.tmb with frame := 0x00012C40 } }

theorem test_lock_refuses_the_table :
    let s := after (.windowWrite 0x610040 0 0x0F) locking
    (hdrOf .glb locking).locked = true ∧ locking.csr.rspErr = false
    ∧ s.csr.rspErr = true ∧ hdrView .glb 0x020 s = 0x00000004 ∧ hdrView .glb 0x024 s = 0x00610040
    ∧ hdrView .glb 0x028 s = 0x00012C40 := by decide +kernel

theorem test_second_error_counts_in_more :
    let s := after (.registerWrite 0x000048 0x50 0x0F) { after (.windowWrite 0x610040 0 0x0F) locking with cc := 11 }
    s.csr.rspErr = false ∧ regFld .glb oGlbCsView 0 7 s = 0 ∧ hdrView .glb 0x020 s = 0x01000004 := by decide +kernel

/-- 04, the worked example: the context of ring 0x0_1234. -/
theorem test_context_address :
    ctxAddr 0x1234 (setReg .rif oRifCtxBase 0x0000004000000000 up) = 0x0000004000048D00 := by decide +kernel

/-- 15, the worked example of a nesting fault: COMPLETE with 601 while 4 is at the top. -/
theorem test_nesting_fault :
    let s := setTarget 2 { stack := [(4, 9), (601, 6)] } (on [.irqt 2] up)
    regView (.irqt 2) oIrqtNest (after (.complete 2 601) s) = 0x80040259 := by decide +kernel

/-- 16, the worked example: the watchdog of frame 0x0003_0003 takes L2, and BKP[2] records it. -/
theorem test_watchdog_reset :
    let s : State := { up with tmb := { up.tmb with frame := 0x00030003 },
                               rst := { up.rst with fuses := 0x85, wdogFired := some 0xC0000000 } }
    let t := after .frameWatchdog s
    bkpOf 2 t = 0x01100003 ∧ t.rst.level = 2 ∧ t.rst.wdogInfo = 0xC0000000 := by decide +kernel

/-- 17, the worked example: the log entry of row 0x1F40, byte 12, bit 3. -/
theorem test_error_log_entry :
    let s : State := { up with tmb := { up.tmb with frame := 0x00012C41 } }
    logView 0 (correctable 1 0x1F40 12 3 s) = 0x8B30001F40002C41 := by decide +kernel

/-! ### Every command has its effect somewhere -/

theorem witness_EnginesAndDecodersComplete :
    let at_ := fun (q : Nat) => engine (word [(0, q), (3, 4095)]) go
    let d := engine (word [(0, 2)]) { go with offered := some job }
    let w := engine 0 { go with waiting := [job], timer := some 500 }
    (∀ q ∈ [0, 1, 3, 4, 5, 6], runs q (at_ q) = true ∧ mSafe (wordAt 0 true (at_ q)) = false
      ∧ endsHandler (thrOf 0 true (wordActs 0 true (at_ q))) = false
      ∧ (thrOf 0 true (wordActs 0 true (at_ q))).stack = 7 :: [])
    ∧ (runs 7 (at_ 7) = true ∧ runs 2 d = true ∧ bur0.num ≠ 64
      ∧ (thrOf 0 true (wordActs 0 true d)).stopping = false ∧ reqAny 0 true (wordActs 0 true d) = false
      ∧ (thrOf 0 true (wordActs 0 true d)).offered = some job)
    ∧ ((thrOf 0 true w).offered = none ∧ alive (thrOf 0 true w) = true ∧ pageAnswers (enginePage 0) w = true
      ∧ (thrOf 0 true w).waiting = job :: [] ∧ (thrOf 0 true w).timer = some 500 ∧ 500 ≤ w.cc) := by decide +kernel

theorem witness_EnginesAndDecodersComplete_decoders :
    let s := setReg .ecc (oEccErasedThr : Nat) 0 (reading up)
    let o := clear0 (correcting up)
    let p := setReg .ecc (oEccSoftEn : Nat) 0xFFFFFFFF { up with ecc := { up.ecc with queue := [softReq0] } }
    let r := setSoft 31 (some { req := softReq0, since := 0 }) (clear0 (reading up))
    let f := fetching 0
    ((chanOf (0 : ChnId).toNat s).act = some (.transfer xferOut, 0) ∧ xferOut.cws = 3 :: [] ∧ xferOut.kind ≠ 1
      ∧ cwAt 65535 0 3 3 s = some (stagedCw [1]) ∧ rawJob 65535 s = false ∧ bootRead 65535 s = false
      ∧ bitAt (dpOf 0 (stagedCw [1]) s) 5 = false ∧ bitAt (dpOf 0 (stagedCw [1]) s) 9 = true
      ∧ idOp 65535 s ≠ opCalibrate ∧ isJob 65535 = false ∧ (stagedCw [1]).member = false ∧ tagOpen 65535 s = true
      ∧ (stagedCw [1]).rung = 0 ∧ pageActive .ecc s = true ∧ zerosOf [0xFF] ≤ regFld .ecc oEccErasedThr 0 13 s)
    ∧ (stageOf (0 : ChnId).toNat o = (65535, 0, 3, 3) :: [] ∧ cwAt 65535 0 3 3 o = some (stagedCw [1])
      ∧ pageActive .ecc o = true ∧ syndromeZero (pfCodeB (dieProf 0 o) o) (flipBits [1] [0]) = true
      ∧ checkDecoded (stagedCw [1]) (flipBits [1] [0]) .corrected o = .corrected ∧ bitAt (stagedCw [1]).dp 6 = true
      ∧ (tagOf 65535 o).todo = [{ plane := 3, idx := 3 }] ∧ tagOpen 65535 o = true
      ∧ eOpcode (tagOf 65535 o).entry = opRead
      ∧ (readStaged 65535 (15 * 256) ((stagedCw [1]).gRead + (stagedCw [1]).gAcc) o).2 = false)
    ∧ (softPick p = some softReq0 ∧ softFree (31 : BitVec 5).toNat p = true)
    ∧ (softOf (31 : BitVec 5).toNat r = some { req := softReq0, since := 0 } ∧ pageActive .ecc r = true
      ∧ cwAt 65535 (paDie (ePaddr (tagOf 65535 r).entry)) 3 3 r = some (stagedCw [1])
      ∧ checkDecoded (stagedCw [1]) (flipBits [1] [0]) .corrected r = .corrected
      ∧ (tagOf 65535 r).todo = [{ plane := 3, idx := 3 }] ∧ tagOpen 65535 r = true
      ∧ (readStaged 65535 (15 * 256) (stagedCw [1]).gRead r).2 = false)
    ∧ (fetchWaiters f = [65535] ∧ progOf 65535 f = some twoPages ∧ (tagOf 65535 f).pageWait = none
      ∧ 1160 / max 1 (pageGran 0 f) + 1 = progPages (tagOf 65535 f).entry f ∧ (tagOf 65535 f).dataLeft ≠ 0
      ∧ eOpcode (tagOf 65535 f).entry ≠ opStage ∧ eClass (tagOf 65535 f).entry ≠ clsEarly
      ∧ grantOther (pageGran 0 f) f = true ∧ pageActive .dpt f = true ∧ pageActive .ecc f = true) := by decide +kernel

theorem witness_ChannelsAndPortsComplete :
    let w := own owned
    let e := own { owned with early := some 0x10000 }
    let r := setReg (chnPage 0) oChnRetrain (1 : Nat) w
    let h := own { own := .halted }
    let c := setReg .peer (oPeerCfg : Nat) 1 (own { own := .claiming, ownSince := 0 })
    let b := own { own := .backoff, ownSince := 76000 }
    let t := own { owned with own := .takeover }
    let l := leaving .command false
    (watched (0 : ChnId).toNat w = true ∧ (0x1FFFF : BitVec 17) ≠ 0 ∧ blanked 0 w = false)
    ∧ (watched (0 : ChnId).toNat e = true ∧ (chanOf 0 e).early ≠ none ∧ blanked 0 e = false)
    ∧ (groupReleased (7 : GroupId).toNat up = true ∧ corePowered up = true ∧ up.pwr.state ≠ .doze
      ∧ up.pwr.state ≠ .waking ∧ (groupOf 7 up).zqDue ≤ up.cc)
    ∧ (retrainDue (0 : ChnId).toNat r = true ∧ (chanOf 0 r).retrain = [])
    ∧ (∀ x ∈ [w, h], pageAnswers (.chn 0) x = true ∧ pageActive (.chn 0) x = true)
    ∧ ((chanOf 0 w).own = .owned ∧ (chanOf 0 w).retrain = []) ∧ ((chanOf 0 h).own = .halted ∧ (chanOf 0 h).shared = false)
    ∧ ((chanOf 0 c).own = .claiming ∧ (chanOf 0 c).ownSince + usCc (regFld .peer oPeerCfg 0 16 c) ≤ c.cc)
    ∧ ((chanOf 0 b).own = .backoff ∧ (chanOf 0 b).ownSince + usCc 16 ≤ b.cc ∧ (chanOf 0 b).shared = false)
    ∧ ((chanOf 0 t).own = .takeover ∧ (chanOf 0 t).take = none ∧ busFree 0 t = true)
    ∧ ((chanOf 0 l).disabling = false ∧ (chanOf 0 l).own = .releasing ∧ (chanOf 0 l).rel = some .command
      ∧ arrayOn 0 l = false ∧ busFree 0 l = true)
    ∧ (pageAnswers .lvl up = true ∧ up.lvl.loadBusy = false ∧ up.lvl.locked = false)
    ∧ (tempDue (0 : DieId).toNat tempReady = true ∧ dieQuiet 0 tempReady = true ∧ outPending 0 tempReady = false
      ∧ mayStart 0 tempReady = true ∧ burinDrives 0 tempReady = true ∧ tempReady.pwr.state ≠ .doze
      ∧ busTakes 0 (.feature 0) tempReady = true) := by decide +kernel

theorem witness_ChannelsAndPortsComplete_ports :
    let d := port { frames := [(7, 0), (8, 1)] }
    let x := sending 0 4096
    let s : State :=
      let b := port { recs := [rec0] }
      { b with tmb := { b.tmb with frame := 255 } }
    let c := capturing 0
    let e := (tagOf 65535 c).entry
    let f := port {}
    ((dspOf (0 : ActId).toNat d).frames = (7, 0) :: [(8, 1)] ∧ decisionOf 0 7 0 d = some none)
    ∧ ((dspOf 0 x).tx = .data ∧ ((dspOf 0 x).open_.map fun o => (o.closing, decide (o.done + 8 < o.upTo)))
        = some (false, true))
    ∧ ((0 : ActId) ≠ 1 ∧ resolveDue 0 (65535 : TagId).toNat s = [rec0] ∧ resolveDue 1 (65535 : TagId).toNat s = []
      ∧ syncValid 0 s = true)
    ∧ (pageActive (dspPage 0) c = true ∧ ((dspOf 0 c).decision.map fun k => (k.wedge, k.rx)) = some (0, 0)
      ∧ ((dspOf 0 c).armed.any fun z => z.capturing && decide (rxCount (tagOf z.tag c).entry 0 c < 1)) = false
      ∧ rxClaim 0 0 1 c = some 65535 ∧ zSize 0 (eHead e) (eZone e) c = 512
      ∧ (((progOf 65535 c).map (·.user)).getD []).any (fun b => decide (b.1 / 4096 = 0)) = true
      ∧ stageLeft 65535 (modProg 65535 (fun b =>
          { b with user := SMap.put (fun _ => []) b.user 0 (List.replicate 512 0) }) c) ≠ [])
    ∧ (pageActive (.dsp 0) f = true ∧ f.tmb.state ≠ .off ∧ (dspOf 0 f).ffAt + 128 ≤ f.cc) := by decide +kernel

end Sys2Proof.Tests
end

section
/-!
What a completion that falls due and a cc of the clock leave alone, and the cc in which nothing but the clock acts (O2).
-/

namespace Sys2Proof.Machine

/-! ### Facts that headers, rings, ports and DSP do not decide -/

/-- A fact that no header decides survives the counting of one. -/
theorem bump_keeps {α : Type} (f : State → α) (hf : ∀ p h s, f (setHdr p h s) = f s) (p : Page) (i : Nat) (s : State) :
    f (bump p i s) = f s := by
  rcases bumpBy_eq p i 1 s with h | ⟨_, h⟩
  · rw [bump, h]
  · rw [bump, h, hf]

/-- A fact that every step of a fold keeps survives the fold. -/
theorem foldl_keeps {α β : Type} (f : State → α) {g : State → β → State} (hg : ∀ s b, f (g s b) = f s) (l : List β)
    (s : State) : f (l.foldl g s) = f s := by
  induction l generalizing s with
  | nil => rfl
  | cons b r ih => rw [List.foldl_cons, ih, hg]

section Completions

variable {α : Type} (f : State → α) (hh : ∀ p h s, f (setHdr p h s) = f s) (hr : ∀ k v s, f (setRing k v s) = f s)
  (hp : ∀ k v s, f (setFab k v s) = f s)

include hh hr hp

/-- A write-back touches its ring, a counter of RIF and a port (04 R83). -/
theorem writeBack_keeps (r : Nat) (report : Option Nat) (s : State) : f (writeBack r report s) = f s := by
  simp only [writeBack]
  rw [fabWrite, drain_eq, hp, modFab_eq, hp, bump_keeps f hh, hr]

theorem oweBack_keeps (r need : Nat) (s : State) : f (oweBack r need s) = f s := by
  simp only [oweBack]
  split
  · rfl
  · exact writeBack_keeps f hh hr hp r none s

theorem dueCpl_keeps (r : Nat) (c : Cpl) (s : State) : f (dueCpl r c s) = f s := by
  simp only [dueCpl]
  rw [oweBack_keeps f hh hr hp, modRing_eq, hr]

theorem settleBatches_keeps (r : Nat) (s : State) : f (settleBatches r s) = f s := by
  simp only [settleBatches]
  rw [foldl_keeps f, modRing_eq, hr]
  intro s b
  cases batchCpl r b with
  | none => rfl
  | some c => exact dueCpl_keeps f hh hr hp r c s

theorem memberDone_keeps (r t st : Nat) (frame : Word32) (rung bits : Nat) (s : State) :
    f (memberDone r t st frame rung bits s) = f s := by
  unfold memberDone
  cases findMember t (ringOf r s) with
  | none => rfl
  | some m =>
    simp only
    rw [settleBatches_keeps f hh hr hp]
    split
    · rw [modRing_eq, hr]
    · rw [dueCpl_keeps f hh hr hp, modRing_eq, hr]

/-- A completion that falls due touches rings, RIF's counters, ports and the replans of a DSP. -/
theorem tagDone_keeps (hd : ∀ k v s, f (setDsp k v s) = f s) (s : State) (t : Nat) : f (tagDone s t) = f s := by
  unfold tagDone
  cases replanPort t s with
  | none => exact memberDone_keeps f hh hr hp _ t _ _ _ _ s
  | some a =>
    simp only
    rw [dueCpl_keeps f hh hr hp, modDsp_eq, hd]

end Completions

/-- Completions that fall due leave PWR alone. -/
theorem flushDone_pwr (s : State) : (flushDone s).pwr = s.pwr :=
  foldl_keeps State.pwr (tagDone_keeps State.pwr (fun _ _ _ => rfl) (fun _ _ _ => rfl) (fun _ _ _ => rfl)
    (fun _ _ _ => rfl)) _ _

/-- No cc passes while completions fall due. -/
theorem flushDone_cc (s : State) : (flushDone s).cc = s.cc :=
  foldl_keeps State.cc (tagDone_keeps State.cc (fun _ _ _ => rfl) (fun _ _ _ => rfl) (fun _ _ _ => rfl)
    (fun _ _ _ => rfl)) _ _

/-! ### One cc in which nothing but the clock acts -/

theorem ladderTick_idle {s : State} (h : retestNext s = none) : ladderTick s = s := by
  rw [ladderTick, h]

theorem endAborts_idle {s : State} (h : s.ops.abortNow = []) : endAborts s = s := by
  simp [endAborts, h]

theorem zqApply_idle {s : State} (h : ∀ e ∈ s.chn, e.2.zqPend = false) : zqApply s = s := by
  have hn : (s.chn.filter fun e => e.2.zqPend && gapPassed e.1 s) = [] :=
    List.filter_eq_nil_iff.mpr fun e he => by simp [h e he]
  rw [zqApply, hn]
  split <;> rfl

theorem dozePark_idle {s : State} (h : s.pwr.state = .doze → s.cc ≠ s.pwr.since + 64) : dozePark s = s := by
  rw [dozePark, if_neg fun hd => h hd.1 hd.2]

/-- What ccTick does in a cc in which nothing but the clock acts. -/
theorem ccTick_plain {s : State} (h : plainCc s) : ccTick s = ccEnded s := by
  obtain ⟨hretest, habort, hzq, hdoze⟩ := h
  let u : State := if anyHeld s then bump .pwr 2 s else s
  have keeps : ∀ {α : Type} (f : State → α), (∀ p h s, f (setHdr p h s) = f s) → f u = f s := by
    intro α f hf
    change f (if anyHeld s then bump .pwr 2 s else s) = f s
    split
    · exact bump_keeps f hf .pwr 2 s
    · rfl
  have hladder : ladderTick u = u := ladderTick_idle ((keeps retestNext fun _ _ _ => rfl).trans hretest)
  have haborts : endAborts u = u :=
    endAborts_idle ((keeps (fun s => s.ops.abortNow) fun _ _ _ => rfl).trans habort)
  have hcodes : zqApply u = u := zqApply_idle (by rwa [keeps State.chn fun _ _ _ => rfl])
  have hcc : u.cc = s.cc := keeps State.cc fun _ _ _ => rfl
  have hpwr : u.pwr = s.pwr := keeps State.pwr fun _ _ _ => rfl
  have hpark : dozePark (flushDone { u with cc := u.cc + 1 }) = flushDone { u with cc := u.cc + 1 } := by
    apply dozePark_idle
    rw [flushDone_pwr, flushDone_cc]
    simpa only [hpwr, hcc] using hdoze
  change (let v := dozePark (flushDone { zqApply (endAborts (ladderTick u)) with
      cc := (zqApply (endAborts (ladderTick u))).cc + 1 })
    { v with mem.upsets := addUpset (Config.upset v.cc) v.mem.upsets }) = _
  rw [hladder, haborts, hcodes, hpark]
  simp only [flushDone, hcc]
  rfl

/-- The tick of TMB.PHASE, with the planner judged at PLAN_WINDOW where its plans are all published. -/
theorem phaseTick_plain {s : State} (h : plainCc s) :
    let v := { ccEnded s with tmb := { (ccEnded s).tmb with phase := (ccEnded s).tmb.phase + 1 } }
    phaseTick s = if v.tmb.phase = planWindow v then plannerMet v else v := by
  simp only [phaseTick, ccTick_plain h]

/-- Settles O2: the cases of the clock, with the cc that ends as ccTick_plain gives it. -/
theorem idleStepPassesOneCycle : Obligations.IdleStepPassesOneCycle := by
  intro s hpend
  have hstep : step s = .next (settle (clockTick s)) := by simp only [step, hpend]
  refine ⟨fun hon hpow hlast => ?_, fun hdown hplain => ?_, fun hon hpow hmid hplain => ?_⟩
  · have hruns : tmbRuns s = true := by simp [tmbRuns, hon, hpow]
    rw [hstep, clockTick, if_neg (by simp [hruns]), if_neg (by omega)]
  · have hruns : tmbRuns s = false := by
      rcases hdown with hoff | hpow
      · simp [tmbRuns, hoff]
      · simp [tmbRuns, hpow]
    rw [hstep, clockTick, if_pos hruns, ccTick_plain hplain]
  · have hruns : tmbRuns s = true := by simp [tmbRuns, hon, hpow]
    have hclock : clockTick s = phaseTick s := by rw [clockTick, if_neg (by simp [hruns]), if_pos hmid]
    intro v met
    have hphase : phaseTick s = if v.tmb.phase = planWindow v then plannerMet v else v := phaseTick_plain hplain
    have hmet : plannerMet v = if met then judgePlanner false v else v := by
      simp only [plannerMet, met, List.isEmpty_iff, Bool.and_eq_true, Bool.not_eq_true', and_assoc]
    rw [hstep, hclock, hphase]
    refine ⟨fun hnot => ?_, fun hat hmeets => ?_⟩
    · rcases hnot with hoff | hnomet
      · rw [if_neg hoff]
      · rw [hmet, if_neg hnomet, ite_self]
    · rw [if_pos hat, hmet, if_pos hmeets]
      rfl

end Sys2Proof.Machine
end

section
/-!
The flags' settling counts nothing, and a frame start that the statement on FRAME_TICK gets wrong (O37).
-/

namespace Sys2Proof.Machine

/-! ### Counters and the flags -/

/-- An event leaves the counters of every page as they are. -/
@[simp] theorem cntOf_raiseEvt (p q : Page) (i k : Nat) (s : State) : cntOf p i (raiseEvt q k s) = cntOf p i s := by
  by_cases hpage : pageNum p = pageNum q
  · have hdr : hdrOf p s = hdrOf q s := by simp only [hdrOf, hpage]
    have hnew : ∀ h, hdrOf p (setHdr q h s) = h := fun h => by simp only [hdrOf, hpage, setHdr, SMap.get_put_same]
    simp only [cntOf, raiseEvt, hnew, hdr]
  · simp only [cntOf, raiseEvt, hdrOf_setHdr_other _ _ hpage]

@[simp] theorem cntOf_latchLevel (p : Page) (i : Nat) (s : State) (e : Page × Nat) :
    cntOf p i (latchLevel s e) = cntOf p i s := by
  rcases latchLevel_eq s e with h | h <;> rw [h]
  exact cntOf_raiseEvt ..

@[simp] theorem cntOf_latchFatal (p : Page) (i : Nat) (s : State) : cntOf p i (latchFatal s) = cntOf p i s := by
  unfold latchFatal
  split
  · rfl
  · split <;> rfl

/-- The settling of the flags counts nothing. -/
@[simp] theorem cntOf_settle (p : Page) (i : Nat) (s : State) : cntOf p i (settle s) = cntOf p i s := by
  have hlevels : cntOf p i (latchLevels s) = cntOf p i s := foldl_keeps _ (cntOf_latchLevel p i) _ _
  unfold settle
  split
  · rw [cntOf_latchLevel, cntOf_latchFatal, hlevels]
  · rfl

/-! ### A frame start that the statement about FRAME_TICK does not describe -/

/-- The last cc of a frame with a plan unpublished, so that FRAME_TICK raises event 4 of TMB first. The header of TMB
says that software has written counter 0, which held 5, in the cc that follows: raising the event in this cc discards
that note, and counting in the next would go on from it. -/
def noteAhead : State :=
  { State.reset with
    hdr := [(pageNum .glb, { enable := true }), (pageNum .tmb, { now := { cc := 1, sets := [(0, 5)] } }),
            (pageNum .sch, { enable := true })]
    sch.toPlan := [0]
    tmb := { state := .locked, phase := 24413 } }

/-- It meets the hypotheses of the clause. -/
theorem noteAhead_frameEnds : corePowered noteAhead = true ∧ noteAhead.tmb.state ≠ .off
    ∧ noteAhead.tmb.frameLen ≤ noteAhead.tmb.phase + 1 ∧ refAct (applyTick noteAhead) = refAct noteAhead
    ∧ portsClear noteAhead := by
  refine ⟨by decide, by decide, by decide, by decide, fun a _ => ⟨?_, ?_⟩⟩ <;> rfl

/-- FRAME_TICK counts from 0, since the event has discarded the note. -/
theorem noteAhead_ticksFromZero : cntOf .tmb 0 (if frameOver noteAhead then beginFrame noteAhead else noteAhead) = 1 := by
  decide +kernel

/-- A count in the next cc alone goes on from the 5 of the note. -/
theorem noteAhead_countsFromFive : cntOf .tmb 0 (bump .tmb 0 { noteAhead with cc := noteAhead.cc + 1 }) = 6 := by
  decide +kernel

/-- Refutes O37: the last clause of FrameTickBegins has counter 0 of TMB count as a count alone would in the next cc. In
noteAhead a plan is unpublished, so the tick raises TMB event 4 first, and that changes from where counter 0 counts. The
state is one that no run reaches (its header holds a note of a cc to come); the statement speaks of every state. -/
theorem not_frameTicks : ¬ Obligations.FrameTicks := by
  intro h
  obtain ⟨-, hends⟩ := h.1 noteAhead
  obtain ⟨hpow, hon, hlast, hact, hclear⟩ := noteAhead_frameEnds
  obtain ⟨v, hexec, -, -, -, -, -, -, -, -, -, -, -, -, -, -, -, -, -, -, hcount⟩ := hends hpow hon hlast hact hclear
  have hsettle : settle (if frameOver noteAhead then beginFrame noteAhead else noteAhead) = settle v :=
    Host.Outcome.next.inj hexec
  have hone : cntOf .tmb 0 v = 1 := by
    rw [← cntOf_settle, ← hsettle, cntOf_settle, noteAhead_ticksFromZero]
  rw [hone, noteAhead_countsFromFive] at hcount
  exact absurd hcount (by decide)

end Sys2Proof.Machine
end

section
/-!
What a commitment does to the operation table: the work of a tag leaves the other units, and of the table it touches the
counts of outstanding writes alone (05 R125).
-/

namespace Sys2Proof.Machine

/-! ### Reads of protected words (17 R393, R394) -/

section WordReads

variable {α : Type} (f : State → α) (hh : ∀ p h s, f (setHdr p h s) = f s)

include hh

theorem raiseEvt_keeps (p : Page) (i : Nat) (s : State) : f (raiseEvt p i s) = f s := by
  obtain ⟨_, h⟩ := raiseEvt_eq p i s
  rw [h, hh]

theorem raiseErr_keeps (p : Page) (code info : Nat) (s : State) : f (raiseErr p code info s) = f s := by
  obtain ⟨_, h⟩ := raiseErr_eq p code info s
  rw [h, hh]

variable (hm : ∀ m s, f { s with mem := m } = f s) (hb : ∀ k v s, f (setBkp k v s) = f s)

include hb in
theorem setBkp0_keeps (i : Nat) (s : State) : f (setBkp0 i s) = f s := by
  rw [setBkp0, hwBit, hh, hb]

include hb in
theorem bumpCeTotal_keeps (s : State) : f (bumpCeTotal s) = f s := by
  simp only [bumpCeTotal, markCount, setCeTotal]
  rw [hh, hb]

include hm hb

theorem captureSpare_keeps (cls idx why : Nat) (s : State) : f (captureSpare cls idx why s).1 = f s := by
  unfold captureSpare
  split
  · rfl
  · split
    · exact (bump_keeps f hh _ _ _).trans (hm _ s)
    · exact setBkp0_keeps f hh hb _ _

theorem logError_keeps (e : LogEnt) (s : State) : f (logError e s) = f s := by
  unfold logError
  split
  · rfl
  · split
    · split
      · exact captureSpare_keeps f hh hm hb _ _ _ s
      · rfl
    · split
      · exact bump_keeps f hh _ _ _
      · exact hm _ s

theorem correctable_keeps (cls idx byte_ bit_ : Nat) (s : State) : f (correctable cls idx byte_ bit_ s) = f s := by
  simp only [correctable]
  rw [logError_keeps f hh hm hb, bumpCeTotal_keeps f hh hb, raiseEvt_keeps f hh, bump_keeps f hh]

theorem failed_keeps (u : Upset) (s : State) : f (failed u s) = f s := by
  simp only [failed]
  rw [raiseErr_keeps f hh, logError_keeps f hh hm hb, setBkp0_keeps f hh hb, raiseEvt_keeps f hh, bump_keeps f hh]

theorem findUpset_keeps (s : State) (u : Upset) : f (findUpset s u) = f s := by
  unfold findUpset
  split
  · exact (hm _ _).trans (correctable_keeps f hh hm hb _ _ _ _ s)
  · split
    · rfl
    · exact failed_keeps f hh hm hb u s

/-- A read of a word touches MEM, headers and the backup registers. -/
theorem readWord_keeps (cls idx : Nat) (s : State) : f (readWord cls idx s) = f s :=
  foldl_keeps f (findUpset_keeps f hh hm hb) _ _

end WordReads

@[simp] theorem readWord_ops (cls idx : Nat) (s : State) : (readWord cls idx s).ops = s.ops :=
  readWord_keeps State.ops (fun _ _ _ => rfl) (fun _ _ => rfl) (fun _ _ _ => rfl) cls idx s

/-! ### The work of an id leaves the other units -/

@[simp] theorem touchElement_ops (a : Nat) (s : State) : (touchElement a s).ops = s.ops := by
  simp only [touchElement]
  split
  · split <;> simp
  · rfl

@[simp] theorem putUser_ops (pl : Nat × Nat) (v : Int) (s : State) : (putUser pl v s).ops = s.ops := by
  rw [putUser, touchElement_ops, setWinByte_ops]

@[simp] theorem addUser_ops (pl : Nat × Nat) (delta : Int) (s : State) : (addUser pl delta s).ops = s.ops := by
  simp only [addUser, readPlace]
  split <;> simp

@[simp] theorem calLast_ops (source band zone d n changed : Nat) (s : State) :
    (calLast source band zone d n changed s).ops = s.ops := by
  unfold calLast
  rfl

@[simp] theorem applyValley_ops (id page : Nat) (s : State) : (applyValley id page s).ops = s.ops := by
  simp only [applyValley]
  split
  · rfl
  · split
    · rw [bumpBy_ops]
    · split
      · rw [calLast_ops, bump_ops, foldl_keeps State.ops fun s p => addUser_ops p _ s, bumpBy_ops]
      · rw [bumpBy_ops]

@[simp] theorem accrue_ops (g : Nat) (s : State) : (accrue g s).ops = s.ops := by simp [accrue]

@[simp] theorem dropLoad_ops (d : Nat) (k : LoadKind) (s : State) : (dropLoad d k s).ops = s.ops := by
  simp [dropLoad, changeLoad]

@[simp] theorem freeDie_ops (d : Nat) (s : State) : (freeDie d s).ops = s.ops := by simp [freeDie]

@[simp] theorem recheck_ops (d : Nat) (s : State) : (recheck d s).ops = s.ops := by
  simp only [recheck]
  split
  · simp
  · split <;> simp

@[simp] theorem dropXfers_ops (t d : Nat) (s : State) : (dropXfers t d s).ops = s.ops := by simp [dropXfers]

@[simp] theorem dropFromDie_ops (t d : Nat) (s : State) : (dropFromDie t d s).ops = s.ops := by
  unfold dropFromDie
  extract_lets x had counted held unqueued noXfers noRun noHeld noDataIn noAbandoned
  have hcounted : counted.ops = s.ops := by simp only [counted]; split <;> simp
  have hunqueued : noXfers.ops = counted.ops := by simp [noXfers, unqueued]
  have hrun : noRun.ops = noXfers.ops := by simp only [noRun]; (repeat' split) <;> simp
  have hheld : noHeld.ops = noRun.ops := by simp only [noHeld]; (repeat' split) <;> simp
  have hdata : noDataIn.ops = noHeld.ops := by simp only [noDataIn]; (repeat' split) <;> simp
  have habandoned : noAbandoned.ops = noDataIn.ops := by simp only [noAbandoned]; (repeat' split) <;> simp
  rw [recheck_ops, habandoned, hdata, hheld, hrun, hunqueued, hcounted]

@[simp] theorem dropFromSched_ops (t : Nat) (s : State) : (dropFromSched t s).ops = s.ops :=
  foldl_keeps State.ops (fun s d => dropFromDie_ops t d s) _ s

@[simp] theorem dropSoft_ops (id : Nat) (s : State) : (dropSoft id s).ops = s.ops := by
  simp only [dropSoft]
  rw [foldl_keeps State.ops fun s e => setSoft_ops _ _ s]
  exact bumpBy_ops ..

@[simp] theorem dropCorrect_ops (id : Nat) (s : State) : (dropCorrect id s).ops = s.ops :=
  foldl_keeps State.ops (fun s c => setStage_ops c _ s) _ s

@[simp] theorem dropStaging_ops (id : Nat) (s : State) : (dropStaging id s).ops = s.ops := rfl

@[simp] theorem abortTag_ops (t : Nat) (s : State) : (abortTag t s).ops = s.ops :=
  foldl_keeps State.ops (fun s e => setEng_ops e _ s) _ _

@[simp] theorem armNext_ops (a : Nat) (s : State) : (armNext a s).ops = s.ops := by
  unfold armNext
  split
  · rfl
  · split <;> simp

@[simp] theorem dropFromDisk_ops (t : Nat) (s : State) : (dropFromDisk t s).ops = s.ops := by
  simp [dropFromDisk, dropFromPort]

/-! ### What a commitment leaves of a row -/

/-- A row of the operation table but for its count of outstanding writes, which the withdrawal of writes changes. -/
def withoutWrites (x : TagRow) : TagRow := { x with wrOut := 0 }

theorem withdrawn_rows (k : Nat) (s : State) (q : WrReq) :
    withoutWrites (tagOf k (withdrawn s q)) = withoutWrites (tagOf k s) := by
  unfold withdrawn
  split
  · rename_i t plane idx _
    rw [modTag_eq]
    by_cases h : k = t
    · subst h
      rw [tagOf_setTag_same]
      rfl
    · rw [tagOf_setTag_other _ _ h]
      rfl
  · rfl

theorem withdrawWrites_rows (k t : Nat) (s : State) :
    withoutWrites (tagOf k (withdrawWrites t s)) = withoutWrites (tagOf k s) := by
  unfold withdrawWrites
  refine foldl_keeps (fun s => withoutWrites (tagOf k s)) (fun s p => ?_) _ s
  rw [foldl_keeps (fun s => withoutWrites (tagOf k s)) (withdrawn_rows k)]
  rfl

/-- A row is read from OPS alone. -/
theorem tagOf_of_ops {s u : State} (h : u.ops = s.ops) (k : Nat) : tagOf k u = tagOf k s := by
  simp only [tagOf, h]

/-- When everything that works for an id is dropped, of the rows only counts of outstanding writes change. -/
theorem dropWork_rows (k id : Nat) (s : State) :
    withoutWrites (tagOf k (dropWork id s)) = withoutWrites (tagOf k s) := by
  have hops : (dropWork id s).ops = (withdrawWrites id (dropFromSched id (applyValley id (stagedPage id s) s))).ops := by
    simp [dropWork]
  rw [tagOf_of_ops hops, withdrawWrites_rows]
  exact congrArg withoutWrites (tagOf_of_ops (by simp) k)

@[simp] theorem noteCommit_ops (st : Nat) (s : State) : (noteCommit st s).ops = s.ops := by
  unfold noteCommit
  split <;> rfl

@[simp] theorem noteDestage_ops (t st : Nat) (s : State) : (noteDestage t st s).ops = s.ops := by
  simp only [noteDestage]
  split
  · split
    · exact bump_ops ..
    · rfl
  · rfl

theorem noteLate_keeps {α : Type} (f : State → α) (hh : ∀ p h s, f (setHdr p h s) = f s) (x : TagRow) (rank : Nat)
    (s : State) : f (noteLate x rank s) = f s := by
  simp only [noteLate]
  split
  · rw [raiseEvt_keeps f hh, bump_keeps f hh]
  · rfl

@[simp] theorem settleIntent_ops (t : Nat) (confirmed : Bool) (s : State) :
    (settleIntent t confirmed s).ops = s.ops := rfl

@[simp] theorem readerDone_ops (t : Nat) (s : State) : (readerDone t s).ops = s.ops := rfl

/-- A completion writes no row. -/
@[simp] theorem tagOf_completeTag (k t : Nat) (s : State) : tagOf k (completeTag t s) = tagOf k s := by
  simp only [completeTag]
  split <;> rfl

/-- What a committed tag leaves behind changes of the rows only counts of outstanding writes. -/
theorem leaveOps_rows (k t st : Nat) (s : State) :
    withoutWrites (tagOf k (leaveOps t st s)) = withoutWrites (tagOf k s) := by
  unfold leaveOps
  extract_lets x dropped settled read
  have hdropped : withoutWrites (tagOf k dropped) = withoutWrites (tagOf k s) :=
    (dropWork_rows k t _).trans (congrArg withoutWrites (tagOf_of_ops (by simp) k))
  have hsettled : settled.ops = dropped.ops := by simp only [settled]; split <;> simp
  have hread : read.ops = settled.ops := by simp only [read]; split <;> simp
  rw [tagOf_completeTag, tagOf_of_ops (hread.trans hsettled), hdropped]

/-- The row of a tag whose status an event of a rank has fixed. -/
def fixedRow (t st rank : Nat) (s : State) : TagRow :=
  { tagOf t s with state := .committed, status := st, commitCc := s.cc, commitRank := rank,
                   commitFrame := s.tmb.frame, armed := false, ladderHeld := none }

@[simp] theorem tagOf_fixStatus (t st rank : Nat) (s : State) :
    tagOf t (fixStatus t st rank s) = fixedRow t st rank s := tagOf_setTag_same ..

/-- 01 R19, R20: an event that reaches a tag fixes its row, but for the writes that its commitment withdraws. -/
theorem commitTag_fixes {t st rank : Nat} {s : State} (h : reachedNow t rank s = true) :
    withoutWrites (tagOf t (commitTag t st rank s)) = withoutWrites (fixedRow t st rank s) := by
  rw [commitTag, if_pos h]
  split
  · rw [leaveOps_rows, tagOf_fixStatus, noteLate_keeps (fixedRow t st rank) fun _ _ _ => rfl]
    rfl
  · exact congrArg withoutWrites (tagOf_fixStatus t st rank _)

/-- A tag that an event reaches is committed with the status of that event. -/
theorem commitTag_status {t st rank : Nat} {s : State} (h : reachedNow t rank s = true) :
    (tagOf t (commitTag t st rank s)).state = .committed ∧ (tagOf t (commitTag t st rank s)).status = st :=
  ⟨congrArg TagRow.state (commitTag_fixes h), congrArg TagRow.status (commitTag_fixes h)⟩

/-- An event that does not reach a tag changes nothing. -/
theorem commitTag_unreached {t st rank : Nat} {s : State} (h : reachedNow t rank s = false) :
    commitTag t st rank s = s := by
  rw [commitTag, if_neg (by simp [h])]

/-- An event other than the operation's own leaves the work of the tag to the end of the cc. -/
theorem commitTag_abort {t st rank : Nat} {s : State} (h : reachedNow t rank s = true) (hrank : rank ≠ rankOwn) :
    let z := setTag t (fixedRow t st rank s) s
    commitTag t st rank s = { z with ops := { z.ops with
      doneNow := s.ops.doneNow.filter fun i => !decide (i = t),
      abortNow := (s.ops.abortNow.filter fun i => !decide (i = t)) ++ [t] } } := by
  rw [commitTag, if_pos h, if_neg hrank]
  rfl

/-- A terminal event reaches an open tag, and a committed one that a later rank of this cc has committed. -/
theorem reachedNow_iff (t rank : Nat) (s : State) : reachedNow t rank s = true ↔
    ((tagOf t s).state ≠ .free ∧ (tagOf t s).state ≠ .committed)
    ∨ ((tagOf t s).state = .committed ∧ (tagOf t s).commitCc = s.cc ∧ rank < (tagOf t s).commitRank) := by
  simp [reachedNow, tagOpen, and_assoc]

theorem reachedNow_of_open {t : Nat} {s : State} (rank : Nat) (hfree : (tagOf t s).state ≠ .free)
    (hopen : (tagOf t s).state ≠ .committed) : reachedNow t rank s = true :=
  (reachedNow_iff t rank s).mpr (.inl ⟨hfree, hopen⟩)

/-- 01 R19, R20, 05 R125: which tags an event commits, and what it fixes. -/
theorem commitmentFixesStatus : Claims.CommitmentFixesStatus := by
  intro t st rank s x y z others
  refine ⟨fun hfree => ?_, fun hdone hlater => ?_, fun hreach => ?_⟩
  · exact commitTag_unreached (Bool.eq_false_iff.mpr fun h => by
      rcases (reachedNow_iff t rank s).mp h with ⟨hn, -⟩ | ⟨hc, -⟩
      · exact hn hfree
      · exact absurd (hc.symm.trans hfree) (by decide))
  · exact commitTag_unreached (Bool.eq_false_iff.mpr fun h => by
      rcases (reachedNow_iff t rank s).mp h with ⟨-, hn⟩ | ⟨-, hcc, hrank⟩
      · exact hn hdone
      · rcases hlater with hne | hle
        · exact hne hcc
        · exact absurd hrank (Nat.not_lt.mpr hle))
  · have hreached : reachedNow t rank s = true := (reachedNow_iff t rank s).mpr hreach
    have hrow : withoutWrites y = withoutWrites (fixedRow t st rank s) := commitTag_fixes hreached
    exact ⟨⟨congrArg TagRow.state hrow, congrArg TagRow.status hrow, congrArg TagRow.commitRank hrow,
      congrArg TagRow.commitCc hrow, congrArg TagRow.armed hrow, congrArg TagRow.ladderHeld hrow⟩,
      fun hrank => commitTag_abort hreached hrank⟩

end Sys2Proof.Machine
end

section
/-!
Admission: the checks of Table 5.3 in their order, and the work that an admitted entry begins (O34).
-/

namespace Sys2Proof.Machine

/-! ### What the checks read and judge -/

/-- The words that the checks read are words of the map cache: MEM, headers and the backup registers (17 R393). -/
theorem mapReads_keeps {α : Type} (f : State → α) (hh : ∀ p h s, f (setHdr p h s) = f s)
    (hm : ∀ m s, f { s with mem := m } = f s) (hb : ∀ k v s, f (setBkp k v s) = f s) (e : Entry) (s : State) :
    f (mapReads e s) = f s := by
  have hdies : f ((entryDies e).foldl (fun s d => readWord 6 (rosterIdx d) s) s) = f s :=
    foldl_keeps f (fun s d => readWord_keeps f hh hm hb _ _ s) _ s
  simp only [mapReads]
  split
  · exact hdies
  · rw [foldl_keeps f, hdies]
    intro s p
    exact foldl_keeps f (fun s w => readWord_keeps f hh hm hb _ _ s) _ s

theorem mapReads_only (e : Entry) (s : State) :
    { mapReads e s with mem := s.mem, hdr := s.hdr, rst := s.rst } = s :=
  mapReads_keeps (fun u => { u with mem := s.mem, hdr := s.hdr, rst := s.rst }) (fun _ _ _ => rfl) (fun _ _ => rfl)
    (fun _ _ _ => rfl) e s

@[simp] theorem mapReads_ops (e : Entry) (s : State) : (mapReads e s).ops = s.ops :=
  mapReads_keeps State.ops (fun _ _ _ => rfl) (fun _ _ => rfl) (fun _ _ _ => rfl) e s
@[simp] theorem mapReads_sch (e : Entry) (s : State) : (mapReads e s).sch = s.sch :=
  mapReads_keeps State.sch (fun _ _ _ => rfl) (fun _ _ => rfl) (fun _ _ _ => rfl) e s
@[simp] theorem mapReads_map (e : Entry) (s : State) : (mapReads e s).map = s.map :=
  mapReads_keeps State.map (fun _ _ _ => rfl) (fun _ _ => rfl) (fun _ _ _ => rfl) e s
@[simp] theorem tagOf_mapReads (k : Nat) (e : Entry) (s : State) : tagOf k (mapReads e s) = tagOf k s :=
  tagOf_of_ops (mapReads_ops e s) k

/-- 04 R93: a RAW entry has no permission. -/
theorem permitted_raw {e : Entry} (f : Nat) (s : State) (h : eOpcode e = opRaw) : permitted f e s = false := by
  simp [permitted, h, opBit, opRaw, opRead, opReadMp, opProgram, opErase, opCopy, opDestage, opStage, opCensus,
    opCalibrate, opFeatureGet, opFeatureSet, opFence, opNop]

/-- 04 R110: a FENCE or NOP needs none. -/
theorem permitted_fence_nop {e : Entry} (f : Nat) (s : State) (h : eOpcode e = opFence ∨ eOpcode e = opNop) :
    permitted f e s = true := by
  simp only [permitted]
  rw [if_pos h]

/-! ### Refusal -/

/-- 05 R116: a refused entry commits with the status of the check. -/
theorem refuse_commits {t st : Nat} {slack : Int} {s : State} (hfree : (tagOf t s).state ≠ .free)
    (hopen : (tagOf t s).state ≠ .committed) :
    (tagOf t (refuse t st slack s)).state = .committed ∧ (tagOf t (refuse t st slack s)).status = st := by
  unfold refuse
  extract_lets x v noted freed marked
  have hnoted : noted.ops = s.ops := by
    simp only [noted]
    split
    · rw [raiseEvt_ops, setReg_ops, setReg_ops]
    · rfl
  have hfreed : freed.ops = noted.ops := by simp only [freed]; split <;> simp [freeRecsOf]
  have hstate : (tagOf t marked).state = (tagOf t s).state := by
    rw [show tagOf t marked = _ from tagOf_setTag_same .., tagOf_of_ops (hfreed.trans hnoted)]
  exact commitTag_status (reachedNow_of_open rankOwn (by rwa [hstate]) (by rwa [hstate]))

/-! ### Admission -/

/-- The row of an admitted entry (05 R116 to R119). -/
def queuedRow (x : TagRow) (u : State) : TagRow :=
  { x with state := .queued, slack := if eClass x.entry = clsNone then 0 else slackOf x.entry x.order u,
           key := entryKey x.entry u, armed := decide (eClass x.entry ≠ clsNone) && dueSoon x.entry u }

/-- The state in which the work of an admitted entry begins. -/
def admitted (t : Nat) (s : State) : State :=
  let u := mapReads (tagOf t s).entry s
  bump .ops 1 (setTag t (queuedRow (tagOf t s) u) u)

/-- The status that admission gives tag t. -/
def admissionStatus (t : Nat) (s : State) : Nat :=
  let x := tagOf t s
  admitStatus x.allowed x.takenAt x.entry x.order (mapReads x.entry s)

theorem admitTag_refused {t : Nat} {s : State} (hfree : (tagOf t s).state ≠ .free)
    (hopen : (tagOf t s).state ≠ .committed) (h : admissionStatus t s ≠ 0) :
    (tagOf t (admitTag t s)).state = .committed ∧ (tagOf t (admitTag t s)).status = admissionStatus t s := by
  unfold admissionStatus at h ⊢
  simp only [admitTag]
  rw [if_pos h]
  exact refuse_commits (by rwa [tagOf_mapReads]) (by rwa [tagOf_mapReads])

theorem admitTag_admitted {t : Nat} {s : State} (h : admissionStatus t s = 0) :
    admitTag t s = beginWork t (admitted t s) := by
  unfold admissionStatus at h
  simp only [admitTag]
  rw [if_neg (not_not.mpr h), modTag_eq, tagOf_mapReads]
  rfl

@[simp] theorem tagOf_admitted (t : Nat) (s : State) :
    tagOf t (admitted t s) = queuedRow (tagOf t s) (mapReads (tagOf t s).entry s) := by
  rw [admitted, tagOf_of_ops (bump_ops ..), tagOf_setTag_same]

/-! ### Entries without work at a die -/

/-- 04 R110: a NOP is done when it is admitted. -/
theorem beginWork_nop {t : Nat} {s : State} (h : eOpcode (tagOf t s).entry = opNop) :
    beginWork t s = commitTag t stOk rankOwn s := by
  simp [beginWork, h, readType, opRead, opReadMp, opDestage, opCopy, opCalibrate, opProgram, opStage, opErase, opFeatureGet,
    opFeatureSet, opNop]

/-- A FENCE and a CENSUS have no work of a die. -/
theorem beginWork_none {t : Nat} {s : State}
    (h : eOpcode (tagOf t s).entry = opFence ∨ eOpcode (tagOf t s).entry = opCensus) : beginWork t s = s := by
  rcases h with h | h <;>
    simp [beginWork, h, readType, opRead, opReadMp, opDestage, opCopy, opCalibrate, opProgram, opStage, opErase, opFeatureGet,
      opFeatureSet, opNop, opFence, opCensus]

/-! ### Admission judges -/

/-- The order of Table 5.3. -/
theorem admissionJudges : Claims.AdmissionJudges := by
  intro t s hfenced x e u st bad q
  have hfree : x.state ≠ .free := by rw [show x.state = .fenced from hfenced]; decide
  have hopen : x.state ≠ .committed := by rw [show x.state = .fenced from hfenced]; decide
  refine ⟨mapReads_only e s, permitted_raw x.fn s, permitted_fence_nop x.fn s, fun h => ?_, fun h h2 => ?_,
    fun h h2 h3 => ?_, fun h h2 h3 h4 => ?_, fun h h2 h3 h4 h5 => ?_, fun h h2 h3 h4 h5 => ?_, fun h => ?_,
    fun h ho => ?_, fun h ho => ?_⟩
  · simp [st, admitStatus, h, stPermission]
  · simp [st, admitStatus, h, h2, stQuarantined]
  · simp [st, admitStatus, h, h2, h3, stChannelLost]
  · simp [st, admitStatus, h, h2, h3, show writtenAny (blockBadFor x.takenAt) e u = true from h4, stBlockBad]
  · simp [st, admitStatus, h, h2, h3, show writtenAny (blockBadFor x.takenAt) e u = false from h4, h5, stConflict]
  · simp only [st, admitStatus, h, h2, h3, show writtenAny (blockBadFor x.takenAt) e u = false from h4, h5]
    rfl
  · exact admitTag_refused hfree hopen h
  · have hrow : (tagOf t (admitted t s)).state = .queued := by rw [tagOf_admitted, queuedRow]
    rw [admitTag_admitted h, beginWork_nop (by rwa [tagOf_admitted])]
    exact commitTag_status (reachedNow_of_open rankOwn (by rw [hrow]; decide) (by rw [hrow]; decide))
  · rw [admitTag_admitted h, beginWork_none (by rwa [tagOf_admitted])]
    rfl

end Sys2Proof.Machine
end

section
/-!
The work of an admitted operation: what joins the queue of its die, and the intent of an ERASE (O34).
-/

namespace Sys2Proof.Machine

/-! ### The queue of a die -/

/-- The check of a suspension leaves the queues. -/
theorem queue_recheck (k d : Nat) (s : State) : (dieOf k (recheck d s)).queue = (dieOf k s).queue := by
  have hset (x : Die) (hx : x.queue = (dieOf d s).queue) : (dieOf k (setDie d x s)).queue = (dieOf k s).queue := by
    by_cases hk : k = d
    · rw [hk, dieOf_setDie_same, hx]
    · rw [dieOf_setDie_other x s hk]
  simp only [recheck]
  split
  · exact hset _ rfl
  · split
    · exact hset _ rfl
    · rfl

/-- 07 R145: an item joins the queue of its die behind what waits there. -/
theorem queue_enqueue (d : Nat) (it : QItem) (s : State) :
    (dieOf d (enqueue d it s)).queue = (dieOf d s).queue ++ [it] := by
  rw [enqueue, queue_recheck, modDie_eq, dieOf_setDie_same]

@[simp] theorem enqueue_ops (d : Nat) (it : QItem) (s : State) : (enqueue d it s).ops = s.ops := by
  rw [enqueue, recheck_ops, modDie_eq, setDie_ops]

theorem dieOf_of_sch {s u : State} (h : u.sch = s.sch) (k : Nat) : dieOf k u = dieOf k s := by
  simp only [dieOf, h]

/-! ### The planes of a read -/

/-- A number below 16 is the sum of its bits. -/
theorem sum_planesOf : ∀ m < 16, (planesOf m).foldl (fun a p => a + 2 ^ p) 0 = m := by decide

/-- Each plane of a non-empty range of codewords is found once. -/
theorem planes_of_cws : ∀ m < 16, ∀ hi < 4, ∀ lo ≤ hi,
    ((((planesOf m).flatMap fun p => ((List.range (hi + 1)).filter fun i => decide (lo ≤ i)).map fun i =>
      ({ plane := p, idx := i } : CwId)).map (·.plane)).dedup) = planesOf m := by decide

theorem ePlanes_lt (e : Entry) : ePlanes e < 16 := by
  have hmask : ePmask e < 16 := Nat.mod_lt _ (by decide)
  have hplane : paPlane (ePaddr e) < 4 := Nat.mod_lt _ (by decide)
  simp only [ePlanes]
  split
  · exact hmask
  · calc 2 ^ paPlane (ePaddr e) ≤ 2 ^ 3 := Nat.pow_le_pow_right (by decide) (by omega)
      _ < 16 := by decide

/-- The entry names at least one codeword of a plane (05 R122). -/
def namesCws (e : Entry) : Prop :=
  eOpcode e = opCopy ∨ eOpcode e = opCalibrate ∨ eCwFirst e ≤ eCwLast e

/-- The sense of a read takes the planes of the entry. -/
theorem planes_firstCws {e : Entry} (h : namesCws e) :
    (((firstCws e).map (·.plane)).dedup).foldl (fun a p => a + 2 ^ p) 0 = ePlanes e := by
  have hlast : eCwLast e < 4 := Nat.mod_lt _ (by decide)
  have hplanes : ((firstCws e).map (·.plane)).dedup = planesOf (ePlanes e) := by
    simp only [firstCws]
    refine planes_of_cws _ (ePlanes_lt e) _ ?_ _ ?_
    · split <;> omega
    · by_cases hw : (decide (eOpcode e = opCopy) || decide (eOpcode e = opCalibrate)) = true
      · simp [hw]
      · rw [if_neg hw, if_neg hw]
        simp only [Bool.or_eq_true, decide_eq_true_eq, not_or] at hw
        rcases h with h | h | h
        · exact absurd h hw.1
        · exact absurd h hw.2
        · exact h
  rw [hplanes, sum_planesOf _ (ePlanes_lt e)]

/-! ### The sense of a page -/

/-- No program of a status OK_EARLY holds data (their keys lie above the tags). -/
def noEarlyRows (s : State) : Prop := ∀ y ∈ s.ops.tags, y.1 < 65536

theorem noEarlyRows_setTag {t : Nat} (x : TagRow) {s : State} (ht : t < 65536) (h : noEarlyRows s) :
    noEarlyRows (setTag t x s) := by
  intro y hy
  rw [setTag_ops] at hy
  simp only [SMap.put] at hy
  split at hy
  · exact h y (SMap.mem_erase hy)
  · rcases SMap.mem_insert hy with rfl | hy
    · exact ht
    · exact h y (SMap.mem_erase hy)

theorem noEarlyRows_of_ops {s u : State} (h : u.ops = s.ops) (hs : noEarlyRows s) : noEarlyRows u := by
  rw [noEarlyRows, h]
  exact hs

theorem stagedCws_nil {s : State} (id page : Nat) (h : noEarlyRows s) : stagedCws id page s = [] := by
  have hnone (d plane block : Nat) (slc : Bool) : earlyHolder d plane block page slc s = none := by
    simp only [earlyHolder]
    rw [List.filterMap_eq_nil_iff.mpr fun y hy => if_neg fun hc => absurd hc.1 (Nat.not_le.mpr (h y hy))]
    rfl
  simp [stagedCws, stagedPlanes, hnone]

/-- The sense of a page whose entry names codewords. -/
def senseItem (t page : Nat) (s : State) : QItem := { entryItem t .sense s with page := page }

theorem queue_enqueueSense {t page : Nat} {s : State} (ht : t < 65536) (hcws : namesCws (tagOf t s).entry)
    (htodo : (tagOf t s).todo = firstCws (tagOf t s).entry) :
    (dieOf (paDie (ePaddr (tagOf t s).entry)) (enqueueSense t page 0 0 s)).queue
      = (dieOf (paDie (ePaddr (tagOf t s).entry)) s).queue ++ [senseItem t page s] := by
  have hjob : isJob t = false := decide_eq_false (by omega)
  simp only [enqueueSense, queueSense, modTag_eq]
  rw [queue_enqueue, htodo, planes_firstCws hcws]
  simp only [idRank, hjob, tagOf_setTag_same]
  rfl

theorem tagOf_enqueueSense (t page : Nat) (s : State) :
    tagOf t (enqueueSense t page 0 0 s) = { tagOf t s with rung := 0, attempt := 0 } := by
  simp only [enqueueSense, queueSense, modTag_eq]
  rw [tagOf_of_ops (enqueue_ops ..), tagOf_setTag_same]

/-- A page of which nothing stands in staging is sensed. -/
theorem readPage_unstaged {f t page : Nat} {s : State}
    (h : readType (idOp t s) = true → stagedCws t page s = []) :
    readPage (f + 1) t page s = enqueueSense t page 0 0 (setTag t { tagOf t s with pageWait := none } s) := by
  have hnil : (if readType (idOp t s) && !isJob t then stagedCws t page s else []) = [] := by
    split
    · next hread => exact h (Bool.and_eq_true_iff.mp hread).1
    · rfl
  simp only [readPage]
  rw [hnil, modTag_eq]
  rfl

/-! ### The first work of a read -/

theorem beginWork_read {t : Nat} {s : State} (ht : t < 65536) (hcws : namesCws (tagOf t s).entry)
    (hop : readType (eOpcode (tagOf t s).entry) = true ∧ noEarlyRows s ∨ eOpcode (tagOf t s).entry = opCalibrate) :
    (dieOf (paDie (ePaddr (tagOf t s).entry)) (beginWork t s)).queue
      = (dieOf (paDie (ePaddr (tagOf t s).entry)) s).queue ++ [senseItem t (firstPage (tagOf t s).entry s) s]
    ∧ tagOf t (beginWork t s)
      = { tagOf t s with todo := firstCws (tagOf t s).entry, pageWait := none, rung := 0, attempt := 0 } := by
  have hbegin : readType (eOpcode (tagOf t s).entry) = true ∨ eOpcode (tagOf t s).entry = opCalibrate :=
    hop.imp_left And.left
  have hstaged : readType (idOp t (setTag t { tagOf t s with todo := firstCws (tagOf t s).entry } s)) = true →
      stagedCws t (firstPage (tagOf t s).entry s)
        (setTag t { tagOf t s with todo := firstCws (tagOf t s).entry } s) = [] := by
    rw [idOp, tagOf_setTag_same]
    intro hread
    rcases hop with ⟨-, hlow⟩ | hcal
    · exact stagedCws_nil _ _ (noEarlyRows_setTag _ ht hlow)
    · rw [hcal] at hread
      exact absurd hread (by decide)
  simp only [beginWork, if_pos hbegin, modTag_eq]
  rw [readPage_unstaged hstaged, tagOf_setTag_same, setTag_setTag]
  constructor
  · have hsense := queue_enqueueSense (page := firstPage (tagOf t s).entry s) (s := setTag t { tagOf t s with
      todo := firstCws (tagOf t s).entry, pageWait := none } s) ht
      (by rw [tagOf_setTag_same]; exact hcws) (by rw [tagOf_setTag_same])
    simp only [senseItem, entryItem, tagOf_setTag_same] at hsense ⊢
    exact hsense
  · rw [tagOf_enqueueSense, tagOf_setTag_same]

/-! ### The fetch of a program's data -/

/-- The pages of its data for which DPT holds granules already. -/
def pagesHeld (t : Nat) (s : State) : Nat :=
  ((progOf t s).map (·.granules)).getD 0 / max 1 (pageGran (paDie (ePaddr (tagOf t s).entry)) s)

/-- 10 R248, R249: DPT grants a page more. -/
def grantsPage (t : Nat) (s : State) : Bool :=
  let e := (tagOf t s).entry
  let g := pageGran (paDie (ePaddr e)) s
  pageActive .dpt s && pageActive .ecc s && decide (pagesHeld t s < progPages e s)
    && (if decide (eClass e = clsEarly) then grantEarly g s else grantOther g s)

/-- DPT holds the granules of a page more. -/
def pageHeld (t : Nat) (s : State) : State :=
  let e := (tagOf t s).entry
  let g := pageGran (paDie (ePaddr e)) s
  match progOf t s with
  | some _ => modProg t (fun p => { p with granules := p.granules + g }) s
  | none => { s with dpt.progs := s.dpt.progs ++ [{ id := t, granules := g, early := decide (eClass e = clsEarly) }] }

/-- A page is held and counted, and its tag ISSUED. -/
def pageIssued (t : Nat) (s : State) : State :=
  let w := notePeak (bump .dpt 0 (pageHeld t s))
  setTag t { tagOf t w with state := .issued } w

/-- The reads of the next page's data. -/
def pageReads (t : Nat) (s u : State) : State :=
  let x := tagOf t s
  let d := paDie (ePaddr x.entry)
  let n := pagesHeld t s
  fabReads (dieChannel d % 4) (eBuffer x.entry + n * 16384) 16384 0
    (fun off => .program t x.order (dieChannel d) (n * 16384 + off)) u

theorem fetchPage_refused {t : Nat} {s : State} (h : grantsPage t s = false) : fetchPage t s = (s, false) := by
  simp only [fetchPage]
  split
  · rfl
  · next hserves =>
    change ¬(!(pageActive .dpt s && pageActive .ecc s) || decide (progPages (tagOf t s).entry s ≤ pagesHeld t s)) = true
      at hserves
    have hmore : (pageActive .dpt s && pageActive .ecc s && decide (pagesHeld t s < progPages (tagOf t s).entry s))
        = true := by simpa using hserves
    simp only [grantsPage, hmore, Bool.true_and] at h
    rw [if_pos (by rw [h]; rfl)]

theorem fetchPage_granted {t : Nat} {s : State} (h : grantsPage t s = true) :
    fetchPage t s = (pageReads t s (pageIssued t s), true) := by
  obtain ⟨hmore, hgrant⟩ := Bool.and_eq_true_iff.mp h
  have hserves : ¬(!(pageActive .dpt s && pageActive .ecc s) || decide (progPages (tagOf t s).entry s ≤ pagesHeld t s))
      = true := by simpa using hmore
  refine (if_neg hserves).trans (if_neg ?_)
  rw [hgrant]
  decide

section
variable {α : Type} {t : Nat} (f : State → α) (hh : ∀ p h s, f (setHdr p h s) = f s)
  (hfab : ∀ k v s, f (setFab k v s) = f s) (hdpt : ∀ x s, f { s with dpt := x } = f s)
  (hrow : ∀ st b s, f (setTag t { tagOf t s with state := st, fetchWait := b } s) = f s)
include hh hfab hdpt hrow

/-- 10 R248: the fetch of a page is of the ports, of DPT and of the state of the tag. -/
theorem fetchPage_keeps (s : State) : f (fetchPage t s).1 = f s := by
  cases hgrant : grantsPage t s with
  | false => rw [fetchPage_refused hgrant]
  | true =>
    rw [fetchPage_granted hgrant]
    have hheld : f (pageHeld t s) = f s := by
      simp only [pageHeld]
      split <;> exact hdpt _ _
    have hissued (w : State) : f (setTag t { tagOf t w with state := .issued } w) = f w :=
      hrow .issued (tagOf t w).fetchWait w
    have hpeak (w : State) : f (notePeak w) = f w := hdpt _ w
    rw [pageReads, fabReads_keeps f hfab, pageIssued, hissued, hpeak, bump_keeps f hh, hheld]

theorem fetchPages_keeps (n : Nat) (s : State) : f (fetchPages n t s) = f s := by
  have hwait (b : Bool) (s : State) : f (modTag t (fun x => { x with fetchWait := b }) s) = f s := by
    rw [modTag_eq]
    exact hrow (tagOf t s).state b s
  induction n generalizing s with
  | zero => exact hwait false s
  | succ n ih =>
    simp only [fetchPages]
    split
    · exact hwait false s
    · split
      · rw [ih, fetchPage_keeps f hh hfab hdpt hrow]
      · rw [hwait, fetchPage_keeps f hh hfab hdpt hrow]

end

@[simp] theorem fetchPages_sch (n t : Nat) (s : State) : (fetchPages n t s).sch = s.sch :=
  fetchPages_keeps State.sch (fun _ _ _ => rfl) (fun _ _ _ => rfl) (fun _ _ => rfl) (fun _ _ _ => rfl) n s

theorem dataLeft_fetchPages (n t : Nat) (s : State) : (tagOf t (fetchPages n t s)).dataLeft = (tagOf t s).dataLeft :=
  fetchPages_keeps (fun u => (tagOf t u).dataLeft) (fun _ _ _ => rfl) (fun _ _ _ => rfl) (fun _ _ => rfl)
    (fun _ _ _ => by rw [tagOf_setTag_same]) n s

/-! ### The first work of the other operations -/

/-- The state in which the data of a program or of a STAGE is awaited and the program waits in the queue. -/
def programQueued (t : Nat) (s : State) : State :=
  let e := (tagOf t s).entry
  let w := setTag t { tagOf t s with dataLeft := progPages e s * 16384 } s
  enqueue (paDie (ePaddr e)) (entryItem t .program w) w

theorem queue_programQueued (t : Nat) (s : State) :
    (dieOf (paDie (ePaddr (tagOf t s).entry)) (programQueued t s)).queue
      = (dieOf (paDie (ePaddr (tagOf t s).entry)) s).queue ++ [entryItem t .program s] := by
  rw [programQueued, queue_enqueue]
  simp only [entryItem, tagOf_setTag_same]
  rfl

theorem dataLeft_programQueued (t : Nat) (s : State) :
    (tagOf t (programQueued t s)).dataLeft = progPages (tagOf t s).entry s * 16384 := by
  rw [programQueued, tagOf_of_ops (enqueue_ops ..), tagOf_setTag_same]

theorem beginWork_program {t : Nat} {s : State} (h : eOpcode (tagOf t s).entry = opProgram) :
    ∃ n, beginWork t s = fetchPages n t (programQueued t s) := by
  simp only [beginWork, h, modTag_eq]
  exact ⟨_, rfl⟩

theorem armNext_keeps {α : Type} (f : State → α) (hdsp : ∀ k v s, f (setDsp k v s) = f s) (a : Nat) (s : State) :
    f (armNext a s) = f s := by
  unfold armNext
  split
  · rfl
  · split
    · exact hdsp _ _ _
    · rfl

/-- A STAGE waits for its place in the staging of its actuator as well (14 R350). -/
def stageWaits (t : Nat) (s : State) : State :=
  modDsp (eAct (tagOf t s).entry) (fun p => { p with armWait := p.armWait ++ [t] }) (programQueued t s)

theorem beginWork_stage {t : Nat} {s : State} (h : eOpcode (tagOf t s).entry = opStage) :
    beginWork t s = if pageActive (dspPage (eAct (tagOf t s).entry)) (programQueued t s) then
        armNext (eAct (tagOf t s).entry) (stageWaits t s)
      else stageWaits t s := by
  simp only [beginWork, h, modTag_eq]
  rfl

theorem beginWork_stage_keeps {α : Type} (f : State → α) (hdsp : ∀ k v s, f (setDsp k v s) = f s) {t : Nat} {s : State}
    (h : eOpcode (tagOf t s).entry = opStage) : f (beginWork t s) = f (programQueued t s) := by
  have hwaits : f (stageWaits t s) = f (programQueued t s) := hdsp _ _ _
  rw [beginWork_stage h]
  split
  · rw [armNext_keeps f hdsp, hwaits]
  · exact hwaits

theorem beginWork_erase {t : Nat} {s : State} (h : eOpcode (tagOf t s).entry = opErase) :
    beginWork t s = addIntent t (paDie (ePaddr (tagOf t s).entry)) (ePmask (tagOf t s).entry)
      (paBlock (ePaddr (tagOf t s).entry)) (slcOn (tagOf t s).entry (paDie (ePaddr (tagOf t s).entry)) s) s := by
  simp only [beginWork, h]
  rfl

theorem beginWork_featureGet {t : Nat} {s : State} (h : eOpcode (tagOf t s).entry = opFeatureGet) :
    beginWork t s = enqueue (paDie (ePaddr (tagOf t s).entry)) (entryItem t .featGet s) s := by
  simp only [beginWork, h]
  rfl

theorem beginWork_featureSet {t : Nat} {s : State} (h : eOpcode (tagOf t s).entry = opFeatureSet) :
    beginWork t s = enqueue (paDie (ePaddr (tagOf t s).entry)) (entryItem t .featSet s) s := by
  simp only [beginWork, h]
  rfl

/-! ### The work of an admitted operation -/

@[simp] theorem admitted_sch (t : Nat) (s : State) : (admitted t s).sch = s.sch := by
  rw [admitted, bump_sch, setTag_sch, mapReads_sch]

@[simp] theorem admitted_map (t : Nat) (s : State) : (admitted t s).map = s.map := by
  rw [admitted, bump_map, setTag_map, mapReads_map]

/-- What is read from the die tables and profiles is the same before and after the tag is queued. -/
theorem admitted_keeps {α : Type} (f : State → α) (hh : ∀ p h s, f (setHdr p h s) = f s)
    (ho : ∀ o s, f { s with ops := o } = f s) (t : Nat) (s : State) :
    f (admitted t s) = f (mapReads (tagOf t s).entry s) := by
  rw [admitted, bump_keeps f hh]
  exact ho _ _

theorem firstPage_of_ne_calibrate {e : Entry} {s : State} (h : eOpcode e ≠ opCalibrate) :
    firstPage e s = paPage (ePaddr e) := if_neg h

/-- The item with which the work of an admitted entry waits (07 R145). -/
def admittedItem (t : Nat) (k : DieOpKind) (s : State) : QItem :=
  let x := tagOf t s
  let u := mapReads x.entry s
  { id := t, kind := k, planes := ePlanes x.entry, block := paBlock (ePaddr x.entry), page := paPage (ePaddr x.entry),
    slc := slcOn x.entry (paDie (ePaddr x.entry)) u, rung := 0, attempt := 0, cls := classRank (eClass x.entry),
    key := entryKey x.entry u, order := x.order }

theorem entryItem_admitted (t : Nat) (k : DieOpKind) (s : State) :
    entryItem t k (admitted t s) = admittedItem t k s := by
  have hslc : slcOn (tagOf t s).entry (paDie (ePaddr (tagOf t s).entry)) (admitted t s)
      = slcOn (tagOf t s).entry (paDie (ePaddr (tagOf t s).entry)) (mapReads (tagOf t s).entry s) :=
    admitted_keeps (slcOn (tagOf t s).entry (paDie (ePaddr (tagOf t s).entry))) (fun _ _ _ => rfl) (fun _ _ => rfl) t s
  simp only [entryItem, tagOf_admitted, queuedRow, hslc]
  rfl

theorem noEarlyRows_admitted {t : Nat} {s : State} (ht : t < 65536) (h : noEarlyRows s) :
    noEarlyRows (admitted t s) :=
  noEarlyRows_of_ops (bump_ops ..) (noEarlyRows_setTag _ ht (noEarlyRows_of_ops (mapReads_ops ..) h))

section
variable {t : Nat} {s : State} (ht : t < 65536) (hadmitted : admissionStatus t s = 0)
include ht hadmitted

/-- A read joins the queue of its die with the sense of its first page. -/
theorem admitTag_read (hcws : namesCws (tagOf t s).entry)
    (hop : readType (eOpcode (tagOf t s).entry) = true ∧ noEarlyRows s ∨ eOpcode (tagOf t s).entry = opCalibrate) :
    (dieOf (paDie (ePaddr (tagOf t s).entry)) (admitTag t s)).queue
      = (dieOf (paDie (ePaddr (tagOf t s).entry)) s).queue
        ++ [{ admittedItem t .sense s with page := firstPage (tagOf t s).entry (mapReads (tagOf t s).entry s) }]
    ∧ (tagOf t (admitTag t s)).state = .queued ∧ (tagOf t (admitTag t s)).todo = firstCws (tagOf t s).entry := by
  have hentry : (tagOf t (admitted t s)).entry = (tagOf t s).entry := by rw [tagOf_admitted, queuedRow]
  have hpage : firstPage (tagOf t s).entry (admitted t s) = firstPage (tagOf t s).entry (mapReads (tagOf t s).entry s) :=
    admitted_keeps (firstPage (tagOf t s).entry) (fun _ _ _ => rfl) (fun _ _ => rfl) t s
  obtain ⟨hqueue, hrow⟩ := beginWork_read (t := t) (s := admitted t s) ht (by rwa [hentry])
    (by rw [hentry]; exact hop.imp_left fun h => ⟨h.1, noEarlyRows_admitted ht h.2⟩)
  rw [admitTag_admitted hadmitted]
  rw [hentry, hpage, dieOf_of_sch (admitted_sch t s), senseItem, entryItem_admitted] at hqueue
  exact ⟨hqueue, by rw [hrow, tagOf_admitted, queuedRow], by rw [hrow, hentry]⟩

omit ht in
/-- A FEATURE_GET or FEATURE_SET joins the queue of its die. -/
theorem admitTag_feature {k : DieOpKind}
    (h : beginWork t (admitted t s)
      = enqueue (paDie (ePaddr (tagOf t s).entry)) (entryItem t k (admitted t s)) (admitted t s)) :
    (dieOf (paDie (ePaddr (tagOf t s).entry)) (admitTag t s)).queue
      = (dieOf (paDie (ePaddr (tagOf t s).entry)) s).queue ++ [admittedItem t k s]
    ∧ (tagOf t (admitTag t s)).state = .queued := by
  rw [admitTag_admitted hadmitted, h, queue_enqueue, entryItem_admitted, dieOf_of_sch (admitted_sch t s),
    tagOf_of_ops (enqueue_ops ..), tagOf_admitted, queuedRow]
  exact ⟨rfl, rfl⟩

omit ht in
/-- The intent of an ERASE joins the forming batch. -/
theorem admitTag_erase (h : eOpcode (tagOf t s).entry = opErase) :
    (admitTag t s).sch = s.sch ∧ (tagOf t (admitTag t s)).state = .queued
    ∧ (admitTag t s).map.forming = s.map.forming ++ [
        { tag := t, die := paDie (ePaddr (tagOf t s).entry), planes := ePmask (tagOf t s).entry,
          slc := slcOn (tagOf t s).entry (paDie (ePaddr (tagOf t s).entry)) (mapReads (tagOf t s).entry s),
          block := paBlock (ePaddr (tagOf t s).entry) }] := by
  have hentry : (tagOf t (admitted t s)).entry = (tagOf t s).entry := by rw [tagOf_admitted, queuedRow]
  have hslc := admitted_keeps (slcOn (tagOf t s).entry (paDie (ePaddr (tagOf t s).entry))) (fun _ _ _ => rfl)
    (fun _ _ => rfl) t s
  rw [admitTag_admitted hadmitted, beginWork_erase (by rwa [hentry]), hentry, hslc]
  refine ⟨admitted_sch t s, ?_, ?_⟩
  · show (tagOf t (admitted t s)).state = .queued
    rw [tagOf_admitted, queuedRow]
  · rw [addIntent, admitted_map]

omit ht in
/-- The data of a PROGRAM or STAGE is awaited, and its program waits in the queue. -/
theorem admitTag_program
    (h : eOpcode (tagOf t s).entry = opProgram ∨ eOpcode (tagOf t s).entry = opStage) :
    (dieOf (paDie (ePaddr (tagOf t s).entry)) (admitTag t s)).queue
      = (dieOf (paDie (ePaddr (tagOf t s).entry)) s).queue ++ [admittedItem t .program s]
    ∧ (tagOf t (admitTag t s)).dataLeft = progPages (tagOf t s).entry (mapReads (tagOf t s).entry s) * 16384 := by
  have hentry : (tagOf t (admitted t s)).entry = (tagOf t s).entry := by rw [tagOf_admitted, queuedRow]
  have hpages : progPages (tagOf t s).entry (admitted t s) = progPages (tagOf t s).entry (mapReads (tagOf t s).entry s) :=
    admitted_keeps (progPages (tagOf t s).entry) (fun _ _ _ => rfl) (fun _ _ => rfl) t s
  have hqueue := queue_programQueued t (admitted t s)
  have hleft := dataLeft_programQueued t (admitted t s)
  rw [hentry, entryItem_admitted, dieOf_of_sch (admitted_sch t s)] at hqueue
  rw [hentry, hpages] at hleft
  have hbegin : (beginWork t (admitted t s)).sch = (programQueued t (admitted t s)).sch
      ∧ (tagOf t (beginWork t (admitted t s))).dataLeft = (tagOf t (programQueued t (admitted t s))).dataLeft := by
    rcases h with h | h
    · obtain ⟨n, hn⟩ := beginWork_program (t := t) (s := admitted t s) (by rwa [hentry])
      rw [hn]
      exact ⟨fetchPages_sch .., dataLeft_fetchPages ..⟩
    · have hstage : eOpcode (tagOf t (admitted t s)).entry = opStage := by rwa [hentry]
      exact ⟨beginWork_stage_keeps State.sch (fun _ _ _ => rfl) hstage,
        beginWork_stage_keeps (fun u => (tagOf t u).dataLeft) (fun _ _ _ => rfl) hstage⟩
  rw [admitTag_admitted hadmitted]
  exact ⟨(congrArg Die.queue (dieOf_of_sch hbegin.1 _)).trans hqueue, hbegin.2.trans hleft⟩

end

/-- 05 R116, 07 R145, 08 R181, 11 R264, 14 R350: the work of each opcode. -/
theorem admittedWorkQueued : Claims.AdmittedWorkQueued := by
  intro t s ht hfenced x e o d u item v hadmitted
  have hentry : (tagOf t (admitted t s)).entry = e := by rw [tagOf_admitted, queuedRow]
  have hstatus : admissionStatus t s = 0 := hadmitted
  have hplain {k : DieOpKind} (h : o ≠ 0x29) : item k = admittedItem t k s := by
    simp only [item, if_neg h]
    rfl
  refine ⟨fun ho => ?_, fun ho hcws hkeys => ?_, fun ho => ?_, fun ho => ?_, fun ho => ?_, fun ho => ?_⟩
  · have hitem : item .sense = { admittedItem t .sense s with page := firstPage e u } := by
      simp only [item, if_pos ho]
      rfl
    rw [hitem]
    exact admitTag_read ht hstatus (.inr (.inl ho)) (.inr ho)
  · have hread : readType o = true := by rcases ho with ho | ho | ho | ho <;> rw [ho] <;> decide
    have hlow : noEarlyRows s := fun y hy => of_decide_eq_true (List.all_eq_true.mp hkeys y hy)
    have hitem : item .sense = { admittedItem t .sense s with page := firstPage e u } := by
      have hcal : o ≠ 0x29 := by rcases ho with ho | ho | ho | ho <;> rw [ho] <;> decide
      rw [hplain hcal, firstPage_of_ne_calibrate hcal]
      rfl
    rw [hitem]
    exact admitTag_read ht hstatus (hcws.elim .inl fun h => .inr (.inr h)) (.inl ⟨hread, hlow⟩)
  · obtain ⟨hsch, hstate, hforming⟩ := admitTag_erase hstatus ho
    exact ⟨congrArg Die.queue (dieOf_of_sch hsch d), hstate, hforming⟩
  · rw [hplain (by rw [ho]; decide)]
    have hbegin := beginWork_featureGet (t := t) (s := admitted t s) (by rw [hentry]; exact ho)
    exact admitTag_feature hstatus (by rw [hbegin, hentry])
  · rw [hplain (by rw [ho]; decide)]
    have hbegin := beginWork_featureSet (t := t) (s := admitted t s) (by rw [hentry]; exact ho)
    exact admitTag_feature hstatus (by rw [hbegin, hentry])
  · rw [hplain (by rcases ho with ho | ho <;> rw [ho] <;> decide)]
    exact admitTag_program hstatus ho

/-- Settles O34: what a commitment fixes, the order of the checks, and the work of each opcode. -/
theorem commitmentAndAdmission : Obligations.CommitmentAndAdmission :=
  ⟨commitmentFixesStatus, admissionJudges, admittedWorkQueued⟩

end Sys2Proof.Machine
end

section
/-!
Responses of data writes and the return of program data (O36).
-/

namespace Sys2Proof.Machine

/-! ### What an event reads of a tag -/

/-- Whether an event reaches a tag depends on the row of the tag and on the cc. -/
theorem reachedNow_congr {t : Nat} {s u : State} (rank : Nat) (hrow : tagOf t u = tagOf t s) (hcc : u.cc = s.cc) :
    reachedNow t rank u = reachedNow t rank s := by
  simp only [reachedNow, tagOpen, hrow, hcc]

/-- A failed operation of a tag commits with its status: a tag is no job and no key of an OK_EARLY program. -/
theorem failOp_tag {t : Nat} (st rank : Nat) (s : State) (ht : t < 65536) :
    failOp t st rank s = commitTag t st rank s := by
  have hjob : isJob t = false := decide_eq_false (by omega)
  have hearly : isEarlyKey t = false := decide_eq_false (by omega)
  simp only [failOp, hjob, hearly, Bool.false_eq_true, if_false]

theorem noteDataError_keeps {α : Type} (f : State → α) (hh : ∀ p h s, f (setHdr p h s) = f s) (stat c : Nat) (s : State) :
    f (noteDataError stat c s) = f s := by
  rw [noteDataError, bump_keeps f hh, raiseErr_keeps f hh, raiseEvt_keeps f hh]

/-- 10 R251: an error commits FABRIC_ERROR. -/
theorem dataError_commits {t : Nat} {s : State} (stat : Nat) (ht : t < 65536) (h : reachedNow t rankOwn s = true) :
    (tagOf t (dataError t stat s)).state = .committed ∧ (tagOf t (dataError t stat s)).status = stFabric := by
  rw [dataError, failOp_tag stFabric rankOwn _ ht]
  refine commitTag_status ?_
  rw [noteDataError_keeps (reachedNow t rankOwn) fun _ _ _ => rfl]
  exact h

/-! ### Responses of data writes -/

/-- The end of a write changes its port alone. -/
theorem writeOver_keeps {α : Type} (f : State → α) (hfab : ∀ k v s, f (setFab k v s) = f s) (p : PortId) (tkt : BitVec 9)
    (s : State) : f (writeOver p tkt s) = f s := by
  rw [writeOver, drain_eq, hfab, modFab_eq, hfab]

@[simp] theorem tagOf_writeOver (t : Nat) (p : PortId) (tkt : BitVec 9) (s : State) :
    tagOf t (writeOver p tkt s) = tagOf t s :=
  writeOver_keeps (tagOf t) (fun _ _ _ => rfl) p tkt s

/-- An answered codeword is staging's matter. -/
@[simp] theorem tagOf_cwAnswered (k t plane idx : Nat) (s : State) : tagOf k (cwAnswered t plane idx s) = tagOf k s := rfl

/-- The row after a response: a write less is outstanding. -/
def answeredRow (x : TagRow) : TagRow := { x with wrOut := x.wrOut - 1 }

/-- The state after a response of a tag's write, before its result is judged. -/
def answered (t : Nat) (s : State) : State :=
  let u := setTag t (answeredRow (tagOf t s)) s
  if (answeredRow (tagOf t s)).wrOut = 0 then readerDone t u else u

@[simp] theorem tagOf_answered (t : Nat) (s : State) : tagOf t (answered t s) = answeredRow (tagOf t s) := by
  simp only [answered]
  split
  · rw [tagOf_of_ops (readerDone_ops ..), tagOf_setTag_same]
  · rw [tagOf_setTag_same]

theorem writeAnswered_eq (t : Nat) (stat : BitVec 2) (s : State) :
    writeAnswered t stat s =
      if eOpcode (tagOf t s).entry = opErase then completeTag t (answered t s)
      else if statOk stat then finishRead t (answered t s)
      else if (tagOf t s).state = .committed ∧ reachedNow t rankOwn (answered t s) = false then
        completeTag t (noteDataError stat.toNat (paChannel (ePaddr (tagOf t s).entry)) (answered t s))
      else dataError t stat.toNat (answered t s) := by
  simp only [writeAnswered, modTag_eq, tagOf_setTag_same]
  rfl

/-- The last response of a read whose codewords have all left commits it. -/
theorem writeAnswered_last {t : Nat} {s : State} (hissued : (tagOf t s).state = .issued)
    (hop : eOpcode (tagOf t s).entry = opRead ∨ eOpcode (tagOf t s).entry = opReadMp) (htodo : (tagOf t s).todo = [])
    (hout : (tagOf t s).wrOut = 1) :
    (tagOf t (writeAnswered t 0 s)).state = .committed
    ∧ (tagOf t (writeAnswered t 0 s)).status = (if (tagOf t s).maxRung = 0 then stOk else stRecovered) := by
  have hnotErase : eOpcode (tagOf t s).entry ≠ opErase := by rcases hop with h | h <;> rw [h] <;> decide
  have hreach : reachedNow t rankOwn (answered t s) = true :=
    reachedNow_of_open rankOwn (by rw [tagOf_answered, answeredRow, hissued]; decide)
      (by rw [tagOf_answered, answeredRow, hissued]; decide)
  have hover : reachedNow t rankOwn (answered t s) = true
      ∧ (eOpcode (tagOf t (answered t s)).entry = opRead ∨ eOpcode (tagOf t (answered t s)).entry = opReadMp)
      ∧ (tagOf t (answered t s)).todo = [] ∧ (tagOf t (answered t s)).wrOut = 0 := by
    rw [tagOf_answered, answeredRow, hout]
    exact ⟨hreach, hop, htodo, rfl⟩
  have hstatus : okStatus t (answered t s) = if (tagOf t s).maxRung = 0 then stOk else stRecovered := by
    rw [okStatus, tagOf_answered, answeredRow]
  rw [writeAnswered_eq, if_neg hnotErase, if_pos (by decide), finishRead, if_pos hover, ← hstatus]
  exact commitTag_status hreach

/-- A response with an error commits an open tag, the counts of an ERASE apart. -/
theorem writeAnswered_error {t : Nat} {stat : BitVec 2} {s : State} (hstat : stat ≠ 0) (ht : t < 65536)
    (hop : eOpcode (tagOf t s).entry ≠ opErase) (hfree : (tagOf t s).state ≠ .free)
    (hopen : (tagOf t s).state ≠ .committed) :
    (tagOf t (writeAnswered t stat s)).state = .committed ∧ (tagOf t (writeAnswered t stat s)).status = stFabric := by
  have hbad : ¬statOk stat = true := by simpa [statOk] using hstat
  rw [writeAnswered_eq, if_neg hop, if_neg hbad, if_neg fun h => hopen h.1]
  exact dataError_commits stat.toNat ht
    (reachedNow_of_open rankOwn (by rw [tagOf_answered]; exact hfree) (by rw [tagOf_answered]; exact hopen))

theorem reportAnswered_eq (t : Nat) (stat : BitVec 2) (s : State) :
    reportAnswered t stat s =
      let x := answeredRow (tagOf t s)
      let u := setTag t x s
      if !statOk stat then
        if x.state = .committed ∧ reachedNow t rankOwn u = false then
          completeTag t (noteDataError stat.toNat (paChannel (ePaddr x.entry)) u)
        else dataError t stat.toNat u
      else if x.state = .committed ∧ ¬(x.wrOut = 0 ∧ reachedNow t rankOwn u = true) then completeTag t u
      else if x.wrOut = 0 then commitTag t stOk rankOwn u
      else u := by
  simp only [reportAnswered, modTag_eq, tagOf_setTag_same]
  rfl

section
variable {t : Nat} {s : State} (hfree : (tagOf t s).state ≠ .free) (hopen : (tagOf t s).state ≠ .committed)

include hfree hopen in
/-- The row of an open report stays open with a write less. -/
theorem reachedNow_answeredRow (rank : Nat) : reachedNow t rank (setTag t (answeredRow (tagOf t s)) s) = true :=
  reachedNow_of_open rank (by rw [tagOf_setTag_same]; exact hfree) (by rw [tagOf_setTag_same]; exact hopen)

include hopen in
theorem reportAnswered_more (h : 1 < (tagOf t s).wrOut) :
    reportAnswered t 0 s = setTag t (answeredRow (tagOf t s)) s := by
  have hmore : (answeredRow (tagOf t s)).wrOut ≠ 0 := Nat.sub_ne_zero_of_lt h
  rw [reportAnswered_eq]
  exact (if_neg (by decide)).trans ((if_neg fun hc => hopen hc.1).trans (if_neg hmore))

include hfree hopen in
theorem reportAnswered_last (h : (tagOf t s).wrOut = 1) :
    (tagOf t (reportAnswered t 0 s)).state = .committed ∧ (tagOf t (reportAnswered t 0 s)).status = stOk := by
  have hlast : (answeredRow (tagOf t s)).wrOut = 0 := by rw [answeredRow, h]
  have hcommits : reportAnswered t 0 s = commitTag t stOk rankOwn (setTag t (answeredRow (tagOf t s)) s) := by
    rw [reportAnswered_eq]
    exact (if_neg (by decide)).trans ((if_neg fun hc => hopen hc.1).trans (if_pos hlast))
  rw [hcommits]
  exact commitTag_status (reachedNow_answeredRow hfree hopen rankOwn)

include hfree hopen in
theorem reportAnswered_error {stat : BitVec 2} (hstat : stat ≠ 0) (ht : t < 65536) :
    (tagOf t (reportAnswered t stat s)).state = .committed
    ∧ (tagOf t (reportAnswered t stat s)).status = stFabric := by
  have hbad : (!statOk stat) = true := by simpa [statOk] using hstat
  have hfails : reportAnswered t stat s = dataError t stat.toNat (setTag t (answeredRow (tagOf t s)) s) := by
    rw [reportAnswered_eq]
    exact (if_pos hbad).trans (if_neg fun hc => hopen hc.1)
  rw [hfails]
  exact dataError_commits stat.toNat ht (reachedNow_answeredRow hfree hopen rankOwn)

end

/-- 01 R17, 10 R250, R251: what a response does, by what was written. -/
theorem dataWritesAnswered : Claims.DataWritesAnswered := by
  intro p tkt stat s q hq u
  have hcw (t plane idx : Nat) : tagOf t (cwAnswered t plane idx u) = tagOf t s := by
    rw [tagOf_cwAnswered, tagOf_writeOver]
  have hexec : exec (.dataWriteResponse p tkt stat) s = .next (settle (dataWriteResponse p tkt stat s)) := rfl
  refine ⟨fun hmap => ?_, fun t plane idx hdata hstat hissued hop htodo hout => ?_,
    fun t plane idx hdata hstat ht hop hfree hopen => ?_, ?_⟩
  · rw [hexec, dataWriteResponse, hq]
    simp only [hmap]
    rfl
  · have hlast := writeAnswered_last (t := t) (s := cwAnswered t plane idx u) (by rwa [hcw]) (by rwa [hcw])
      (by rwa [hcw]) (by rwa [hcw])
    rw [hcw] at hlast
    refine ⟨writeAnswered t 0 (cwAnswered t plane idx u), ?_, hlast⟩
    rw [hexec, dataWriteResponse, hq, hstat]
    simp only [hdata]
    rfl
  · refine ⟨writeAnswered t stat (cwAnswered t plane idx u), ?_, writeAnswered_error hstat ht (by rwa [hcw]) (by rwa [hcw])
      (by rwa [hcw])⟩
    rw [hexec, dataWriteResponse, hq]
    simp only [hdata]
    rfl
  · intro t hreport hfree hopen ht x
    have hrow : tagOf t u = x := tagOf_writeOver t p tkt s
    have hf : (tagOf t u).state ≠ .free := by rwa [hrow]
    have ho : (tagOf t u).state ≠ .committed := by rwa [hrow]
    have hanswered : dataWriteResponse p tkt stat s = reportAnswered t stat u := by
      rw [dataWriteResponse, hq]
      simp only [hreport]
      rfl
    rw [hexec, hanswered]
    refine ⟨fun hstat hmore => ?_, fun hstat hlast => ?_, fun hstat => ?_⟩
    · rw [hstat, reportAnswered_more ho (by rwa [hrow]), hrow]
      rfl
    · rw [hstat]
      exact ⟨_, rfl, reportAnswered_last hf ho (by rwa [hrow])⟩
    · exact ⟨_, rfl, reportAnswered_error hf ho hstat ht⟩

end Sys2Proof.Machine
end

section
/-!
Program data: its bytes enter staging, and with the last of them the operation is complete (O36).
-/

namespace Sys2Proof.Machine

/-! ### The encoding -/

/-- A page stays active when its header keeps its enable. -/
theorem pageActive_setHdr {p : Page} {h : Hdr} {s : State} (q : Page) (he : h.enable = (hdrOf p s).enable) :
    pageActive q (setHdr p h s) = pageActive q s := by
  have hon (q : Page) : (hdrOf q (setHdr p h s)).enable = (hdrOf q s).enable := by
    by_cases hpage : pageNum q = pageNum p
    · simpa only [hdrOf, hpage, setHdr, SMap.get_put_same] using he
    · rw [hdrOf_setHdr_other h s hpage]
  simp only [pageActive, hon]
  rfl

@[simp] theorem pageActive_bump (q p : Page) (i : Nat) (s : State) : pageActive q (bump p i s) = pageActive q s := by
  unfold bump bumpBy
  split
  · rfl
  · exact pageActive_setHdr q rfl

section
variable {α : Type} {t : Nat} (f : State → α) (hb : ∀ p i s, f (bump p i s) = f s)
  (hm : ∀ x s, f { s with mem := x } = f s) (hdpt : ∀ x s, f { s with dpt := x } = f s)
include hb hm hdpt

/-- 10 R237: an encoded codeword is staging's matter, and counts. -/
theorem encodePos_keeps (k : Nat) (user : List Byte) (s : State) : f (encodePos t k user s) = f s := by
  have hprog (g : ProgBuf → ProgBuf) (s : State) : f (modProg t g s) = f s := hdpt _ s
  have hclear (lo n : Nat) (s : State) : f (clearStaged t lo n s) = f s := hm _ s
  simp only [encodePos, encodeInto]
  rw [hb, hprog, hclear]
  split
  · exact hb _ _ _
  · rfl

theorem encodeRange_keeps (off n : Nat) (s : State) : f (encodeRange t off n s) = f s := by
  rw [encodeRange, foldl_keeps f]
  intro s k
  split
  · exact encodePos_keeps f hb hm hdpt k _ s
  · rfl

/-- The bytes enter staging; where the encoding waits, the tag is marked. -/
theorem stageBytes_keeps (hrow : ∀ b s, f (setTag t { tagOf t s with fetchWait := b } s) = f s) (off : Nat)
    (bytes : List Byte) (s : State) : f (stageBytes t off bytes s) = f s := by
  simp only [stageBytes, modTag_eq]
  split
  · rw [encodeRange_keeps f hb hm hdpt]
    exact hdpt _ _
  · rw [hrow]
    exact hdpt _ _

end

/-- What the arrival of bytes leaves of a row. -/
def withoutWait (x : TagRow) : TagRow := { x with fetchWait := false }

theorem withoutWait_stageBytes (t off : Nat) (bytes : List Byte) (s : State) :
    withoutWait (tagOf t (stageBytes t off bytes s)) = withoutWait (tagOf t s) :=
  stageBytes_keeps (fun u => withoutWait (tagOf t u)) (fun p i u => by rw [tagOf_of_ops (bump_ops p i u)])
    (fun _ _ => rfl) (fun _ _ => rfl) (fun _ _ => by rw [tagOf_setTag_same]; rfl) off bytes s

@[simp] theorem stageBytes_earlyNext (t off : Nat) (bytes : List Byte) (s : State) :
    (stageBytes t off bytes s).ops.earlyNext = s.ops.earlyNext :=
  stageBytes_keeps (fun u => u.ops.earlyNext) (fun p i u => by rw [bump_ops]) (fun _ _ => rfl) (fun _ _ => rfl)
    (fun _ _ => rfl) off bytes s

@[simp] theorem pageActive_stageBytes (q : Page) (t off : Nat) (bytes : List Byte) (s : State) :
    pageActive q (stageBytes t off bytes s) = pageActive q s :=
  stageBytes_keeps (pageActive q) (fun p i s => pageActive_bump q p i s) (fun _ _ => rfl) (fun _ _ => rfl)
    (fun _ _ => rfl) off bytes s

@[simp] theorem reachedNow_stageBytes (rank t off : Nat) (bytes : List Byte) (s : State) :
    reachedNow t rank (stageBytes t off bytes s) = reachedNow t rank s :=
  stageBytes_keeps (reachedNow t rank) (bump_keeps (reachedNow t rank) fun _ _ _ => rfl) (fun _ _ => rfl)
    (fun _ _ => rfl) (fun _ _ => by simp only [reachedNow, tagOpen, tagOf_setTag_same, setTag_cc]) off bytes s

/-! ### EARLY_ACK -/

theorem earlyKey_ge (n : Nat) {k : Nat} (s : State) (h : 65536 ≤ k) : 65536 ≤ earlyKey n k s := by
  induction n generalizing k with
  | zero => exact h
  | succ n ih =>
    simp only [earlyKey]
    split
    · refine ih ?_
      simp only [nextKey]
      split <;> omega
    · exact h

/-- 05 R127: EARLY_ACK commits OK_EARLY; its program goes on under a key above the tags. -/
theorem commitEarly_commits {t : Nat} {s : State} (ht : t < 65536) (hnext : 65536 ≤ s.ops.earlyNext)
    (h : reachedNow t rankOwn s = true) :
    (tagOf t (commitEarly t s)).state = .committed ∧ (tagOf t (commitEarly t s)).status = stEarly := by
  unfold commitEarly
  extract_lets x id d ops keyed renamed dpt moved
  have hid : t ≠ id := by
    have : 65536 ≤ id := earlyKey_ge _ s hnext
    omega
  have hrow : tagOf t moved = tagOf t s := tagOf_setTag_other _ _ hid
  exact commitTag_status (by rw [reachedNow_congr rankOwn hrow rfl, h])

/-! ### The last byte -/

/-- The row after the arrival of bytes. -/
def leftRow (left : Nat) (x : TagRow) : TagRow := { x with dataLeft := left }

section
variable {t : Nat} {s : State}

/-- While ECC is disabled the encoding waits, and the operation with it. -/
theorem progComplete_waits (h : pageActive .ecc s = false) :
    progComplete t s = setTag t { leftRow 0 (tagOf t s) with fetchWait := true } s := by
  have hecc : (!pageActive .ecc (setTag t (leftRow 0 (tagOf t s)) s)) = true := by
    show (!pageActive .ecc s) = true
    rw [h]
    rfl
  simp only [progComplete, modTag_eq]
  refine (if_pos hecc).trans ?_
  rw [tagOf_setTag_same, setTag_setTag]
  rfl

/-- The bytes of a program that stand encoded in staging are not kept apart any more. -/
def bytesDropped (t : Nat) (s : State) : State :=
  modProg t (fun p => { p with user := [] }) (setTag t (leftRow 0 (tagOf t s)) s)

@[simp] theorem tagOf_bytesDropped : tagOf t (bytesDropped t s) = leftRow 0 (tagOf t s) := tagOf_setTag_same ..

theorem progComplete_encoded (h : pageActive .ecc s = true) :
    progComplete t s
      = if eClass (tagOf t s).entry = clsEarly then commitEarly t (bytesDropped t s) else bytesDropped t s := by
  have hecc : ¬(!pageActive .ecc (setTag t (leftRow 0 (tagOf t s)) s)) = true := by
    show ¬(!pageActive .ecc s) = true
    rw [h]
    decide
  have hentry : (tagOf t (bytesDropped t s)).entry = (tagOf t s).entry := by rw [tagOf_bytesDropped, leftRow]
  rw [← hentry]
  simp only [progComplete, modTag_eq]
  exact if_neg hecc

end

/-- Every byte has come and is not an EARLY_ACK's to commit: nothing more is awaited. -/
theorem progComplete_plain {t : Nat} {s : State} (h : eClass (tagOf t s).entry ≠ clsEarly ∨ pageActive .ecc s = false) :
    (tagOf t (progComplete t s)).dataLeft = 0 ∧ (tagOf t (progComplete t s)).state = (tagOf t s).state
    ∧ (pageActive .ecc s = false → (tagOf t (progComplete t s)).fetchWait = true) := by
  cases hecc : pageActive .ecc s with
  | false =>
    rw [progComplete_waits hecc, tagOf_setTag_same]
    exact ⟨rfl, rfl, fun _ => rfl⟩
  | true =>
    have hclass : eClass (tagOf t s).entry ≠ clsEarly := h.resolve_right (by simp [hecc])
    rw [progComplete_encoded hecc, if_neg hclass, tagOf_bytesDropped]
    exact ⟨rfl, rfl, fun hoff => absurd hoff (by decide)⟩

theorem progComplete_early {t : Nat} {s : State} (ht : t < 65536) (hnext : 65536 ≤ s.ops.earlyNext)
    (hclass : eClass (tagOf t s).entry = clsEarly) (hecc : pageActive .ecc s = true)
    (h : reachedNow t rankOwn s = true) :
    (tagOf t (progComplete t s)).state = .committed ∧ (tagOf t (progComplete t s)).status = stEarly := by
  rw [progComplete_encoded hecc, if_pos hclass]
  refine commitEarly_commits ht hnext ?_
  have hcc : (bytesDropped t s).cc = s.cc := rfl
  simpa only [reachedNow, tagOpen, tagOf_bytesDropped, leftRow, hcc] using h

/-! ### The bytes of a read -/

theorem dataLeft_stageBytes (t off : Nat) (bytes : List Byte) (s : State) :
    (tagOf t (stageBytes t off bytes s)).dataLeft = (tagOf t s).dataLeft :=
  (congrArg TagRow.dataLeft (withoutWait_stageBytes t off bytes s) :)

theorem state_stageBytes (t off : Nat) (bytes : List Byte) (s : State) :
    (tagOf t (stageBytes t off bytes s)).state = (tagOf t s).state :=
  (congrArg TagRow.state (withoutWait_stageBytes t off bytes s) :)

theorem entry_stageBytes (t off : Nat) (bytes : List Byte) (s : State) :
    (tagOf t (stageBytes t off bytes s)).entry = (tagOf t s).entry :=
  (congrArg TagRow.entry (withoutWait_stageBytes t off bytes s) :)

theorem progBytes_more {t off : Nat} {bytes : List Byte} {s : State} (h : bytes.length < (tagOf t s).dataLeft) :
    (tagOf t (progBytes t off bytes s)).dataLeft = (tagOf t s).dataLeft - bytes.length
    ∧ (tagOf t (progBytes t off bytes s)).state = (tagOf t s).state := by
  have hmore : (tagOf t s).dataLeft - bytes.length ≠ 0 := Nat.sub_ne_zero_of_lt h
  simp only [progBytes, dataLeft_stageBytes, if_neg hmore, modTag_eq, tagOf_setTag_same]
  exact ⟨trivial, state_stageBytes t off bytes s⟩

theorem progBytes_last {t off : Nat} {bytes : List Byte} {s : State} (h : (tagOf t s).dataLeft ≤ bytes.length) :
    progBytes t off bytes s = progComplete t (stageBytes t off bytes s) := by
  simp only [progBytes, dataLeft_stageBytes]
  exact if_pos (Nat.sub_eq_zero_of_le h)

/-! ### PROGRAM_DATA -/

theorem readOver_keeps {α : Type} (f : State → α) (hfab : ∀ k v s, f (setFab k v s) = f s) (p : PortId) (tkt : BitVec 9)
    (s : State) : f (readOver p tkt s) = f s := by
  rw [readOver, drain_eq, hfab, modFab_eq, hfab]

/-- 10 R237, R251, 05 R127: what returned program data does. -/
theorem programDataArrives : Claims.ProgramDataArrives := by
  intro p tkt beats stat s q t order ch off hq hpurpose hbeats ht hnext x n u
  have hrow : tagOf t u = x := readOver_keeps (tagOf t) (fun _ _ _ => rfl) p tkt s
  have hreached : reachedNow t rankOwn u = reachedNow t rankOwn s :=
    readOver_keeps (reachedNow t rankOwn) (fun _ _ _ => rfl) p tkt s
  have hactive : pageActive .ecc u = pageActive .ecc s := readOver_keeps (pageActive .ecc) (fun _ _ _ => rfl) p tkt s
  have hreturn : exec (.programData p tkt beats stat) s
      = .next (settle (programReturn t order ch off q beats stat u)) := by
    have hmatch : beatsMatch q beats = true := decide_eq_true hbeats
    show fin (programData p tkt beats stat s) = _
    rw [programData, hq]
    simp only [hpurpose, hmatch]
    rfl
  refine ⟨fun hdropped => ?_, fun hreach horder hleft => ?_⟩
  · have hdrop : reachedNow t rankOwn u = false ∨ (tagOf t u).order ≠ order ∨ (tagOf t u).dataLeft = 0 := by
      rw [hreached, hrow]
      exact hdropped
    rw [hreturn, programReturn]
    simp only [if_pos hdrop, statOk, decide_eq_true_eq]
    rfl
  have hwaits : ¬(reachedNow t rankOwn u = false ∨ (tagOf t u).order ≠ order ∨ (tagOf t u).dataLeft = 0) := by
    rw [hreached, hrow, show reachedNow t rankOwn s = true from hreach, show x.order = order from horder]
    simpa using hleft
  have hgood (hstat : stat = 0) :
      programReturn t order ch off q beats stat u = progBytes t off (readBytes q beats) u := by
    rw [hstat]
    exact (if_neg hwaits).trans (if_pos (by decide))
  have hbad (hstat : stat ≠ 0) : programReturn t order ch off q beats stat u = dataError t stat.toNat u :=
    (if_neg hwaits).trans (if_neg (by simpa [statOk] using hstat))
  refine ⟨fun hstat hmore => ⟨_, hreturn, ?_⟩, fun hstat hlast hplain => ⟨_, hreturn, ?_⟩,
    fun hstat hlast hearly hecc => ⟨_, hreturn, ?_⟩, fun hstat => ⟨_, hreturn, ?_⟩⟩
  · have hbytes := progBytes_more (t := t) (off := off) (bytes := readBytes q beats) (s := u) (by rwa [hrow])
    rw [hrow] at hbytes
    rwa [hgood hstat]
  · have hcomplete := progComplete_plain (t := t) (s := stageBytes t off (readBytes q beats) u)
      (by rw [entry_stageBytes, hrow, pageActive_stageBytes, hactive]; exact hplain)
    rw [hgood hstat, progBytes_last (by rwa [hrow])]
    rwa [state_stageBytes, hrow, pageActive_stageBytes, hactive] at hcomplete
  · rw [hgood hstat, progBytes_last (by rwa [hrow])]
    exact progComplete_early ht (by rw [stageBytes_earlyNext]; exact hnext)
      (by rw [entry_stageBytes, hrow]; exact hearly) (by rw [pageActive_stageBytes, hactive]; exact hecc)
      (by rw [reachedNow_stageBytes]; exact hreached.trans hreach)
  · rw [hbad hstat]
    exact dataError_commits stat.toNat ht (hreached.trans hreach)

end Sys2Proof.Machine
end

section
/-!
The program fetches that wait for staging are judged again (O36).
-/

namespace Sys2Proof.Machine

/-! ### The buffer of a program -/

/-- A change to the buffer of a program that keeps its name is found in it. -/
theorem progOf_modProg {t : Nat} (f : ProgBuf → ProgBuf) (s : State) (hid : ∀ p, (f p).id = p.id)
    (hended : ∀ p, (f p).ended = p.ended) : progOf t (modProg t f s) = (progOf t s).map f := by
  have hkeeps (p : ProgBuf) : (decide ((if p.id = t ∧ p.ended = false then f p else p).id = t)
      && !(if p.id = t ∧ p.ended = false then f p else p).ended) = (decide (p.id = t) && !p.ended) := by
    split
    · rw [hid, hended]
    · rfl
  simp only [progOf, modProg, List.find?_map, Function.comp_def, hkeeps]
  cases hfound : s.dpt.progs.find? fun p => decide (p.id = t) && !p.ended with
  | none => rfl
  | some p =>
    have hp := List.find?_some hfound
    simp only [Bool.and_eq_true, decide_eq_true_eq, Bool.not_eq_true'] at hp
    simp only [Option.map_some, if_pos hp]

theorem pageGran_pos (d : Nat) (s : State) : 0 < pageGran d s := by
  have hgran (b : Bool) : 0 < 4 * cwGranules b := by cases b <;> decide
  exact hgran _

/-- The granules that DPT holds for a program (10 R248). -/
def granHeld (t : Nat) (s : State) : Nat := ((progOf t s).map (·.granules)).getD 0

/-- A buffer begun for a program that has none is the one found. -/
theorem progOf_append {t : Nat} {p : ProgBuf} {s : State} (hnone : progOf t s = none) (hid : p.id = t)
    (hopen : p.ended = false) : progOf t { s with dpt.progs := s.dpt.progs ++ [p] } = some p := by
  simp only [progOf] at hnone ⊢
  rw [List.find?_append, hnone]
  simp [hid, hopen]

/-- A grant adds the granules of a page. -/
theorem granules_pageHeld (t : Nat) (s : State) :
    (progOf t (pageHeld t s)).map (·.granules)
      = some (granHeld t s + pageGran (paDie (ePaddr (tagOf t s).entry)) s) := by
  rw [granHeld]
  unfold pageHeld
  cases hprog : progOf t s with
  | some p =>
    have hadded := progOf_modProg (t := t)
      (fun p => { p with granules := p.granules + pageGran (paDie (ePaddr (tagOf t s).entry)) s }) s (fun _ => rfl)
      fun _ => rfl
    rw [hprog] at hadded
    exact congrArg (Option.map (·.granules)) hadded
  | none =>
    have hbegun := progOf_append (p :=
      { id := t, granules := pageGran (paDie (ePaddr (tagOf t s).entry)) s,
        early := decide (eClass (tagOf t s).entry = clsEarly) }) hprog rfl rfl
    refine (congrArg (Option.map (·.granules)) hbegun).trans ?_
    simp

/-! ### The reads of a page -/

/-- What the ports take depends on the ports. -/
theorem fabReads_fab_congr {s u : State} (h : u.fab = s.fab) (p addr len kind : Nat) (mk : Nat → ReadFor) :
    (fabReads p addr len kind mk u).fab = (fabReads p addr len kind mk s).fab := by
  simp only [fabReads]
  generalize fabPieces (pieceFuel len) addr len = l
  induction l generalizing s u with
  | nil => exact h
  | cons q r ih =>
    rw [List.foldl_cons, List.foldl_cons]
    exact ih (by simp only [fabRead, drain_eq, modFab_eq, setFab, fabOf, h])

@[simp] theorem pageIssued_fab (t : Nat) (s : State) : (pageIssued t s).fab = s.fab := by
  have hheld : (pageHeld t s).fab = s.fab := by
    simp only [pageHeld]
    split <;> rfl
  simp only [pageIssued, setTag_fab, notePeak, bump_fab, hheld]

/-- What of the state the reads of a granted page leave. -/
theorem fetched_facts {t : Nat} {s : State} (h : grantsPage t s = true) :
    let v := (fetchPage t s).1
    (progOf t v).map (·.granules) = some (granHeld t s + pageGran (paDie (ePaddr (tagOf t s).entry)) s)
    ∧ (tagOf t v).state = .issued ∧ v.fab = (pageReads t s s).fab := by
  simp only [fetchPage_granted h]
  refine ⟨?_, ?_, ?_⟩
  · rw [pageReads, fabReads_keeps (progOf t) (fun _ _ _ => rfl), ← granules_pageHeld]
    have hprog : progOf t (pageIssued t s) = progOf t (bump .dpt 0 (pageHeld t s)) := by
      simp only [progOf, pageIssued, setTag_dpt, notePeak]
    rw [hprog, bump_keeps (progOf t) fun _ _ _ => rfl]
  · rw [pageReads, fabReads_keeps (tagOf t) (fun _ _ _ => rfl), pageIssued, tagOf_setTag_same]
  · rw [pageReads, pageReads]
    exact fabReads_fab_congr (pageIssued_fab t s) _ _ _ _ _

/-! ### A fetch goes on -/

section
variable {t : Nat} {s : State}

theorem fetchPages_refused (m : Nat) (hmore : pagesHeld t s < progPages (tagOf t s).entry s)
    (h : grantsPage t s = false) :
    fetchPages (m + 1) t s = setTag t { tagOf t s with fetchWait := true } s := by
  simp only [fetchPages]
  refine (if_neg (Nat.not_le.mpr hmore)).trans ?_
  rw [fetchPage_refused h]
  rfl

theorem fetchPages_granted (m : Nat) (hmore : pagesHeld t s < progPages (tagOf t s).entry s)
    (h : grantsPage t s = true) : fetchPages (m + 1) t s = fetchPages m t (fetchPage t s).1 := by
  simp only [fetchPages]
  refine (if_neg (Nat.not_le.mpr hmore)).trans ?_
  rw [fetchPage_granted h]
  rfl

/-- With every page held the fetch waits no longer. -/
theorem fetchPages_whole (m : Nat) (h : progPages (tagOf t s).entry s ≤ pagesHeld t s) :
    fetchPages m t s = setTag t { tagOf t s with fetchWait := false } s := by
  cases m with
  | zero => rfl
  | succ m => exact if_pos h

/-- After the last page but one, a grant makes the data whole. -/
theorem whole_after_grant (h : grantsPage t s = true) (hlast : pagesHeld t s + 1 = progPages (tagOf t s).entry s) :
    progPages (tagOf t (fetchPage t s).1).entry (fetchPage t s).1 ≤ pagesHeld t (fetchPage t s).1 := by
  have hentry : (tagOf t (fetchPage t s).1).entry = (tagOf t s).entry :=
    fetchPage_keeps (fun u => (tagOf t u).entry) (fun _ _ _ => rfl) (fun _ _ _ => rfl) (fun _ _ => rfl)
      (fun _ _ _ => by rw [tagOf_setTag_same]) s
  have hpages : progPages (tagOf t s).entry (fetchPage t s).1 = progPages (tagOf t s).entry s :=
    fetchPage_keeps (progPages (tagOf t s).entry) (fun _ _ _ => rfl) (fun _ _ _ => rfl) (fun _ _ => rfl)
      (fun _ _ _ => rfl) s
  have hgran : pageGran (paDie (ePaddr (tagOf t s).entry)) (fetchPage t s).1
      = pageGran (paDie (ePaddr (tagOf t s).entry)) s :=
    fetchPage_keeps (pageGran (paDie (ePaddr (tagOf t s).entry))) (fun _ _ _ => rfl) (fun _ _ _ => rfl) (fun _ _ => rfl)
      (fun _ _ _ => rfl) s
  have hpos := pageGran_pos (paDie (ePaddr (tagOf t s).entry)) s
  have hheld : pagesHeld t (fetchPage t s).1 = pagesHeld t s + 1 := by
    rw [pagesHeld, (fetched_facts h).1, hentry, hgran, Nat.max_eq_right hpos, Option.getD_some,
      Nat.add_div_right _ hpos, pagesHeld, Nat.max_eq_right hpos]
    rfl
  rw [hentry, hpages, hheld, hlast]

end

/-! ### STAGING_REGRANT -/

theorem encodeRange_encoded {t : Nat} {s : State} (off n : Nat)
    (h : ∀ k, (progOf t s).bind (toEncode k) = none) : encodeRange t off n s = s :=
  List.foldl_fixed' (fun k => by rw [h]) _

/-- The state in which the fetch of a tag is judged again. -/
def judgedAgain (t : Nat) (s : State) : State := setTag t { tagOf t s with fetchWait := false } s

section
variable {t : Nat} {s : State}

theorem grantsPage_judgedAgain : grantsPage t (judgedAgain t s) = grantsPage t s := by
  simp only [grantsPage, pagesHeld, judgedAgain, tagOf_setTag_same]
  rfl

theorem pageReads_fab_judgedAgain :
    (pageReads t (judgedAgain t s) (judgedAgain t s)).fab = (pageReads t s s).fab := by
  have hreads : pageReads t (judgedAgain t s) (judgedAgain t s) = pageReads t s (judgedAgain t s) := by
    simp only [pageReads, pagesHeld, judgedAgain, tagOf_setTag_same]
    rfl
  rw [hreads, pageReads, pageReads]
  exact fabReads_fab_congr (setTag_fab ..) _ _ _ _ _

/-- A waiter that waits for no page to be served is a program's, and its fetch goes on. -/
theorem stagingRegrant_one (hone : fetchWaiters s = [t]) (hjob : isJob t = false) (hpage : (tagOf t s).pageWait = none) :
    stagingRegrant s = fetchOn t s := by
  simp only [stagingRegrant, hone, List.foldl_cons, List.foldl_nil, regrant, hpage, hjob]
  rfl

theorem fetchOn_disabled (hecc : pageActive .ecc s = false) : fetchOn t s = s := by
  simp only [fetchOn, hecc]
  rfl

theorem fetchOn_judged (hecc : pageActive .ecc s = true) (hleft : (tagOf t s).dataLeft ≠ 0)
    (hstage : eOpcode (tagOf t s).entry ≠ opStage) (hencoded : ∀ k, (progOf t s).bind (toEncode k) = none) :
    fetchOn t s = fetchPages (progPages (tagOf t s).entry s) t (judgedAgain t s) := by
  simp only [fetchOn, hecc, encodeRange_encoded _ _ hencoded, modTag_eq, tagOf_setTag_same]
  exact (if_neg (by decide)).trans ((if_neg hleft).trans (if_neg hstage))

end

/-- 10 R248, R249, R252: how a waiting fetch is judged again. -/
theorem waitingFetchesJudgedAgain : Claims.WaitingFetchesJudgedAgain := by
  intro s
  refine ⟨fun hnone => ?_, ?_⟩
  · show fin (stagingRegrant s) = _
    rw [stagingRegrant, hnone]
    rfl
  intro t hone x e g grant held hmore hjob hpage hleft hstage hencoded
  have hexec : exec .stagingRegrant s = .next (settle (fetchOn t s)) := by
    show fin (stagingRegrant s) = _
    rw [stagingRegrant_one hone hjob hpage]
    rfl
  have hgrants : grantsPage t s = (pageActive .dpt s && pageActive .ecc s && grant) := by
    have hclass : (if decide (eClass e = clsEarly) then grantEarly g s else grantOther g s) = grant := by
      by_cases hearly : eClass e = clsEarly <;> simp [grant, hearly]
    have hpages : decide (pagesHeld t s < progPages e s) = true := decide_eq_true hmore
    rw [← hclass]
    simp only [grantsPage]
    rw [hpages, Bool.and_true]
  have hmore' : pagesHeld t (judgedAgain t s) < progPages (tagOf t (judgedAgain t s)).entry (judgedAgain t s) := by
    rw [judgedAgain, tagOf_setTag_same, pagesHeld, tagOf_setTag_same]
    exact hmore
  obtain ⟨m, hm⟩ : ∃ m, progPages e s = m + 1 := Nat.exists_eq_add_one.mpr (Nat.zero_lt_of_lt hmore)
  refine ⟨fun hecc => ?_, fun hrefused hecc => ?_, fun hgrant hdpt hecc hlast => ?_⟩
  · rw [hexec, fetchOn_disabled hecc]
  · have hno : grantsPage t (judgedAgain t s) = false := by
      rw [grantsPage_judgedAgain, hgrants]
      rcases hrefused with h | h <;> simp [h]
    rw [hexec, fetchOn_judged hecc hleft hstage hencoded, hm, fetchPages_refused m hmore' hno, judgedAgain,
      tagOf_setTag_same, setTag_setTag]
    rfl
  · have hyes : grantsPage t (judgedAgain t s) = true := by
      rw [grantsPage_judgedAgain, hgrants, hdpt, hecc, hgrant]
      rfl
    have hwhole := whole_after_grant hyes (by
      rw [judgedAgain, tagOf_setTag_same, pagesHeld, tagOf_setTag_same]
      exact hlast)
    obtain ⟨hgranules, hstate, hfab⟩ := fetched_facts hyes
    have hfetched : fetchOn t s = setTag t { tagOf t (fetchPage t (judgedAgain t s)).1 with fetchWait := false }
        (fetchPage t (judgedAgain t s)).1 := by
      rw [fetchOn_judged hecc hleft hstage hencoded, hm, fetchPages_granted m hmore' hyes, fetchPages_whole m hwhole]
    refine ⟨_, by rw [hexec, hfetched], ?_, ?_, ?_, fun p => ?_⟩
    · rw [judgedAgain, tagOf_setTag_same] at hgranules
      exact hgranules
    · rw [tagOf_setTag_same, hstate]
    · rw [tagOf_setTag_same]
    · simp only [fabOf, setTag_fab]
      rw [hfab, pageReads_fab_judgedAgain]
      rfl

/-- Settles O36: responses of data writes, the return of program data, and the fetches judged again. -/
theorem dataMoves : Obligations.DataMoves :=
  ⟨dataWritesAnswered, programDataArrives, waitingFetchesJudgedAgain⟩

end Sys2Proof.Machine
end

section
/-!
What a fabric port puts, and how a transfer is split (O25, O26; 02 R31, R33, R34, R36).
-/

namespace Sys2Proof.Machine

/-! ### The pieces of a transfer -/

@[simp] theorem fabPieces_no_bytes (fuel addr : Nat) : fabPieces fuel addr 0 = [] := by
  cases fuel <;> rfl

theorem fabPieces_cons (fuel addr : Nat) {len : Nat} (h : len ≠ 0) :
    fabPieces (fuel + 1) addr len =
      (addr, min len (4096 - addr % 4096)) ::
        fabPieces fuel (addr + min len (4096 - addr % 4096)) (len - min len (4096 - addr % 4096)) :=
  if_neg h

/-- The pieces cover the transfer when there are as many as blocks that it touches. -/
theorem fabPieces_sum {fuel addr len : Nat} (h : len = 0 ∨ addr % 4096 + len ≤ 4096 * fuel) :
    ((fabPieces fuel addr len).map (·.2)).sum = len := by
  induction fuel generalizing addr len with
  | zero =>
    have hlen : len = 0 := by omega
    rw [hlen]
    rfl
  | succ fuel ih =>
    by_cases hlen : len = 0
    · rw [hlen]
      rfl
    · rw [fabPieces_cons fuel addr hlen, List.map_cons, List.sum_cons, ih (by omega)]
      omega

/-- Each piece begins where those before it end. -/
theorem fabPieces_contiguous (fuel addr len i : Nat) (h : i < (fabPieces fuel addr len).length) :
    (fabPieces fuel addr len)[i].1 = addr + (((fabPieces fuel addr len).take i).map (·.2)).sum := by
  induction fuel generalizing addr len i with
  | zero => exact absurd h (Nat.not_lt_zero i)
  | succ fuel ih =>
    by_cases hlen : len = 0
    · subst hlen
      exact absurd h (Nat.not_lt_zero i)
    · simp only [fabPieces_cons fuel addr hlen] at h ⊢
      cases i with
      | zero => rfl
      | succ i =>
        rw [List.getElem_cons_succ, ih _ _ _ (Nat.lt_of_succ_lt_succ h), List.take_succ_cons, List.map_cons,
          List.sum_cons, Nat.add_assoc]

/-- A piece holds a byte and stays in its block. -/
theorem fabPieces_inBlock {fuel addr len : Nat} {q : Nat × Nat} (h : q ∈ fabPieces fuel addr len) :
    0 < q.2 ∧ q.1 / 4096 = (q.1 + q.2 - 1) / 4096 := by
  induction fuel generalizing addr len with
  | zero => exact absurd h List.not_mem_nil
  | succ fuel ih =>
    by_cases hlen : len = 0
    · subst hlen
      exact absurd h List.not_mem_nil
    · rw [fabPieces_cons fuel addr hlen, List.mem_cons] at h
      rcases h with rfl | hrest
      · simp only
        omega
      · exact ih hrest

/-- Settles O26: the fuel allows a piece for every block that a transfer touches. -/
theorem transfersSplitAtBlocks : Obligations.TransfersSplitAtBlocks := by
  intro addr len
  have hfuel : addr % 4096 + len ≤ 4096 * pieceFuel len := by
    rw [pieceFuel]
    omega
  exact ⟨fabPieces_sum (.inr hfuel), fabPieces_contiguous _ _ _, fun _ => fabPieces_inBlock⟩

/-! ### Tickets -/

/-- A free ticket lies in its range, and nothing outstanding holds it. -/
theorem freeTicket_some {α : Type} {m : SMap (Option α)} {n lo t : Nat} (h : freeTicket m n lo = some t) :
    lo ≤ t ∧ t < lo + n ∧ SMap.get noReq m t = none := by
  induction n generalizing lo with
  | zero => exact absurd h nofun
  | succ n ih =>
    rw [freeTicket] at h
    split at h
    · next hfree =>
      obtain rfl : lo = t := Option.some.inj h
      exact ⟨Nat.le_refl _, by omega, hfree⟩
    · obtain ⟨hlo, hhi, hfree⟩ := ih h
      exact ⟨by omega, by omega, hfree⟩

/-- Of the outstanding requests m, m' keeps all; what it adds is of l and holds a ticket of the n from lo on. -/
def TicketsGiven {α : Type} (lo n : Nat) (l : List α) (m m' : SMap (Option α)) : Prop :=
  (∀ t q, SMap.get noReq m t = some q → SMap.get noReq m' t = some q)
  ∧ ∀ t q, SMap.get noReq m' t = some q → SMap.get noReq m t = some q ∨ (lo ≤ t ∧ t < lo + n ∧ q ∈ l)

theorem ticketsGiven_refl {α : Type} (lo n : Nat) (l : List α) (m : SMap (Option α)) : TicketsGiven lo n l m m :=
  ⟨fun _ _ => id, fun _ _ => .inl⟩

/-- One more request takes a free ticket. -/
theorem ticketsGiven_put {α : Type} [DecidableEq α] {lo n t : Nat} {l : List α} {m m' : SMap (Option α)} {q : α}
    (h : TicketsGiven lo n l m m') (ht : freeTicket m' n lo = some t) :
    TicketsGiven lo n (l ++ [q]) m (SMap.put noReq m' t (some q)) := by
  obtain ⟨hkept, hnew⟩ := h
  obtain ⟨hlo, hhi, hfree⟩ := freeTicket_some ht
  refine ⟨fun k x hx => ?_, fun k x hx => ?_⟩
  · have hother : k ≠ t := by
      rintro rfl
      exact absurd ((hkept k x hx).symm.trans hfree) nofun
    rw [SMap.get_put_other _ _ _ hother]
    exact hkept k x hx
  · rw [SMap.get_put] at hx
    split at hx
    · next hkt =>
      obtain rfl : q = x := Option.some.inj hx
      exact .inr ⟨by omega, by omega, List.mem_append_right l (List.mem_singleton_self q)⟩
    · rcases hnew k x hx with hold | ⟨hk, hk', hx'⟩
      · exact .inl hold
      · exact .inr ⟨hk, hk', List.mem_append_left _ hx'⟩

/-! ### A stream of requests -/

/-- A stream of a port: its unspent credits, the requests that wait and those outstanding. -/
structure PortStream (α : Type) where
  credits : Nat
  waiting : List α
  outstanding : SMap (Option α)

def readStream (f : FabPort) : PortStream RdReq := ⟨f.rq, f.rdWait, f.reads⟩

def writeStream (f : FabPort) : PortStream WrReq := ⟨f.wq, f.wrWait, f.writes⟩

section
variable {α : Type} {lo n k t : Nat} {a b c : PortStream α} {q : α}

/-- Nothing waits, or no credit or no ticket is left. -/
def Stopped (lo n : Nat) (b : PortStream α) : Prop :=
  b.waiting = [] ∨ b.credits = 0 ∨ freeTicket b.outstanding n lo = none

/-- The stream b is a after its first k requests have been put. -/
structure Served (lo n : Nat) (a : PortStream α) (k : Nat) (b : PortStream α) : Prop where
  enough : k ≤ a.credits
  waited : k ≤ a.waiting.length
  credits : b.credits = a.credits - k
  waiting : b.waiting = a.waiting.drop k
  tickets : TicketsGiven lo n (a.waiting.take k) a.outstanding b.outstanding

theorem served_zero (lo n : Nat) (a : PortStream α) : Served lo n a 0 a :=
  ⟨Nat.zero_le _, Nat.zero_le _, rfl, rfl, ticketsGiven_refl ..⟩

/-- With every request put nothing waits. -/
theorem served_all (h : Served lo n a a.waiting.length b) : Stopped lo n b :=
  .inl (by rw [h.waiting, List.drop_length])

variable [DecidableEq α]

/-- The request put next, its ticket of the n from lo on, and the stream after it. -/
def putNext (lo n : Nat) (b : PortStream α) : Option (α × Nat × PortStream α) :=
  match b.waiting, freeTicket b.outstanding n lo with
  | q :: r, some t =>
    if b.credits = 0 then none
    else some (q, t, ⟨b.credits - 1, r, SMap.put noReq b.outstanding t (some q)⟩)
  | _, _ => none

theorem putNext_some (h : putNext lo n b = some (q, t, c)) :
    b.waiting = q :: c.waiting ∧ freeTicket b.outstanding n lo = some t ∧ b.credits ≠ 0
      ∧ c.credits = b.credits - 1 ∧ c.outstanding = SMap.put noReq b.outstanding t (some q) := by
  rw [putNext] at h
  split at h
  · next hwait hticket =>
    split at h
    · exact absurd h nofun
    · next hcredit =>
      obtain ⟨rfl, rfl, rfl⟩ : _ ∧ _ ∧ _ := by simpa using h
      exact ⟨hwait, hticket, hcredit, rfl, rfl⟩
  · exact absurd h nofun

theorem putNext_none (h : putNext lo n b = none) : Stopped lo n b := by
  rw [putNext] at h
  split at h
  · split at h
    · next hcredit => exact .inr (.inl hcredit)
    · exact absurd h nofun
  · next hno =>
    cases hwait : b.waiting with
    | nil => exact .inl hwait
    | cons q r =>
      cases hticket : freeTicket b.outstanding n lo with
      | none => exact .inr (.inr hticket)
      | some t => exact absurd hticket (hno q r t hwait)

/-- The request put next is the first of those that still wait. -/
theorem served_succ (h : Served lo n a k b) (hput : putNext lo n b = some (q, t, c)) :
    Served lo n a (k + 1) c ∧ a.waiting.take (k + 1) = a.waiting.take k ++ [q] := by
  obtain ⟨henough, -, hcredits, hwaiting, htickets⟩ := h
  obtain ⟨hwait, hticket, hcredit, hspent, hout⟩ := putNext_some hput
  have hdrop : a.waiting.drop k = q :: c.waiting := hwaiting.symm.trans hwait
  have hlt : k < a.waiting.length := by
    have hlen := congrArg List.length hdrop
    rw [List.length_drop, List.length_cons] at hlen
    omega
  rw [List.drop_eq_getElem_cons hlt, List.cons.injEq] at hdrop
  obtain ⟨hfirst, hrest⟩ := hdrop
  have htake : a.waiting.take (k + 1) = a.waiting.take k ++ [q] := by
    rw [List.take_succ_eq_append_getElem hlt, hfirst]
  refine ⟨⟨by omega, hlt, by omega, hrest.symm, ?_⟩, htake⟩
  rw [htake, hout]
  exact ticketsGiven_put htickets hticket

end

/-! ### Repeated puts -/

/-- What every put keeps, counting the puts, holds when the puts end: before one that fails, or after as many as were
allowed. -/
theorem putAll_counts {put : FabPort → Option FabPort} {R : Nat → FabPort → Prop}
    (hstep : ∀ n g h, R n g → put g = some h → R (n + 1) h) (fuel n : Nat) {g : FabPort} (hg : R n g) :
    ∃ k, R k (putAll put fuel g) ∧ (put (putAll put fuel g) = none ∨ k = n + fuel) := by
  induction fuel generalizing n g with
  | zero => exact ⟨n, hg, .inr rfl⟩
  | succ fuel ih =>
    rw [putAll]
    cases hput : put g with
    | none => exact ⟨n, hg, .inl hput⟩
    | some h =>
      obtain ⟨k, hk, hend⟩ := ih (n + 1) (hstep n g h hg hput)
      exact ⟨k, hk, hend.imp_right fun hk => by omega⟩

/-! ### Reads -/

/-- A put of a read serves the port's read stream. -/
theorem putRead_eq (f : FabPort) :
    putRead f = (putNext 0 256 (readStream f)).map fun x =>
      { f with rq := x.2.2.credits, rdWait := x.2.2.waiting, reads := x.2.2.outstanding,
               rqFlit := some (rqFlitOf x.2.1 x.1) } := by
  simp only [putRead, putNext, readStream]
  cases f.rdWait with
  | nil => rfl
  | cons q r =>
    cases freeTicket f.reads 256 0 with
    | none => rfl
    | some t => by_cases hcredit : f.rq = 0 <;> simp [hcredit]

/-- The port g after the first n of the reads that wait at f have been put. -/
structure ReadsPut (f : FabPort) (n : Nat) (g : FabPort) : Prop where
  served : Served 0 256 (readStream f) n (readStream g)
  frame : g = { f with rq := g.rq, rdWait := g.rdWait, reads := g.reads, rqFlit := g.rqFlit }

theorem readsPut_succ {f g h : FabPort} {n : Nat} (hg : ReadsPut f n g) (hput : putRead g = some h) :
    ReadsPut f (n + 1) h := by
  obtain ⟨hserved, hframe⟩ := hg
  rw [putRead_eq, Option.map_eq_some_iff] at hput
  obtain ⟨⟨q, t, c⟩, hnext, rfl⟩ := hput
  exact ⟨(served_succ hserved hnext).1, by rw [hframe]⟩

/-- Reads are put until none waits, or no credit or no ticket is left. -/
theorem allReads_put (f : FabPort) :
    ∃ n, ReadsPut f n (putAll putRead f.rdWait.length f)
      ∧ Stopped 0 256 (readStream (putAll putRead f.rdWait.length f)) := by
  obtain ⟨n, hput, hend⟩ :=
    putAll_counts (fun _ _ _ => readsPut_succ) f.rdWait.length 0 (R := ReadsPut f) ⟨served_zero .., rfl⟩
  refine ⟨n, hput, ?_⟩
  rcases hend with hstop | rfl
  · rw [putRead_eq, Option.map_eq_none_iff] at hstop
    exact putNext_none hstop
  · rw [Nat.zero_add] at hput
    exact served_all hput.served

/-! ### Writes -/

/-- A put of a write serves the port's write stream, and its flits wait. -/
theorem putWrite_eq (f : FabPort) :
    putWrite f = (putNext 256 128 (writeStream f)).map fun x =>
      { f with wq := x.2.2.credits, wrWait := x.2.2.waiting, writes := x.2.2.outstanding,
               wdLeft := f.wdLeft ++ [(x.2.1, beatsFor x.1.addr x.1.bytes.length)],
               wqFlit := some (wqFlitOf x.2.1 x.1) } := by
  simp only [putWrite, putNext, writeStream]
  cases f.wrWait with
  | nil => rfl
  | cons q r =>
    cases freeTicket f.writes 128 256 with
    | none => rfl
    | some t => by_cases hcredit : f.wq = 0 <;> simp [hcredit]

/-- Flits of payloads that wait. -/
def flitsLeft (l : List (Nat × Nat)) : Nat := (l.map (·.2)).sum

/-- Flits of the payloads of writes. -/
def flitsOf (l : List WrReq) : Nat := (l.map fun q => beatsFor q.addr q.bytes.length).sum

/-- The port g after the first n of the writes that wait at f have been put. -/
structure WritesPut (f : FabPort) (n : Nat) (g : FabPort) : Prop where
  served : Served 256 128 (writeStream f) n (writeStream g)
  flits : flitsLeft g.wdLeft = flitsLeft f.wdLeft + flitsOf (f.wrWait.take n)
  frame : g = { f with wq := g.wq, wrWait := g.wrWait, writes := g.writes, wdLeft := g.wdLeft, wqFlit := g.wqFlit }

theorem writesPut_succ {f g h : FabPort} {n : Nat} (hg : WritesPut f n g) (hput : putWrite g = some h) :
    WritesPut f (n + 1) h := by
  obtain ⟨hserved, hflits, hframe⟩ := hg
  rw [putWrite_eq, Option.map_eq_some_iff] at hput
  obtain ⟨⟨q, t, c⟩, hnext, rfl⟩ := hput
  obtain ⟨hserved', htake⟩ := served_succ hserved hnext
  refine ⟨hserved', ?_, by rw [hframe]⟩
  have htake' : f.wrWait.take (n + 1) = f.wrWait.take n ++ [q] := htake
  simp only [flitsLeft, flitsOf] at hflits ⊢
  simp only [htake', List.map_append, List.sum_append, List.map_cons, List.map_nil, List.sum_singleton, hflits,
    Nat.add_assoc]

/-- Writes are put until none waits, or no credit or no ticket is left. -/
theorem allWrites_put (f : FabPort) :
    ∃ n, WritesPut f n (putAll putWrite f.wrWait.length f)
      ∧ Stopped 256 128 (writeStream (putAll putWrite f.wrWait.length f)) := by
  obtain ⟨n, hput, hend⟩ :=
    putAll_counts (fun _ _ _ => writesPut_succ) f.wrWait.length 0 (R := WritesPut f) ⟨served_zero .., rfl, rfl⟩
  refine ⟨n, hput, ?_⟩
  rcases hend with hstop | rfl
  · rw [putWrite_eq, Option.map_eq_none_iff] at hstop
    exact putNext_none hstop
  · rw [Nat.zero_add] at hput
    exact served_all hput.served

/-! ### Payload and the whole port -/

/-- Each flit put spends one credit. -/
theorem putPayload_spends (c : Nat) (l : List (Nat × Nat)) :
    (putPayload c l).1 + flitsLeft l = c + flitsLeft (putPayload c l).2 := by
  induction l generalizing c with
  | nil => rfl
  | cons e r ih =>
    obtain ⟨t, n⟩ := e
    have hcons : ∀ k, flitsLeft ((t, k) :: r) = k + flitsLeft r := fun _ => List.sum_cons
    rw [putPayload]
    split
    · next hfits =>
      have hrest := ih (c - n)
      rw [hcons]
      omega
    · next hshort =>
      rw [hcons, hcons]
      omega

theorem drainPort_idle {f : FabPort} (h : f.live = false ∨ f.begun = false) : drainPort f = f := by
  have hoff : ¬(f.live && f.begun) = true := by rcases h with h | h <;> simp [h]
  exact if_neg hoff

/-- A live port that has begun puts the reads, then the writes, then the payloads. -/
theorem drainPort_begun {f : FabPort} (hlive : f.live = true) (hbegun : f.begun = true) :
    ∃ n r m w, ReadsPut f n r ∧ Stopped 0 256 (readStream r) ∧ WritesPut r m w ∧ Stopped 256 128 (writeStream w)
      ∧ drainPort f = { w with wd := (putPayload w.wd w.wdLeft).1, wdLeft := (putPayload w.wd w.wdLeft).2 } := by
  obtain ⟨n, hreads, hstopped⟩ := allReads_put f
  obtain ⟨m, hwrites, hstopped'⟩ := allWrites_put (putAll putRead f.rdWait.length f)
  have hon : (f.live && f.begun) = true := by rw [hlive, hbegun]; rfl
  exact ⟨n, _, m, _, hreads, hstopped, hwrites, hstopped', if_pos hon⟩

/-- Settles O25: no put of reads, writes or payloads touches what the others serve. -/
theorem portSpendsItsCredits : Obligations.PortSpendsItsCredits := by
  intro f
  refine ⟨drainPort_idle, fun hlive hbegun => ?_⟩
  obtain ⟨n, r, m, w, ⟨hreads, hframe⟩, hstopped, ⟨hwrites, hflits, hframe'⟩, hstopped', hdrain⟩ :=
    drainPort_begun hlive hbegun
  have hread : readStream w = readStream r := by rw [hframe']; rfl
  have hwrite : writeStream r = writeStream f := by rw [hframe]; rfl
  rw [hwrite] at hwrites
  rw [← hread] at hreads hstopped
  obtain ⟨henough, hwaited, hrq, hrdWait, hkept, hnew⟩ := hreads
  obtain ⟨henough', hwaited', hwq, hwrWait, hkept', hnew'⟩ := hwrites
  rw [hdrain]
  refine ⟨n, m, henough, hwaited, hrq, hrdWait, hstopped, hkept, fun t q hq => ?_, henough', hwaited', hwq, hwrWait,
    hstopped', hkept', fun t q hq => ?_, ?_, ?_, ?_⟩
  · exact (hnew t q hq).imp_right fun ⟨_, hhi, hmem⟩ => ⟨by omega, hmem⟩
  · exact (hnew' t q hq).imp_right fun ⟨hlo, hhi, hmem⟩ => ⟨hlo, by omega, hmem⟩
  · have hwd : w.wd = f.wd := by rw [hframe', hframe]
    have hleft : r.wdLeft = f.wdLeft := by rw [hframe]
    have hwait : r.wrWait = f.wrWait := by rw [hframe]
    have hspent := putPayload_spends w.wd w.wdLeft
    rw [hflits, hleft, hwait, ← Nat.add_assoc] at hspent
    exact hspent.trans (congrArg (· + _) hwd)
  · show w.live = f.live
    rw [hframe', hframe]
  · show w.begun = f.begun
    rw [hframe', hframe]

end Sys2Proof.Machine
end

section
/-!
Credit returns, polls, head reads, and the data of a poll (O28; 02 R31, R39, 04 R84, R88, R90, R101, R102, R109).
-/

namespace Sys2Proof.Machine

/-! ### CREDIT_RETURN, FAB_IDLE -/

theorem satTo_eq_min (limit n : Nat) : satTo limit n = min limit n := by
  rw [satTo, Nat.min_def]
  split <;> split <;> omega

theorem creditReturn_live {p : Nat} {s : State} (k : FabStream) (h : (fabOf p s).live = true) :
    creditReturn p k s = setFab p (drainPort (addCredit k (fabOf p s))) s := by
  rw [creditReturn, if_pos h, drain_eq, modFab_eq, fabOf_setFab_same, setFab_setFab]

theorem creditReturn_dropped {p : Nat} {s : State} (k : FabStream) (h : (fabOf p s).live = false) :
    creditReturn p k s = s := by
  rw [creditReturn, h]
  rfl

/-- 02 R31, R39: credits and fab_idle. -/
theorem creditReturnAndFabIdle : Claims.CreditReturnAndFabIdle := by
  intro p s f u
  have hcredit (k : FabStream) : exec (.creditReturn p k) s = .next (settle (creditReturn p.toNat k s)) := rfl
  have hidle : exec (.fabIdle p) s = .next (settle (fabIdleSeen p s)) := rfl
  have hport : fabOf p.toNat u = f := rfl
  refine ⟨fun hlive => ⟨?_, ?_, ?_, ?_⟩, fun hdead => ⟨fun k => ?_, ?_⟩⟩
  · rw [hcredit, creditReturn_live _ hlive, addCredit, satTo_eq_min]
  · rw [hcredit, creditReturn_live _ hlive, addCredit, satTo_eq_min]
  · rw [hcredit, creditReturn_live _ hlive, addCredit, satTo_eq_min]
  · have hseen : fabIdleSeen p s = drain p.toNat (modFab p.toNat (fun f => { f with begun := true }) u) := if_pos hlive
    rw [hidle, hseen, drain_eq, modFab_eq, fabOf_setFab_same, setFab_setFab, hport]
  · rw [hcredit, creditReturn_dropped k hdead]
  · have hseen : fabIdleSeen p s = u := if_neg (by rw [hport, hdead]; decide)
    rw [hidle, hseen]

/-! ### POLL_DUE, HEAD_REREAD -/

/-- The slot of the poller is spent. -/
def slotSpent (s : State) : State := { s with rif := { s.rif with nextPoll := s.cc + 2 } }

@[simp] theorem ringOf_slotSpent (k : Nat) (s : State) : ringOf k (slotSpent s) = ringOf k s := rfl

@[simp] theorem ringOf_bump (k : Nat) (p : Page) (i : Nat) (s : State) : ringOf k (bump p i s) = ringOf k s :=
  bump_keeps (ringOf k) (fun _ _ _ => rfl) p i s

/-- The most recent use of a context changes no other field. -/
theorem ringOf_touchRing (r : Nat) (s : State) :
    ringOf r (touchRing r s) = { ringOf r s with lastUse := s.rif.useSeq } :=
  ringOf_setRing_same r _ s

theorem pollRing_cached {r : Nat} {s : State} (h : (ringOf r s).cached = true) :
    pollRing r s = fabReads ((ringOf r s).fn % 4) ((ringOf r s).base + (ringOf r s).index * 32) 32 1
      (fun _ => .poll r (ringOf r s).gen)
      (touchRing r (bump .rif 0 (setRing r { ringOf r s with polling := true, due := none } (slotSpent s)))) := by
  have hring : ringOf r (touchRing r (bump .rif 0
      (setRing r { ringOf r s with polling := true, due := none } (slotSpent s))))
      = { ringOf r s with polling := true, due := none, lastUse := s.rif.useSeq } := by
    rw [ringOf_touchRing, ringOf_bump, ringOf_setRing_same, bump_rif]
    rfl
  have hunits (v : State) : readUnits r (ringOf r s).index 1 (fun _ => .poll r (ringOf r s).gen) v
      = fabReads ((ringOf r v).fn % 4) ((ringOf r v).base + (ringOf r s).index * 32) 32 1
        (fun _ => .poll r (ringOf r s).gen) v := rfl
  have hpoll : pollRing r s = readUnits r (ringOf r s).index 1 (fun _ => .poll r (ringOf r s).gen)
      (touchRing r (bump .rif 0 (setRing r { ringOf r s with polling := true, due := none } (slotSpent s)))) := if_pos h
  rw [hpoll, hunits, hring]

theorem fetchContext_issued {r : Nat} {s : State} (h : (ringOf r s).ctxRead = false) :
    fetchContext r false s = fabRead ((ringOf r s).fn % 4)
      { addr := regOf .rif oRifCtxBase s + r * 64, len := 64, kind := 1, purpose := .context r false }
      (bump .rif 5 (setRing r { ringOf r s with ctxRead := true } s)) := by
  rw [fetchContext, h]
  rfl

theorem pollRing_uncached {r : Nat} {s : State} (h : (ringOf r s).cached = false) :
    pollRing r s = fetchContext r false (slotSpent s) := by
  have hnot : ¬(ringOf r (slotSpent s)).cached = true := by
    rw [ringOf_slotSpent, h]
    decide
  exact if_neg hnot

/-- 04 R84, R90, R101: the ring that the poller serves. -/
theorem pollsAndHeadReads : Claims.PollsAndHeadReads := by
  intro r s n g u port
  have hpoll : exec (.pollDue r) s = .next (settle (pollDue n s)) := rfl
  have hhead : exec (.headReread r) s = .next (settle (headReread n s)) := rfl
  refine ⟨fun hpick hsq hcached => ?_, fun hpick hsq hcached hread => ?_, fun hpick hcq => ?_,
    fun hpick => ⟨?_, ?_⟩⟩
  · have hserved : pollDue n s = pollRing n s := if_pos ⟨hpick, hsq⟩
    rw [hpoll, hserved, pollRing_cached hcached]
    rfl
  · have hserved : pollDue n s = pollRing n s := if_pos ⟨hpick, hsq⟩
    rw [hpoll, hserved, pollRing_uncached hcached, fetchContext_issued (s := slotSpent s) hread]
    rfl
  · let v : State := setRing n { g with headRead := true, headDue := none } u
    have hserved : headReread n s = fabRead (fnPort (ringOf n v).fn)
        { addr := regOf .rif oRifCtxBase s + n * 64 + 56, len := 4, kind := 1, purpose := .head n } v :=
      if_pos ⟨hpick, hcq⟩
    rw [hhead, hserved, ringOf_setRing_same]
    rfl
  · have hserved : pollDue n s = s := if_neg fun h => hpick h.1
    rw [hpoll, hserved]
  · have hserved : headReread n s = s := if_neg fun h => hpick h.1
    rw [hhead, hserved]

/-! ### What an entry is judged by -/

/-- The profile of a die, and with it the fit of an address, is no matter of rings and ports. -/
theorem profileFits_rif_fab (a planes : Nat) (slc page : Bool) (x : Rif) (y : SMap FabPort) (s : State) :
    profileFits a planes slc page { s with rif := x, fab := y } = profileFits a planes slc page s := rfl

theorem unitAligned_rif_fab (a : Nat) (slc : Bool) (x : Rif) (y : SMap FabPort) (s : State) :
    unitAligned a slc { s with rif := x, fab := y } = unitAligned a slc s := rfl

theorem cwFits_rif_fab (e : Entry) (x : Rif) (y : SMap FabPort) (s : State) :
    cwFits e { s with rif := x, fab := y } = cwFits e s := rfl

theorem addressOk_rif_fab (e : Entry) (x : Rif) (y : SMap FabPort) (s : State) :
    addressOk e { s with rif := x, fab := y } = addressOk e s := by
  simp only [addressOk, profileFits_rif_fab, unitAligned_rif_fab, cwFits_rif_fab]

/-- Nor is the pattern of a zone. -/
theorem patFirst_rif_fab (a h z i : Nat) (x : Rif) (y : SMap FabPort) (s : State) :
    patFirst a h z i { s with rif := x, fab := y } = patFirst a h z i s := by
  induction i with
  | zero => rfl
  | succ i ih =>
    rw [patFirst, patFirst, ih]
    rfl

theorem zUsable_rif_fab (a h z : Nat) (x : Rif) (y : SMap FabPort) (s : State) :
    zUsable a h z { s with rif := x, fab := y } = zUsable a h z s := by
  unfold zUsable
  rw [patFirst_rif_fab]
  rfl

theorem startWedge_rif_fab (a h z n : Nat) (x : Rif) (y : SMap FabPort) (s : State) :
    startWedge a h z n { s with rif := x, fab := y } = startWedge a h z n s := by
  simp only [startWedge, startPos, patFirst_rif_fab]
  rfl

theorem diskFieldsOk_rif_fab (e : Entry) (x : Rif) (y : SMap FabPort) (s : State) :
    diskFieldsOk e { s with rif := x, fab := y } = diskFieldsOk e s := by
  simp only [diskFieldsOk, zUsable_rif_fab, startWedge_rif_fab]
  rfl

/-- An entry is judged alike whatever rings and ports hold. -/
theorem entryCause_rif_fab (e : Entry) (n : Nat) (x : Rif) (y : SMap FabPort) (s : State) :
    entryCause e n { s with rif := x, fab := y } = entryCause e n s := by
  unfold entryCause fieldsOk
  rw [addressOk_rif_fab, diskFieldsOk_rif_fab]

/-- Whether a unit lies in the hold depends on the hold and on the size of the ring. -/
theorem unitHeld_setRing {r : Nat} {g : Ring} {s : State} (i : Nat) (hsize : g.size = (ringOf r s).size) :
    unitHeld r i (setRing r g s) = unitHeld r i s := by
  unfold unitHeld
  rw [ringOf_setRing_same, ringUnits, ringUnits, hsize]
  rfl

theorem entryHeld_setRing {r : Nat} {g : Ring} {s : State} (i len : Nat) (hsize : g.size = (ringOf r s).size) :
    entryHeld r i len (setRing r g s) = entryHeld r i len s := by
  simp only [entryHeld, unitHeld_setRing _ hsize]

/-! ### What the poller does with a unit -/

/-- Counting reads and writes headers alone. -/
theorem bump_rif_fab (p : Page) (i : Nat) (x : Rif) (y : SMap FabPort) (s : State) :
    bump p i { s with rif := x, fab := y } = { bump p i s with rif := x, fab := y } := by
  have hfrozen : frozen p { s with rif := x, fab := y } = frozen p s := rfl
  unfold bump bumpBy
  rw [hfrozen]
  split <;> rfl

/-- An empty poll backs off, sets the next due time and counts (04 R102). -/
theorem emptyPoll_eq (r : Nat) (s : State) :
    let c := backOff (ringOf r s) s
    emptyPoll r s = bump .rif 1 (setRing r { ringOf r s with
      curE := c, dirty := (ringOf r s).dirty || decide (c ≠ (ringOf r s).curE),
      due := some (s.cc + ringInterval c s) } s) :=
  rfl

theorem prefetchFrom_noDepth {r : Nat} {s : State} (i : Nat) (h : (ringOf r s).pfDepth = 0) : prefetchFrom r i s = s :=
  if_pos (.inl h)

section
variable {r : Nat} {g : Ring} {e : Entry} {w : List Word32} {s : State} (hg : ringOf r s = g)
  (hrun : s.pwr.state = .run) (hskip : eOpcode e ≠ opNop ∨ eSkip e = false)
  (hcause : entryCause e (2 ^ g.size) s = 0)

include hg hrun hskip hcause

/-- The block runs: an entry whose checks pass, and that is no NOP to skip, is offered (04 R88). -/
theorem entryReady_offers :
    entryReady r e s = setRing r { g with due := none, partialUnit := none, got := [], offer := some e } s := by
  subst hg
  let v : State := setRing r { ringOf r s with due := none, partialUnit := none, got := [] } s
  have hawake : ¬(v.pwr.state = .doze ∨ v.pwr.state = .waking) := by
    rw [setRing_pwr, hrun]
    decide
  have hstays : ¬(eOpcode e = opNop ∧ eSkip e = true) := by
    rintro ⟨hop, hset⟩
    rcases hskip with hnot | hclear
    · exact hnot hop
    · exact absurd (hset.symm.trans hclear) nofun
  have hready : entryReady r e s = modRing r (fun g => { g with offer := some e }) v :=
    (if_neg (not_not.mpr hcause)).trans ((if_neg hawake).trans (if_neg hstays))
  rw [hready, modRing_eq, ringOf_setRing_same, setRing_setRing]

variable (he : e = ⟨r, g.index, w⟩) (hlen : eLen e = 0) (hheld : entryHeld r g.index 0 s = false)

include he hlen hheld

/-- A unit under no hold that is a whole entry is judged at once (04 R104, R107). -/
theorem foundUnit_offers :
    foundUnit r w s = setRing r { g with due := none, partialUnit := none, got := [], offer := some e } s := by
  have hfree : ¬entryHeld r g.index (eLen e) s = true := by
    rw [hlen, hheld]
    decide
  have hunit : foundUnit r w s = entryReady r e s := by
    subst hg he
    exact (if_neg hfree).trans (if_pos (.inl hlen))
  rw [hunit, entryReady_offers hg hrun hskip hcause]

/-- On a ring that does not prefetch it is offered with CUR_E back at its base (04 R102). -/
theorem foundPoll_offers (hdepth : g.pfDepth = 0) :
    foundPoll r w s = setRing r { g with
      curE := g.intervalE, dirty := g.dirty || decide (g.curE ≠ g.intervalE), due := none,
      partialUnit := none, got := [], offer := some e } s := by
  let h : Ring := { g with curE := g.intervalE, dirty := g.dirty || decide (g.curE ≠ g.intervalE) }
  have hring : ringOf r (setRing r h s) = h := ringOf_setRing_same r h s
  have hawake : wakeDoze (setRing r h s) = setRing r h s := if_neg (by rw [setRing_pwr, hrun]; decide)
  have hheld' : entryHeld r g.index 0 (setRing r h s) = false :=
    (entryHeld_setRing g.index 0 (by rw [hg])).trans hheld
  have hcause' : entryCause e (2 ^ h.size) (setRing r h s) = 0 := (entryCause_rif_fab _ _ _ s.fab s).trans hcause
  have hunit := foundUnit_offers hring hrun hskip hcause' he hlen hheld'
  have hfound : foundPoll r w s =
      let v := foundUnit r w (wakeDoze (setRing r h s))
      if (ringOf r v).state = .active then prefetchFrom r (g.index + eLen e + 1) v else v := by
    subst hg he
    rfl
  rw [hfound, hawake, hunit, setRing_setRing]
  simp only
  rw [prefetchFrom_noDepth _ (by rw [ringOf_setRing_same]; exact hdepth), ite_self]

end

/-! ### POLL_DATA -/

section
variable {p : PortId} {tkt : BitVec 9} {beats : List (BitVec 512)} {stat : BitVec 2} {s u : State} {q : RdReq}
  {r gen : Nat} (hq : readAt p tkt s = some q) (hpoll : q.purpose = .poll r gen)
  (hbeats : beats.length = beatsFor q.addr q.len) (hu : readOver p tkt s = u)

include hq hpoll hbeats hu

theorem pollData_returned :
    pollData p tkt beats stat s =
      let v := setRing r { ringOf r u with polling := false } u
      if (ringOf r u).gen ≠ gen then u
      else if statOk stat then polledUnit r ((unitsIn q beats).headD []) v else ringError r 0x0B v := by
  have hmatch : beatsMatch q beats = true := decide_eq_true hbeats
  subst hu
  unfold pollData
  simp only [hq, hpoll, hmatch]
  rfl

/-- The data of a poll given up before is dropped. -/
theorem pollData_dropped (hgen : (ringOf r u).gen ≠ gen) : pollData p tkt beats stat s = u :=
  (pollData_returned hq hpoll hbeats hu).trans (if_pos hgen)

variable (hgen : (ringOf r u).gen = gen)

include hgen

theorem pollData_failed (hstat : stat ≠ 0) :
    pollData p tkt beats stat s = ringError r 0x0B (setRing r { ringOf r u with polling := false } u) := by
  have hbad : ¬statOk stat = true := by simpa [statOk] using hstat
  exact (pollData_returned hq hpoll hbeats hu).trans ((if_neg (not_not.mpr hgen)).trans (if_neg hbad))

theorem pollData_unit (hstat : stat = 0) :
    pollData p tkt beats stat s
      = polledUnit r ((unitsIn q beats).headD []) (setRing r { ringOf r u with polling := false } u) := by
  have hgood : statOk stat = true := by rw [hstat]; rfl
  exact (pollData_returned hq hpoll hbeats hu).trans ((if_neg (not_not.mpr hgen)).trans (if_pos hgood))

end

/-- The end of a read changes the ports alone. -/
theorem readOver_eq (p : PortId) (tkt : BitVec 9) (s : State) : ∃ y, readOver p tkt s = { s with fab := y } :=
  ⟨_, rfl⟩

/-- 04 R88, R102, R109: what a poll's data does. -/
theorem pollDataJudged : Claims.PollDataJudged := by
  intro p tkt beats stat s q r gen hq hpoll hbeats u g w e
  have hexec : exec (.pollData p tkt beats stat) s = .next (settle (pollData p tkt beats stat s)) := rfl
  obtain ⟨y, hover⟩ := readOver_eq p tkt s
  have hu : u = { s with fab := y } := hover
  clear_value u
  subst hu
  let u : State := { s with fab := y }
  have hring : ringOf r (setRing r g u) = g := ringOf_setRing_same r g u
  have hother (x : Ring) (k : Nat) (hk : k ≠ r) : ringOf k (setRing r x u) = ringOf k s := ringOf_setRing_other x u hk
  refine ⟨fun hgen => ?_, fun hgen hstat => ?_, fun hgen hstat hphase => ?_,
    fun hgen hstat hphase _ hrun hheld hlen hcause hskip hdepth => ?_⟩
  · rw [hexec, pollData_dropped hq hpoll hbeats hover hgen]
  · rw [hexec, pollData_failed hq hpoll hbeats hover hgen hstat]
  · intro c
    let h : Ring := { g with
      curE := c, dirty := g.dirty || decide (c ≠ g.curE), due := some (s.cc + ringInterval c s) }
    have hempty : polledUnit r w (setRing r g u) = bump .rif 1 (setRing r h u) := by
      have hunit : polledUnit r w (setRing r g u) = emptyPoll r (setRing r g u) := if_neg (by rw [hring]; exact hphase)
      rw [hunit, emptyPoll_eq, hring, setRing_setRing]
      rfl
    have hcount : bump .rif 1 (setRing r h u) = { bump .rif 1 s with rif := (setRing r h u).rif, fab := y } :=
      bump_rif_fab .rif 1 (setRing r h u).rif y s
    refine ⟨bump .rif 1 (setRing r h u), ?_, ?_, fun k hk => ?_, ?_, ?_⟩
    · rw [hexec, pollData_unit hq hpoll hbeats hover hgen hstat, hempty]
    · rw [ringOf_bump, ringOf_setRing_same]
    · rw [ringOf_bump, hother h k hk]
    · rw [hcount]
      rfl
    · rw [hcount]
      rcases bumpBy_eq .rif 1 1 s with hsame | ⟨_, hhdr⟩
      · rw [bump, hsame]
      · rw [bump, hhdr]
        rfl
  · let h : Ring := { g with
      curE := g.intervalE, dirty := g.dirty || decide (g.curE ≠ g.intervalE), due := none,
      partialUnit := none, got := [], offer := some e }
    have hoffered : polledUnit r w (setRing r g u) = setRing r h u := by
      have hunit : polledUnit r w (setRing r g u) = foundPoll r w (setRing r g u) :=
        if_pos (by rw [hring]; exact hphase)
      have hsize : g.size = (ringOf r u).size := rfl
      have hheld' : entryHeld r g.index 0 (setRing r g u) = false := (entryHeld_setRing g.index 0 hsize).trans hheld
      have hcause' : entryCause e (2 ^ g.size) (setRing r g u) = 0 := (entryCause_rif_fab _ _ _ y s).trans hcause
      rw [hunit, foundPoll_offers hring hrun hskip hcause' rfl hlen hheld' hdepth, setRing_setRing]
    refine ⟨setRing r h u, ?_, ringOf_setRing_same r h u, hother h, rfl⟩
    rw [hexec, pollData_unit hq hpoll hbeats hover hgen hstat, hoffered]

/-- Settles O28: credits and fab_idle, the poller's reads, and the data of a poll. -/
theorem portsAndPolls : Obligations.PortsAndPolls :=
  ⟨creditReturnAndFabIdle, pollsAndHeadReads, pollDataJudged⟩

end Sys2Proof.Machine
end

section
/-!
The flags after every command: settling changes EVT_PEND, the record of the cc and the latch of the fault line alone
(O3), and leaves the flags in agreement with the state (O4).
-/

namespace Sys2Proof.Machine

/-! ### What raising events changes of a header -/

/-- Every header of t is the one of s but for bits of EVT_PEND that are set and the model's record of the cc. -/
def onlyEventsRaised (s t : State) : Prop :=
  ∀ p, ∃ m n, hdrOf p t = { hdrOf p s with evtPend := (hdrOf p s).evtPend ||| m, now := n }

theorem onlyEventsRaised_of_hdr {s t : State} (h : t.hdr = s.hdr) : onlyEventsRaised s t := fun p =>
  ⟨0, (hdrOf p s).now, by simp [hdrOf, h]⟩

theorem onlyEventsRaised_refl (s : State) : onlyEventsRaised s s := onlyEventsRaised_of_hdr rfl

theorem onlyEventsRaised_trans {s t u : State} (hst : onlyEventsRaised s t) (htu : onlyEventsRaised t u) :
    onlyEventsRaised s u := by
  intro p
  obtain ⟨m, n, hm⟩ := hst p
  obtain ⟨k, o, hk⟩ := htu p
  exact ⟨m ||| k, o, by rw [hk, hm, BitVec.or_assoc]⟩

theorem hdrOf_raiseEvt_same (p : Page) (i : Nat) (s : State) : hdrOf p (raiseEvt p i s) =
    { hdrOf p s with evtPend := (hdrOf p s).evtPend ||| BitVec.ofNat 32 (2 ^ i),
                     now := { nowOf p s with evts := (nowOf p s).evts ||| BitVec.ofNat 32 (2 ^ i) } } :=
  hdrOf_setHdr_same ..

theorem hdrOf_congr {p q : Page} (s : State) (h : pageNum p = pageNum q) : hdrOf p s = hdrOf q s := by
  rw [hdrOf, hdrOf, h]

theorem onlyEventsRaised_raiseEvt (p : Page) (i : Nat) (s : State) : onlyEventsRaised s (raiseEvt p i s) := by
  intro q
  by_cases hpage : pageNum q = pageNum p
  · rw [hdrOf_congr _ hpage, hdrOf_congr s hpage]
    exact ⟨_, _, hdrOf_raiseEvt_same p i s⟩
  · have hother : hdrOf q (raiseEvt p i s) = hdrOf q s := hdrOf_setHdr_other _ _ hpage
    exact ⟨0, (hdrOf q s).now, by simp [hother]⟩

theorem onlyEventsRaised_latchLevel (s : State) (e : Page × Nat) : onlyEventsRaised s (latchLevel s e) := by
  rcases latchLevel_eq s e with h | h <;> rw [h]
  · exact onlyEventsRaised_refl s
  · exact onlyEventsRaised_raiseEvt e.1 e.2 s

theorem onlyEventsRaised_latchList (l : List (Page × Nat)) (s : State) :
    onlyEventsRaised s (l.foldl latchLevel s) := by
  induction l generalizing s with
  | nil => exact onlyEventsRaised_refl s
  | cons e r ih => exact onlyEventsRaised_trans (onlyEventsRaised_latchLevel s e) (ih _)

/-! ### The latch of the fault line (15 R368) -/

theorem latchFatal_latched {s : State} (h : s.irq.latched = true) : latchFatal s = s := if_pos h

theorem latchFatal_eq (s : State) :
    ∃ l n, latchFatal s = { s with irq := { s.irq with latched := l, first := n } } := by
  unfold latchFatal
  split
  · exact ⟨_, _, rfl⟩
  · split <;> exact ⟨_, _, rfl⟩

theorem onlyEventsRaised_latchFatal (s : State) : onlyEventsRaised s (latchFatal s) := by
  obtain ⟨_, _, h⟩ := latchFatal_eq s
  exact onlyEventsRaised_of_hdr (by rw [h])

/-- Where the latch is clear after the test for FATAL sources, there is none. -/
theorem fatalSource_of_unlatched {s : State} (h : (latchFatal s).irq.latched = false) :
    latchFatal s = s ∧ fatalSource s = none := by
  unfold latchFatal at h ⊢
  split at h
  case isTrue hl => exact absurd (hl.symm.trans h) (by decide)
  case isFalse hl =>
    cases hsource : fatalSource s with
    | none => simp [hl]
    | some i => simp [hsource] at h

/-! ### Settling, by its two cases -/

/-- The flags after a command, while the block has power and is out of reset. -/
def latchFlags (s : State) : State := latchLevel (latchFatal (latchLevels s)) (.irq, 0)

theorem settle_cases (s : State) :
    (corePowered s = true ∧ stepReleased 1 s = true ∧ settle s = latchFlags s)
    ∨ (¬(corePowered s = true ∧ stepReleased 1 s = true) ∧ settle s = s) := by
  by_cases h : corePowered s = true ∧ stepReleased 1 s = true
  · exact .inl ⟨h.1, h.2, by rw [settle, h.1, h.2]; rfl⟩
  · exact .inr ⟨h, if_neg (by rwa [Bool.and_eq_true])⟩

@[simp] theorem latchLevels_irq (s : State) : (latchLevels s).irq = s.irq :=
  latchLevels_keeps State.irq (fun _ _ _ => rfl) s

theorem latchLevel_irq (s : State) (e : Page × Nat) : (latchLevel s e).irq = s.irq := by
  rcases latchLevel_eq s e with h | h <;> rw [h]; rfl

theorem latchFlags_irq (s : State) : (latchFlags s).irq = (latchFatal (latchLevels s)).irq := latchLevel_irq ..

theorem onlyEventsRaised_settle (s : State) : onlyEventsRaised s (settle s) := by
  rcases settle_cases s with ⟨-, -, h⟩ | ⟨-, h⟩ <;> rw [h]
  · exact onlyEventsRaised_trans (onlyEventsRaised_latchList levelList s)
      (onlyEventsRaised_trans (onlyEventsRaised_latchFatal _) (onlyEventsRaised_latchLevel _ _))
  · exact onlyEventsRaised_refl s

/-- Of FATAL, settling may change the latch and FIRST. -/
theorem settle_irq_eq (s : State) : ∃ l n, (settle s).irq = { s.irq with latched := l, first := n } := by
  rcases settle_cases s with ⟨-, -, h⟩ | ⟨-, h⟩ <;> rw [h]
  · obtain ⟨l, n, hf⟩ := latchFatal_eq (latchLevels s)
    exact ⟨l, n, by rw [latchFlags_irq, hf, latchLevels_irq]⟩
  · exact ⟨_, _, rfl⟩

theorem settle_irq_latched {s : State} (hl : s.irq.latched = true) : (settle s).irq = s.irq := by
  rcases settle_cases s with ⟨-, -, h⟩ | ⟨-, h⟩ <;> rw [h]
  rw [latchFlags_irq, latchFatal_latched (by rwa [latchLevels_irq]), latchLevels_irq]

theorem settleOnlyFlags : Claims.SettleOnlyFlags := by
  intro s
  refine ⟨?_, onlyEventsRaised_settle s, settle_irq_latched⟩
  have hrest : { settle s with hdr := s.hdr, irq := s.irq } = s :=
    settle_keeps (fun t => { t with hdr := s.hdr, irq := s.irq }) (fun _ _ _ => rfl) (fun _ _ => rfl) s
  have hirq : { (settle s).irq with latched := s.irq.latched, first := s.irq.first } = s.irq := by
    obtain ⟨_, _, h⟩ := settle_irq_eq s
    rw [h]
  rw [hirq, hrest]

/-! ### First error, events and counters (03 R67 to R69, R74) -/

theorem firstErrorLatched : Claims.FirstErrorLatched := by
  intro p code info s h more c i n
  have hsat : BitVec.ofNat 8 (satTo 255 (h.more.toNat + 1)) = more := by rw [satTo_eq_min]
  refine ⟨fun q hq => ?_, ?_, fun hzero => ?_, fun hset hlate => ?_, fun hset hcc hlow => ?_⟩
  · obtain ⟨_, heq⟩ := raiseErr_eq p code info s
    rw [heq, hdrOf_setHdr_other _ _ hq]
  · obtain ⟨_, heq⟩ := raiseErr_eq p code info s
    rw [heq]
    rfl
  · rw [raiseErr, if_pos hzero, hdrOf_setHdr_same]
  · have hnot : ¬(h.errCc = s.cc ∧ code < h.errCode.toNat) := fun hn => hlate.elim (· hn.1) (by omega)
    rw [raiseErr, if_neg hset]
    exact (congrArg (hdrOf p) (if_neg hnot)).trans (by rw [hdrOf_setHdr_same, ← hsat])
  · rw [raiseErr, if_neg hset]
    exact (congrArg (hdrOf p) (if_pos ⟨hcc, hlow⟩)).trans (by rw [hdrOf_setHdr_same, ← hsat])

theorem bump_frozen {p : Page} {s : State} (i : Nat) (h : frozen p s = true) : bump p i s = s := if_pos (.inl h)

theorem bump_counts {p : Page} {s : State} (i : Nat) (h : frozen p s = false) :
    bump p i s = countTo p i (satTo 0xFFFFFFFF (cntBase p i s + 1)) s :=
  if_neg (by rintro (hf | hz); exacts [absurd (h.symm.trans hf) (by decide), absurd hz (by decide)])

/-- The header of a page after counting to v. -/
theorem hdrOf_countTo_same (p : Page) (i v : Nat) (s : State) : hdrOf p (countTo p i v s) =
    { hdrOf p s with cnt := SMap.put (fun _ => 0) (hdrOf p s).cnt i v,
                     now := { nowOf p s with cnts := i :: (nowOf p s).cnts.filter fun k => !decide (k = i) } } :=
  hdrOf_setHdr_same ..

theorem eventsAndCounters : Claims.EventsAndCounters := by
  intro p i s b
  refine ⟨hdrOf_raiseEvt_same p i s, fun q hq => hdrOf_setHdr_other _ _ hq, rfl, fun hpage hglb => ?_,
    fun hfreeze => ?_⟩
  · rw [bump_counts i (by rw [frozen, hpage, hglb]; rfl)]
    refine ⟨?_, fun hsets => ?_, fun k hk => ?_, ?_, fun q hq => hdrOf_setHdr_other _ _ hq, rfl⟩
    · rw [cntOf, hdrOf_countTo_same, SMap.get_put_same, satTo_eq_min]
    · rw [cntBase, baseOf, hsets]
      rfl
    · rw [cntOf, hdrOf_countTo_same, SMap.get_put_other _ _ _ hk, cntOf]
    · rw [hdrOf_countTo_same]
  · exact bump_frozen i ((Bool.or_eq_true ..).mpr hfreeze)

/-- Settles O3: settling through its two cases, an error by the three branches of raiseErr, a count by its header. -/
theorem flagsEventsAndErrors : Obligations.FlagsEventsAndErrors :=
  ⟨settleOnlyFlags, firstErrorLatched, eventsAndCounters⟩

/-! ### The flags agree after settling (03 R67, 15 R368) -/

/-- No header decides a level. -/
theorem levelEvt_setHdr (p : Page) (i : Nat) (q : Page) (h : Hdr) (s : State) :
    levelEvt p i (setHdr q h s) = levelEvt p i s := rfl

/-- The latch of the fault line decides no level but its own. -/
theorem levelEvt_irq {e : Page × Nat} (he : e ∈ levelList) (x : Irq) (s : State) :
    levelEvt e.1 e.2 { s with irq := x } = levelEvt e.1 e.2 s := by
  fin_cases he <;> rfl

theorem levelEvt_settle {e : Page × Nat} (he : e ∈ levelList) (s : State) :
    levelEvt e.1 e.2 (settle s) = levelEvt e.1 e.2 s :=
  settle_keeps (levelEvt e.1 e.2) (levelEvt_setHdr e.1 e.2) (levelEvt_irq he) s

theorem levelList_bound : ∀ e ∈ levelList, e.2 < 32 := by decide

/-- Bit i of EVT_PEND of a page. -/
def evtLatched (p : Page) (i : Nat) (s : State) : Prop := (hdrOf p s).evtPend.toNat.testBit i = true

theorem evtLatched_of_raised {p : Page} {i : Nat} {s t : State} (h : onlyEventsRaised s t) (hs : evtLatched p i s) :
    evtLatched p i t := by
  obtain ⟨m, n, ht⟩ := h p
  rw [evtLatched] at hs ⊢
  rw [ht, BitVec.toNat_or, Nat.testBit_or, hs, Bool.true_or]

theorem evtLatched_raiseEvt (p : Page) {i : Nat} (s : State) (hi : i < 32) : evtLatched p i (raiseEvt p i s) := by
  have hbit : (BitVec.ofNat 32 (2 ^ i)).toNat = 2 ^ i := by
    rw [BitVec.toNat_ofNat, Nat.mod_eq_of_lt (Nat.pow_lt_pow_right (by decide) hi)]
  rw [evtLatched, hdrOf_raiseEvt_same, BitVec.toNat_or, Nat.testBit_or, hbit, Nat.testBit_two_pow_self, Bool.or_true]

theorem evtLatched_latchLevel {e : Page × Nat} {s : State} (hi : e.2 < 32) (hlevel : levelEvt e.1 e.2 s = true) :
    evtLatched e.1 e.2 (latchLevel s e) := by
  unfold latchLevel
  split
  · exact evtLatched_raiseEvt e.1 s hi
  · next hnot => simpa [hlevel, evtLatched, bitAt] using hnot

/-- A level that is high when a list of levels is latched stands in EVT_PEND afterwards. -/
theorem evtLatched_latchList {e : Page × Nat} (hi : e.2 < 32) : ∀ (l : List (Page × Nat)) (s : State), e ∈ l →
    levelEvt e.1 e.2 s = true → evtLatched e.1 e.2 (l.foldl latchLevel s) := by
  intro l
  induction l with
  | nil => exact fun _ hmem => absurd hmem List.not_mem_nil
  | cons a r ih =>
    intro s hmem hlevel
    rw [List.foldl_cons]
    rcases List.mem_cons.mp hmem with rfl | hr
    · exact evtLatched_of_raised (onlyEventsRaised_latchList r _) (evtLatched_latchLevel hi hlevel)
    · refine ih _ hr ?_
      rcases latchLevel_eq s a with h | h <;> rw [h]
      · exact hlevel
      · exact hlevel

/-- After the flags have settled they agree with the state. A source becomes FATAL-pending in the last step, by event 0
of IRQ, only where the fault line is latched already. -/
theorem latchFlags_agrees (s : State) :
    (∀ p i, (p, i) ∈ levelList → levelEvt p i s = true → evtLatched p i (latchFlags s))
    ∧ (fatalSource (latchFlags s) ≠ none → (latchFlags s).irq.latched = true)
    ∧ ((latchFlags s).irq.latched = true → evtLatched .irq 0 (latchFlags s)) := by
  let t := latchFatal (latchLevels s)
  refine ⟨fun p i hmem hlevel => ?_, fun hsource => ?_, fun hlatched => ?_⟩
  · have hi : i < 32 := levelList_bound _ hmem
    have hlevels : evtLatched p i (latchLevels s) := evtLatched_latchList (e := (p, i)) hi levelList s hmem hlevel
    exact evtLatched_of_raised
      (onlyEventsRaised_trans (onlyEventsRaised_latchFatal _) (onlyEventsRaised_latchLevel _ _)) hlevels
  · by_contra hnot
    rw [latchFlags_irq, Bool.not_eq_true] at hnot
    obtain ⟨hstays, hnone⟩ := fatalSource_of_unlatched hnot
    have hlow : levelEvt .irq 0 t = false := hnot
    have hend : latchFlags s = latchLevels s :=
      (if_neg (by rw [hlow, Bool.false_and]; decide)).trans hstays
    exact hsource (by rw [hend, hnone])
  · rw [latchFlags_irq] at hlatched
    exact evtLatched_latchLevel (e := (.irq, 0)) (by decide) hlatched

theorem flagsAgree_settle (s : State) : flagsAgree (settle s) := by
  intro hpow hrel
  rw [show corePowered (settle s) = corePowered s by rw [corePowered, settle_pwr]; rfl] at hpow
  rw [show stepReleased 1 (settle s) = stepReleased 1 s by rw [stepReleased, settle_rst]; rfl] at hrel
  have hlevels : ∀ p i, (p, i) ∈ levelList → levelEvt p i (settle s) = levelEvt p i s :=
    fun p i hmem => levelEvt_settle (e := (p, i)) hmem s
  rcases settle_cases s with ⟨-, -, h⟩ | ⟨hdown, -⟩
  · obtain ⟨hpend, hfatal, hirq⟩ := latchFlags_agrees s
    rw [h] at hlevels ⊢
    exact ⟨fun p i hmem hlevel => hpend p i hmem (hlevels p i hmem ▸ hlevel), hfatal, hirq⟩
  · exact absurd ⟨hpow, hrel⟩ hdown

/-- Every step ends in the flags' settling. -/
theorem step_settles (s : State) : ∃ u, step s = .next (settle u) := by
  unfold step
  split
  · exact ⟨_, rfl⟩
  · exact exec_settles _ _

/-- Settles O4: a step answers a settled state, and a settled state is in agreement whatever came before. -/
theorem everyStepKeepsFlagsInAgreement : Obligations.EveryStepKeepsFlagsInAgreement := by
  intro s t _ hstep
  obtain ⟨u, hu⟩ := step_settles s
  obtain rfl : settle u = t := Host.Outcome.next.inj (hu.symm.trans hstep)
  exact flagsAgree_settle u

end Sys2Proof.Machine
end

section
/-!
The reset state (O5): the headers by page number, the bytes of the table windows, the flags.
-/

namespace Sys2Proof.Machine

/-! ### Headers after reset (03 R66) -/

/-- The service pages that 03 R66 enables are those of the page numbers hdrReset names. -/
theorem pageNum_enabled_iff (p : Page) :
    (pageNum p = 12 ∨ pageNum p = 21 ∨ pageNum p = 22 ∨ pageNum p = 23 ∨ pageNum p = 24)
      ↔ p ∈ [Page.irq, .note, .rst, .mem, .sec] := by
  cases p with
  | dsp a => have := a.isLt; simp [pageNum]; omega
  | irqt t => have := t.isLt; simp [pageNum]; omega
  | bur b => have := b.isLt; simp [pageNum]; omega
  | chn c => have := c.isLt; simp [pageNum]; omega
  | _ => simp [pageNum]

theorem hdrReset_eq (n : Nat) :
    hdrReset n = { enable := decide (n = 12 ∨ n = 21 ∨ n = 22 ∨ n = 23 ∨ n = 24) } := by
  by_cases h : n = 12 ∨ n = 21 ∨ n = 22 ∨ n = 23 ∨ n = 24
  · rw [hdrReset, if_pos h, decide_eq_true h]
  · rw [hdrReset, if_neg h, decide_eq_false h]

theorem hdrOf_reset (p : Page) :
    hdrOf p State.reset = { enable := decide (p ∈ [Page.irq, .note, .rst, .mem, .sec]) } := by
  rw [← decide_eq_decide.mpr (pageNum_enabled_iff p)]
  exact hdrReset_eq (pageNum p)

/-! ### Window bytes after reset (01 R23, 11 R269) -/

/-- Bytes that spell a number in order, lowest first, read as that number (00 R7). -/
theorem winNat_of_bytes (v a n : Nat) (s : State)
    (h : ∀ j, j < n → winByte (a + j) s = BitVec.ofNat 8 (v / 256 ^ j)) :
    winNat a n s = v % 256 ^ n := by
  induction n generalizing v a with
  | zero => exact (Nat.mod_one v).symm
  | succ n ih =>
    have hlow : winByte a s = BitVec.ofNat 8 v := by simpa using h 0 (Nat.succ_pos n)
    have hrest : winNat (a + 1) n s = v / 256 % 256 ^ n := ih (v / 256) (a + 1) fun j hj => by
      rw [Nat.add_assoc, Nat.add_comm 1 j, h (j + 1) (Nat.succ_lt_succ hj), Nat.div_div_eq_div_mul, ← Nat.pow_succ']
    rw [winNat, hlow, hrest, BitVec.toNat_ofNat, Nat.pow_succ' (m := 256), Nat.mod_mul]

theorem winByte_reset (a : Nat) : winByte a State.reset = winReset a := rfl

/-- Outside the ladder rows the windows read zero. -/
theorem winReset_zero {a : Nat} (h : a < 0x630000 ∨ 0x630800 ≤ a) : winReset a = 0 := if_neg (by omega)

/-- Byte j of rung k of a ladder row. -/
theorem winReset_ladder {row k j : Nat} (hrow : row < 32) (hk : k < 8) (hj : j < 8) :
    winReset (0x630000 + 64 * row + 8 * k + j) = BitVec.ofNat 8 ((ladderResetRow[k]?).getD 0 / 256 ^ j) := by
  have hrung : (0x630000 + 64 * row + 8 * k + j) / 8 % 8 = k := by omega
  have hbyte : (0x630000 + 64 * row + 8 * k + j) % 8 = j := by omega
  rw [winReset, if_pos (by omega), hrung, hbyte]

theorem ladderResetRow_fits : ∀ v ∈ ladderResetRow, v < 256 ^ 8 := by decide

theorem winNat_ladder {row k : Nat} (hrow : row < 32) (hk : k < 8) :
    some (winNat (0x630000 + 64 * row + 8 * k) 8 State.reset) = ladderResetRow[k]? := by
  have hat : ladderResetRow[k]? = some ladderResetRow[k] := List.getElem?_eq_getElem hk
  have hbytes : ∀ j, j < 8 → winByte (0x630000 + 64 * row + 8 * k + j) State.reset
      = BitVec.ofNat 8 (ladderResetRow[k] / 256 ^ j) := fun j hj => by
    rw [winByte_reset, winReset_ladder hrow hk hj, hat, Option.getD_some]
  rw [winNat_of_bytes _ _ 8 State.reset hbytes, hat,
    Nat.mod_eq_of_lt (ladderResetRow_fits _ (List.getElem_mem hk))]

/-! ### The flags after reset (03 R67, 15 R368) -/

theorem levelsLow_reset : ∀ e ∈ levelList, levelEvt e.1 e.2 State.reset = false := by decide

theorem flagsAgree_reset : flagsAgree State.reset := fun _ _ =>
  ⟨fun p i hmem hhigh => absurd ((levelsLow_reset (p, i) hmem).symm.trans hhigh) (by decide),
    fun hsource => absurd rfl hsource, fun hlatched => absurd hlatched (by decide)⟩

/-- Settles O5: headers, window bytes and flags by their lemmas, all else as State.reset writes it out. -/
theorem resetState : Obligations.ResetState := by
  refine ⟨rfl, rfl, fun p => ?_, fun p => ?_, rfl, rfl, rfl, fun _ => rfl, fun _ => rfl, rfl, rfl, rfl, rfl,
    rfl, rfl, rfl, fun a _ hhigh => ?_, fun row k hrow hk => winNat_ladder hrow hk, fun a hlow _ => ?_, rfl,
    flagsAgree_reset⟩
  · rw [hdrOf_reset, decide_eq_true_iff]
  · have hcnt : ∀ i, cntOf p i State.reset = 0 := fun i => by rw [cntOf, hdrOf_reset]; rfl
    rw [hdrOf_reset]
    exact ⟨rfl, rfl, rfl, rfl, hcnt⟩
  · exact winReset_zero (.inl (by omega))
  · exact winReset_zero (.inr (by omega))

end Sys2Proof.Machine
end

section
/-!
The header commands (O6): a word write in the header of a page that answers, CTRL with its edges of ENABLE, and the
subsystem reset.
-/

namespace Sys2Proof.Machine

/-! ### A word written in the header (03 R60, R66) -/

/-- No register of a page table stands in the header. -/
theorem pageRegs_beyondHeader (p : Page) : ∀ d ∈ pageRegs p, 64 ≤ d.off := by
  cases p <;> (simp only [pageRegs]; decide)

theorem isWide_header (p : Page) {off : Nat} (h : off < 64) : isWide p off = false := by
  have hnone : regAt p off = none := List.find?_eq_none.mpr fun d hd hcovers => by
    simp only [regCovers, Bool.and_eq_true, decide_eq_true_eq] at hcovers
    have := pageRegs_beyondHeader p d hd
    omega
  rw [isWide, hnone]
  rfl

theorem highWord_shifted (v : Nat) : highWord (v * 2 ^ 32) = lowWord v := by
  rw [highWord, Nat.mul_div_cancel _ (by decide), lowWord]

theorem pageWrite_header {p : Page} {off : Nat} (v : Nat) (s : State) (h : off < 64) :
    pageWrite p off v s = hdrWrite p off v s := if_pos h

section
variable {p : Page} {off : Nat} {s : State} (hp : pageAnswers p s = true) (hoff : off < 60) (halign : off % 8 = 0)

include hp hoff halign

/-- The lower word of a doubleword of the header. -/
theorem wordWrite_lower (v : Nat) :
    wordWrite p off v s = csrOk 0 (hdrWrite p off (lowWord v) (dropLatches p s)) := by
  have hslot : slotWrite p off v 0x0F s = csrOk 0 (pageWrite p off (lowWord v) (dropLatches p s)) := by
    have hfree : l1Refused p off v 0x0F s = false := by simp [l1Refused, show selHigh 0x0F = false from rfl]
    simp only [slotWrite, isWide_header p (show off < 64 by omega), hfree]
    rfl
  rw [wordWrite, if_pos hp, if_pos halign, hslot, pageWrite_header _ _ (by omega)]

/-- The upper word, where no subsystem reset is refused. -/
theorem wordWrite_upper {v : Nat} (hfree : l1Refused p off (v * 2 ^ 32) 0xF0 s = false) :
    wordWrite p (off + 4) v s = csrOk 0 (hdrWrite p (off + 4) (lowWord v) (dropLatches p s)) := by
  have hslot : slotWrite p off (v * 2 ^ 32) 0xF0 s
      = csrOk 0 (pageWrite p (off + 4) (highWord (v * 2 ^ 32)) (dropLatches p s)) := by
    simp only [slotWrite, isWide_header p (show off < 64 by omega), hfree]
    rfl
  rw [wordWrite, if_pos hp, if_neg (by omega), Nat.add_sub_cancel, hslot, highWord_shifted,
    pageWrite_header _ _ (by omega)]

end

/-- A register other than CTRL asks for no subsystem reset. -/
theorem l1Refused_elsewhere {p : Page} {off data strb : Nat} {s : State} (h : off ≠ 8) :
    l1Refused p off data strb s = false := by
  rw [l1Refused, decide_eq_false h]
  rfl

/-! ### ERROR, EVT_PEND, LOCK (03 R67, R68, R70) -/

theorem execErrorClear_answers {p : Page} {s : State} (hp : pageAnswers p s = true) :
    execErrorClear p s = fin (csrOk 0 (errorWrite p (dropLatches p s))) := by
  rw [execErrorClear, wordWrite_lower (off := 0x010) hp (by decide) (by decide)]
  rfl

theorem execEvtPendClear_answers {p : Page} {s : State} (bits : Word32) (hp : pageAnswers p s = true) :
    execEvtPendClear p bits s = fin (csrOk 0 (pendWrite p bits.toNat (dropLatches p s))) := by
  have hlow : lowWord bits.toNat = bits.toNat := Nat.mod_eq_of_lt bits.isLt
  rw [execEvtPendClear, wordWrite_upper (off := 0x018) hp (by decide) (by decide) (l1Refused_elsewhere (by decide)),
    hlow]
  rfl

theorem execPageLock_answers {p : Page} {s : State} (hp : pageAnswers p s = true) :
    execPageLock p s = fin (csrOk 0 (setHdr p { hdrOf p s with locked := true } (dropLatches p s))) := by
  rw [execPageLock, wordWrite_upper (off := 0x038) hp (by decide) (by decide) (l1Refused_elsewhere (by decide))]
  rfl

theorem headerWrites : Claims.HeaderWrites := by
  intro p s hp u n
  refine ⟨fun hnone => ?_, fun hsome => ?_, fun bits => ?_, execPageLock_answers hp⟩
  · refine (execErrorClear_answers hp).trans ?_
    rw [errorWrite]
    simp only [show (nowOf p (dropLatches p s)).errs = 0 from hnone]
    rfl
  · refine (execErrorClear_answers hp).trans ?_
    rw [errorWrite]
    simp only [show (nowOf p (dropLatches p s)).errs ≠ 0 from hsome, satTo_eq_min]
    rfl
  · refine (execEvtPendClear_answers bits hp).trans ?_
    rw [pendWrite, BitVec.ofNat_toNat, BitVec.setWidth_eq]
    rfl

/-! ### CTRL (03 R66) -/

theorem pageNum_ne_glb {p : Page} (h : p ≠ .glb) : pageNum .glb ≠ pageNum p := by
  cases p with
  | glb => exact absurd rfl h
  | _ => simp only [pageNum]; omega

section
variable {p : Page} {on : Bool} {s : State} (freeze : Bool)

/-- CTRL with ENABLE as it stands. -/
theorem ctrlWrite_same (h : (hdrOf p s).enable = on) :
    ctrlWrite p freeze on s = setHdr p { hdrOf p s with freeze := freeze, enable := on } s := if_pos h

variable (h : (hdrOf p s).enable ≠ on)

include h

theorem ctrlWrite_glb (hp : p = .glb) :
    ctrlWrite p freeze on s = globalEdge on (setHdr p { hdrOf p s with freeze := freeze, enable := on } s) :=
  (if_neg h).trans (if_pos hp)

/-- An edge of a page that GLB.CTRL.ENABLE governs has effect while that is 1. -/
theorem ctrlWrite_governed (hp : p ≠ .glb) :
    let w := setHdr p { hdrOf p s with freeze := freeze, enable := on } s
    ctrlWrite p freeze on s = if servicePage p = false ∧ (hdrOf .glb s).enable = true
      then bootAdvance (enableEdge p on w) else w := by
  intro w
  have hglb : hdrOf .glb w = hdrOf .glb s := hdrOf_setHdr_other _ _ (pageNum_ne_glb hp)
  rw [← hglb]
  exact (if_neg h).trans (if_neg hp)

end

/-- CTRL as the commands write it: L1_RESET, FREEZE and ENABLE in bits 2, 1 and 0. -/
theorem ctrlReg_noReset (p : Page) (freeze on : Bool) (s : State) :
    ctrlReg p (2 * bit freeze + bit on) s = ctrlWrite p freeze on s := by
  cases freeze <;> cases on <;> rfl

theorem ctrlReg_reset (p : Page) (on : Bool) (s : State) :
    ctrlReg p (4 + bit on) s = if l1Ok p = true then ctrlWrite p false on (l1Run p s) else ctrlWrite p false on s := by
  cases on <;> rfl

theorem execCtrlEnable_answers {p : Page} {s : State} (on : Bool) (hp : pageAnswers p s = true) :
    execCtrlEnable p on s = fin (csrOk 0 (ctrlWrite p (hdrOf p s).freeze on (dropLatches p s))) := by
  have hreset : ∀ f : Bool, bitAt (highWord ((2 * bit f + bit on) * 2 ^ 32)) 2 = false := by
    cases on <;> decide
  have hlow : ∀ f : Bool, lowWord (2 * bit f + bit on) = 2 * bit f + bit on := by
    cases on <;> decide
  have hfree : l1Refused p 8 ((2 * bit (hdrOf p s).freeze + bit on) * 2 ^ 32) 0xF0 s = false := by
    simp only [l1Refused, hreset, Bool.and_false, Bool.false_and]
  rw [execCtrlEnable, wordWrite_upper (off := 0x008) hp (by decide) (by decide) hfree, hlow]
  exact congrArg (fun v => fin (csrOk 0 v)) (ctrlReg_noReset p _ on _)

/-- 03 R66: CTRL_ENABLE. -/
theorem controlEnable : Claims.ControlEnable := by
  intro p on s hp w
  let u := dropLatches p s
  have hexec : ∀ v, ctrlWrite p (hdrOf p s).freeze on u = v →
      exec (.ctrlEnable p on) s = .next (settle (csrOk 0 v)) := fun v hv =>
    (execCtrlEnable_answers on hp).trans (by rw [hv]; rfl)
  refine ⟨fun hcase => hexec _ ?_, fun hedge hpage hglb => hexec _ ?_, fun hedge hpage => hexec _ ?_⟩
  · by_cases hsame : (hdrOf p s).enable = on
    · exact ctrlWrite_same (s := u) _ hsame
    · have hnot : ¬(servicePage p = false ∧ (hdrOf .glb s).enable = true) := by
        rcases hcase with h | ⟨h, -⟩ | ⟨-, h⟩
        · exact absurd h hsame
        · simp [h]
        · simp [h]
      have hpage : p ≠ .glb := by
        rintro rfl
        rcases hcase with h | ⟨-, h⟩ | ⟨h, -⟩
        · exact hsame h
        · exact h rfl
        · exact absurd h (by decide)
      exact (ctrlWrite_governed (s := u) _ hsame hpage).trans (if_neg hnot)
  · have hne : p ≠ .glb := by
      rintro rfl
      exact absurd hpage (by decide)
    exact (ctrlWrite_governed (s := u) _ hedge hne).trans (if_pos ⟨hpage, hglb⟩)
  · exact ctrlWrite_glb (s := u) _ hedge hpage

/-! ### Subsystem reset (03 R71, R72) -/

/-- A write of L1_RESET is refused while the page has one and is not free for it. -/
theorem l1Refused_reset (p : Page) (on : Bool) (s : State) :
    l1Refused p 8 ((4 + bit on) * 2 ^ 32) 0xF0 s = (l1Ok p && !l1Free p s) := by
  cases on <;> rfl

section
variable {p : Page} {s : State} (hp : pageAnswers p s = true)

include hp

theorem execL1Reset_taken (h : l1Ok p = false ∨ l1Free p s = true) :
    execL1Reset p s = fin (csrOk 0 (ctrlReg p (4 + bit (hdrOf p s).enable) (dropLatches p s))) := by
  have hlow : ∀ b : Bool, lowWord (4 + bit b) = 4 + bit b := by decide
  have hfree : l1Refused p 8 ((4 + bit (hdrOf p s).enable) * 2 ^ 32) 0xF0 s = false := by
    rw [l1Refused_reset]
    rcases h with h | h <;> simp [h]
  rw [execL1Reset, wordWrite_upper (off := 0x008) hp (by decide) (by decide) hfree, hlow]
  rfl

theorem execL1Reset_refused (hok : l1Ok p = true) (hfree : l1Free p s = false) :
    execL1Reset p s = fin (csrErr (raiseErr p 0x0003 (statusOf p s) (dropLatches p s))) := by
  have hrefused : l1Refused p 8 ((4 + bit (hdrOf p s).enable) * 2 ^ 32) 0xF0 s = true := by
    rw [l1Refused_reset, hok, hfree]
    rfl
  have hwide : isWide p 8 = false := isWide_header p (by decide)
  have hword : wordWrite p 0x00C (4 + bit (hdrOf p s).enable) s
      = slotWrite p 8 ((4 + bit (hdrOf p s).enable) * 2 ^ 32) 0xF0 s := (if_pos hp).trans (if_neg (by decide))
  rw [execL1Reset, hword, slotWrite, hwide, hrefused]
  rfl

end

/-- What a page holds is reset without its header. -/
theorem l1Run_eq (p : Page) (s : State) :
    l1Run p s = setHdr p (l1Hdr (hdrOf p (l1State p (l1Regs p s)))) (l1State p (l1Regs p s)) := rfl

/-- A fact that no plain register decides survives their reset. -/
theorem l1Regs_keeps {α : Type} (f : State → α) (hreg : ∀ p off v s, f (setReg p off v s) = f s) (p : Page)
    (s : State) : f (l1Regs p s) = f s := by
  unfold l1Regs
  apply foldl_keeps
  intro s d
  apply foldl_keeps
  exact fun s k => hreg ..

/-- The pages on which the statement shows what a subsystem reset leaves. -/
def l1Shown (p : Page) : Prop := p = .dpt ∨ p = .ecc ∨ p = .map ∨ p = .tmb

/-- On those pages a fact that neither the plain registers nor DPT, MAP and TMB decide survives a reset of what the page
holds. -/
theorem l1State_keeps {α : Type} (f : State → α) (hreg : ∀ p off v s, f (setReg p off v s) = f s)
    (hown : ∀ d m t (s : State), f { s with dpt := d, map := m, tmb := t } = f s) {p : Page} (hp : l1Shown p)
    (s : State) : f (l1State p (l1Regs p s)) = f s := by
  rcases hp with rfl | rfl | rfl | rfl
  · exact (hown ..).trans (l1Regs_keeps f hreg .dpt s)
  · exact l1Regs_keeps f hreg .ecc s
  · exact (hown ..).trans (l1Regs_keeps f hreg .map s)
  · exact (hown ..).trans (l1Regs_keeps f hreg .tmb s)

/-- 03 R71, R72: L1_RESET. -/
theorem subsystemReset : Claims.SubsystemReset := by
  intro p s hp
  have htaken (hok : l1Ok p = true) (hfree : l1Free p s = true) : exec (.l1Reset p) s = .next (settle (csrOk 0
      (ctrlWrite p false (hdrOf p s).enable (l1Run p (dropLatches p s))))) :=
    (execL1Reset_taken hp (.inr hfree)).trans (by rw [ctrlReg_reset, if_pos hok]; rfl)
  refine ⟨htaken, fun hok => ?_, fun hok hfree hshown => ?_, fun hok hfree => execL1Reset_refused hp hok hfree⟩
  · refine (execL1Reset_taken hp (.inl hok)).trans ?_
    have hno : ¬l1Ok p = true := by simp [hok]
    rw [ctrlReg_reset, if_neg hno, ctrlWrite_same (s := dropLatches p s) (on := (hdrOf p s).enable) false rfl]
    rfl
  · let u := dropLatches p s
    let x := l1State p (l1Regs p u)
    have hhdr (q : Page) : hdrOf q x = hdrOf q s :=
      l1State_keeps (hdrOf q) (fun _ _ _ _ => rfl) (fun _ _ _ _ => rfl) hshown u
    have hctrl : ctrlWrite p false (hdrOf p s).enable (l1Run p u)
        = setHdr p (l1Hdr (hdrOf p s)) (setHdr p (l1Hdr (hdrOf p s)) x) := by
      have hrun : l1Run p u = setHdr p (l1Hdr (hdrOf p s)) x := by rw [l1Run_eq, ← hhdr p]
      rw [hrun, ctrlWrite_same false (by rw [hdrOf_setHdr_same]; rfl), hdrOf_setHdr_same]
      rfl
    refine ⟨setHdr p (l1Hdr (hdrOf p s)) (setHdr p (l1Hdr (hdrOf p s)) x),
      (htaken hok hfree).trans (by rw [hctrl]), hdrOf_setHdr_same .., fun q hq => ?_,
      l1State_keeps State.rif ?_ ?_ hshown u, l1State_keeps State.ops ?_ ?_ hshown u,
      l1State_keeps State.sch ?_ ?_ hshown u, l1State_keeps State.irq ?_ ?_ hshown u,
      l1State_keeps State.rst ?_ ?_ hshown u, l1State_keeps State.win ?_ ?_ hshown u⟩
    · rw [hdrOf_setHdr_other _ _ hq, hdrOf_setHdr_other _ _ hq, hhdr q]
    all_goals intros; rfl

/-- Settles O6: the writes of the header, the edges of ENABLE and the subsystem reset. -/
theorem headerCommands : Obligations.HeaderCommands :=
  ⟨headerWrites, controlEnable, subsystemReset⟩

end Sys2Proof.Machine
end

section
/-!
A window write that the statement on register and window writes gets wrong (O7).
-/

namespace Sys2Proof.Machine

/-- An upset whose word lies just behind the read-level tables: as an address of the windows, 0x600000, the first byte
of the window of DSP[0]. -/
def strayUpset : Upset := { cls := 5, idx := 0x20000, unit := 0, beyond := false, bit_ := 0, mask := 0 }

/-- The block after reset with that upset standing. -/
def strayUpsetStands : State := { State.reset with mem.upsets := [strayUpset] }

/-- The window of DSP[0] takes the write, so that the statement speaks of it. -/
theorem strayUpsetStands_takesWrite :
    winPage 0x600000 = some (.dsp 0) ∧ winAnswers (.dsp 0) strayUpsetStands = true
    ∧ winRefused (.dsp 0) 0x600000 strayUpsetStands = false ∧ winHolds 0x600000 = true := by decide

/-- The write gives the byte fresh check bits, and the upset is gone. -/
theorem strayUpsetStands_written :
    ∃ t, exec (.windowWrite 0x600000 0 0xFF) strayUpsetStands = .next t ∧ t.mem.upsets = [] :=
  ⟨_, rfl, by decide +kernel⟩

/-- Refutes O7: by Claims.WindowWriteStoresBytes a write at 0x600000 or above leaves MEM as it was. The statement is
about every state, and one with an upset of class 5 behind the last word of the read-level tables loses it to a write of
the window of DSP[0]. No cc of the clock brings such an upset, for addUpset takes those of existing words only: the
statement lacks that hypothesis about the upsets that stand. -/
theorem not_registerAndWindowWrites : ¬ Obligations.RegisterAndWindowWrites := by
  rintro ⟨-, -, hwindow⟩
  obtain ⟨hpage, hanswers, htaken, hholds⟩ := strayUpsetStands_takesWrite
  obtain ⟨v, hexec, -, -, -, -, -, hmem⟩ :=
    (hwindow 0x600000 0 strayUpsetStands (.dsp 0) rfl hpage hanswers).1 htaken hholds
  obtain ⟨t, hwrite, hgone⟩ := strayUpsetStands_written
  obtain rfl : settle (csrOk 0 v) = t := Host.Outcome.next.inj (hexec.symm.trans hwrite)
  obtain ⟨-, hkept⟩ := hmem (by decide)
  rw [settle_mem, csrOk_mem, hkept] at hgone
  exact List.cons_ne_nil _ _ hgone

end Sys2Proof.Machine
end

section
/-!
The ring that the poller serves next (O27; 04 R101).
-/

namespace Sys2Proof.Machine

/-! ### The first of a list -/

section FirstBy

variable {α : Type} {lt : α → α → Bool} (hasymm : ∀ a b, lt a b = true → lt b a = false)
  (hnot : ∀ a b c, lt a b = false → lt b c = false → lt a c = false)

include hasymm hnot

/-- The one that a fold under a strict weak order ends with is one of those it began with, and none of them comes
before it. -/
theorem foldl_first (l : List α) (a : α) :
    let m := l.foldl (fun b y => if lt y b then y else b) a
    m ∈ a :: l ∧ ∀ y ∈ a :: l, lt y m = false := by
  induction l generalizing a with
  | nil =>
    refine ⟨List.mem_singleton_self a, fun y hy => ?_⟩
    obtain rfl := List.mem_singleton.mp hy
    exact Bool.eq_false_iff.mpr fun h => absurd (h.symm.trans (hasymm _ _ h)) nofun
  | cons x r ih =>
    intro m
    let kept := if lt x a then x else a
    obtain ⟨hmem, hfirst⟩ : m ∈ kept :: r ∧ ∀ y ∈ kept :: r, lt y m = false := ih kept
    have hrest : ∀ y ∈ r, lt y m = false := fun y hy => hfirst y (List.mem_cons_of_mem _ hy)
    have hends : m ∈ a :: x :: r ∧ lt a m = false ∧ lt x m = false := by
      cases hxa : lt x a with
      | true =>
        rw [show kept = x from if_pos hxa] at hmem hfirst
        have hkept : lt x m = false := hfirst x (List.mem_cons_self ..)
        exact ⟨List.mem_cons_of_mem _ hmem, hnot _ _ _ (hasymm _ _ hxa) hkept, hkept⟩
      | false =>
        rw [show kept = a from if_neg (Bool.eq_false_iff.mp hxa)] at hmem hfirst
        have hkept : lt a m = false := hfirst a (List.mem_cons_self ..)
        exact ⟨List.cons_subset_cons a (List.subset_cons_self x r) hmem, hkept, hnot _ _ _ hxa hkept⟩
    obtain ⟨hin, ha, hx⟩ := hends
    exact ⟨hin, List.forall_mem_cons.mpr ⟨ha, List.forall_mem_cons.mpr ⟨hx, hrest⟩⟩⟩

theorem firstBy_first {l : List α} {m : α} (h : firstBy lt l = some m) : m ∈ l ∧ ∀ y ∈ l, lt y m = false := by
  cases l with
  | nil => exact absurd h nofun
  | cons a r =>
    obtain rfl := Option.some.inj h
    exact foldl_first hasymm hnot r a

end FirstBy

/-! ### The order of the poller -/

/-- The place of a ring among those due at the same time: express rings go first. -/
def expressRank (g : Ring) : Nat := bit !g.express

theorem pollBefore_iff (a b : Nat × Ring) : pollBefore a b = true ↔ pollTime a.2 < pollTime b.2
    ∨ pollTime a.2 = pollTime b.2 ∧ (expressRank a.2 < expressRank b.2
      ∨ expressRank a.2 = expressRank b.2 ∧ a.1 < b.1) := by
  unfold pollBefore expressRank
  cases a.2.express <;> cases b.2.express <;> simp [bit]

theorem pollBefore_asymm (a b : Nat × Ring) (h : pollBefore a b = true) : pollBefore b a = false := by
  rw [Bool.eq_false_iff, ne_eq, pollBefore_iff]
  rw [pollBefore_iff] at h
  omega

theorem pollBefore_not_trans (a b c : Nat × Ring) (hab : pollBefore a b = false) (hbc : pollBefore b c = false) :
    pollBefore a c = false := by
  rw [Bool.eq_false_iff, ne_eq, pollBefore_iff] at hab hbc ⊢
  omega

theorem expressRank_le_iff (g h : Ring) :
    expressRank g ≤ expressRank h ↔ g.express = true ∨ h.express = false := by
  unfold expressRank
  cases g.express <;> cases h.express <;> simp [bit]

/-- The due time of a ring that waits has come: of a submission ring that of its poll, of a completion ring that of its
HEAD. -/
theorem pollTime_come {g : Ring} {s : State} (h : pollWaits g s = true ∨ headWaits g s = true) :
    pollTime g ≤ s.cc := by
  rcases h with h | h
  · simp only [pollWaits, Bool.and_eq_true, Bool.not_eq_true', Option.any_eq_true, decide_eq_true_eq] at h
    obtain ⟨hrest, t, hdue, hcome⟩ := h
    have hsq : g.cq = false := by simp_all
    simpa [pollTime, hsq, hdue] using hcome
  · simp only [headWaits, Bool.and_eq_true, Option.any_eq_true, decide_eq_true_eq] at h
    obtain ⟨hrest, t, hdue, hcome⟩ := h
    have hcq : g.cq = true := by simp_all
    simpa [pollTime, hcq, hdue] using hcome

/-- Settles O27: the ring picked is the first of those that wait, in the order of R101. -/
theorem pollerServesEarliest : Obligations.PollerServesEarliest := by
  intro s r hpick
  unfold pollPick at hpick
  split at hpick
  case isFalse => exact absurd hpick nofun
  case isTrue hslot =>
    obtain ⟨⟨_, g⟩, hfirst, rfl⟩ := Option.map_eq_some_iff.mp hpick
    obtain ⟨hmem, hleast⟩ := firstBy_first pollBefore_asymm pollBefore_not_trans hfirst
    obtain ⟨hring, hwaits⟩ := List.mem_filter.mp hmem
    rw [Bool.or_eq_true] at hwaits
    refine ⟨hslot, g, hring, hwaits, pollTime_come hwaits, fun b hb hbwaits => ?_⟩
    have hnot : ¬pollBefore b (_, g) = true :=
      Bool.eq_false_iff.mp (hleast b (List.mem_filter.mpr ⟨hb, Bool.or_eq_true .. ▸ hbwaits⟩))
    rw [pollBefore_iff] at hnot
    simp only at hnot ⊢
    rw [← expressRank_le_iff]
    omega

end Sys2Proof.Machine
end

section
/-!
The later units of an entry and of a prefetch, what becomes of a whole entry, and how a ring stops (O29; 04 R83, R87,
R88, R94, R104, R105, R108, R109).
-/

namespace Sys2Proof.Machine

/-! ### Shared facts -/

theorem statOk_iff (stat : BitVec 2) : statOk stat = true ↔ stat = 0 := decide_eq_true_iff

/-- A ring is read from RIF alone. -/
theorem ringOf_of_rif {s u : State} (h : u.rif = s.rif) (k : Nat) : ringOf k u = ringOf k s := by
  simp only [ringOf, h]

@[simp] theorem ringOf_bumpBy (k : Nat) (p : Page) (i n : Nat) (s : State) : ringOf k (bumpBy p i n s) = ringOf k s :=
  ringOf_of_rif (bumpBy_rif p i n s) k
@[simp] theorem ringOf_raiseEvt (k : Nat) (p : Page) (i : Nat) (s : State) :
    ringOf k (raiseEvt p i s) = ringOf k s := rfl
@[simp] theorem ringOf_raiseErr (k : Nat) (p : Page) (code info : Nat) (s : State) :
    ringOf k (raiseErr p code info s) = ringOf k s := ringOf_of_rif (raiseErr_rif p code info s) k
@[simp] theorem ringOf_fabWrite (k p : Nat) (q : WrReq) (s : State) : ringOf k (fabWrite p q s) = ringOf k s := rfl

/-! ### ENTRY_UNIT_DATA -/

section
variable {p : PortId} {tkt : BitVec 9} {beats : List (BitVec 512)} {s : State} {q : RdReq} {r gen first : Nat}
  (hq : readAt p tkt s = some q) (hbeats : beats.length = beatsFor q.addr q.len)

include hq hbeats

theorem entryUnitData_returned (stat : BitVec 2) (hfor : q.purpose = .units r gen first) :
    entryUnitData p tkt beats stat s =
      let u := readOver p tkt s
      if (ringOf r u).gen ≠ gen then u
      else if statOk stat then contUnits r first (unitsIn q beats) u else ringError r 0x0B u := by
  have hmatch : beatsMatch q beats = true := decide_eq_true hbeats
  unfold entryUnitData
  simp only [hq, hfor, hmatch]
  rfl

theorem prefetchData_returned (stat : BitVec 2) (hfor : q.purpose = .prefetch r gen first) :
    prefetchData p tkt beats stat s =
      let u := readOver p tkt s
      if (ringOf r u).gen ≠ gen then u
      else if statOk stat then prefetchUnits r first (unitsIn q beats) u else ringError r 0x0B u := by
  have hmatch : beatsMatch q beats = true := decide_eq_true hbeats
  unfold prefetchData
  simp only [hq, hfor, hmatch]
  rfl

end

/-- The units of an entry whose first unit is known: it waits for more, is dropped under a hold, or is judged
(04 R104, R107). -/
theorem contUnits_eq {r : Nat} {u : State} {w : List Word32} (first : Nat) (us : List (List Word32))
    (hw : (ringOf r u).partialUnit = some w) :
    let g := ringOf r u
    let got := keepUnits first us g.got
    let e : Entry := { ring := r, unit := g.index, words := w ++ got.flatMap (·.2) }
    let v := setRing r { g with got := got } u
    contUnits r first us u =
      if got.length < eLen e then v
      else if entryHeld r g.index (eLen e) v then setRing r { g with partialUnit := none, got := [], due := none } u
      else presentAll 64 r (entryReady r e v) := by
  unfold contUnits
  simp only [modRing_eq, ringOf_setRing_same, setRing_setRing, hw]

/-! ### PREFETCH_DATA -/

/-- A ring that offers an entry takes up no prefetched unit. -/
theorem present_offered {r : Nat} {s : State} (h : (ringOf r s).offer.isSome = true) : present r s = s := by
  have hoffer : (ringOf r s).offer ≠ none := Option.isSome_iff_ne_none.mp h
  simp only [present]
  split
  · rfl
  · exact if_neg fun ⟨_, hnone, _⟩ => hoffer hnone

theorem presentAll_offered {r : Nat} {s : State} (n : Nat) (h : (ringOf r s).offer.isSome = true) :
    presentAll n r s = s := by
  cases n with
  | zero => rfl
  | succ n =>
    unfold presentAll
    rw [present_offered h]
    exact if_pos rfl

theorem unitHeld_none {s : State} (r i : Nat) (h : s.rif.hold = none) : unitHeld r i s = false := by
  rw [unitHeld, h]

/-- A prefetch has more units to come. -/
theorem prefetchUnits_more {r : Nat} {u : State} (first : Nat) {us : List (List Word32)}
    (h : us.length < (ringOf r u).pfAwait) :
    prefetchUnits r first us u = setRing r { ringOf r u with
      pfGot := keepUnits first us (ringOf r u).pfGot, pfAwait := (ringOf r u).pfAwait - us.length } u := by
  have hmore : (ringOf r u).pfAwait - us.length ≠ 0 := by omega
  unfold prefetchUnits
  simp only [modRing_eq, ringOf_setRing_same]
  exact if_neg hmore

/-- The last units of a prefetch have come. -/
theorem prefetchUnits_last {r : Nat} {u : State} (first : Nat) {us : List (List Word32)}
    (h : (ringOf r u).pfAwait = us.length) :
    prefetchUnits r first us u = prefetchDone r (setRing r { ringOf r u with
      pfGot := keepUnits first us (ringOf r u).pfGot, pfAwait := 0 } u) := by
  have hlast : (ringOf r u).pfAwait - us.length = 0 := by omega
  unfold prefetchUnits
  simp only [modRing_eq, ringOf_setRing_same, hlast, if_true]

/-- A prefetch that found a unit without an entry, with no hold in place and an entry on offer: no other read follows
and nothing is taken up (04 R105). -/
theorem prefetchDone_cut {r : Nat} {s : State} (hhold : s.rif.hold = none) (hoffer : (ringOf r s).offer.isSome = true)
    (hcut : (phaseRun (ringOf r s).phase (ringOf r s).pfGot).length < (ringOf r s).pfGot.length) :
    let g := ringOf r s
    prefetchDone r s = setRing r { g with
      prefetched := ((phaseRun g.phase g.pfGot).filter fun x => decide (g.index ≤ x.1)).foldl
        (fun m x => SMap.put (fun _ => []) m x.1 x.2) g.prefetched, pfGot := [], pfAwait := 0 } s := by
  intro g
  unfold prefetchDone
  extract_lets run keep all next held v
  have hkeep : keep = (phaseRun g.phase g.pfGot).filter fun x => decide (g.index ≤ x.1) :=
    List.filter_congr fun x _ => by rw [unitHeld_none r _ hhold, Bool.not_false, Bool.and_true]
  have hall : ¬all = true := by
    rw [decide_eq_true_eq]
    exact Nat.ne_of_lt hcut
  rw [if_neg hall, presentAll_offered 64 (by rw [ringOf_setRing_same]; exact hoffer)]
  simp only [v, held, hkeep]

/-- 04 R104, R105, R109: the later units of an entry, and those of a prefetch. -/
theorem laterUnitsCollected : Claims.LaterUnitsCollected := by
  intro p tkt beats stat s q r gen first hq hbeats u g us
  refine ⟨fun hfor => ?_, fun hfor => ?_⟩
  · have hexec : exec (.entryUnitData p tkt beats stat) s = .next (settle (entryUnitData p tkt beats stat s)) := rfl
    rw [hexec, entryUnitData_returned hq hbeats stat hfor]
    refine ⟨fun hgen => ?_, fun hgen hstat => ?_, fun hgen hstat w hw => ?_⟩
    · rw [if_pos hgen]
    · rw [if_neg (not_not.mpr hgen), if_neg ((statOk_iff stat).not.mpr hstat)]
    · rw [if_neg (not_not.mpr hgen), if_pos ((statOk_iff stat).mpr hstat), contUnits_eq first _ hw]
      intro got e v
      refine ⟨fun hmore => ?_, fun hwhole hfree => ?_, fun hwhole hheld => ?_⟩
      · rw [if_pos hmore]
      · rw [if_neg (Nat.not_lt.mpr hwhole), if_neg (Bool.eq_false_iff.mp hfree)]
      · rw [if_neg (Nat.not_lt.mpr hwhole), if_pos hheld]
  · have hexec : exec (.prefetchData p tkt beats stat) s = .next (settle (prefetchData p tkt beats stat s)) := rfl
    rw [hexec, prefetchData_returned hq hbeats stat hfor]
    refine ⟨fun hgen => ?_, fun hgen hstat => ?_, fun hgen hstat hmore => ?_,
      fun hgen hstat hlast hhold hoffer => ?_⟩
    · rw [if_pos hgen]
    · rw [if_neg (not_not.mpr hgen), if_neg ((statOk_iff stat).not.mpr hstat)]
    · rw [if_neg (not_not.mpr hgen), if_pos ((statOk_iff stat).mpr hstat), prefetchUnits_more first hmore]
    · intro got run hcut
      let h : Ring := { g with pfGot := got, pfAwait := 0 }
      have hgot : ringOf r (setRing r h u) = h := ringOf_setRing_same ..
      have hdone := prefetchDone_cut (r := r) (s := setRing r h u) hhold
        (by rw [hgot]; exact hoffer) (by rw [hgot]; exact hcut)
      rw [if_neg (not_not.mpr hgen), if_pos ((statOk_iff stat).mpr hstat), prefetchUnits_last first hlast, hdone, hgot,
        setRing_setRing]

/-! ### A whole entry -/

/-- An entry whose checks pass, in Doze or WAKING and out of them (04 R88, 13 R322). -/
theorem entryReady_passed {r : Nat} {e : Entry} {s : State}
    (hcause : entryCause e (2 ^ (ringOf r s).size) s = 0) :
    let v := setRing r { ringOf r s with due := none, partialUnit := none, got := [] } s
    entryReady r e s =
      if s.pwr.state = .doze ∨ s.pwr.state = .waking then wakeDoze (setRing r { ringOf r v with offer := some e } v)
      else if eOpcode e = opNop ∧ eSkip e = true then consumeUnits r e v
      else setRing r { ringOf r v with offer := some e } v :=
  if_neg (not_not.mpr hcause)

theorem wakeDoze_pwr (s : State) : (wakeDoze s).pwr =
    if s.pwr.state = .doze then { s.pwr with state := .waking, since := s.cc } else s.pwr := by
  unfold wakeDoze
  split <;> rfl

@[simp] theorem ringOf_wakeDoze (k : Nat) (s : State) : ringOf k (wakeDoze s) = ringOf k s := by
  unfold wakeDoze
  split <;> rfl

/-- 04 R87, R88, R108: what becomes of a whole entry. -/
theorem entryOfferedOrRingStopped : Claims.EntryOfferedOrRingStopped := by
  intro r e s g cause v
  refine ⟨fun hbad => if_pos hbad, fun hgood hdoze hwaking => ?_, fun hgood hasleep => ?_⟩
  · rw [entryReady_passed hgood, if_neg (not_or.mpr ⟨hdoze, hwaking⟩)]
    refine ⟨fun hop hskip => if_pos ⟨hop, hskip⟩, fun hstays => ?_⟩
    have hnot : ¬(eOpcode e = opNop ∧ eSkip e = true) := fun ⟨hop, hskip⟩ =>
      hstays.elim (· hop) fun hclear => Bool.eq_false_iff.mp hclear hskip
    rw [if_neg hnot, ringOf_setRing_same, ringOf_setRing_same]
  · rw [entryReady_passed hgood, if_pos hasleep, wakeDoze_pwr, ringOf_wakeDoze, ringOf_setRing_same,
      ringOf_setRing_same]
    exact ⟨rfl, rfl⟩

/-! ### A ring stops -/

/-- A write-back changes of its ring what is still to be shown, and the writes that are out (04 R83). -/
theorem ringOf_writeBack_same (r : Nat) (report : Option Nat) (s : State) :
    ringOf r (writeBack r report s) = { ringOf r s with
      dirty := false, wbOut := (ringOf r s).wbOut ++ [((ringOf r s).life, (ringOf r s).consumed)] } := by
  simp only [writeBack, ringOf_fabWrite, ringOf_bump, ringOf_setRing_same]

theorem ringOf_writeBack_other {k r : Nat} (report : Option Nat) (s : State) (h : k ≠ r) :
    ringOf k (writeBack r report s) = ringOf k s := by
  simp only [writeBack, ringOf_fabWrite, ringOf_bump]
  exact ringOf_setRing_other _ s h

/-- A ring but for its batches, the completions due on it and its write-backs. -/
def ringCore (g : Ring) : Ring := { g with dirty := false, wbOut := [], cplDue := [], batches := [] }

theorem ringCore_setRing {j : Nat} {g : Ring} {s : State} (k : Nat) (h : ringCore g = ringCore (ringOf j s)) :
    ringCore (ringOf k (setRing j g s)) = ringCore (ringOf k s) := by
  by_cases hk : k = j
  · rw [hk, ringOf_setRing_same, h]
  · rw [ringOf_setRing_other _ _ hk]

theorem ringCore_writeBack (k r : Nat) (report : Option Nat) (s : State) :
    ringCore (ringOf k (writeBack r report s)) = ringCore (ringOf k s) := by
  by_cases hk : k = r
  · rw [hk, ringOf_writeBack_same]
    rfl
  · rw [ringOf_writeBack_other _ _ hk]

theorem ringCore_dueCpl (k r : Nat) (c : Cpl) (s : State) :
    ringCore (ringOf k (dueCpl r c s)) = ringCore (ringOf k s) := by
  let u : State := setRing (ringOf r s).cqId
    { ringOf (ringOf r s).cqId s with cplDue := (ringOf (ringOf r s).cqId s).cplDue ++ [c] } s
  have hdue : ringCore (ringOf k u) = ringCore (ringOf k s) := ringCore_setRing k rfl
  have howed : ringCore (ringOf k (oweBack r c.need u)) = ringCore (ringOf k u) := by
    simp only [oweBack]
    split
    · rfl
    · exact ringCore_writeBack k r none u
  exact howed.trans hdue

/-- Closing a batch leaves the rings but for batches, due completions and write-backs (04 R94 to R96). -/
theorem ringCore_closeBatch (k r : Nat) (s : State) :
    ringCore (ringOf k (closeBatch r s)) = ringCore (ringOf k s) := by
  simp only [closeBatch, settleBatches, modRing_eq]
  rw [foldl_keeps fun s => ringCore (ringOf k s)]
  · exact (ringCore_setRing k (by rw [ringOf_setRing_same]; rfl)).trans (ringCore_setRing k rfl)
  · intro s b
    cases batchCpl r b with
    | none => rfl
    | some c => exact ringCore_dueCpl k r c s

/-- A ring with nothing offered, fetched or prefetched any more. -/
def fetchesDropped (g : Ring) : Ring :=
  { g with due := none, polling := false, partialUnit := none, got := [], offer := none, prefetched := [], pfAwait := 0,
           pfGot := [], gen := g.gen + 1, fetchHeld := false, pfHeld := none, tagWait := false, recWait := false }

theorem ringOf_dropFetches (r : Nat) (s : State) : ringOf r (dropFetches r s) = fetchesDropped (ringOf r s) := by
  unfold dropFetches
  rw [ringOf_bumpBy, ringOf_setRing_same]
  rfl

/-- The ring in ERROR (04 Table 4.2). -/
def inError (cause : Nat) (g : Ring) : Ring :=
  { fetchesDropped g with state := .error, errCause := cause, errIndex := g.index }

/-- The state with the ring stopped, before that is reported. -/
def ringStopped (r cause : Nat) (s : State) : State :=
  closeBatch r (setRing r (inError cause (ringOf r s)) (dropFetches r s))

theorem stopRing_active {r : Nat} (cause : Nat) (failed : Bool) {s : State} (h : (ringOf r s).state = .active) :
    stopRing r cause failed s =
      let u := ringStopped r cause s
      if failed then reportRingError r cause u else writeBack r (some cause) u := by
  unfold stopRing
  rw [if_pos h]
  simp only [modRing_eq, ringOf_dropFetches]
  rfl

theorem ringCore_ringStopped (r cause : Nat) (s : State) :
    ringCore (ringOf r (ringStopped r cause s)) = ringCore (inError cause (ringOf r s)) := by
  rw [ringStopped, ringCore_closeBatch, ringOf_setRing_same]

/-- What is reported of a stopped ring changes its write-backs at most. -/
theorem ringOf_reported (r cause : Nat) (failed : Bool) (u : State) :
    ∃ d w, ringOf r (if failed then reportRingError r cause u else writeBack r (some cause) u)
      = { ringOf r u with dirty := d, wbOut := w } := by
  cases failed with
  | true => exact ⟨_, _, ringOf_raiseErr ..⟩
  | false => exact ⟨_, _, ringOf_writeBack_same ..⟩

theorem ring_of_writeBacks {g x : Ring} {d : Bool} {w : List (Nat × Nat)} (h : g = { x with dirty := d, wbOut := w }) :
    x = { g with dirty := x.dirty, wbOut := x.wbOut } ∧ ringCore g = ringCore x := by
  subst h
  exact ⟨rfl, rfl⟩

/-- 04 R83, R108, R109, R94: how a ring stops. -/
theorem stoppedRingShowsCause : Claims.StoppedRingShowsCause := by
  intro r cause failed s
  refine ⟨fun hnot => if_neg hnot, fun hactive => ?_⟩
  intro v g
  have hv : v = _ := stopRing_active cause failed hactive
  obtain ⟨d, w, hreported⟩ := ringOf_reported r cause failed (ringStopped r cause s)
  obtain ⟨hu, hsame⟩ := ring_of_writeBacks ((congrArg (ringOf r) hv).trans hreported)
  have hcore : ringCore g = ringCore (inError cause (ringOf r s)) := hsame.trans (ringCore_ringStopped r cause s)
  exact ⟨congrArg Ring.state hcore, congrArg Ring.errCause hcore, congrArg Ring.errIndex hcore,
    (congrArg Ring.index hcore :), (congrArg Ring.phase hcore :), congrArg Ring.offer hcore,
    congrArg Ring.partialUnit hcore, congrArg Ring.prefetched hcore, congrArg Ring.due hcore,
    congrArg Ring.polling hcore, congrArg Ring.gen hcore, ringStopped r cause s, hu, hv⟩

/-- Settles O29: the later units, the whole entry, and the ring that stops. -/
theorem entriesCollected : Obligations.EntriesCollected :=
  ⟨laterUnitsCollected, entryOfferedOrRingStopped, stoppedRingShowsCause⟩

end Sys2Proof.Machine
end


section
/-!
Activations and the contexts they read, write-backs, HEAD and the poll demand (O30; 04 R83, R84, R86, R90, R103, R109).
-/

namespace Sys2Proof.Machine

/-! ### ACTIVATE -/

/-- The read of an activation counts on counter 5 like any other context read (DESIGN CHOICE, log entry 36). -/
theorem fetchContext_activation {r : Nat} {s : State} (h : (ringOf r s).ctxRead = false) :
    fetchContext r true s = fabRead 0
      { addr := regOf .rif oRifCtxBase s + r * 64, len := 64, kind := 1, purpose := .context r true }
      (bump .rif 5 (setRing r { ringOf r s with ctxRead := true } s)) := by
  rw [fetchContext, h]
  rfl

theorem fetchContext_waits {r : Nat} {s : State} (act : Bool) (h : (ringOf r s).ctxRead = true) :
    fetchContext r act s = s := if_pos h

theorem actEnd_refused {c r : Nat} {s : State} (hc : c ≠ 0) (hr : s.rif.actRing = r) :
    actEnd c s = raiseErr .rif 0x0101 (c * 2 ^ 24 + r) (raiseEvt .rif 3
      { s with rif := { s.rif with actPending := false, actResult := c } }) := by
  subst hr
  exact if_neg hc

/-- The activation of ring r is pending. -/
def actBegun (r : Nat) (s : State) : State := { s with rif := { s.rif with actPending := true, actRing := r } }

theorem activate_free {r : Nat} {s : State} (h : s.rif.actPending = false) :
    activate r s = if (ringOf r s).state = .idle then fetchContext r true (actBegun r s) else actEnd 1 (actBegun r s) :=
  if_neg (Bool.eq_false_iff.mp h)

/-- 04 R86: how an activation begins. -/
theorem activationBegins : Claims.ActivationBegins := by
  intro r s hanswers n d
  have hexec : exec (.activate r) s = .next (settle (csrOk 0 (activate n d))) :=
    congrArg (fun v => Host.Outcome.next (settle v)) (csrDo_answers (activate n) hanswers)
  rw [hexec]
  refine ⟨fun hpending => ?_, fun hfree hidle hread => ?_, fun hfree hidle hread => ?_, fun hfree hbusy => ?_⟩
  · have hrefused : activate n d = raiseErr .rif 0x0102 n d := if_pos hpending
    rw [hrefused]
  · rw [activate_free (s := d) hfree, if_pos (show (ringOf n d).state = .idle from hidle),
      fetchContext_activation (s := actBegun n d) hread]
    rfl
  · rw [activate_free (s := d) hfree, if_pos (show (ringOf n d).state = .idle from hidle),
      fetchContext_waits true (s := actBegun n d) hread]
    rfl
  · rw [activate_free (s := d) hfree, if_neg (show ¬(ringOf n d).state = .idle from hbusy),
      actEnd_refused (s := actBegun n d) one_ne_zero rfl, one_mul]
    rfl

/-! ### The end of a read -/

@[simp] theorem ringOf_readOver (k : Nat) (p : PortId) (tkt : BitVec 9) (s : State) :
    ringOf k (readOver p tkt s) = ringOf k s :=
  ringOf_of_rif rfl k

/-- The end of a read with a write of a ring changes RIF and the ports. -/
theorem setRing_readOver_eq (r : Nat) (g : Ring) (p : PortId) (tkt : BitVec 9) (s : State) :
    ∃ x y, setRing r g (readOver p tkt s) = { s with rif := x, fab := y } := by
  obtain ⟨y, h⟩ := readOver_eq p tkt s
  exact ⟨_, y, by rw [h]; rfl⟩

/-! ### The context cache (04 R84) -/

theorem erase_sublist {α : Type} (k : Nat) (m : SMap α) : (SMap.erase k m).Sublist m := by
  induction m with
  | nil => exact .slnil
  | cons e r ih =>
    rw [SMap.erase]
    split
    · exact ih.cons e
    · exact ih.cons_cons e

theorem filter_insert_of_neg {α : Type} {p : Nat × α → Bool} {k : Nat} {v : α} (h : p (k, v) = false) (m : SMap α) :
    (SMap.insert k v m).filter p = m.filter p := by
  induction m with
  | nil => simp [SMap.insert, h]
  | cons e r ih =>
    rw [SMap.insert]
    split
    · rw [List.filter_cons, h]
      rfl
    · rw [List.filter_cons, List.filter_cons, ih]

/-- A ring that is not cached leaves the cache no fuller. -/
theorem cachedRings_setRing_le {r : Nat} {g : Ring} (s : State) (h : g.cached = false) :
    (cachedRings (setRing r g s)).length ≤ (cachedRings s).length := by
  have herase : ((SMap.erase r s.rif.rings).filter fun e => e.2.cached).length ≤ (cachedRings s).length :=
    ((erase_sublist r s.rif.rings).filter _).length_le
  simp only [cachedRings, setRing, SMap.put]
  split
  · exact herase
  · rw [filter_insert_of_neg h]
    exact herase

/-- With room in the cache a context enters it without another leaving. -/
theorem cacheRing_room {r : Nat} {s : State} (h : (cachedRings s).length < 8192 ∨ (ringOf r s).cached = true) :
    cacheRing r s = touchRing r (setRing r { ringOf r s with cached := true } s) := by
  simp only [cacheRing, modRing_eq]
  split
  · rfl
  · rename_i hout
    rw [if_neg (Nat.not_le.mpr (h.resolve_right hout))]

/-! ### CONTEXT_DATA -/

/-- The ring as its activation makes it (04 Table 4.2); the first poll of a submission ring is due at once (DESIGN
CHOICE, log entry 31). -/
def activeRing (w : List Word32) (old : Ring) (cc : Nat) : Ring :=
  let g := ctxRing w
  { g with state := .active, phase := true, curE := g.intervalE, gen := old.gen + 1, life := old.life + 1,
           wbOut := old.wbOut, batchMax := if g.cq then 0 else g.batchMax, cqId := if g.cq then 0 else g.cqId,
           vector := if g.cq then g.vector else 0, head := if g.cq then g.head else 0,
           due := if g.cq then none else some cc }

/-- The state in which the activated ring's words 8 and 9 are written back. -/
def ringActivated (r : Nat) (w : List Word32) (s : State) : State :=
  touchRing r (setRing r { activeRing w (ringOf r s) s.cc with cached := true } s)

/-- An activation whose checks pass, with room in the cache. -/
theorem goActive_room {r : Nat} (w : List Word32) {s : State}
    (h : (cachedRings (setRing r (activeRing w (ringOf r s) s.cc) s)).length < 8192) :
    goActive r w s = actEnd 0 (writeBack r none (ringActivated r w s)) := by
  have hcache := cacheRing_room (r := r) (.inl h)
  rw [ringOf_setRing_same, setRing_setRing] at hcache
  exact congrArg (fun v => actEnd 0 (writeBack r none v)) hcache

theorem ringOf_actEnd_ok (k : Nat) (s : State) : ringOf k (actEnd 0 s) = ringOf k s := rfl

/-- The activated ring, its write-back on its way. -/
theorem ringOf_activated (r : Nat) (w : List Word32) (s : State) :
    ringOf r (writeBack r none (ringActivated r w s)) = { activeRing w (ringOf r s) s.cc with
      cached := true, lastUse := s.rif.useSeq, dirty := false,
      wbOut := (ringOf r s).wbOut ++ [((ringOf r s).life + 1, 0)] } := by
  rw [ringOf_writeBack_same, ringActivated, ringOf_touchRing, ringOf_setRing_same]
  rfl

theorem ringOf_touchRing_other {k r : Nat} (s : State) (h : k ≠ r) : ringOf k (touchRing r s) = ringOf k s :=
  ringOf_setRing_other _ s h

theorem ringOf_activated_other {k r : Nat} (w : List Word32) (s : State) (h : k ≠ r) :
    ringOf k (writeBack r none (ringActivated r w s)) = ringOf k s := by
  rw [ringOf_writeBack_other _ _ h, ringActivated, ringOf_touchRing_other _ h, ringOf_setRing_other _ _ h]

/-- An activation touches RIF, a port and RIF's counters. -/
theorem activated_keeps {α : Type} (f : State → α) (hrif : ∀ x s, f { s with rif := x } = f s)
    (hfab : ∀ k v s, f (setFab k v s) = f s) (hhdr : ∀ p h s, f (setHdr p h s) = f s) (r : Nat) (w : List Word32)
    (s : State) : f (actEnd 0 (writeBack r none (ringActivated r w s))) = f s := by
  have hring (k : Nat) (v : Ring) (s : State) : f (setRing k v s) = f s := hrif _ s
  have hend (s : State) : f (actEnd 0 s) = f s := hrif _ s
  rw [hend, writeBack_keeps f hhdr hring hfab, ringActivated, touchRing, modRing_eq, hrif, hring, hring]

/-- The context that a submission ring needs, with room in the cache. -/
theorem needContext_submission {r : Nat} (w : List Word32) {s : State} (hsq : (ringOf r s).cq = false)
    (hroom : (ringOf r s).cached = false → (cachedRings s).length < 8192) :
    needContext r w s = startFetches r (touchRing r (setRing r { ringOf r s with cached := true } s)) := by
  have hsame : headNow s (ringOf r s) = ringOf r s := by rw [headNow, hsq]; rfl
  have hneed : needContext r w s = startFetches r (cacheRing r (setRing r (headNow s (if (ringOf r s).cq then
    { ringOf r s with head := BitVec.ofNat 16 (ctxFld w 14 0 16) } else ringOf r s)) s)) := rfl
  rw [hneed, if_neg (Bool.eq_false_iff.mp hsq), hsame, cacheRing_room, ringOf_setRing_same, setRing_setRing]
  rw [ringOf_setRing_same]
  cases hcached : (ringOf r s).cached with
  | true => exact .inr rfl
  | false => exact .inl (Nat.lt_of_le_of_lt (cachedRings_setRing_le s hcached) (hroom hcached))

/-- What a returning context read does with its ring (04 R84, R86). -/
def contextTaken (r : Nat) (act good : Bool) (w : List Word32) (u : State) : State :=
  if act then (if actAwaits r u then (if good then actContext r w u else actEnd 4 u) else u)
  else if (ringOf r u).state = .idle then (if actAwaits r u then fetchContext r true u else u)
  else if good then needContext r w u
  else contextLost r u

theorem contextData_returned {p : PortId} {tkt : BitVec 9} {beats : List (BitVec 512)} {s : State} {q : RdReq} {r : Nat}
    {act : Bool} (stat : BitVec 2) (hq : readAt p tkt s = some q) (hfor : q.purpose = .context r act)
    (hbeats : beats.length = beatsFor q.addr q.len) :
    contextData p tkt beats stat s =
      let o := readOver p tkt s
      contextTaken r act (statOk stat) (wordsOf (readBytes q beats))
        (setRing r { ringOf r o with ctxRead := false } o) := by
  have hmatch : beatsMatch q beats = true := decide_eq_true hbeats
  unfold contextData contextTaken
  simp only [hq, hfor, hmatch]
  rfl

theorem actAwaits_iff (r : Nat) (s : State) :
    actAwaits r s = true ↔ s.rif.actPending = true ∧ s.rif.actRing = r := by
  simp [actAwaits]

/-- 04 R84, R86, R109: the context read returns. -/
theorem contextReadEnds : Claims.ContextReadEnds := by
  intro p tkt beats stat s q r act hq hfor hbeats o g u w pending refused
  have hexec : exec (.contextData p tkt beats stat) s = .next (settle (contextTaken r act (statOk stat) w u)) :=
    congrArg (fun v => Host.Outcome.next (settle v)) (contextData_returned stat hq hfor hbeats)
  have hring : ringOf r u = g := ringOf_setRing_same ..
  have hawaits : actAwaits r u = true ↔ pending := actAwaits_iff r u
  have hroom (x : Ring) (hx : x.cached = false) : (cachedRings (setRing r x o)).length ≤ (cachedRings s).length :=
    cachedRings_setRing_le o hx
  have hrefused (c : Nat) (hc : c ≠ 0) (hpend : pending) :
      Host.Outcome.next (φ := Fault) (ρ := Refusal) (settle (actEnd c u)) = refused c :=
    congrArg (fun v => Host.Outcome.next (settle v)) (actEnd_refused (s := u) hc hpend.2)
  rw [hexec, contextTaken]
  refine ⟨fun hact hnot => ?_, fun hact hpend hstat => ?_, fun hact hpend hstat hcheck => ?_,
    fun hact hpend hstat hcheck hfree => ?_, fun hact hidle hnot => ?_, fun hact hidle hpend => ?_,
    fun hact hneeds hstat hsq hfree => ?_, fun hact hstopped hstat => ?_⟩
  · rw [if_pos hact, if_neg (hawaits.not.mpr hnot)]
  · rw [if_pos hact, if_pos (hawaits.mpr hpend), if_neg ((statOk_iff stat).not.mpr hstat),
      hrefused 4 (by decide) hpend]
  · have hbad : actContext r w u = actEnd (actCheck w u) u := if_neg hcheck
    rw [if_pos hact, if_pos (hawaits.mpr hpend), if_pos ((statOk_iff stat).mpr hstat), hbad,
      hrefused _ hcheck hpend]
  · have hgood : actContext r w u = goActive r w u := if_pos hcheck
    have hfits : (cachedRings (setRing r (activeRing w (ringOf r u) u.cc) u)).length < 8192 := by
      rw [show setRing r (activeRing w (ringOf r u) u.cc) u = setRing r (activeRing w (ringOf r u) u.cc) o from
        setRing_setRing ..]
      exact Nat.lt_of_le_of_lt (hroom _ rfl) hfree
    rw [if_pos hact, if_pos (hawaits.mpr hpend), if_pos ((statOk_iff stat).mpr hstat), hgood, goActive_room w hfits]
    refine ⟨_, rfl, rfl, rfl, ?_, fun k hk => ?_, ?_⟩
    · rw [ringOf_actEnd_ok, ringOf_activated, hring]
      exact ⟨rfl, rfl, rfl, rfl, rfl, rfl, rfl, rfl, rfl, rfl, rfl, rfl, rfl, rfl, rfl, rfl⟩
    · rw [ringOf_actEnd_ok, ringOf_activated_other w u hk]
      rw [ringOf_setRing_other _ _ hk, ringOf_readOver]
    · refine (activated_keeps (fun x => { x with rif := s.rif, fab := s.fab, hdr := s.hdr }) (fun _ _ => rfl)
        (fun _ _ _ => rfl) (fun _ _ _ => rfl) r w u).trans ?_
      obtain ⟨x, y, hu⟩ := setRing_readOver_eq r g p tkt s
      rw [show u = _ from hu]
  · rw [if_neg (Bool.eq_false_iff.mp hact), hring, if_pos hidle, if_neg (hawaits.not.mpr hnot)]
  · rw [if_neg (Bool.eq_false_iff.mp hact), hring, if_pos hidle, if_pos (hawaits.mpr hpend),
      fetchContext_activation (by rw [hring]), hring]
    rfl
  · rw [if_neg (Bool.eq_false_iff.mp hact), hring, if_neg hneeds, if_pos ((statOk_iff stat).mpr hstat),
      needContext_submission w (by rw [hring]; exact hsq), hring]
    intro hout
    exact Nat.lt_of_le_of_lt (hroom g (hring ▸ hout)) hfree
  · have hlives : ¬g.state = .idle := by rcases hstopped with h | h <;> rw [h] <;> decide
    have hreset : ¬(ringOf r u).state = .fnResetting := by
      rw [hring]
      rcases hstopped with h | h <;> rw [h] <;> decide
    have hlost : contextLost r u = ringError r 0x0C u := if_neg hreset
    rw [if_neg (Bool.eq_false_iff.mp hact), hring, if_neg hlives, if_neg ((statOk_iff stat).not.mpr hstat), hlost]

/-! ### CONTEXT_WRITEBACK_RESPONSE -/

/-- A ring after the response of a write-back (04 R83, R109). -/
def writeBackOver (life shows : Nat) (ok : Bool) (g : Ring) : Ring :=
  let h : Ring := { g with wbOut := g.wbOut.erase (life, shows) }
  if life = g.life then (if ok then { h with shown := max g.shown shows } else { h with wbFailed := true }) else h

/-- The state after that response, RING_ERROR that waited for it reported. -/
def writeBackTold (r life shows : Nat) (report : Option Nat) (ok : Bool) (s : State) : State :=
  heldError r report (setRing r (writeBackOver life shows ok (ringOf r s)) s)

theorem writtenBack_eq (r life shows : Nat) (report : Option Nat) (ok : Bool) (s : State) :
    let v := writeBackTold r life shows report ok s
    writtenBack r life shows report ok s =
      if ok then v
      else if life = (ringOf r s).life then staleCopy r v
      else raiseErr .rif 0x0100 (0x0C * 2 ^ 24 + r) v := by
  have hring : writeBackOver life shows ok (ringOf r s) = { ringOf r s with
      wbOut := (ringOf r s).wbOut.erase (life, shows)
      shown := if ok && decide (life = (ringOf r s).life) then max (ringOf r s).shown shows else (ringOf r s).shown
      wbFailed := (ringOf r s).wbFailed || (decide (life = (ringOf r s).life) && !ok) } := by
    by_cases hlife : life = (ringOf r s).life <;> cases ok <;> simp [writeBackOver, hlife]
  unfold writeBackTold
  rw [hring]
  simp only [writtenBack, decide_eq_true_eq]
  rfl

@[simp] theorem ringOf_heldError (k r : Nat) (report : Option Nat) (s : State) :
    ringOf k (heldError r report s) = ringOf k s := by
  cases report with
  | none => rfl
  | some c => exact (ringOf_raiseErr ..).trans (ringOf_raiseEvt ..)

/-- A response changes the ring's write-backs, not its state. -/
theorem writeBackTold_state (r life shows : Nat) (report : Option Nat) (ok : Bool) (s : State) :
    (ringOf r (writeBackTold r life shows report ok s)).state = (ringOf r s).state := by
  rw [writeBackTold, ringOf_heldError, ringOf_setRing_same]
  by_cases hlife : life = (ringOf r s).life <;> cases ok <;> simp [writeBackOver, hlife]

theorem writebackResponse_returned {p : PortId} {tkt : BitVec 9} {s : State} {q : WrReq} {r life shows : Nat}
    {report : Option Nat} (stat : BitVec 2) (hq : writeAt p tkt s = some q)
    (hfor : q.purpose = .writeback r life shows report) :
    writebackResponse p tkt stat s = writtenBack r life shows report (statOk stat) (writeOver p tkt s) := by
  unfold writebackResponse
  simp only [hq, hfor]

/-- 04 R83, R109: the response of a write-back. -/
theorem writeBackAnswered (p : PortId) (tkt : BitVec 9) (s : State) (q : WrReq) (r life shows : Nat)
    (report : Option Nat) (hq : writeAt p tkt s = some q) (hfor : q.purpose = .writeback r life shows report) :
    let u := writeOver p tkt s
    let g := ringOf r u
    exec (.contextWritebackResponse p tkt 0) s = .next (settle (writeBackTold r life shows report true u))
    ∧ (∀ stat : BitVec 2, stat ≠ 0 →
        let lost := writeBackTold r life shows report false u
        (life = g.life → g.state = .active →
          exec (.contextWritebackResponse p tkt stat) s = .next (settle (ringFault r 0x0C true lost)))
        ∧ ((life ≠ g.life ∨ g.state ≠ .active) → exec (.contextWritebackResponse p tkt stat) s =
            .next (settle (raiseErr .rif 0x0100 (0x0C * 2 ^ 24 + r) lost)))) := by
  intro u g
  have hexec (stat : BitVec 2) : exec (.contextWritebackResponse p tkt stat) s
      = .next (settle (writtenBack r life shows report (statOk stat) u)) :=
    congrArg (fun v => Host.Outcome.next (settle v)) (writebackResponse_returned stat hq hfor)
  refine ⟨?_, fun stat hstat => ?_⟩
  · rw [hexec, writtenBack_eq, show statOk 0 = true from rfl, if_pos rfl]
  · intro lost
    have hlost : (ringOf r lost).state = g.state := writeBackTold_state ..
    rw [hexec, writtenBack_eq, Bool.eq_false_iff.mpr ((statOk_iff stat).not.mpr hstat), if_neg Bool.false_ne_true]
    refine ⟨fun hlife hactive => ?_, fun hother => ?_⟩
    · have hstale : staleCopy r lost = ringFault r 0x0C true lost := if_pos (hlost.trans hactive)
      rw [if_pos hlife, hstale]
    · by_cases hlife : life = g.life
      · have hidle : ¬(ringOf r lost).state = .active := fun h => hother.elim (· hlife) (· (hlost.symm.trans h))
        have hstale : staleCopy r lost = raiseErr .rif 0x0100 (0x0C * 2 ^ 24 + r) lost := if_neg hidle
        rw [if_pos hlife, hstale]
      · rw [if_neg hlife]

/-! ### HEAD_DATA -/

theorem headData_returned {p : PortId} {tkt : BitVec 9} {beats : List (BitVec 512)} {s : State} {q : RdReq} {r : Nat}
    (stat : BitVec 2) (hq : readAt p tkt s = some q) (hfor : q.purpose = .head r)
    (hbeats : beats.length = beatsFor q.addr q.len) :
    headData p tkt beats stat s =
      let u := readOver p tkt s
      if statOk stat then headRead r (BitVec.ofNat 16 (leNat ((readBytes q beats).take 2))) u
      else ringError r 0x0D (setRing r { ringOf r u with headRead := false } u) := by
  have hmatch : beatsMatch q beats = true := decide_eq_true hbeats
  unfold headData
  simp only [hq, hfor, hmatch]
  rfl

/-- HEAD is taken as read, and a ring that is still full is read again after its interval (04 R90). -/
theorem headRead_eq (r : Nat) (v : BitVec 16) (s : State) :
    let g : Ring := { ringOf r s with head := v, headRead := false }
    headRead r v s =
      if cqFull g then setRing r { g with headDue := some (s.cc + ringInterval g.curE s) } s else setRing r g s := by
  unfold headRead
  simp only [modRing_eq, ringOf_setRing_same, setRing_setRing]
  rfl

/-! ### POLL_DEMAND_UPDATE -/

theorem lt_ceilDiv_iff {a b k : Nat} (hb : 0 < b) : k < ceilDiv a b ↔ k * b < a := by
  rw [ceilDiv, ← Nat.succ_le_iff, Nat.le_div_iff_mul_le hb, Nat.succ_mul]
  omega

/-- The stretch of the intervals: over a budget b it is the least that brings the demand d down to b, in 1/256
(04 R103). -/
def stretchOf (d b : Nat) : Nat := if b * 16384 < d then ceilDiv d (b * 64) else 256

theorem stretchOf_bounds {d b : Nat} (hb : 0 < b) :
    (256 < stretchOf d b ↔ b * 16384 < d) ∧ d ≤ stretchOf d b * (b * 64)
      ∧ (256 < stretchOf d b → (stretchOf d b - 1) * (b * 64) < d) := by
  have hceil (k : Nat) : k < ceilDiv d (b * 64) ↔ k * (b * 64) < d := lt_ceilDiv_iff (by omega)
  unfold stretchOf
  split
  case isTrue hover =>
    have hbig : 256 < ceilDiv d (b * 64) := (hceil 256).mpr (by omega)
    exact ⟨iff_of_true hbig hover, Nat.le_of_not_lt ((hceil _).not.mp (Nat.lt_irrefl _)),
      fun _ => (hceil _).mp (by omega)⟩
  case isFalse hwithin => exact ⟨by omega, by omega, by omega⟩

theorem foldl_filter_sum {α : Type} (p : α → Bool) (f : α → Nat) (l : List α) (a : Nat) :
    (l.filter p).foldl (fun a e => a + f e) a = a + (l.map fun e => if p e then f e else 0).sum := by
  induction l generalizing a with
  | nil => rfl
  | cons e r ih =>
    rw [List.map_cons, List.sum_cons]
    cases he : p e with
    | true =>
      rw [List.filter_cons_of_pos he, List.foldl_cons, ih, if_pos rfl]
      omega
    | false =>
      rw [List.filter_cons_of_neg (Bool.eq_false_iff.mp he), ih, if_neg Bool.false_ne_true]
      omega

theorem inDemand_iff (g : Ring) : inDemand g = true ↔ g.state = .active ∧ (g.cq = false ∨ cqFull g = true) := by
  simp [inDemand]

theorem demandSum_eq (s : State) : demandSum s = (s.rif.rings.map fun e =>
    if e.2.state = .active ∧ (e.2.cq = false ∨ cqFull e.2 = true) then 2 ^ (24 - e.2.curE) else 0).sum := by
  rw [demandSum, foldl_filter_sum (fun e : Nat × Ring => inDemand e.2) fun e => 2 ^ (24 - e.2.curE), Nat.zero_add]
  simp only [inDemand_iff]

/-- 04 R83, R90, R103, R109: write-backs, HEAD and the demand. -/
theorem writeBackHeadAndDemand : Claims.WriteBackHeadAndDemand := by
  refine ⟨?_, ?_, fun s => ⟨fun hanswers hdue => ?_, fun hnot => ?_⟩⟩
  · intro p tkt s q r life shows report hq hfor u g h ok lost told
    have htold (x : State) : told x = heldError r report x := by cases report <;> rfl
    have hok : told ok = writeBackTold r life shows report true u := htold ok
    have hlost : told lost = writeBackTold r life shows report false u := htold lost
    rw [hok, hlost]
    exact writeBackAnswered p tkt s q r life shows report hq hfor
  · intro p tkt beats stat s q r hq hfor hbeats u h g
    have hexec : exec (.headData p tkt beats stat) s = .next (settle (headData p tkt beats stat s)) := rfl
    rw [hexec, headData_returned stat hq hfor hbeats]
    refine ⟨fun hstat hfree => ?_, fun hstat hfull => ?_, fun hstat => ?_⟩
    · rw [if_pos ((statOk_iff stat).mpr hstat), headRead_eq, if_neg (Bool.eq_false_iff.mp hfree)]
    · rw [if_pos ((statOk_iff stat).mpr hstat), headRead_eq, if_pos hfull]
      have hinterval : u.cc + ringInterval g.curE u = s.cc + ringInterval g.curE s := rfl
      refine ⟨_, rfl, ?_, fun k hk => ?_, ?_⟩
      · rw [ringOf_setRing_same, hinterval]
      · rw [ringOf_setRing_other _ _ hk, ringOf_readOver]
      · obtain ⟨x, y, hv⟩ := setRing_readOver_eq r { g with headDue := some (u.cc + ringInterval g.curE u) } p tkt s
        rw [hv]
    · rw [if_neg ((statOk_iff stat).not.mpr hstat)]
  · intro d b now
    have hupdate : pollDemandUpdate s = updateDemand s := if_pos (by rw [hanswers, decide_eq_true hdue]; rfl)
    have hnow : updateDemand s = { s with rif := now (stretchOf d b) } := by
      simp only [updateDemand, demandSum_eq]
      rfl
    have hexec : exec .pollDemandUpdate s = .next (settle (pollDemandUpdate s)) := rfl
    exact ⟨stretchOf d b, by rw [hexec, hupdate, hnow], stretchOf_bounds⟩
  · have hsame : pollDemandUpdate s = s := if_neg (by
      rw [Bool.and_eq_true, decide_eq_true_eq]
      rintro ⟨hanswers, hdue⟩
      rcases hnot with hsilent | hearly
      · exact Bool.eq_false_iff.mp hsilent hanswers
      · exact Nat.not_le.mpr hearly hdue)
    have hexec : exec .pollDemandUpdate s = .next (settle (pollDemandUpdate s)) := rfl
    rw [hexec, hsame]

/-- Settles O30: the activation, the context it reads, and write-backs, HEAD and the demand. -/
theorem contextsAndActivation : Obligations.ContextsAndActivation :=
  ⟨activationBegins, contextReadEnds, writeBackHeadAndDemand⟩

end Sys2Proof.Machine
end

section
/-!
Completions: the write of the one due next, and what the response of such a write does (O32; 04 R83, R90, R97 to R99,
R109, R111).
-/

namespace Sys2Proof.Machine

/-! ### Little-endian words (00 R7) -/

@[simp] theorem length_leBytes (n v : Nat) : (leBytes n v).length = n := by
  induction n generalizing v with
  | zero => rfl
  | succ n ih => rw [leBytes, List.length_cons, ih]

theorem leNat_leBytes (n v : Nat) : leNat (leBytes n v) = v % 256 ^ n := by
  induction n generalizing v with
  | zero => rw [pow_zero, Nat.mod_one]; rfl
  | succ n ih =>
    have hbyte : (BitVec.ofNat 8 v).toNat = v % 256 := BitVec.toNat_ofNat ..
    rw [leBytes, leNat, ih, hbyte, pow_succ' 256, Nat.mod_mul]

theorem leWord_append_zero (v : Nat) (rest : List Byte) : leWord (leBytes 4 v ++ rest) 0 = BitVec.ofNat 32 v := by
  have htake : ((leBytes 4 v ++ rest).drop (4 * 0)).take 4 = leBytes 4 v :=
    List.take_left' (length_leBytes 4 v)
  rw [leWord, htake, leNat_leBytes]
  exact BitVec.eq_of_toNat_eq (by simp)

theorem leWord_append_succ (v n : Nat) (rest : List Byte) : leWord (leBytes 4 v ++ rest) (n + 1) = leWord rest n := by
  have hdrop : (leBytes 4 v ++ rest).drop (4 * (n + 1)) = rest.drop (4 * n) := by
    rw [Nat.mul_succ, Nat.add_comm, ← List.drop_drop, List.drop_left' (length_leBytes 4 v)]
  rw [leWord, leWord, hdrop]

/-- 04 Table 4.9: the four words of a completion entry. -/
theorem cplBytes_words (c : Cpl) (phase : Bool) :
    (cplBytes c phase).length = 16
    ∧ leWord (cplBytes c phase) 0 = BitVec.ofNat 32 ((if phase then 2 ^ 31 else 0)
        + c.status % 256 * 2 ^ 16 + c.count % 65536)
    ∧ leWord (cplBytes c phase) 1 = c.cookie ∧ leWord (cplBytes c phase) 2 = c.frame
    ∧ leWord (cplBytes c phase) 3 = BitVec.ofNat 32 (c.tag % 65536 * 2 ^ 16 + c.rung % 256 * 2 ^ 8
        + c.maxbits % 256) := by
  have hphase : fieldAt 31 (bit phase) = if phase then 2 ^ 31 else 0 := by cases phase <;> rfl
  unfold cplBytes
  rw [hphase]
  simp only [List.append_assoc]
  refine ⟨by simp, ?_, ?_, ?_, ?_⟩
  · rw [leWord_append_zero]
    rfl
  · rw [leWord_append_succ, leWord_append_zero, BitVec.ofNat_toNat, BitVec.setWidth_eq]
  · rw [leWord_append_succ, leWord_append_succ, leWord_append_zero, BitVec.ofNat_toNat, BitVec.setWidth_eq]
  · rw [leWord_append_succ, leWord_append_succ, leWord_append_succ, ← List.append_nil (leBytes 4 _),
      leWord_append_zero]
    rfl

/-! ### The outcomes that a completion counts (05 R128) -/

section Outcomes

variable {α : Type} (f : State → α) (hh : ∀ p h s, f (setHdr p h s) = f s)
  (ha : ∀ g k v s, f (setFna g k v s) = f s) (hr : ∀ p off v s, f (setReg p off v s) = f s)

include hh ha hr

/-- An outcome is counted in headers, the counters of its function and FNA_HIT. -/
theorem countOutcome_keeps (g st : Nat) (refused : Bool) (s : State) : f (countOutcome g st refused s) = f s := by
  have hhit (s : State) : f (fnaHit g s) = f s := by
    simp only [fnaHit]
    split
    · exact (hh _ _ _).trans (hr _ _ _ s)
    · rfl
  have hcounted (k v : Nat) (s : State) : f (markCount .ops (fnaCount g k) (setFna g k v s)) = f s :=
    (hh _ _ _).trans (ha g k v s)
  have hbump := bump_keeps f hh .ops (opsCounter st refused) s
  unfold countOutcome
  cases fnaIndex st with
  | none => exact hbump
  | some k =>
    simp only
    split
    · exact hbump
    · split
      · rw [hhit, hcounted, hbump]
      · rw [hcounted, hbump]

theorem countCovers_keeps (c : Cpl) (s : State) : f (countCovers c s) = f s :=
  foldl_keeps f (fun s _ => countOutcome_keeps f hh ha hr _ _ _ s) _ s

end Outcomes

/-! ### COMPLETION_WRITE -/

theorem completionWrite_none {r : Nat} {s : State} (h : cplNext (ringOf r s) s = none) : completionWrite r s = s := by
  simp only [completionWrite, h]

/-- The completion due next on an ACTIVE completion ring (04 R84, R90). -/
theorem completionWrite_due {r : Nat} {c : Cpl} {s : State} (hnext : cplNext (ringOf r s) s = some c)
    (hanswers : pageAnswers .rif s = true) (hcq : (ringOf r s).cq = true) (hactive : (ringOf r s).state = .active) :
    completionWrite r s =
      if (ringOf r s).cached = false then fetchContext r false s
      else if cqFull (ringOf r s) then setRing r (headNow s (ringOf r s)) s
      else writeCpl r c s := by
  have hdiscards : cplDiscards (ringOf r s) = false := by rw [cplDiscards, hactive]; rfl
  simp only [completionWrite, hnext, hdiscards, hanswers, hcq, hactive]
  rfl

@[simp] theorem headNow_index (s : State) (g : Ring) : (headNow s g).index = g.index := by unfold headNow; split <;> rfl
@[simp] theorem headNow_phase (s : State) (g : Ring) : (headNow s g).phase = g.phase := by unfold headNow; split <;> rfl
@[simp] theorem headNow_head (s : State) (g : Ring) : (headNow s g).head = g.head := by unfold headNow; split <;> rfl
@[simp] theorem headNow_cplDue (s : State) (g : Ring) : (headNow s g).cplDue = g.cplDue := by
  unfold headNow; split <;> rfl
@[simp] theorem headNow_cplOut (s : State) (g : Ring) : (headNow s g).cplOut = g.cplOut := by
  unfold headNow; split <;> rfl

/-- A full completion ring has a read of HEAD due or out (04 R90). -/
theorem headNow_due {s : State} {g : Ring} (hcq : g.cq = true) (hfull : cqFull g = true) (hread : g.headRead = false) :
    (headNow s g).headDue.isSome = true := by
  cases hdue : g.headDue <;> simp [headNow, hcq, hfull, hread, hdue]

theorem headNow_full {s : State} {g : Ring} (hcq : g.cq = true) (hfull : cqFull g = true) (hdue : g.headDue = none)
    (hread : g.headRead = false) : headNow s g = { g with headDue := some s.cc } := by
  simp [headNow, hcq, hfull, hdue, hread]

/-- The ring past a completion that has been written. -/
def ringWritten (c : Cpl) (g : Ring) : Ring :=
  { advanceCq g with cplDue := g.cplDue.erase c, cplOut := g.cplOut ++ [(g.index, c)] }

theorem ringWritten_index (c : Cpl) (g : Ring) :
    (ringWritten c g).index = if g.index + 1 < 2 ^ g.size then g.index + 1 else 0 := by
  by_cases h : 2 ^ g.size ≤ g.index + 1
  · simp [ringWritten, advanceCq, ringUnits, h, Nat.not_lt.mpr h]
  · simp [ringWritten, advanceCq, ringUnits, h, Nat.lt_of_not_le h]

theorem ringWritten_phase (c : Cpl) (g : Ring) :
    (ringWritten c g).phase = if g.index + 1 < 2 ^ g.size then g.phase else !g.phase := by
  by_cases h : 2 ^ g.size ≤ g.index + 1
  · simp [ringWritten, advanceCq, ringUnits, h, Nat.not_lt.mpr h]
  · simp [ringWritten, advanceCq, ringUnits, h, Nat.lt_of_not_le h]

theorem ringWritten_cq (c : Cpl) (g : Ring) :
    (ringWritten c g).cq = g.cq ∧ (ringWritten c g).headRead = g.headRead := by
  by_cases h : 2 ^ g.size ≤ g.index + 1 <;> simp [ringWritten, advanceCq, ringUnits, h]

/-- The counts of a completion that is written. -/
def cplCounted (c : Cpl) (s : State) : State :=
  countCovers c (if c.batch then bump .rif 4 (bump .rif 3 s) else bump .rif 3 s)

/-- The state in which the bytes of a completion are put. -/
def cplPlaced (r : Nat) (c : Cpl) (s : State) : State :=
  let u := cplCounted c s
  touchRing r (setRing r (headNow u (ringWritten c (ringOf r s))) u)

theorem writeCpl_eq (r : Nat) (c : Cpl) (s : State) :
    writeCpl r c s = fabWrite ((ringOf r s).fn % 4)
      { addr := (ringOf r s).base + (ringOf r s).index * 16, bytes := cplBytes c (ringOf r s).phase, kind := 1,
        purpose := .completion r (ringOf r s).index } (cplPlaced r c s) := rfl

theorem cplCounted_keeps {α : Type} (f : State → α) (hh : ∀ p h s, f (setHdr p h s) = f s)
    (ha : ∀ g k v s, f (setFna g k v s) = f s) (hr : ∀ p off v s, f (setReg p off v s) = f s) (c : Cpl) (s : State) :
    f (cplCounted c s) = f s := by
  rw [cplCounted, countCovers_keeps f hh ha hr]
  split
  · rw [bump_keeps f hh, bump_keeps f hh]
  · rw [bump_keeps f hh]

theorem cplCounted_rif (c : Cpl) (s : State) : (cplCounted c s).rif = s.rif :=
  cplCounted_keeps State.rif (fun _ _ _ => rfl) (fun _ _ _ _ => rfl) (fun _ _ _ _ => rfl) c s

theorem ringOf_cplPlaced (r : Nat) (c : Cpl) (s : State) :
    ringOf r (cplPlaced r c s) = { headNow (cplCounted c s) (ringWritten c (ringOf r s)) with
      lastUse := s.rif.useSeq } := by
  rw [cplPlaced, ringOf_touchRing, ringOf_setRing_same, setRing_rif, cplCounted_rif]

theorem ringOf_cplPlaced_other {k r : Nat} (c : Cpl) (s : State) (h : k ≠ r) :
    ringOf k (cplPlaced r c s) = ringOf k s := by
  rw [cplPlaced, ringOf_touchRing_other _ h, ringOf_setRing_other _ _ h, ringOf_of_rif (cplCounted_rif c s)]

/-- The write of a completion touches RIF, and what counts it. -/
theorem cplPlaced_keeps {α : Type} (f : State → α) (hrif : ∀ x s, f { s with rif := x } = f s)
    (hh : ∀ p h s, f (setHdr p h s) = f s) (ha : ∀ g k v s, f (setFna g k v s) = f s)
    (hr : ∀ p off v s, f (setReg p off v s) = f s) (r : Nat) (c : Cpl) (s : State) : f (cplPlaced r c s) = f s := by
  have hring (k : Nat) (v : Ring) (s : State) : f (setRing k v s) = f s := hrif _ s
  rw [cplPlaced, touchRing, modRing_eq, hrif, hring, hring, cplCounted_keeps f hh ha hr]

/-- 04 R98, R83, R90, R99, Table 4.9: the completion due next. -/
theorem completionWritten : Claims.CompletionWritten := by
  intro r s n g
  have hexec : exec (.completionWrite r) s = .next (settle (completionWrite n s)) := rfl
  refine ⟨fun hnone => ?_, fun c hnext hanswers hcq hactive => ?_, fun c => cplBytes_words c g.phase⟩
  · rw [hexec, completionWrite_none hnone]
  · rw [hexec, completionWrite_due hnext hanswers hcq hactive]
    refine ⟨fun hcached hfull hdue hread => ?_, fun hout hread => ?_, fun hcached hfree => ?_⟩
    · have hin : ¬g.cached = false := by rw [hcached]; decide
      rw [if_neg hin, if_pos hfull, headNow_full hcq hfull hdue hread]
    · rw [if_pos hout, fetchContext_issued hread]
    · have hin : ¬g.cached = false := by rw [hcached]; decide
      rw [if_neg hin, if_neg (Bool.eq_false_iff.mp hfree), writeCpl_eq]
      let x : Ring := ringWritten c g
      have hring : ringOf n (cplPlaced n c s) = { headNow (cplCounted c s) x with lastUse := s.rif.useSeq } :=
        ringOf_cplPlaced n c s
      refine ⟨cplPlaced n c s, rfl, ?_, ?_, fun hfull hread => ?_, ?_, ?_, fun k hk => ringOf_cplPlaced_other c s hk,
        fun t => ?_, ?_⟩
      · rw [hring]
        exact (headNow_index _ x).trans (ringWritten_index c g)
      · rw [hring]
        exact (headNow_phase _ x).trans (ringWritten_phase c g)
      · obtain ⟨hxcq, hxread⟩ := ringWritten_cq c g
        have hxfull : cqFull x = true := by
          rw [hring] at hfull
          simpa [cqFull] using hfull
        rw [hring]
        exact headNow_due (hxcq.trans hcq) hxfull (hxread.trans hread)
      · rw [hring]
        exact headNow_cplDue _ x
      · rw [hring]
        exact headNow_cplOut _ x
      · exact cplPlaced_keeps (tagOf t) (fun _ _ => rfl) (fun _ _ _ => rfl) (fun _ _ _ _ => rfl)
          (fun _ _ _ _ => rfl) n c s
      · exact cplPlaced_keeps (fun x => { x with rif := s.rif, ops := s.ops, hdr := s.hdr, regs := s.regs })
          (fun _ _ => rfl) (fun _ _ _ => rfl) (fun _ _ _ _ => rfl) (fun _ _ _ _ => rfl) n c s

/-! ### COMPLETION_WRITE_RESPONSE -/

/-- The ring once the write at unit n has its response. -/
def cplAnswered (n : Nat) (g : Ring) : Ring := { g with cplOut := g.cplOut.filter fun e => !decide (e.1 = n) }

theorem cplWritten_eq {r n : Nat} {c : Cpl} {s : State} (ok : Bool)
    (hout : (ringOf r s).cplOut.find? (fun e => decide (e.1 = n)) = some (n, c)) :
    let g := ringOf r s
    let v := setRing r (cplAnswered n g) s
    cplWritten r n ok s =
      if g.state = .fnResetting ∧ (ok = false ∨ g.wasErr = true) then freeTags c.covers (bump .rif 8 v)
      else if ok = true ∧ g.state ≠ .error then raiseVector g.fn g.vector (freeTags c.covers v)
      else ringError r 0x0D (modRing r (fun g => { g with lost := g.lost ++ [c.covers] }) v) := by
  simp only [cplWritten, hout]
  rfl

theorem completionWriteResponse_returned {p : PortId} {tkt : BitVec 9} {s : State} {q : WrReq} {r n : Nat}
    (stat : BitVec 2) (hq : writeAt p tkt s = some q) (hfor : q.purpose = .completion r n) :
    completionWriteResponse p tkt stat s = cplWritten r n (statOk stat) (writeOver p tkt s) := by
  unfold completionWriteResponse
  simp only [hq, hfor]

/-- 04 R97, R98, R109, R111: the response of a completion write. -/
theorem completionAnswered : Claims.CompletionAnswered := by
  intro p tkt s q r n c hq hfor u g hout h
  have hexec (stat : BitVec 2) : exec (.completionWriteResponse p tkt stat) s
      = .next (settle (cplWritten r n (statOk stat) u)) :=
    congrArg (fun v => Host.Outcome.next (settle v)) (completionWriteResponse_returned stat hq hfor)
  have hbad {stat : BitVec 2} (hstat : stat ≠ 0) : statOk stat = false :=
    Bool.eq_false_iff.mpr ((statOk_iff stat).not.mpr hstat)
  refine ⟨fun hlives hkept => ?_, fun stat hlost hlives => ?_, fun stat hlost hresets => ?_⟩
  · have hgood : ¬(g.state = .fnResetting ∧ (statOk 0 = false ∨ g.wasErr = true)) := fun ⟨hresets, hwhy⟩ =>
      hwhy.elim nofun fun herr => hkept ⟨hresets, herr⟩
    rw [hexec, cplWritten_eq _ hout, if_neg hgood, if_pos ⟨rfl, hlives⟩]
    rfl
  · have hnot : ¬(statOk stat = true ∧ g.state ≠ .error) := fun ⟨hok, hne⟩ =>
      hlost.elim (· ((statOk_iff stat).mp hok)) hne
    rw [hexec, cplWritten_eq _ hout, if_neg fun hboth => hlives hboth.1, if_neg hnot]
    refine ⟨_, rfl, ?_, fun t => tagOf_writeOver t p tkt s⟩
    rw [modRing_eq, ringOf_setRing_same, ringOf_setRing_same]
    rfl
  · have hdiscards : g.state = .fnResetting ∧ (statOk stat = false ∨ g.wasErr = true) := ⟨hresets, hlost.imp_left hbad⟩
    rw [hexec, cplWritten_eq _ hout, if_pos hdiscards]
    rfl

/-- Settles O32: the write of a completion and its response. -/
theorem completions : Obligations.Completions := ⟨completionWritten, completionAnswered⟩

end Sys2Proof.Machine
end

section
/-!
How OPS takes an entry, where it leaves it, and which tag it gives (O33; 04 R94, R106, 05 R113, R114, 12 R288).
-/

namespace Sys2Proof.Machine

/-! ### The free list (05 R114) -/

theorem nextTag_fresh {s : State} (h : s.ops.fresh < 65536) : nextTag s = some s.ops.fresh := if_pos h

theorem nextTag_freed {s : State} (h : 65536 ≤ s.ops.fresh) : nextTag s = s.ops.freed.head? :=
  if_neg (Nat.not_lt.mpr h)

theorem takeTag_fresh {s : State} (h : s.ops.fresh < 65536) :
    (takeTag s).ops.fresh = s.ops.fresh + 1 ∧ (takeTag s).ops.freed = s.ops.freed := by
  simp [takeTag, h]

theorem takeTag_freed {s : State} (h : 65536 ≤ s.ops.fresh) : (takeTag s).ops.freed = s.ops.freed.tail := by
  simp [takeTag, Nat.not_lt.mpr h]

/-- TAGS_LOW is the least that TAGS_FREE has been (05 R129). -/
theorem takeTag_low (s : State) :
    (takeTag s).ops.low ≤ s.ops.low ∧ (takeTag s).ops.low ≤ tagsFree (takeTag s) := by
  refine ⟨(Nat.min_le_left ..).trans (Nat.le_of_eq ?_), Nat.min_le_right ..⟩
  split <;> rfl

/-- 05 R114: the order in which tags are given. -/
theorem tagFreeLongest : Claims.TagFreeLongest := by
  intro s t
  obtain ⟨hlow, hfew⟩ := takeTag_low s
  refine ⟨fun hfresh => ⟨nextTag_fresh hfresh, nextTag_fresh hfresh, takeTag_fresh hfresh⟩,
    fun hgiven => ⟨?_, fun a l hfreed => ?_⟩, congrArg TagRow.state (tagOf_setTag_same t {} s), hlow, hfew⟩
  · rw [nextTag_freed hgiven, List.head?_eq_none_iff]
  · have htail : (takeTag s).ops.freed = l := by rw [takeTag_freed hgiven, hfreed, List.tail_cons]
    refine ⟨by rw [nextTag_freed hgiven, hfreed, List.head?_cons], htail, ?_⟩
    exact congrArg (· ++ [t]) htail

/-! ### The row of the tag (05 R113) -/

/-- A fact that OPS, MEM and the headers do not decide survives the giving of a tag. -/
theorem giveTag_keeps {α : Type} (f : State → α) (hh : ∀ p h s, f (setHdr p h s) = f s)
    (hops : ∀ x s, f { s with ops := x } = f s) (hmem : ∀ x s, f { s with mem := x } = f s) (t : Nat) (e : Entry)
    (fn : Nat) (s : State) : f (giveTag t e fn s) = f s := by
  unfold giveTag takeTag
  rw [bump_keeps f hh, hops, setValid, hmem, clearUpsets, hmem, setTag, hops, hops, hops]

theorem takeTag_tags (s : State) : (takeTag s).ops.tags = s.ops.tags := by
  unfold takeTag
  split <;> rfl

theorem takeTag_taken (s : State) : (takeTag s).ops.taken = s.ops.taken := by
  unfold takeTag
  split <;> rfl

theorem giveTag_tags (t : Nat) (e : Entry) (fn : Nat) (s : State) :
    (giveTag t e fn s).ops.tags = SMap.put tagDefault s.ops.tags t (takenRow e fn s.ops.taken s) := by
  have hput : (giveTag t e fn s).ops.tags
      = SMap.put tagDefault (takeTag s).ops.tags t (takenRow e fn (takeTag s).ops.taken s) :=
    congrArg Ops.tags (bump_ops ..)
  rw [hput, takeTag_tags, takeTag_taken]

theorem tagOf_giveTag_same (t : Nat) (e : Entry) (fn : Nat) (s : State) :
    tagOf t (giveTag t e fn s) = takenRow e fn s.ops.taken s := by
  rw [tagOf, giveTag_tags, SMap.get_put_same]

theorem tagOf_giveTag_other {k t : Nat} (e : Entry) (fn : Nat) (s : State) (h : k ≠ t) :
    tagOf k (giveTag t e fn s) = tagOf k s := by
  rw [tagOf, giveTag_tags, SMap.get_put_other _ _ _ h, tagOf]

theorem giveTag_taken (t : Nat) (e : Entry) (fn : Nat) (s : State) :
    (giveTag t e fn s).ops.taken = s.ops.taken + 1 := by
  rw [giveTag, bump_ops]
  exact congrArg (· + 1) (takeTag_taken s)

/-- A count comes from the headers and the cc alone. -/
theorem hdr_bump_congr {s u : State} (p : Page) (i : Nat) (hhdr : u.hdr = s.hdr) (hcc : u.cc = s.cc) :
    (bump p i u).hdr = (bump p i s).hdr := by
  have hpage (q : Page) : hdrOf q u = hdrOf q s := by rw [hdrOf, hhdr, hdrOf]
  have hnow : nowOf p u = nowOf p s := by rw [nowOf, hpage, hcc, nowOf]
  have hcount (v : Nat) : (countTo p i v u).hdr = (countTo p i v s).hdr := by
    simp only [countTo, setHdr, hnow, hpage, hhdr]
  have hfrozen : frozen p u = frozen p s := by simp only [frozen, hpage]
  have hbase : cntBase p i u = cntBase p i s := by simp only [cntBase, baseOf, cntOf, hnow, hpage]
  cases hstop : frozen p s with
  | true => rw [bump_frozen i hstop, bump_frozen i (hfrozen.trans hstop), hhdr]
  | false => rw [bump_counts i hstop, bump_counts i (hfrozen.trans hstop), hbase, hcount]

theorem hdrOf_giveTag (t : Nat) (e : Entry) (fn : Nat) (s : State) :
    hdrOf .ops (giveTag t e fn s) = hdrOf .ops (bump .ops 0 s) :=
  congrArg (fun l => SMap.get hdrReset l (pageNum .ops)) (hdr_bump_congr .ops 0 rfl rfl)

/-! ### Sector records (12 R288) -/

theorem length_recs_allocRecs (e : Entry) (t : Nat) (s : State) :
    (dspOf (eAct e) (allocRecs e t s)).recs.length = (dspOf (eAct e) s).recs.length + eSectors e := by
  rw [allocRecs, modDsp_eq, dspOf_setDsp_same, List.length_append]
  simp [recsOf]

/-! ### Consumption (04 R88, R94) -/

/-- The ring of an entry once that is consumed. -/
def consumedRing (e : Entry) (cc : Nat) (g : Ring) : Ring :=
  let g := advanceIndex (eLen e + 1) g
  { g with offer := none, due := some (cc + 2), tagWait := false, recWait := false,
           prefetched := if g.index = 0 then [] else g.prefetched.filter fun u => decide (g.index ≤ u.1) }

theorem consumeUnits_eq (r : Nat) (e : Entry) (s : State) :
    consumeUnits r e s = touchRing r (setRing r (consumedRing e s.cc (ringOf r s)) (bump .rif 2 s)) := by
  simp only [consumeUnits, modRing_eq, ringOf_bump, bump_cc]
  rfl

theorem consumeUnits_keeps {α : Type} (f : State → α) (hrif : ∀ x s, f { s with rif := x } = f s)
    (hbump : ∀ i s, f (bump .rif i s) = f s) (r : Nat) (e : Entry) (s : State) : f (consumeUnits r e s) = f s := by
  have hring (k : Nat) (v : Ring) (s : State) : f (setRing k v s) = f s := hrif _ s
  rw [consumeUnits_eq, touchRing, modRing_eq, hrif, hring, hring, hbump]

theorem ringOf_consumeUnits (r : Nat) (e : Entry) (s : State) :
    ringOf r (consumeUnits r e s) = { consumedRing e s.cc (ringOf r s) with lastUse := s.rif.useSeq } := by
  rw [consumeUnits_eq, ringOf_touchRing, ringOf_setRing_same, setRing_rif, bump_rif]

/-- INDEX past the last unit goes on from the start, with PHASE inverted. -/
theorem consumedRing_place (e : Entry) (cc : Nat) (g : Ring) :
    let n := g.index + eLen e + 1
    (consumedRing e cc g).index = (if 2 ^ g.size ≤ n then n - 2 ^ g.size else n)
      ∧ (consumedRing e cc g).phase = (if 2 ^ g.size ≤ n then !g.phase else g.phase)
      ∧ (consumedRing e cc g).consumed = g.consumed + eLen e + 1 := by
  by_cases h : 2 ^ g.size ≤ g.index + (eLen e + 1) <;>
    simp [consumedRing, advanceIndex, ringUnits, h, Nat.add_assoc]

/-! ### Batches (04 R94) -/

/-- The member joins the last batch of the ring. -/
theorem joinBatch_last (m : Member) (l : List Batch) : ∃ init b, joinBatch m l = init ++ [b] ∧ m ∈ b.members := by
  induction l with
  | nil => exact ⟨[], { members := [m] }, rfl, List.mem_singleton_self m⟩
  | cons b r ih =>
    cases r with
    | nil =>
      cases hclosed : b.closed with
      | true => exact ⟨[b], { members := [m] }, by simp [joinBatch, hclosed], List.mem_singleton_self m⟩
      | false => exact ⟨[], { b with members := b.members ++ [m] }, by simp [joinBatch, hclosed], by simp⟩
    | cons c r =>
      obtain ⟨init, d, hjoin, hmem⟩ := ih
      exact ⟨b :: init, d, by rw [joinBatch, hjoin, List.cons_append]; simp, hmem⟩

theorem closeLast_append (init : List Batch) (b : Batch) :
    closeLast (init ++ [b]) = init ++ [{ b with closed := true }] := by
  induction init with
  | nil => rfl
  | cons c r ih =>
    rw [List.cons_append, closeLast, ih, List.cons_append]
    simp

theorem batchDone_of_open_member {b : Batch} {m : Member} (hmem : m ∈ b.members) (h : m.done = none) :
    batchDone b = false := by
  have hall : b.members.all (fun m => m.done.isSome) = false :=
    List.all_eq_false.mpr ⟨m, hmem, by simp [h]⟩
  rw [batchDone, hall, Bool.and_false]

theorem batches_setRing {j : Nat} {g : Ring} {s : State} (k : Nat) (h : g.batches = (ringOf j s).batches) :
    (ringOf k (setRing j g s)).batches = (ringOf k s).batches := by
  by_cases hk : k = j
  · rw [hk, ringOf_setRing_same, h]
  · rw [ringOf_setRing_other _ _ hk]

theorem batches_writeBack (k r : Nat) (report : Option Nat) (s : State) :
    (ringOf k (writeBack r report s)).batches = (ringOf k s).batches := by
  simp only [writeBack, ringOf_fabWrite, ringOf_bump]
  exact batches_setRing k rfl

theorem batches_dueCpl (k r : Nat) (c : Cpl) (s : State) :
    (ringOf k (dueCpl r c s)).batches = (ringOf k s).batches := by
  let u : State := setRing (ringOf r s).cqId
    { ringOf (ringOf r s).cqId s with cplDue := (ringOf (ringOf r s).cqId s).cplDue ++ [c] } s
  have hdue : (ringOf k u).batches = (ringOf k s).batches := batches_setRing k rfl
  have howed : (ringOf k (oweBack r c.need u)).batches = (ringOf k u).batches := by
    simp only [oweBack]
    split
    · rfl
    · exact batches_writeBack k r none u
  exact howed.trans hdue

/-- The last batch of the ring is closed, and the batches that are done leave it (04 R96). -/
theorem batches_closeBatch (r : Nat) (s : State) :
    (ringOf r (closeBatch r s)).batches = (closeLast (ringOf r s).batches).filter fun b => !batchDone b := by
  simp only [closeBatch, settleBatches, modRing_eq, ringOf_setRing_same]
  rw [foldl_keeps fun s => (ringOf r s).batches]
  · rw [ringOf_setRing_same]
  · intro s b
    cases batchCpl r b with
    | none => rfl
    | some c => exact batches_dueCpl r r c s

/-- The member of a consumed entry. -/
def newMember (t : Nat) (e : Entry) (g : Ring) : Member := ⟨t, g.consumed, eCookie e, none⟩

/-- The entry is an open member of a batch, closed by CBATCH. -/
theorem joinMember_member (r t : Nat) (e : Entry) (s : State) :
    ∃ b ∈ (ringOf r (joinMember r t e s)).batches, (eCbatch e = true → b.closed = true)
      ∧ newMember t e (ringOf r s) ∈ b.members := by
  obtain ⟨init, b, hjoin, hmem⟩ := joinBatch_last (newMember t e (ringOf r s)) (ringOf r s).batches
  let u := setRing r { ringOf r s with batches := joinBatch (newMember t e (ringOf r s)) (ringOf r s).batches } s
  have hu : (ringOf r u).batches = init ++ [b] := (congrArg Ring.batches (ringOf_setRing_same ..)).trans hjoin
  change ∃ b ∈ (ringOf r (if eCbatch e || decide ((ringOf r s).batchMax + 1 ≤ openCount (ringOf r u).batches) then
    closeBatch r u else u)).batches, _
  split
  · refine ⟨{ b with closed := true }, ?_, fun _ => rfl, hmem⟩
    have hopen : batchDone { b with closed := true } = false := batchDone_of_open_member hmem rfl
    rw [batches_closeBatch, hu, closeLast_append]
    simp [hopen]
  · next hstays =>
    refine ⟨b, by simp [hu], fun hclose => ?_, hmem⟩
    exact absurd (by rw [hclose, Bool.true_or]) hstays

theorem ringCore_joinMember (k r t : Nat) (e : Entry) (s : State) :
    ringCore (ringOf k (joinMember r t e s)) = ringCore (ringOf k s) := by
  simp only [joinMember]
  split
  · exact (ringCore_closeBatch ..).trans (ringCore_setRing k rfl)
  · exact ringCore_setRing k rfl

section
variable {α : Type} (f : State → α) (hring : ∀ k v s, f (setRing k v s) = f s)
  (hbump : ∀ i s, f (bump .rif i s) = f s) (hfab : ∀ k v s, f (setFab k v s) = f s)

include hring hbump hfab

/-- Of the headers a completion that falls due touches that of RIF. -/
theorem dueCpl_keeps_other (r : Nat) (c : Cpl) (s : State) : f (dueCpl r c s) = f s := by
  have hback (s : State) : f (writeBack r none s) = f s := by
    simp only [writeBack]
    rw [fabWrite, drain_eq, hfab, modFab_eq, hfab, hbump, hring]
  have howed (s : State) : f (oweBack r c.need s) = f s := by
    simp only [oweBack]
    split
    · rfl
    · exact hback s
  simp only [dueCpl]
  rw [howed, modRing_eq, hring]

theorem closeBatch_keeps_other (r : Nat) (s : State) : f (closeBatch r s) = f s := by
  simp only [closeBatch, settleBatches]
  rw [foldl_keeps f, modRing_eq, hring, modRing_eq, hring]
  intro s b
  cases batchCpl r b with
  | none => rfl
  | some c => exact dueCpl_keeps_other f hring hbump hfab r c s

theorem joinMember_keeps (r t : Nat) (e : Entry) (s : State) : f (joinMember r t e s) = f s := by
  simp only [joinMember]
  split
  · rw [closeBatch_keeps_other f hring hbump hfab, hring]
  · exact hring _ _ s

end

/-! ### An entry is taken (05 R113) -/

/-- A tag is given to the entry, with its records. -/
def tagGiven (r t : Nat) (e : Entry) (s : State) : State :=
  let v := giveTag t e (ringOf r s).fn s
  if eOpcode e = opDestage then allocRecs e t v else v

/-- The entry is taken, and neither fenced nor admitted yet. -/
def entryTakenState (r t : Nat) (e : Entry) (s : State) : State :=
  joinMember r t e (consumeUnits r e (tagGiven r t e s))

section
variable {o r t : Nat} {e : Entry} {s : State} (hoffer : (ringOf r s).offer = some e)

include hoffer

theorem takeEntry_takes (hop : eOpcode e = o) (htakes : opsTakes s = true) (htag : nextTag s = some t)
    (hrecs : recsNeeded e ≤ freeRecs (eAct e) s) :
    let u := entryTakenState r t e s
    takeEntry o r s = presentAll 64 r (if behindFence t u then bump .ops 11 u else admitTag t u) := by
  have hgo : ¬(eOpcode e ≠ o ∨ opsTakes s = false) := by simp [hop, htakes]
  simp only [takeEntry, hoffer, htag]
  rw [if_neg hgo, if_neg (Nat.not_lt.mpr hrecs)]
  rfl

theorem takeEntry_leaves (h : eOpcode e ≠ o ∨ opsTakes s = false) : takeEntry o r s = s := by
  cases htag : nextTag s with
  | some t =>
    simp only [takeEntry, hoffer, htag]
    exact if_pos h
  | none =>
    simp only [takeEntry, hoffer, htag]
    exact if_neg fun ⟨hop, htakes, _⟩ => h.elim (· hop) fun hnot => Bool.false_ne_true (hnot.symm.trans htakes)

theorem takeEntry_noTag (hop : eOpcode e = o) (htakes : opsTakes s = true) (htag : nextTag s = none) :
    takeEntry o r s = if (ringOf r s).tagWait then s
      else bump .rif 9 (modRing r (fun g => { g with tagWait := true }) s) := by
  simp only [takeEntry, hoffer, htag]
  cases hwait : (ringOf r s).tagWait with
  | true => exact if_neg fun ⟨_, _, hfirst⟩ => Bool.false_ne_true hfirst.symm
  | false => exact if_pos ⟨hop, htakes, rfl⟩

theorem takeEntry_fewRecs (hop : eOpcode e = o) (htakes : opsTakes s = true) (htag : nextTag s ≠ none)
    (hrecs : freeRecs (eAct e) s < recsNeeded e) :
    takeEntry o r s = if (ringOf r s).recWait then s
      else bump (dspPage (eAct e)) 16 (modRing r (fun g => { g with recWait := true }) s) := by
  obtain ⟨t, ht⟩ := Option.ne_none_iff_exists'.mp htag
  have hgo : ¬(eOpcode e ≠ o ∨ opsTakes s = false) := by simp [hop, htakes]
  simp only [takeEntry, hoffer, ht]
  rw [if_neg hgo, if_pos hrecs]

end

theorem takeEntry_none {o r : Nat} {s : State} (h : (ringOf r s).offer = none) : takeEntry o r s = s := by
  simp only [takeEntry, h]

/-! ### What the taking of an entry changes -/

/-- A fact that OPS, RIF, DSP, MEM, ports and headers do not decide survives it. -/
theorem entryTakenState_keeps {α : Type} (f : State → α) (hh : ∀ p h s, f (setHdr p h s) = f s)
    (hops : ∀ x s, f { s with ops := x } = f s) (hmem : ∀ x s, f { s with mem := x } = f s)
    (hdsp : ∀ k v s, f (setDsp k v s) = f s) (hrif : ∀ x s, f { s with rif := x } = f s)
    (hfab : ∀ k v s, f (setFab k v s) = f s) (r t : Nat) (e : Entry) (s : State) :
    f (entryTakenState r t e s) = f s := by
  have hbump (i : Nat) (s : State) : f (bump .rif i s) = f s := bump_keeps f hh .rif i s
  have hgiven : f (tagGiven r t e s) = f s := by
    simp only [tagGiven]
    split
    · rw [allocRecs, modDsp_eq, hdsp, giveTag_keeps f hh hops hmem]
    · exact giveTag_keeps f hh hops hmem ..
  rw [entryTakenState, joinMember_keeps f (fun _ _ s => hrif _ s) hbump hfab, consumeUnits_keeps f hrif hbump, hgiven]

theorem tagGiven_ops (r t : Nat) (e : Entry) (s : State) :
    (tagGiven r t e s).ops = (giveTag t e (ringOf r s).fn s).ops := by
  simp only [tagGiven]
  split <;> rfl

theorem entryTakenState_ops (r t : Nat) (e : Entry) (s : State) :
    (entryTakenState r t e s).ops = (giveTag t e (ringOf r s).fn s).ops := by
  rw [entryTakenState, joinMember_keeps State.ops (fun _ _ _ => rfl) (bump_ops .rif) (fun _ _ _ => rfl),
    consumeUnits_keeps State.ops (fun _ _ => rfl) (bump_ops .rif), tagGiven_ops]

/-- Counts of another page leave a header alone. -/
theorem hdrOf_bump_other {p q : Page} (i : Nat) (s : State) (h : pageNum q ≠ pageNum p) :
    hdrOf q (bump p i s) = hdrOf q s := by
  rcases bumpBy_eq p i 1 s with hsame | ⟨_, hset⟩
  · rw [bump, hsame]
  · rw [bump, hset, hdrOf_setHdr_other _ _ h]

theorem hdrOf_entryTakenState (r t : Nat) (e : Entry) (s : State) :
    hdrOf .ops (entryTakenState r t e s) = hdrOf .ops (bump .ops 0 s) := by
  have hbump (i : Nat) (s : State) : hdrOf .ops (bump .rif i s) = hdrOf .ops s := hdrOf_bump_other i s (by decide)
  have hgiven : hdrOf .ops (tagGiven r t e s) = hdrOf .ops (giveTag t e (ringOf r s).fn s) := by
    simp only [tagGiven]
    split <;> rfl
  rw [entryTakenState, joinMember_keeps (hdrOf .ops) (fun _ _ _ => rfl) hbump (fun _ _ _ => rfl),
    consumeUnits_keeps (hdrOf .ops) (fun _ _ => rfl) hbump, hgiven, hdrOf_giveTag]

theorem ringOf_tagGiven (k r t : Nat) (e : Entry) (s : State) : ringOf k (tagGiven r t e s) = ringOf k s := by
  have hgive : ringOf k (giveTag t e (ringOf r s).fn s) = ringOf k s :=
    giveTag_keeps (ringOf k) (fun _ _ _ => rfl) (fun _ _ => rfl) (fun _ _ => rfl) ..
  simp only [tagGiven]
  split <;> exact hgive

theorem ringOf_consumed (r t : Nat) (e : Entry) (s : State) : ∃ cc use,
    ringOf r (consumeUnits r e (tagGiven r t e s)) = { consumedRing e cc (ringOf r s) with lastUse := use } := by
  rw [ringOf_consumeUnits, ringOf_tagGiven]
  exact ⟨_, _, rfl⟩

theorem length_recs_entryTakenState {r t : Nat} {e : Entry} {s : State} (h : eOpcode e = opDestage) :
    (dspOf (eAct e) (entryTakenState r t e s)).recs.length = (dspOf (eAct e) s).recs.length + eSectors e := by
  have hbump (i : Nat) (s : State) : dspOf (eAct e) (bump .rif i s) = dspOf (eAct e) s :=
    bump_keeps (dspOf (eAct e)) (fun _ _ _ => rfl) .rif i s
  have hgive : dspOf (eAct e) (giveTag t e (ringOf r s).fn s) = dspOf (eAct e) s :=
    giveTag_keeps (dspOf (eAct e)) (fun _ _ _ => rfl) (fun _ _ => rfl) (fun _ _ => rfl) ..
  rw [entryTakenState, joinMember_keeps (dspOf (eAct e)) (fun _ _ _ => rfl) hbump (fun _ _ _ => rfl),
    consumeUnits_keeps (dspOf (eAct e)) (fun _ _ => rfl) hbump, tagGiven, if_pos h, length_recs_allocRecs, hgive]

/-! ### The commands -/

/-- Each of the commands takes the entry of its opcode. -/
theorem takers_exec : ∀ x ∈ takers, ∀ (r : RingId) (s : State),
    exec (x.2 r) s = .next (settle (takeEntry x.1 r.toNat s)) := by
  simp only [takers, List.forall_mem_cons, List.not_mem_nil, false_imp_iff, implies_true, and_true]
  and_intros <;> exact fun _ _ => rfl

/-- 05 R113, R114, 04 R94, R106, 12 R288: an entry is taken. -/
theorem entryTaken : Claims.EntryTaken := by
  intro x hx r s e t hoffer hop htakes htag hrecs g n
  have hrest := entryTakenState_keeps (fun s => (s.sch, s.map, s.dpt, s.tmb, s.regs)) (fun _ _ _ => rfl)
    (fun _ _ => rfl) (fun _ _ => rfl) (fun _ _ _ => rfl) (fun _ _ => rfl) (fun _ _ _ => rfl) r.toNat t e s
  simp only [Prod.mk.injEq] at hrest
  have hops : (entryTakenState r.toNat t e s).ops = (giveTag t e g.fn s).ops := entryTakenState_ops ..
  obtain ⟨cc, use, hring⟩ := ringOf_consumed r.toNat t e s
  have hcore : ringCore (ringOf r.toNat (entryTakenState r.toNat t e s))
      = ringCore { consumedRing e cc g with lastUse := use } := (ringCore_joinMember ..).trans (congrArg ringCore hring)
  obtain ⟨hindex, hphase, hconsumed⟩ := consumedRing_place e cc g
  obtain ⟨b, hb, hclosed, hmember⟩ := joinMember_member r.toNat t e (consumeUnits r.toNat e (tagGiven r.toNat t e s))
  rw [hring] at hmember
  refine ⟨entryTakenState r.toNat t e s, ?_, ?_, fun k hk => ?_, ?_, hdrOf_entryTakenState .., congrArg Ring.offer hcore,
    (congrArg Ring.consumed hcore).trans hconsumed, (congrArg Ring.index hcore).trans hindex,
    (congrArg Ring.phase hcore).trans hphase, ⟨b, hb, hclosed, _, hmember, rfl, rfl, hconsumed, rfl⟩,
    fun hdestage => length_recs_entryTakenState (hop.trans hdestage), hrest⟩
  · rw [takers_exec x hx, takeEntry_takes hoffer hop htakes htag hrecs]
  · rw [tagOf_of_ops hops, tagOf_giveTag_same]
    rfl
  · rw [tagOf_of_ops hops, tagOf_giveTag_other _ _ _ hk]
  · rw [hops, giveTag_taken]

/-- 04 R106, 12 R288: an entry stays with its ring. That OPS takes none that a ring already offers while RIF is
disabled is the model's choice (log entry 133). -/
theorem entryStays : Claims.EntryStays := by
  intro x hx r s
  refine ⟨fun hnone => ?_, fun e hoffer => ⟨fun hnot => ?_, fun hop htakes htag => ?_, fun hop htakes htag hfew => ?_⟩⟩
  · rw [takers_exec x hx, takeEntry_none hnone]
  · rw [takers_exec x hx, takeEntry_leaves hoffer hnot]
  · rw [takers_exec x hx, takeEntry_noTag hoffer hop htakes htag]
    rfl
  · rw [takers_exec x hx, takeEntry_fewRecs hoffer hop htakes htag hfew]
    rfl

/-- Settles O33: the entry taken, the entry left, and the order of the tags. -/
theorem entriesTaken : Obligations.EntriesTaken := ⟨entryTaken, entryStays, tagFreeLongest⟩

end Sys2Proof.Machine
end

section
/-!
FENCE_COMMIT, EXPIRY, EARLY_POP and TAG_SEL (O35; 01 R15, 05 R114, R119, R120, R123, R129, 06 R133).
-/

namespace Sys2Proof.Machine

/-! ### FENCE_COMMIT (05 R123) -/

theorem fenceCommit_runs {t : Nat} {s : State}
    (hstate : (tagOf t s).state = .queued ∨ (tagOf t s).state = .committed) (hreach : reachedNow t rankOwn s = true)
    (hop : eOpcode (tagOf t s).entry = opFence) (hclear : fenceClear t s = true) :
    fenceCommit t s = admitFenced (commitTag t stOk rankOwn s) :=
  if_pos ⟨hstate.imp_right fun hdone => ⟨hdone, hreach⟩, hop, hclear⟩

/-- A QUEUED tag is reached by every event, so that one not reached is no fence to commit. -/
theorem fenceCommit_waits {t : Nat} {s : State}
    (h : ((tagOf t s).state ≠ .queued ∧ (tagOf t s).state ≠ .committed) ∨ reachedNow t rankOwn s = false
      ∨ eOpcode (tagOf t s).entry ≠ opFence ∨ fenceClear t s = false) :
    fenceCommit t s = s := by
  refine if_neg fun ⟨hstate, hop, hclear⟩ => ?_
  have hreach : reachedNow t rankOwn s = true := hstate.elim
    (fun hq => reachedNow_of_open rankOwn (by rw [hq]; decide) (by rw [hq]; decide)) And.right
  rcases h with ⟨hnotQueued, hnotDone⟩ | hunreached | hother | hscope
  · exact hstate.elim hnotQueued fun hdone => hnotDone hdone.1
  · exact Bool.false_ne_true (hunreached.symm.trans hreach)
  · exact hother hop
  · exact Bool.false_ne_true (hscope.symm.trans hclear)

/-! ### EXPIRY (05 R119, R120) -/

theorem expires_iff (t : Nat) (s : State) : expires t s = true ↔ tagOpen t s = true ∧ (tagOf t s).armed = true
    ∧ (tagOf t s).withdrawn = false ∧ s.tmb.state ≠ .off ∧ reached (eDeadline (tagOf t s).entry) s = true := by
  simp [expires, and_assoc]

theorem expire_unexpired {t : Nat} {s : State} (h : expires t s = false) : expire t s = s :=
  if_neg (Bool.eq_false_iff.mp h)

theorem expire_confirmed {t : Nat} {s : State} (h : expires t s = true) (hconf : (tagOf t s).confirmed = true) :
    expire t s = setTag t { tagOf t s with withdrawn := true, armed := false } s := by
  rw [expire, if_pos h, if_pos hconf, modTag_eq]

/-- An expiry is no event of the operation itself, so that no replan follows it. -/
theorem expire_unconfirmed {t : Nat} {s : State} (h : expires t s = true) (hconf : (tagOf t s).confirmed = false) :
    expire t s = commitTag t stMissed rankExpiry s := by
  rw [expire, if_pos h, if_neg (Bool.eq_false_iff.mp hconf)]
  simp [endTag, rankExpiry, rankOwn]

theorem reachedNow_of_expires {t : Nat} {s : State} (rank : Nat) (h : expires t s = true) :
    reachedNow t rank s = true := by
  obtain ⟨hopen, -⟩ := (expires_iff t s).mp h
  rw [reachedNow, hopen, Bool.true_or]

/-- 05 R119, R120, R123, 01 R15, 06 R133: the commitment of a FENCE, and the deadline that is reached. -/
theorem fenceAndExpiry : Claims.FenceAndExpiry := by
  intro t s n x
  have hfence : exec (.fenceCommit t) s = .next (settle (fenceCommit n s)) := rfl
  have hexpiry : exec (.expiry t) s = .next (settle (expire n s)) := rfl
  refine ⟨fun hstate hreach hop hclear => ⟨?_, commitTag_status hreach⟩, fun hnot => ?_, fun hnot => ?_,
    fun hexp hconf => ?_, fun hexp hconf => ?_, fun hnot => ?_⟩
  · rw [hfence, fenceCommit_runs hstate hreach hop hclear]
    rfl
  · rw [hfence, fenceCommit_waits hnot]
  · rw [hexpiry, expire_unexpired hnot]
  · rw [hexpiry, expire_confirmed hexp hconf]
  · rw [hexpiry, expire_unconfirmed hexp hconf]
    exact ⟨_, rfl, commitTag_status (reachedNow_of_expires rankExpiry hexp)⟩
  · refine Bool.eq_false_iff.mpr fun hexp => ?_
    obtain ⟨hopen, harmed, hkept, hon, -⟩ := (expires_iff n s).mp hexp
    rcases hnot with hoff | hunarmed | hwithdrawn | hdone
    · exact hon hoff
    · exact Bool.false_ne_true (hunarmed.symm.trans harmed)
    · exact Bool.false_ne_true (hkept.symm.trans hwithdrawn)
    · have hcommitted : (tagOf n s).state = .committed := hdone
      simp [tagOpen, hcommitted] at hopen

/-! ### EARLY_POP, TAG_SEL (05 R114, R129) -/

theorem eClass_lt (e : Entry) : eClass e < 8 := Nat.mod_lt _ (by decide)
theorem eOpcode_lt (e : Entry) : eOpcode e < 256 := Nat.mod_lt _ (by decide)
theorem eDlFrac_lt (e : Entry) : eDlFrac e < 65536 := Nat.mod_lt _ (by decide)
theorem tagStateCode_lt (x : TagState) : tagStateCode x < 8 := by cases x <;> decide

/-- What TAG_INFO0 shows of a tag that is not FREE (05 R129): state, opcode, function and class. -/
def shownOperation (x : TagRow) : Nat :=
  fieldAt 28 (tagStateCode x.state) + fieldAt 16 (eOpcode x.entry) + fieldAt 8 (x.fn % 256) + eClass x.entry

/-- What TAG_INFO1 shows of a tag that is not FREE: status and ring. -/
def shownStatus (x : TagRow) : Nat :=
  fieldAt 24 (if x.state = .committed then x.status % 256 else 0) + x.entry.ring % 262144

/-- The fields of TAG_INFO0 do not overlap. -/
theorem shownOperation_fields (x : TagRow) :
    let v := shownOperation x % 2 ^ 64
    fieldOf v 28 3 = tagStateCode x.state ∧ fieldOf v 16 8 = eOpcode x.entry ∧ fieldOf v 8 8 = x.fn % 256
      ∧ fieldOf v 0 3 = eClass x.entry := by
  have hstate := tagStateCode_lt x.state
  have hop := eOpcode_lt x.entry
  have hclass := eClass_lt x.entry
  simp only [shownOperation, fieldOf, fieldAt]
  omega

/-- Nor do those of TAG_INFO1. -/
theorem shownStatus_fields (x : TagRow) :
    let v := shownStatus x % 2 ^ 64
    fieldOf v 24 8 = (if x.state = .committed then x.status % 256 else 0)
      ∧ fieldOf v 0 18 = x.entry.ring % 2 ^ 18 := by
  have hstatus : (if x.state = .committed then x.status % 256 else 0) < 256 := by split <;> omega
  simp only [shownStatus, fieldOf, fieldAt]
  omega

/-- TAG_SEL and the four registers in which it shows the row of the tag. -/
theorem regOf_tagSel (t : Nat) (s : State) :
    let x := tagOf t s
    let v := tagSel t s
    regOf .ops oOpsTagSel v = t % 2 ^ 64
    ∧ regOf .ops oOpsTagInfo0 v = (if x.state ≠ .free then shownOperation x else 0) % 2 ^ 64
    ∧ regOf .ops oOpsTagInfo1 v = (if x.state ≠ .free then shownStatus x else 0) % 2 ^ 64
    ∧ regOf .ops oOpsTagInfo2 v
        = (if x.state ≠ .free ∧ eClass x.entry ≠ clsNone then (eDlFrame x.entry).toNat else 0) % 2 ^ 64
    ∧ regOf .ops oOpsTagInfo3 v
        = (if x.state ≠ .free ∧ eClass x.entry ≠ clsNone then eDlFrac x.entry else 0) % 2 ^ 64 := by
  have hother {off l v : Nat} (s : State) (h : l ≠ off) : regOf .ops l (setReg .ops off v s) = regOf .ops l s :=
    regOf_setReg_other v s (by unfold pageAddr; omega)
  simp only [tagSel, shownOperation, shownStatus, oOpsTagSel, oOpsTagInfo0, oOpsTagInfo1, oOpsTagInfo2, oOpsTagInfo3,
    regOf_setReg_same, hother, ne_eq, Nat.reduceEqDiff, not_false_eq_true, Bool.and_eq_true, decide_eq_true_eq, and_self]

/-- TAG_SEL writes registers of its page, and checks the word that it reads (17 R393). -/
theorem tagSel_only (t : Nat) (s : State) : { tagSel t s with regs := s.regs } = readWord 1 t s := by
  have hregs : (readWord 1 t s).regs = s.regs :=
    readWord_keeps State.regs (fun _ _ _ => rfl) (fun _ _ => rfl) (fun _ _ _ => rfl) 1 t s
  have hset (off v : Nat) (w : State) : { setReg .ops off v w with regs := s.regs } = { w with regs := s.regs } := rfl
  simp only [tagSel, hset]
  rw [← hregs]

theorem readWord_clean {cls idx : Nat} {s : State} (h : upsetsOf cls idx s = []) : readWord cls idx s = s := by
  rw [readWord, h]
  rfl

/-- 05 R114, R129, Tables 5.1, 5.8: EARLY_POP and TAG_SEL. -/
theorem earlyPopAndTagSelect : Claims.EarlyPopAndTagSelect := by
  intro t s hanswers u x live dl
  have hpop : exec .earlyPop s = .next (settle (csrOk 0 (earlyPop u))) :=
    congrArg (fun v => Host.Outcome.next (settle v)) (csrDo_answers earlyPop hanswers)
  have hsel : exec (.tagSel t) s = .next (settle (csrOk 0 (tagSel t.toNat u))) :=
    congrArg (fun v => Host.Outcome.next (settle v)) (csrDo_answers (tagSel t.toNat) hanswers)
  have hrow : tagOf t.toNat u = x := rfl
  obtain ⟨hreg, hinfo0, hinfo1, hinfo2, hinfo3⟩ := regOf_tagSel t.toNat u
  rw [hrow] at hinfo0 hinfo1 hinfo2 hinfo3
  refine ⟨hpop, tagSel t.toNat u, hsel, ?_, fun (hlive : x.state ≠ .free) => ?_, fun (hfree : ¬x.state ≠ .free) => ?_,
    fun (hshown : x.state ≠ .free ∧ eClass x.entry ≠ clsNone) => ?_,
    fun (hhidden : ¬(x.state ≠ .free ∧ eClass x.entry ≠ clsNone)) => ?_, tagSel_only t.toNat u,
    fun hclean => readWord_clean (s := u) hclean⟩
  · rw [hreg, Nat.mod_eq_of_lt (t.isLt.trans (by decide))]
  · obtain ⟨hstate, hop, hfn, hclass⟩ := shownOperation_fields x
    obtain ⟨hstatus, hring⟩ := shownStatus_fields x
    rw [if_pos hlive] at hinfo0 hinfo1
    simp only [regFld, hinfo0, hinfo1]
    exact ⟨hstate, hop, hfn, hclass, hstatus, hring⟩
  · rw [hinfo0, hinfo1, if_neg hfree, if_neg hfree]
    exact ⟨rfl, rfl⟩
  · rw [hinfo2, hinfo3, if_pos hshown, if_pos hshown]
    exact ⟨Nat.mod_eq_of_lt ((eDlFrame x.entry).isLt.trans (by decide)),
      Nat.mod_eq_of_lt ((eDlFrac_lt x.entry).trans (by decide))⟩
  · rw [hinfo2, hinfo3, if_neg hhidden, if_neg hhidden]
    exact ⟨rfl, rfl⟩

/-- Settles O35: the commitment of a FENCE, the expiry of a deadline, and the registers EARLY_POP and TAG_SEL. -/
theorem fencesExpiryAndViews : Obligations.FencesExpiryAndViews := ⟨fenceAndExpiry, earlyPopAndTagSelect⟩

end Sys2Proof.Machine
end

section
/-!
A wedge tick that the statement on wedge ticks gets wrong (O38).
-/

namespace Sys2Proof.Machine

/-! ### A tick in OFF while a port is in sync -/

/-- TMB is OFF, REF_ACT is 0, and port 1 holds SYNC.VALID although the tracker is not LOCKED. -/
def syncedWhileOff : State := { State.reset with dsp := [(1, { valid := true })] }

/-- The tick changes nothing of TMB, but the port's sync is found to stand without a lock, and falls (12 R286). -/
theorem syncedWhileOff_losesSync : (dspOf 1 (refTick syncedWhileOff)).valid = false := by decide +kernel

/-- Refutes O38: the first clause of WedgeTickWaits has WEDGE_TICK change nothing in OFF, in whatever state. The command
ends with the loss of sync that an unlocked tracker brings, and in syncedWhileOff that takes VALID from port 1. The
clause speaks of every state, also of one such as this in which syncFollowsLock, which the second clause asks for,
fails. -/
theorem not_wedgeTicks : ¬ Obligations.WedgeTicks := by
  intro h
  obtain ⟨hstopped, -⟩ := h.1 syncedWhileOff
  have hsettle : settle (refTick syncedWhileOff) = settle syncedWhileOff :=
    Host.Outcome.next.inj (hstopped (.inr rfl))
  have hvalid : (dspOf 1 (refTick syncedWhileOff)).valid = true := by
    rw [← dspOf_settle, hsettle, dspOf_settle]
    rfl
  exact Bool.false_ne_true (syncedWhileOff_losesSync.symm.trans hvalid)

end Sys2Proof.Machine
end

section
/-!
A tick of the other actuator that the statement on the loss of lock gets wrong (O39).
-/

namespace Sys2Proof.Machine

/-! ### A first tick of the other actuator for a decided frame -/

/-- A frame start at cc 0 whose tick, of actuator 1, comes at cc 2: its frame has been decided, and OFS_EST is set. The
table of the ports lists port 1 before port 0. -/
def unsortedPorts : State :=
  { State.reset with
    cc := 2
    dsp := [(1, { ofsSet := true }), (0, { goodRun := 1 })]
    tmb := { state := .freerun, phase := 2 } }

/-- It is powered and not OFF, actuator 1 is the other one, and its port has no tick and waits for no frame. -/
theorem unsortedPorts_runs : corePowered unsortedPorts = true ∧ unsortedPorts.tmb.state ≠ .off
    ∧ refAct unsortedPorts = 0 ∧ dspOf 1 unsortedPorts = { ofsSet := true } := by decide +kernel

/-- The tick writes no port. -/
theorem unsortedPorts_untouched : (otherTick unsortedPorts).dsp = unsortedPorts.dsp := by decide +kernel

/-- Refutes O39: for a first tick of a decided frame FrameWriteAndOtherTick has the port's row written, OFS_EST set.
Where OFS_EST has been set before, the row written is the row that stands, and the model writes none. The two states are
one where the table of the ports is sorted by port, but not in unsortedPorts, where the write brings the table into order.
No run reaches that state, since every write keeps the order (setDsp_wf); the statement speaks of every state. -/
theorem not_lossOfLock : ¬ Obligations.LossOfLock := by
  intro h
  obtain ⟨-, -, -, hother⟩ := h
  obtain ⟨-, -, hdecided, -⟩ := hother unsortedPorts
  obtain ⟨hpow, hon, hact, hport⟩ := unsortedPorts_runs
  simp only [hact, Nat.sub_zero, hport, if_true] at hdecided
  have hsettle : settle (otherTick unsortedPorts) = settle (setDsp 1 { ofsSet := true } unsortedPorts) :=
    Host.Outcome.next.inj (hdecided ⟨hpow, hon⟩ (by decide) (by decide +kernel))
  have hdsp : unsortedPorts.dsp = (setDsp 1 { ofsSet := true } unsortedPorts).dsp := by
    rw [← unsortedPorts_untouched, ← settle_dsp, hsettle, settle_dsp]
  exact absurd hdsp (by decide)

end Sys2Proof.Machine
end

section
/-!
The planner's overrun and the missed checkpoints of the Burins (O40; 06 R141 to R143).
-/

namespace Sys2Proof.Machine

/-! ### PLAN_OVERRUN (06 R141) -/

/-- A plan on which its channel runs on, a later one having been discarded (06 R141). -/
def carriedPlan (p : Plan) : Plan := { p with carried := true }

/-- The channels of a list run on the plans before. -/
def carryPlans (l : List Nat) (s : State) : State := l.foldl (fun s c => modPlan c (·.map carriedPlan) s) s

theorem carryPlans_keeps {α : Type} (f : State → α) (hsch : ∀ x s, f { s with sch := x } = f s) (l : List Nat)
    (s : State) : f (carryPlans l s) = f s := foldl_keeps f (fun s _ => hsch _ s) l s

theorem planOf_carryPlans (c : Nat) (l : List Nat) (s : State) :
    planOf c (carryPlans l s) = if c ∈ l then (planOf c s).map carriedPlan else planOf c s := by
  induction l generalizing s with
  | nil => rfl
  | cons k r ih =>
    change planOf c (carryPlans r (modPlan k (·.map carriedPlan) s)) = _
    rw [ih, modPlan_eq]
    by_cases hc : c = k
    · subst hc
      have htwice (p : Option Plan) : (p.map carriedPlan).map carriedPlan = p.map carriedPlan := by cases p <;> rfl
      rw [planOf_setPlan_same, htwice, ite_self, if_pos List.mem_cons_self]
    · rw [planOf_setPlan_other _ _ hc]
      simp only [List.mem_cons, hc, false_or]

/-- The header of TMB with the event, the count and the error of an overrun. -/
def overrunReported (s : State) : State :=
  raiseErr .tmb 0x0101 s.sch.toPlan.length (bump .tmb 10 (raiseEvt .tmb 4 s))

theorem overrunReported_keeps {α : Type} (f : State → α) (hh : ∀ p h s, f (setHdr p h s) = f s) (s : State) :
    f (overrunReported s) = f s := by
  rw [overrunReported, raiseErr_keeps f hh, bump_keeps f hh, raiseEvt_keeps f hh]

/-- An overrun reported, with the channels that were to be planned on the plans before. -/
def overrunCarried (s : State) : State := carryPlans s.sch.toPlan (overrunReported s)

theorem overrunCarried_keeps {α : Type} (f : State → α) (hh : ∀ p h s, f (setHdr p h s) = f s)
    (hsch : ∀ x s, f { s with sch := x } = f s) (s : State) : f (overrunCarried s) = f s :=
  (carryPlans_keeps f hsch _ _).trans (overrunReported_keeps f hh s)

/-- The frame watchdog is armed by a second overrun in a row (06 R143). -/
def overrunWatchdog (s : State) : Option Word32 :=
  if s.tmb.planLast = true ∧ s.tmb.planAt + 1 = s.tmb.frame then some 0xC0000000 else s.rst.wdogFired

/-- What an overrun leaves. -/
def overrunTaken (s : State) : State :=
  { overrunCarried s with
    tmb := { s.tmb with unpub := s.sch.toPlan.length, planJudged := true, planPrev := s.tmb.planLast, planLast := true,
                        planAt := s.tmb.frame }
    sch := { (overrunCarried s).sch with toPlan := [] }
    rst := { s.rst with wdogFired := overrunWatchdog s } }

theorem planOverrun_due {s : State} (h : overrunDue s = true) : planOverrun s = overrunTaken s := by
  have hsch : (overrunReported s).sch = s.sch := overrunReported_keeps State.sch (fun _ _ _ => rfl) s
  have htmb : (overrunCarried s).tmb = s.tmb := overrunCarried_keeps State.tmb (fun _ _ _ => rfl) (fun _ _ => rfl) s
  have hrst : (overrunCarried s).rst = s.rst := overrunCarried_keeps State.rst (fun _ _ _ => rfl) (fun _ _ => rfl) s
  have hplans : (overrunReported s).sch.toPlan.foldl
      (fun s c => modPlan c (fun p => p.map fun q => { q with carried := true }) s) (overrunReported s)
      = overrunCarried s := by
    rw [hsch]
    rfl
  rw [planOverrun, if_pos h]
  simp only [← overrunReported.eq_1, hplans, judgePlanner, htmb, overrunTaken, overrunWatchdog, ← hrst,
    Bool.and_eq_true, decide_eq_true_eq]
  split <;> rfl

theorem planOverrun_idle {s : State} (h : overrunDue s = false) : planOverrun s = s := by
  rw [planOverrun, if_neg (by simp [h])]

/-- 06 R141, R143: PLAN_OVERRUN. -/
theorem plannerOverrun : Claims.PlannerOverrun := by
  intro s
  refine ⟨fun h => ?_, fun h => ⟨overrunTaken s, ?_, rfl, rfl, fun c => ?_, ?_, rfl, ?_⟩⟩
  · exact congrArg (fun v => Host.Outcome.next (settle v)) (planOverrun_idle h)
  · exact congrArg (fun v => Host.Outcome.next (settle v)) (planOverrun_due h)
  · change planOf c (overrunCarried s) = _
    rw [overrunCarried, planOf_carryPlans, overrunReported_keeps (planOf c) fun _ _ _ => rfl]
    rfl
  · exact carryPlans_keeps (hdrOf .tmb) (fun _ _ => rfl) _ _
  · exact overrunCarried_keeps (fun u => { u with tmb := s.tmb, sch := s.sch, hdr := s.hdr, rst := s.rst })
      (fun _ _ _ => rfl) (fun _ _ => rfl) s

/-! ### CHECKPOINT_MISS (06 R142) -/

/-- The lowest Burin of those that have not reached their checkpoint. -/
def lowestOwed (b : Nat) (owed : BitVec 64) : Nat := ((List.range 64).find? fun i => owed.getLsbD i).getD b

theorem lowestOwed_first {b : Nat} {owed : BitVec 64} (h : owed.getLsbD b = true) :
    lowestOwed b owed ≤ b ∧ owed.getLsbD (lowestOwed b owed) = true
      ∧ ∀ j, j < lowestOwed b owed → owed.getLsbD j = false := by
  obtain ⟨k, hk⟩ : ∃ k, (List.range 64).find? (fun i => owed.getLsbD i) = some k :=
    Option.isSome_iff_exists.mp (List.find?_isSome.mpr ⟨b, List.mem_range.mpr (BitVec.lt_of_getLsbD h), h⟩)
  obtain ⟨howed, -, hbelow⟩ := List.find?_range_eq_some.mp hk
  have hfalse (j : Nat) (hj : j < k) : owed.getLsbD j = false := by simpa using hbelow j hj
  rw [show lowestOwed b owed = k by rw [lowestOwed, hk, Option.getD_some]]
  exact ⟨Nat.le_of_not_lt fun hlt => Bool.false_ne_true ((hfalse b hlt).symm.trans h), howed, hfalse⟩

/-- The header of TMB with the event and the count of a missed checkpoint, and for the first of a frame the error. -/
def missReported (b : Nat) (s : State) : State :=
  let u := bump .tmb 11 (raiseEvt .tmb 5 s)
  if decide (s.tmb.ckptMiss = 0) then raiseErr .tmb 0x0102 (lowestOwed b u.tmb.ckptOwed) u else u

theorem missReported_keeps {α : Type} (f : State → α) (hf : ∀ p h s, f (setHdr p h s) = f s) (b : Nat) (s : State) :
    f (missReported b s) = f s := by
  have hcount : f (bump .tmb 11 (raiseEvt .tmb 5 s)) = f s := (bump_keeps f hf ..).trans (raiseEvt_keeps f hf ..)
  simp only [missReported]
  split
  · exact (raiseErr_keeps f hf ..).trans hcount
  · exact hcount

/-- The frame watchdog is armed by a second miss in a row (06 R143). -/
def missWatchdog (b : Nat) (s : State) : Option Word32 :=
  if s.tmb.ckptPrev.getLsbD b then some (burinInfo b ((s.rst.wdogFired.map (·.toNat)).getD 0)) else s.rst.wdogFired

theorem missWatchdog_none (b : Nat) (s : State) :
    missWatchdog b s = none ↔ s.rst.wdogFired = none ∧ s.tmb.ckptPrev.getLsbD b = false := by
  cases htwice : s.tmb.ckptPrev.getLsbD b <;> simp [missWatchdog, htwice]

/-- What a missed checkpoint leaves. -/
def missTaken (b : Nat) (s : State) : State :=
  { missReported b s with
    tmb := { s.tmb with ckptOwed := s.tmb.ckptOwed &&& ~~~BitVec.ofNat 64 (2 ^ b)
                        ckptMiss := s.tmb.ckptMiss ||| BitVec.ofNat 64 (2 ^ b) }
    rst := { s.rst with wdogFired := missWatchdog b s } }

theorem checkpointMiss_owed {b : Nat} {s : State} (h : s.tmb.ckptOwed.getLsbD b = true) :
    checkpointMiss b s = missTaken b s := by
  have htmb : (missReported b s).tmb = s.tmb := missReported_keeps State.tmb (fun _ _ _ => rfl) b s
  have hrst : (missReported b s).rst = s.rst := missReported_keeps State.rst (fun _ _ _ => rfl) b s
  rw [checkpointMiss, if_pos h]
  change (let u := missReported b s
    let w : State := { u with
      tmb := { u.tmb with ckptOwed := u.tmb.ckptOwed &&& ~~~BitVec.ofNat 64 (2 ^ b)
                          ckptMiss := u.tmb.ckptMiss ||| BitVec.ofNat 64 (2 ^ b) } }
    if s.tmb.ckptPrev.getLsbD b = true then
      { w with rst.wdogFired := some (burinInfo b ((w.rst.wdogFired.map (·.toNat)).getD 0)) } else w) = _
  simp only [htmb, missTaken, missWatchdog, ← hrst]
  split <;> rfl

/-- A bit of the mask of one Burin. -/
theorem getLsbD_burinMask (b k : Nat) : (BitVec.ofNat 64 (2 ^ b)).getLsbD k = (decide (k < 64) && decide (b = k)) := by
  rw [BitVec.getLsbD_ofNat, Nat.testBit_two_pow]

theorem checkpointMiss_met {b : Nat} {s : State} (h : s.tmb.ckptOwed.getLsbD b = false) : checkpointMiss b s = s := by
  rw [checkpointMiss, if_neg (by simp [h])]

/-- 06 R142, R143: CHECKPOINT_MISS. -/
theorem burinMissesCheckpoint : Claims.BurinMissesCheckpoint := by
  intro b s n
  have hn : n < 64 := b.isLt
  refine ⟨fun h => ?_, fun h => ⟨missTaken n s, ?_, ?_, ?_, fun k hk => ⟨?_, ?_⟩, rfl, fun hlater => ?_,
    fun hfirst => ?_, missWatchdog_none n s, ?_⟩⟩
  · exact congrArg (fun v => Host.Outcome.next (settle v)) (checkpointMiss_met h)
  · exact congrArg (fun v => Host.Outcome.next (settle v)) (checkpointMiss_owed h)
  · simp only [missTaken, BitVec.getLsbD_or, getLsbD_burinMask, hn, decide_true, Bool.and_self, Bool.or_true]
  · simp only [missTaken, BitVec.getLsbD_and, BitVec.getLsbD_not, getLsbD_burinMask, hn, decide_true, Bool.and_self,
      Bool.not_true, Bool.and_false]
  · simp only [missTaken, BitVec.getLsbD_or, getLsbD_burinMask, hk.symm, decide_false, Bool.and_false, Bool.or_false]
  · have hwide : s.tmb.ckptOwed.getLsbD k = (s.tmb.ckptOwed.getLsbD k && decide (k < 64)) := by
      cases hbit : s.tmb.ckptOwed.getLsbD k with
      | false => rfl
      | true => simp only [BitVec.lt_of_getLsbD hbit, decide_true, Bool.and_self]
    simp only [missTaken, BitVec.getLsbD_and, BitVec.getLsbD_not, getLsbD_burinMask, hk.symm, decide_false,
      Bool.and_false, Bool.not_false, Bool.and_true, ← hwide]
  · change hdrOf .tmb (missReported n s) = _
    rw [missReported, if_neg (by simpa using hlater)]
  · obtain ⟨hle, howed, hbelow⟩ := lowestOwed_first h
    refine ⟨lowestOwed n s.tmb.ckptOwed, hle, howed, hbelow, ?_⟩
    change hdrOf .tmb (missReported n s) = _
    rw [missReported, if_pos (by simpa using hfirst), bump_tmb, raiseEvt_tmb]
  · exact missReported_keeps (fun u => { u with tmb := s.tmb, hdr := s.hdr, rst := s.rst }) (fun _ _ _ => rfl) n s

end Sys2Proof.Machine
end

section
/-!
Plans published and adopted (O40; 01 R11, 07 R150, R152, 09 R213).
-/

namespace Sys2Proof.Machine

/-! ### Counts beside SCH -/

/-- A state with another SCH. -/
def withSch (x : Sch) (s : State) : State := { s with sch := x }

/-- A count neither reads SCH nor touches it. -/
theorem bumpBy_withSch (p : Page) (i n : Nat) (x : Sch) (s : State) :
    bumpBy p i n (withSch x s) = withSch x (bumpBy p i n s) := by
  by_cases h : frozen p s = true ∨ n = 0
  · rw [bumpBy, bumpBy, if_pos h, if_pos (show frozen p (withSch x s) = true ∨ n = 0 from h)]
  · rw [bumpBy, bumpBy, if_neg h, if_neg (show ¬(frozen p (withSch x s) = true ∨ n = 0) from h)]
    rfl

/-- A fact that no header decides survives the counting of several. -/
theorem bumpBy_keeps {α : Type} (f : State → α) (hf : ∀ p h s, f (setHdr p h s) = f s) (p : Page) (i n : Nat)
    (s : State) : f (bumpBy p i n s) = f s := by
  rcases bumpBy_eq p i n s with h | ⟨_, h⟩
  · rw [h]
  · rw [h, hf]

/-! ### PLAN_PUBLISH (07 R150, R152) -/

/-- The entries of a published plan: their transfers are placed. -/
def placedEntries (es : List PlanEnt) : List PlanEnt := es.map fun e => { e with x := { e.x with placed := true } }

/-- The return of a plan touches the candidates and the plan of its channel. -/
theorem returnPlan_eq (c : Nat) (s : State) :
    returnPlan c s = s ∨ ∃ xs p, returnPlan c s = setCands c xs (setPlan c p s) := by
  unfold returnPlan
  split
  · exact .inl rfl
  · exact .inr ⟨_, _, rfl⟩

theorem returnPlan_keeps {α : Type} (f : State → α) {c : Nat} (hc : ∀ xs s, f (setCands c xs s) = f s)
    (hp : ∀ p s, f (setPlan c p s) = f s) (s : State) : f (returnPlan c s) = f s := by
  rcases returnPlan_eq c s with h | ⟨xs, p, h⟩
  · rw [h]
  · rw [h, hc, hp]

/-- The plan in force and the candidates left once channel c's plan is published, before it is counted. -/
def planPlaced (c : Nat) (s : State) : State :=
  let r := returnPlan c s
  let es := buildPlan c r
  setPlan c (some { frame := s.tmb.frame, since := s.cc, entries := placedEntries es })
    (setCands c ((candsOf c r).filter fun x => !es.any fun e => decide (e.x = x)) r)

theorem planPlaced_keeps {α : Type} (f : State → α) {c : Nat} (hc : ∀ xs s, f (setCands c xs s) = f s)
    (hp : ∀ p s, f (setPlan c p s) = f s) (s : State) : f (planPlaced c s) = f s := by
  simp only [planPlaced]
  rw [hp, hc, returnPlan_keeps f hc hp]

/-- SCH counters 0 and 1 count a published plan and its entries. -/
def planCounted (c : Nat) (s : State) : State :=
  bumpBy .sch 1 (buildPlan c (returnPlan c s)).length (bump .sch 0 s)

theorem planCounted_keeps {α : Type} (f : State → α) (hf : ∀ p h s, f (setHdr p h s) = f s) (c : Nat) (s : State) :
    f (planCounted c s) = f s := (bumpBy_keeps f hf ..).trans (bump_keeps f hf ..)

theorem publish_eq (c : Nat) (s : State) : publish c s = withSch (planPlaced c s).sch (planCounted c s) := by
  have hplaced : planPlaced c s = withSch (planPlaced c s).sch s :=
    planPlaced_keeps (withSch (planPlaced c s).sch) (fun _ _ => rfl) (fun _ _ => rfl) s
  have hframe : (returnPlan c s).tmb.frame = s.tmb.frame :=
    returnPlan_keeps (fun u => u.tmb.frame) (fun _ _ => rfl) (fun _ _ => rfl) s
  have hcc : (returnPlan c s).cc = s.cc := returnPlan_keeps State.cc (fun _ _ => rfl) (fun _ _ => rfl) s
  have hpublish : publish c s = bumpBy .sch 1 (buildPlan c (returnPlan c s)).length (bump .sch 0 (planPlaced c s)) := by
    simp only [planPlaced, ← hframe, ← hcc]
    rfl
  rw [hpublish, hplaced, bump, bumpBy_withSch, bumpBy_withSch]
  rfl

/-- Channel c is to be planned, and its plan may be published now (01 R11, 07 R150). -/
def publishDue (c : Nat) (s : State) : Prop :=
  c ∈ s.sch.toPlan ∧ pageActive .sch s = true ∧ 16 ≤ s.tmb.phase ∧ s.tmb.phase ≤ planWindow s

/-- What the publication of channel c's plan leaves. -/
def planPublished (c : Nat) (s : State) : State :=
  withSch { (planPlaced c s).sch with toPlan := s.sch.toPlan.filter fun k => !decide (k = c) } (planCounted c s)

theorem planPublish_due {c : Nat} {s : State} (h : publishDue c s) : planPublish c s = planPublished c s := by
  have hleft : (planPlaced c s).sch.toPlan = s.sch.toPlan :=
    planPlaced_keeps (fun u => u.sch.toPlan) (fun _ _ => rfl) (fun _ _ => rfl) s
  rw [planPublish, if_pos (by simpa [publishDue] using h), planPublished, ← hleft]
  simp only [publish_eq]
  rfl

theorem planPublish_notDue {c : Nat} {s : State} (h : ¬publishDue c s) : planPublish c s = s := by
  rw [planPublish, if_neg (by simpa [publishDue] using h)]

/-! ### PLAN_ADOPT (09 R213) -/

/-- The plan in use by its thread. -/
def adoptedPlan (p : Plan) : Plan := { p with adopted := true }

/-- Channel c's plan is published, and its thread has met a safe point since (09 R213). -/
def adoptDue (c : Nat) (s : State) : Prop :=
  c ∈ s.sch.planned ∧ c ∉ s.sch.toPlan ∧ safeSince (chanThread c s) (publishedAt c s) = true

/-- What the adoption of channel c's plan leaves. -/
def planInUse (c : Nat) (s : State) : State :=
  setPlan c ((planOf c s).map adoptedPlan) { s with tmb.adopted := s.tmb.adopted ||| BitVec.ofNat 128 (2 ^ c) }

theorem planAdopt_due {c : Nat} {s : State} (h : adoptDue c s) : planAdopt c s = planInUse c s := by
  rw [planAdopt, if_pos (by simpa [adoptDue] using h)]
  rfl

theorem planAdopt_notDue {c : Nat} {s : State} (h : ¬adoptDue c s) : planAdopt c s = s := by
  rw [planAdopt, if_neg (by simpa [adoptDue] using h)]

/-- 07 R150, 09 R213, 01 R11: PLAN_PUBLISH and PLAN_ADOPT. -/
theorem planPublishedAndAdopted : Claims.PlanPublishedAndAdopted := by
  intro c s n due es safe
  refine ⟨fun h => ?_, fun h => ⟨planPublished n s, ?_, ?_, ?_, ?_, fun k hk => ⟨?_, ?_⟩, rfl, ?_, ?_⟩, fun h => ?_,
    fun h => ⟨planInUse n s, ?_, rfl, ?_, fun k hk => ?_, rfl, rfl, rfl⟩⟩
  · exact congrArg (fun v => Host.Outcome.next (settle v)) (planPublish_notDue h)
  · exact congrArg (fun v => Host.Outcome.next (settle v)) (planPublish_due h)
  · change planOf n (planPlaced n s) = _
    exact planOf_setPlan_same n _ _
  · intro x hx e he hsame
    have hleft : x ∈ (candsOf n (returnPlan n s)).filter fun x => !es.any fun e => decide (e.x = x) := by
      rwa [← candsOf_setCands_same n (List.filter _ _) (returnPlan n s)]
    have hnone := (List.mem_filter.mp hleft).2
    rw [Bool.not_eq_true', List.any_eq_false] at hnone
    exact hnone e he (decide_eq_true hsame)
  · intro hmem
    simpa using (List.mem_filter.mp hmem).2
  · exact planPlaced_keeps (planOf k) (fun _ _ => rfl) (fun p u => planOf_setPlan_other p u hk) s
  · exact planPlaced_keeps (candsOf k) (fun xs u => candsOf_setCands_other xs u hk) (fun _ _ => rfl) s
  · exact planPlaced_keeps (fun u => u.sch.dies) (fun _ _ => rfl) (fun _ _ => rfl) s
  · exact planCounted_keeps (fun u => { u with sch := s.sch, hdr := s.hdr }) (fun _ _ _ => rfl) n s
  · exact congrArg (fun v => Host.Outcome.next (settle v)) (planAdopt_notDue h)
  · exact congrArg (fun v => Host.Outcome.next (settle v)) (planAdopt_due h)
  · exact planOf_setPlan_same n _ _
  · exact planOf_setPlan_other _ _ hk

end Sys2Proof.Machine
end

section
/-!
The snapshots of SCH (O40; 07 R165).
-/

namespace Sys2Proof.Machine

/-! ### DIE_SEL (07 R165) -/

theorem dieCode_lt (x : DieState) : dieCode x < 7 := by cases x <;> decide

theorem regOf_setReg_sch {off l : Nat} (v : Nat) (s : State) (h : l ≠ off) :
    regOf .sch l (setReg .sch off v s) = regOf .sch l s := regOf_setReg_other v s (by unfold pageAddr; omega)

/-- DIE_SEL and the two registers in which it shows a die. -/
theorem regOf_dieSel (d : Nat) (s : State) :
    regOf .sch oSchDieSel (dieSel d s) = d % 2 ^ 64
    ∧ regOf .sch oSchDieInfo (dieSel d s) = dieInfo d s % 2 ^ 64
    ∧ regOf .sch oSchDieQdepth (dieSel d s) = dieDepth d s % 2 ^ 64 := by
  refine ⟨?_, ?_, regOf_setReg_same ..⟩
  · rw [dieSel, regOf_setReg_sch _ _ (by decide), regOf_setReg_sch _ _ (by decide), regOf_setReg_same]
  · rw [dieSel, regOf_setReg_sch _ _ (by decide), regOf_setReg_same]

/-- The fields of DIE_INFO do not overlap. -/
theorem dieInfo_fields (d : Nat) (s : State) :
    let x := dieOf d s
    let v := dieInfo d s % 2 ^ 64
    fieldOf v 28 3 = dieCode x.state ∧ fieldOf v 0 24 = x.suspCount % 2 ^ 24
      ∧ fieldOf v 27 1 = bit (decide (4 ≤ dieCode x.state) && x.suspErase) := by
  have hcode := dieCode_lt (dieOf d s).state
  have hbit (b : Bool) : bit b < 2 := by cases b <;> decide
  have hkind := hbit (decide (4 ≤ dieCode (dieOf d s).state) && (dieOf d s).suspErase)
  simp only [dieInfo, fieldOf, fieldAt]
  omega

/-- Depth of the queue of plane p as DIE_QDEPTH shows it. -/
def shownDepth (d : Nat) (s : State) (p : Nat) : Nat :=
  satTo 255 ((dieOf d s).queue.filter fun i => bitAt i.planes p).length

theorem shownDepth_lt (d : Nat) (s : State) (p : Nat) : shownDepth d s p < 256 := by
  rw [shownDepth, satTo_eq_min]
  omega

theorem dieDepth_eq (d : Nat) (s : State) : dieDepth d s = fieldAt 0 (shownDepth d s 0) + fieldAt 8 (shownDepth d s 1)
    + fieldAt 16 (shownDepth d s 2) + fieldAt 24 (shownDepth d s 3) := by
  change [0, 1, 2, 3].foldl (fun a p => a + fieldAt (8 * p) (shownDepth d s p)) 0 = _
  rw [List.foldl_cons, List.foldl_cons, List.foldl_cons, List.foldl_cons, List.foldl_nil, Nat.zero_add]

/-- The bytes of DIE_QDEPTH. -/
theorem dieDepth_fields (d : Nat) (s : State) :
    ∀ p, p < 4 → fieldOf (dieDepth d s % 2 ^ 64) (8 * p) 8 = shownDepth d s p := by
  have h0 := shownDepth_lt d s 0
  have h1 := shownDepth_lt d s 1
  have h2 := shownDepth_lt d s 2
  have h3 := shownDepth_lt d s 3
  rw [dieDepth_eq]
  generalize shownDepth d s = q at *
  intro p hp
  interval_cases p <;> simp only [fieldOf, fieldAt] <;> omega

/-! ### PLAN_SEL (07 R165) -/

/-- What PLAN_ENT shows of entry k of the plan in force: 0 where there is none. -/
def shownEntry (c k : Nat) (s : State) : Nat :=
  match (planOf c s).bind fun p => p.entries[k]? with
  | some e => planEnt e s
  | none => 0

theorem putPlanEnt_eq (c : Nat) (s : State) (k : Nat) :
    putPlanEnt c s k = takeFree (setReg .sch (oSchPlanEnt + 8 * k) (shownEntry c k s) s) := rfl

/-- An entry shows the plan, and for a transfer without a tag a free value. -/
theorem shownEntry_of_sch {s u : State} (h : u.sch = s.sch) (c k : Nat) :
    shownEntry c k u = shownEntry c k { s with free := u.free } := by
  simp only [shownEntry, planOf, h, planEnt, planTag, freeNow]

/-- The first n entries are shown. -/
def putPlanEnts (c n : Nat) (s : State) : State := (List.range n).foldl (putPlanEnt c) s

theorem putPlanEnts_succ (c n : Nat) (s : State) :
    putPlanEnts c (n + 1) s = putPlanEnt c (putPlanEnts c n s) n := by
  rw [putPlanEnts, List.range_succ, List.foldl_append]
  rfl

theorem putPlanEnts_keeps {α : Type} (f : State → α) (hf : ∀ x n s, f { s with regs := x, free := n } = f s)
    (c n : Nat) (s : State) : f (putPlanEnts c n s) = f s :=
  foldl_keeps f (fun u _ => hf _ _ u) _ s

theorem regOf_putPlanEnts_other {c n off : Nat} (s : State) (h : ∀ k, off ≠ oSchPlanEnt + 8 * k) :
    regOf .sch off (putPlanEnts c n s) = regOf .sch off s :=
  foldl_keeps (regOf .sch off) (g := putPlanEnt c) (fun u k => regOf_setReg_sch (shownEntry c k u) u (h k)) _ s

theorem regOf_putPlanEnts (c n : Nat) (s : State) : ∀ k, k < n → ∃ f,
    regOf .sch (oSchPlanEnt + 8 * k) (putPlanEnts c n s) = shownEntry c k { s with free := f } % 2 ^ 64 := by
  induction n with
  | zero => exact fun k hk => absurd hk (Nat.not_lt_zero k)
  | succ n ih =>
    intro k hk
    rw [putPlanEnts_succ, putPlanEnt_eq]
    change ∃ f, regOf .sch (oSchPlanEnt + 8 * k) (setReg .sch (oSchPlanEnt + 8 * n) _ (putPlanEnts c n s)) = _
    rcases Nat.lt_succ_iff_lt_or_eq.mp hk with hlt | rfl
    · rw [regOf_setReg_sch _ _ (by omega)]
      exact ih k hlt
    · rw [regOf_setReg_same, shownEntry_of_sch (putPlanEnts_keeps State.sch (fun _ _ _ => rfl) c k s)]
      exact ⟨_, rfl⟩

/-- PLAN_SEL and the registers in which it shows the plan in force on a channel. -/
theorem regOf_planSel (c : Nat) (s : State) :
    regOf .sch oSchPlanSel (planSel c s) = c % 2 ^ 64
    ∧ regOf .sch oSchPlanInfo (planSel c s) = planInfo c s % 2 ^ 64
    ∧ ∀ k, k < 16 → ∃ f,
      regOf .sch (oSchPlanEnt + 8 * k) (planSel c s) = shownEntry c k { s with free := f } % 2 ^ 64 := by
  have hsel : planSel c s = putPlanEnts c 16
      (setReg .sch oSchPlanInfo (planInfo c s) (setReg .sch oSchPlanSel c s)) := rfl
  rw [hsel]
  refine ⟨?_, ?_, regOf_putPlanEnts c 16 _⟩
  · rw [regOf_putPlanEnts_other _ (by simp only [oSchPlanSel, oSchPlanEnt]; omega), regOf_setReg_sch _ _ (by decide),
      regOf_setReg_same]
  · rw [regOf_putPlanEnts_other _ (by simp only [oSchPlanInfo, oSchPlanEnt]; omega), regOf_setReg_same]

/-- The fields of PLAN_INFO do not overlap. -/
theorem planInfo_fields {c : Nat} {s : State} {p : Plan} (hplan : planOf c s = some p) (hlen : p.entries.length ≤ 16) :
    let v := planInfo c s % 2 ^ 64
    fieldOf v 31 1 = 1 ∧ fieldOf v 30 1 = (if p.carried then 1 else 0) ∧ fieldOf v 16 5 = p.entries.length
      ∧ fieldOf v 0 16 = p.frame.toNat % 2 ^ 16 := by
  have hcarried : (if p.carried then 1 else 0) < 2 := by split <;> decide
  simp only [planInfo, hplan, fieldOf, fieldAt, bit]
  omega

/-- Nor do those of PLAN_ENT. -/
theorem planEnt_fields {e : PlanEnt} (s : State) (hkind : e.x.kind < 4) (hdie : e.x.die < 32) (hplane : e.x.plane < 4)
    (hlen : e.x.len < 2 ^ 16) :
    let v := planEnt e s % 2 ^ 64
    fieldOf v 63 1 = 1 ∧ fieldOf v 58 2 = e.x.kind ∧ fieldOf v 53 5 = e.x.die ∧ fieldOf v 49 4 = 2 ^ e.x.plane
      ∧ fieldOf v 32 16 = e.x.len ∧ (e.x.id < 65536 → fieldOf v 16 16 = e.x.id)
      ∧ fieldOf v 0 16 = e.start % 2 ^ 16 := by
  have hmask : 2 ^ e.x.plane < 2 ^ 4 := Nat.pow_lt_pow_right (by decide) hplane
  have htag : planTag e.x.id s < 65536 := by unfold planTag; split <;> omega
  have hown : e.x.id < 65536 → planTag e.x.id s = e.x.id := fun h => if_pos h
  simp only [planEnt, fieldOf, fieldAt]
  generalize 2 ^ e.x.plane = m at hmask ⊢
  omega

/-- 07 R165: DIE_SEL and PLAN_SEL. -/
theorem schedulerSnapshots : Claims.SchedulerSnapshots := by
  intro s hanswers u
  refine ⟨fun d => ?_, fun c => ?_⟩
  · obtain ⟨hsel, hinfo, hdepth⟩ := regOf_dieSel d.toNat u
    obtain ⟨hcode, hcount, hkind⟩ := dieInfo_fields d.toNat u
    refine ⟨dieSel d.toNat u, ?_, ?_, ?_, ?_, ?_, fun p hp => ?_, rfl⟩
    · exact congrArg (fun v => Host.Outcome.next (settle v)) (csrDo_answers (dieSel d.toNat) hanswers)
    · rw [hsel, Nat.mod_eq_of_lt (d.isLt.trans (by decide))]
    · rw [regFld, hinfo, hcode]
      rfl
    · rw [regFld, hinfo, hcount]
      rfl
    · rw [regFld, hinfo, hkind, bit]
      simp only [Bool.and_eq_true, decide_eq_true_eq]
      rfl
    · rw [regFld, hdepth, dieDepth_fields d.toNat u p hp, shownDepth, satTo_eq_min]
      rfl
  · obtain ⟨hsel, hinfo, hentry⟩ := regOf_planSel c.toNat u
    refine ⟨planSel c.toNat u, ?_, ?_, fun hnone => ⟨?_, fun k hk => ?_⟩, fun p hplan hlen => ?_, ?_⟩
    · exact congrArg (fun v => Host.Outcome.next (settle v)) (csrDo_answers (planSel c.toNat) hanswers)
    · rw [hsel, Nat.mod_eq_of_lt (c.isLt.trans (by decide))]
    · rw [hinfo, planInfo, show planOf c.toNat u = none from hnone]
      rfl
    · obtain ⟨f, hk⟩ := hentry k hk
      rw [hk, shownEntry, show planOf c.toNat { u with free := f } = none from hnone]
      rfl
    · obtain ⟨hthere, hcarried, hlength, hframe⟩ := planInfo_fields (s := u) hplan hlen
      simp only [regFld, hinfo]
      refine ⟨hthere, hcarried, hlength, hframe, fun k e he hkind hdie hplane hlen2 => ?_⟩
      have hk : k < 16 := (List.getElem?_eq_some_iff.mp he).1.trans_le hlen
      obtain ⟨f, hshown⟩ := hentry k hk
      have hent : shownEntry c.toNat k { u with free := f } = planEnt e { u with free := f } := by
        rw [shownEntry, show planOf c.toNat { u with free := f } = some p from hplan, Option.bind_some, he]
      simp only [hshown, hent]
      exact planEnt_fields _ hkind hdie hplane hlen2
    · exact putPlanEnts_keeps (fun v => { v with regs := s.regs, free := s.free }) (fun _ _ _ => rfl) c.toNat 16 _

/-- Settles O40: overruns, missed checkpoints, plans published and adopted, and the snapshots of SCH. -/
theorem framePlans : Obligations.FramePlans :=
  ⟨plannerOverrun, burinMissesCheckpoint, planPublishedAndAdopted, schedulerSnapshots⟩

end Sys2Proof.Machine
end

section
/-!
The entries of a plan (O41; 07 R150, R152, R153): the building of a plan as passes that place one candidate at a time.
-/

namespace Sys2Proof.Machine

/-! ### Lists in order -/

theorem insertBy_perm {α : Type} (lt : α → α → Bool) (x : α) (l : List α) : (insertBy lt x l).Perm (x :: l) := by
  induction l with
  | nil => exact List.Perm.refl _
  | cons y r ih =>
    rw [insertBy]
    split
    · exact List.Perm.refl _
    · exact (ih.cons y).trans (List.Perm.swap x y r)

/-- Sorting only changes the order of a list. -/
theorem sortBy_perm {α : Type} (lt : α → α → Bool) (l : List α) : (sortBy lt l).Perm l := by
  have hfold (acc : List α) : (l.foldl (fun acc x => insertBy lt x acc) acc).Perm (acc ++ l) := by
    induction l generalizing acc with
    | nil => simp
    | cons x r ih => exact (ih _).trans (((insertBy_perm lt x acc).append_right r).trans List.perm_middle.symm)
  exact hfold []

/-- Insertion keeps a list in the order of a number. -/
theorem insertBy_ordered {α : Type} (f : α → Nat) (x : α) {l : List α} (h : l.Pairwise fun a b => f a ≤ f b) :
    (insertBy (fun a b => decide (f a < f b)) x l).Pairwise fun a b => f a ≤ f b := by
  induction l with
  | nil => exact List.pairwise_singleton _ _
  | cons y r ih =>
    obtain ⟨hy, hr⟩ := List.pairwise_cons.mp h
    rw [insertBy]
    split <;> rename_i hxy
    · have hlt : f x < f y := of_decide_eq_true hxy
      exact List.pairwise_cons.mpr ⟨List.forall_mem_cons.mpr ⟨hlt.le, fun b hb => hlt.le.trans (hy b hb)⟩, h⟩
    · have hle : f y ≤ f x := by simpa using hxy
      refine List.pairwise_cons.mpr ⟨fun b hb => ?_, ih hr⟩
      rcases List.mem_cons.mp ((insertBy_perm _ x r).mem_iff.mp hb) with rfl | hb
      · exact hle
      · exact hy b hb

/-- Of a list sorted by a number, none stands before one of a lower number. -/
theorem sortBy_ordered {α : Type} (f : α → Nat) (l : List α) :
    (sortBy (fun a b => decide (f a < f b)) l).Pairwise fun a b => f a ≤ f b := by
  have hfold (acc : List α) (h : acc.Pairwise fun a b => f a ≤ f b) :
      (l.foldl (fun acc x => insertBy (fun a b => decide (f a < f b)) x acc) acc).Pairwise fun a b => f a ≤ f b := by
    induction l generalizing acc with
    | nil => exact h
    | cons x r ih => exact ih _ (insertBy_ordered f x h)
  exact hfold [] List.Pairwise.nil

/-! ### What a plan keeps while it is built -/

/-- PLAN_GAP lies between two entries (07 R150). -/
def gapApart (gap : Nat) (a b : PlanEnt) : Prop := a.start + a.x.len + gap ≤ b.start ∨ b.start + b.x.len + gap ≤ a.start

theorem findSlot_spec {gap lo last len st : Nat} {placed : List PlanEnt} (h : findSlot gap lo last len placed = some st) :
    lo ≤ st ∧ st + len ≤ last ∧ ∀ e ∈ placed, st + len + gap ≤ e.start ∨ e.start + e.x.len + gap ≤ st := by
  have hmem := (firstBy_first (by simp; omega) (by simp; omega) h).1
  obtain ⟨hstart, hfree⟩ := List.mem_filter.mp hmem
  obtain ⟨hlast, hgaps⟩ : st + len ≤ last
      ∧ ∀ e ∈ placed, st + len + gap ≤ e.start ∨ e.start + e.x.len + gap ≤ st := by
    simpa [slotFree] using hfree
  refine ⟨?_, hlast, hgaps⟩
  rcases List.mem_cons.mp hstart with rfl | hafter
  · exact le_rfl
  · obtain ⟨e, -, rfl⟩ := List.mem_map.mp hafter
    exact le_max_left ..

/-- Where the transfers of a pass must have ended: only STREAM may use the reserved tail (07 R153). -/
def passLast (k : Nat) (s : State) : Nat := if k = 0 then s.tmb.periodEst else s.tmb.periodEst - streamRes s

/-- An entry that the plan of channel c may hold (07 R150, R152). -/
structure EntryFits (c : Nat) (s : State) (e : PlanEnt) : Prop where
  cand : e.x ∈ planCands c s
  waits : e.past = false
  starts : planFrom c s ≤ e.start
  ready : e.x.ready ≤ frameStart s + e.start
  ends : e.start + e.x.len ≤ passLast (planPass e.x s.tmb.frame) s

/-- The entries placed so far make a plan. -/
structure PlanFits (c : Nat) (s : State) (es : List PlanEnt) : Prop where
  few : es.length ≤ 16
  gaps : es.Pairwise (gapApart (planGap s))
  each : ∀ e ∈ es, EntryFits c s e

theorem placeOne_fits {c : Nat} {s : State} {es : List PlanEnt} {x : Xfer} (h : PlanFits c s es) (hx : x ∈ planCands c s) :
    PlanFits c s (placeOne (planGap s) (planFrom c s) (passLast (planPass x s.tmb.frame) s) (frameStart s) es x) := by
  rw [placeOne]
  split
  · exact h
  · split
    · rename_i hroom st hst
      obtain ⟨hlo, hlast, hgaps⟩ := findSlot_spec hst
      refine ⟨by simp; omega, List.pairwise_append.mpr ⟨h.gaps, List.pairwise_singleton _ _, fun e he b hb => ?_⟩,
        fun e he => ?_⟩
      · obtain rfl := List.mem_singleton.mp hb
        exact (hgaps e he).symm
      · rcases List.mem_append.mp he with hold | hnew
        · exact h.each e hold
        · obtain rfl := List.mem_singleton.mp hnew
          exact ⟨hx, rfl, (le_max_left ..).trans hlo, by dsimp only; omega, hlast⟩
    · exact h

/-- One pass over a list of candidates (07 R152). -/
def placePass (c k : Nat) (xs : List Xfer) (s : State) (acc : List PlanEnt) : List PlanEnt :=
  (xs.filter fun x => decide (planPass x s.tmb.frame = k)).foldl
    (placeOne (planGap s) (planFrom c s) (passLast k s) (frameStart s)) acc

theorem placePass_fits {c k : Nat} {xs : List Xfer} {s : State} {es : List PlanEnt} (hxs : ∀ x ∈ xs, x ∈ planCands c s)
    (h : PlanFits c s es) : PlanFits c s (placePass c k xs s es) := by
  have hpass : ∀ x ∈ xs.filter fun x => decide (planPass x s.tmb.frame = k),
      x ∈ planCands c s ∧ planPass x s.tmb.frame = k := fun x hx => by
    obtain ⟨hx, hk⟩ := List.mem_filter.mp hx
    exact ⟨hxs x hx, of_decide_eq_true hk⟩
  rw [placePass]
  generalize xs.filter (fun x => decide (planPass x s.tmb.frame = k)) = ys at hpass ⊢
  induction ys generalizing es with
  | nil => exact h
  | cons x r ih =>
    obtain ⟨⟨hx, rfl⟩, hr⟩ := List.forall_mem_cons.mp hpass
    exact ih (placeOne_fits h hx) hr

/-! ### The plan as it is built -/

theorem buildPlan_awake {c : Nat} {s : State} (h : s.pwr.state ≠ .doze) :
    let cs := sortBy xferBefore (planCands c s)
    buildPlan c s = sortBy (fun x y => decide (x.start < y.start))
      (placePass c 2 cs s (placePass c 1 cs s (placePass c 0 cs s []))) := by
  rw [buildPlan, if_neg h]
  rfl

theorem planFits_nil (c : Nat) (s : State) : PlanFits c s [] := ⟨Nat.zero_le _, List.Pairwise.nil, nofun⟩

/-- What fits in one order fits in another. -/
theorem PlanFits.perm {c : Nat} {s : State} {es fs : List PlanEnt} (h : PlanFits c s es) (hperm : fs.Perm es) :
    PlanFits c s fs :=
  ⟨hperm.length_eq.trans_le h.few, (hperm.pairwise_iff fun hgap => hgap.symm).mpr h.gaps,
    fun e he => h.each e (hperm.mem_iff.mp he)⟩

theorem buildPlan_fits (c : Nat) (s : State) :
    PlanFits c s (buildPlan c s) ∧ (buildPlan c s).Pairwise fun a b => a.start ≤ b.start := by
  by_cases hdoze : s.pwr.state = .doze
  · rw [buildPlan, if_pos hdoze]
    exact ⟨planFits_nil c s, List.Pairwise.nil⟩
  · rw [buildPlan_awake hdoze]
    have hcands : ∀ x ∈ sortBy xferBefore (planCands c s), x ∈ planCands c s := fun x => (sortBy_perm _ _).mem_iff.mp
    have hpasses := placePass_fits (k := 2) hcands (placePass_fits (k := 1) hcands
      (placePass_fits (k := 0) hcands (planFits_nil c s)))
    exact ⟨hpasses.perm (sortBy_perm _ _), sortBy_ordered PlanEnt.start _⟩

/-- Free time begins at PLAN_WINDOW, and PLAN_GAP after the transfer that runs (07 R152). -/
theorem planFrom_le {c n : Nat} {s : State} (h : planFrom c s ≤ n) :
    planWindow s ≤ n ∧ (frameStart s < (chanOf c s).busyTo → (chanOf c s).busyTo + planGap s ≤ frameStart s + n) := by
  rw [planFrom] at h
  split at h <;> omega

/-- Settles O41: every pass places entries that fit, and sorting changes only their order. -/
theorem planKeepsGaps : Obligations.PlanKeepsGaps := by
  intro c s
  obtain ⟨⟨hfew, hgaps, heach⟩, hsorted⟩ := buildPlan_fits c s
  refine ⟨hfew, hsorted.and hgaps, fun e he => ?_⟩
  obtain ⟨hcand, hwaits, hfrom, hready, hends⟩ := heach e he
  obtain ⟨hwindow, hbusy⟩ := planFrom_le hfrom
  obtain ⟨hin, ⟨hown, hplaced⟩, -⟩ : e.x ∈ candsOf c s ∧ (e.x.id < 1000000 ∧ e.x.placed = false)
      ∧ readyInFrame e.x s = true := by
    simpa [planCands] using hcand
  have htail : passLast (planPass e.x s.tmb.frame) s ≤ s.tmb.periodEst := by
    rw [passLast]
    split <;> omega
  exact ⟨hwindow, hends.trans htail, hready, fun hk => by rwa [passLast, if_neg hk] at hends, hin, hown, hwaits, hplaced, hbusy⟩

end Sys2Proof.Machine
end

section
/-!
A time-out of a die that the statement on the watch on dies gets wrong (O43; 08 R173, 11 R277).
-/

namespace Sys2Proof.Machine

/-! ### A tag whose rebuild ends with the time-out of the die that senses for it -/

/-- A sense of tag 0 that works in the array of die 0. -/
def foreignSense : DieOp :=
  { kind := .sense, ids := [0], planes := 1, block := 0, page := 0, slc := false, rung := 0, attempt := 0, key := ⟨0, 0⟩,
    inArray := true, since := 0, ran := 0, pollAt := 0, dropped := false }

/-- Die 0 is PRESENT and senses for tag 0, past twice its maximum of 0 cc. The tag is a READ of die 1 that has all its
codewords, with a rebuild that still awaits a member on die 0. -/
def rebuildOnSensingDie : State :=
  { State.reset with
    ops.tags := [(0, { state := .issued, entry := ⟨0, 0, [BitVec.ofNat 32 (opRead * 2 ^ 16), 0, 0, 0, 0x10000000]⟩ })]
    sch.dies := [(0, { state := .busy, run := some foreignSense })]
    map.roster := [(0, { valid := true, state := .present })]
    lvl.rebuilds := [{ id := 0, plane := 0, idx := 0, await := [(0, 0)], acc := [], failed := false }] }

/-- The state meets what the statement asks of a time-out. -/
theorem rebuildOnSensingDie_timesOut : timedOut 0 rebuildOnSensingDie = true
    ∧ (dieOf 0 rebuildOnSensingDie).run = some foreignSense ∧ (tagOf 0 rebuildOnSensingDie).state = .issued := by
  decide +kernel

/-- The die is quarantined first: its rebuild is lost, and the tag, with no codeword left to read, commits OK. -/
theorem rebuildOnSensingDie_commitsOk : (tagOf 0 (dieTimeout 0 rebuildOnSensingDie)).status = stOk := by
  decide +kernel

/-- Refutes O43: by its clause on DIE_TIMEOUT the one tag of a sense that times out commits DIE_QUARANTINED. The model
quarantines the die before it fails the operation, which ends the rebuilds with a member on the die (11 R277). In
rebuildOnSensingDie that ends the READ of the very tag, with OK, and a tag that has committed keeps its status. No run is
known to reach that state: a sense is made on the die that its tag's entry addresses, whose tags the quarantine fails
before it ends rebuilds. The statement speaks of every state. -/
theorem not_busesAndDies : ¬ Obligations.BusesAndDies := by
  intro h
  obtain ⟨-, -, -, -, -, htimeout, -⟩ := h
  obtain ⟨htimed, hrun, hissued⟩ := rebuildOnSensingDie_timesOut
  obtain ⟨v, hexec, -, hstatus, -⟩ := htimeout 0 rebuildOnSensingDie foreignSense 0 htimed hrun rfl (.inr (.inr rfl))
    (by decide) (by rw [hissued]; decide) (by rw [hissued]; decide)
  have hsettle : settle (dieTimeout 0 rebuildOnSensingDie) = settle v := Host.Outcome.next.inj hexec
  have htag : tagOf 0 (dieTimeout 0 rebuildOnSensingDie) = tagOf 0 v := by
    rw [← tagOf_settle 0 (dieTimeout 0 rebuildOnSensingDie), hsettle, tagOf_settle]
  have hok : stOk = stQuarantined := by
    rw [← rebuildOnSensingDie_commitsOk, htag]
    exact hstatus
  exact absurd hok (by decide)

end Sys2Proof.Machine
end

section
/-!
A message of the peer link: its fields, each in its bits, and its CRC-8 (O52; 08 R183, Table 8.7).
-/

namespace Sys2Proof.Machine

/-! ### The CRC-8 (08 R183) -/

theorem crc8Bit_lt (c : Nat) (b : Bool) : crc8Bit c b < 256 := by
  have hshift : c * 2 % 256 < 2 ^ 8 := Nat.mod_lt _ (by decide)
  simp only [crc8Bit]
  split
  · exact Nat.xor_lt_two_pow hshift (by decide)
  · exact hshift

theorem crc8_lt (n v : Nat) {c : Nat} (h : c < 256) : crc8 n v c < 256 := by
  induction n generalizing c with
  | zero => exact h
  | succ n ih => exact ih (crc8Bit_lt c _)

/-! ### The layout (08 Table 8.7) -/

theorem bit_le_one (b : Bool) : bit b ≤ 1 := by cases b <;> decide

theorem decide_bit_eq_one (b : Bool) : decide (bit b = 1) = b := by cases b <;> rfl

/-- The bits of a message above its CRC. -/
def msgBody (type seq quarter mask : Nat) (force clean granted : Bool) : Nat :=
  fieldAt 52 type + fieldAt 48 (seq % 16) + fieldAt 46 quarter + fieldAt 40 (bit force) + fieldAt 8 mask
    + fieldAt 1 (bit clean) + bit granted

/-- The fields of a message fit its 56 bits above the CRC. -/
theorem msgBody_lt {type seq quarter mask : Nat} (force clean granted : Bool) (htype : type < 16) (hquarter : quarter < 4)
    (hmask : mask < 2 ^ 32) : msgBody type seq quarter mask force clean granted < 2 ^ 56 := by
  have hforce := bit_le_one force
  have hclean := bit_le_one clean
  have hgranted := bit_le_one granted
  simp only [msgBody, fieldAt]
  omega

theorem toNat_mkMsg {type seq quarter mask : Nat} (force clean granted : Bool) (htype : type < 16) (hquarter : quarter < 4)
    (hmask : mask < 2 ^ 32) :
    (mkMsg type seq quarter mask force clean granted).toNat
      = msgBody type seq quarter mask force clean granted * 256
        + crc8 56 (msgBody type seq quarter mask force clean granted) 0 := by
  have hbody := msgBody_lt (seq := seq) force clean granted htype hquarter hmask
  have hcrc : crc8 56 (msgBody type seq quarter mask force clean granted) 0 < 256 := crc8_lt 56 _ (by decide)
  change (BitVec.ofNat 64 (msgBody type seq quarter mask force clean granted * 256
    + crc8 56 (msgBody type seq quarter mask force clean granted) 0)).toNat = _
  rw [BitVec.toNat_ofNat]
  omega

/-- Settles O52: the CRC stands below the body, whose fields do not overlap. -/
theorem messagesCarryFieldsAndCrc : Obligations.MessagesCarryFieldsAndCrc := by
  intro type seq quarter mask force clean granted htype hseq hquarter hmask m
  have hm : m.toNat = msgBody type seq quarter mask force clean granted * 256
      + crc8 56 (msgBody type seq quarter mask force clean granted) 0 :=
    toNat_mkMsg force clean granted htype hquarter hmask
  have hcrc : crc8 56 (msgBody type seq quarter mask force clean granted) 0 < 256 := crc8_lt 56 _ (by decide)
  have hforce := bit_le_one force
  have hclean := bit_le_one clean
  have hgranted := bit_le_one granted
  refine ⟨?crc, ?fields⟩
  case crc =>
    have hbody : m.toNat / 256 = msgBody type seq quarter mask force clean granted := by omega
    rw [crcGoodMsg, hbody, decide_eq_true_iff]
    omega
  case fields =>
    generalize crc8 56 (msgBody type seq quarter mask force clean granted) 0 = crc at hm hcrc
    simp only [msgBody, fieldAt] at hm
    refine ⟨?_, ?_, ?_, ?_, ?_, ?_, ?_⟩
    · simp only [msgType, fieldOf]; omega
    · simp only [msgSeq, fieldOf]; omega
    · simp only [msgQuarter, fieldOf]; omega
    · simp only [msgMask, fieldOf]; omega
    · rw [msgForce, bitAt, Nat.testBit_eq_decide_div_mod_eq, ← decide_bit_eq_one force]
      exact decide_eq_decide.mpr (by omega)
    · rw [msgClean, bitAt, Nat.testBit_eq_decide_div_mod_eq, ← decide_bit_eq_one clean]
      exact decide_eq_decide.mpr (by omega)
    · rw [msgGranted, bitAt, Nat.testBit_eq_decide_div_mod_eq, ← decide_bit_eq_one granted]
      exact decide_eq_decide.mpr (by omega)

end Sys2Proof.Machine
end

section
/-!
What every work beside the channels' ownership leaves alone: the ownership states, the peer link, and which pages act
(O50, O51, O53, O54).
-/

namespace Sys2Proof.Machine

/-! ### The relation -/

/-- The part of a channel that its ownership alone decides (08 R187, R192). -/
def ownPart (x : Chan) : Chan :=
  { own := x.own, driven := x.driven, dirty := x.dirty, shared := x.shared, rel := x.rel, collRun := x.collRun }

/-- No target of the channel is left to be reset (08 R188 step 2). -/
def ResetsDone (x : Chan) : Prop := ∀ v r, x.take ≠ some (.resets (v :: r))

/-- The work that leads from s to t has left the peer link and the pages' ENABLE alone; events are only added. -/
structure RestKept (s t : State) : Prop where
  peer : t.peer = s.peer
  cc : t.cc = s.cc
  pins : t.pins = s.pins
  regs : t.regs = s.regs
  active : ∀ p, pageActive p t = pageActive p s
  events : ∀ p i, (hdrOf p s).evtPend.getLsbD i = true → (hdrOf p t).evtPend.getLsbD i = true
  boot : s.sec.boot ≠ .railWait → t.sec.boot ≠ .railWait

/-- It has left the ownership of every channel alone, too. -/
structure OwnKept (s t : State) : Prop extends RestKept s t where
  chan : ∀ k, ownPart (chanOf k t) = ownPart (chanOf k s)
  resets : ∀ k, ResetsDone (chanOf k s) → ResetsDone (chanOf k t)

theorem RestKept.refl (s : State) : RestKept s s := ⟨rfl, rfl, rfl, rfl, fun _ => rfl, fun _ _ => id, id⟩

theorem RestKept.trans {s t u : State} (h : RestKept s t) (h' : RestKept t u) : RestKept s u where
  peer := h'.peer.trans h.peer
  cc := h'.cc.trans h.cc
  pins := h'.pins.trans h.pins
  regs := h'.regs.trans h.regs
  active p := (h'.active p).trans (h.active p)
  events p i he := h'.events p i (h.events p i he)
  boot hb := h'.boot (h.boot hb)

/-- Two states agree in every part that OwnKept reads. -/
def sameView (t u : State) : Prop :=
  u.chn = t.chn ∧ u.peer = t.peer ∧ u.cc = t.cc ∧ u.pins = t.pins ∧ u.regs = t.regs ∧ u.hdr = t.hdr
  ∧ u.pwr.state = t.pwr.state ∧ u.rst.phase = t.rst.phase ∧ u.rst.step = t.rst.step ∧ u.rst.groups = t.rst.groups
  ∧ u.sec.boot = t.sec.boot

theorem pageActive_of_sameView {t u : State} (hhdr : u.hdr = t.hdr) (hpwr : u.pwr.state = t.pwr.state)
    (hphase : u.rst.phase = t.rst.phase) (hstep : u.rst.step = t.rst.step) (hgroups : u.rst.groups = t.rst.groups)
    (p : Page) : pageActive p u = pageActive p t := by
  have hreleased (k : Nat) : stepReleased k u = stepReleased k t := by simp only [stepReleased, hphase, hstep]
  have hgroup (g : Nat) : groupReleased g u = groupReleased g t := by simp only [groupReleased, hphase, hgroups]
  have hpage : pageReleased p u = pageReleased p t := by cases p <;> simp only [pageReleased, hreleased, hgroup]
  simp only [pageActive, pageAnswers, corePowered, hdrOf, hhdr, hpwr, hpage]

namespace OwnKept

protected theorem refl (s : State) : OwnKept s s := ⟨.refl s, fun _ => rfl, fun _ => id⟩

variable {s t u : State}

protected theorem trans (h : OwnKept s t) (h' : OwnKept t u) : OwnKept s u where
  toRestKept := h.toRestKept.trans h'.toRestKept
  chan k := (h'.chan k).trans (h.chan k)
  resets k hr := h'.resets k (h.resets k hr)

/-- A write of parts of the state that OwnKept does not read. -/
protected theorem apart (h : OwnKept s t)
    (hu : sameView t u := by exact ⟨rfl, rfl, rfl, rfl, rfl, rfl, rfl, rfl, rfl, rfl, rfl⟩) : OwnKept s u := by
  obtain ⟨hchn, hpeer, hcc, hpins, hregs, hhdr, hpwr, hphase, hstep, hgroups, hboot⟩ := hu
  have hchan (k : Nat) : chanOf k u = chanOf k t := by simp only [chanOf, hchn]
  refine h.trans ⟨⟨hpeer, hcc, hpins, hregs, pageActive_of_sameView hhdr hpwr hphase hstep hgroups, fun p i => ?_,
    by rw [hboot]; exact id⟩, fun k => by rw [hchan], fun k => by rw [hchan]; exact id⟩
  simp only [hdrOf, hhdr]
  exact id

/-! Parts of the state that OwnKept does not read, one by one. -/

protected theorem ops (h : OwnKept s t) {x} : OwnKept s { t with ops := x } := h.apart
protected theorem sch (h : OwnKept s t) {x} : OwnKept s { t with sch := x } := h.apart
protected theorem eng (h : OwnKept s t) {x} : OwnKept s { t with eng := x } := h.apart
protected theorem dpt (h : OwnKept s t) {x} : OwnKept s { t with dpt := x } := h.apart
protected theorem ecc (h : OwnKept s t) {x} : OwnKept s { t with ecc := x } := h.apart
protected theorem lvl (h : OwnKept s t) {x} : OwnKept s { t with lvl := x } := h.apart
protected theorem dsp (h : OwnKept s t) {x} : OwnKept s { t with dsp := x } := h.apart
protected theorem map (h : OwnKept s t) {x} : OwnKept s { t with map := x } := h.apart
protected theorem note (h : OwnKept s t) {x} : OwnKept s { t with note := x } := h.apart
protected theorem mem (h : OwnKept s t) {x} : OwnKept s { t with mem := x } := h.apart
protected theorem fab (h : OwnKept s t) {x} : OwnKept s { t with fab := x } := h.apart
protected theorem free (h : OwnKept s t) {x} : OwnKept s { t with free := x } := h.apart
protected theorem setGroup (h : OwnKept s t) {g : Nat} {x : Group} : OwnKept s (setGroup g x t) := h.apart
protected theorem setBkp (h : OwnKept s t) {i : Nat} {x : Word32} : OwnKept s (setBkp i x t) := h.apart

/-- SEC's state, but for the step of BOOT_FETCH that waits for the rail of G0. -/
protected theorem sec (h : OwnKept s t) {x : Sec} (hboot : t.sec.boot ≠ .railWait → x.boot ≠ .railWait := by exact id) :
    OwnKept s { t with sec := x } :=
  h.trans ⟨⟨rfl, rfl, rfl, rfl, fun _ => rfl, fun _ _ => id, hboot⟩, fun _ => rfl, fun _ => id⟩

/-- A header that keeps its ENABLE and its events. -/
protected theorem hdr (h : OwnKept s t) {p : Page} {x : Hdr} (henable : x.enable = (hdrOf p t).enable)
    (hevents : ∀ i, (hdrOf p t).evtPend.getLsbD i = true → x.evtPend.getLsbD i = true) : OwnKept s (setHdr p x t) := by
  refine h.trans ⟨⟨rfl, rfl, rfl, rfl, fun q => pageActive_setHdr q henable, fun q i hq => ?_, id⟩, fun _ => rfl, fun _ => id⟩
  by_cases hpage : pageNum q = pageNum p
  · rw [hdrOf_congr _ hpage] at hq ⊢
    rw [hdrOf_setHdr_same]
    exact hevents i hq
  · rwa [hdrOf_setHdr_other x t hpage]

/-- A channel whose ownership stays, and which gets no target to reset. -/
protected theorem setChan (h : OwnKept s t) {c : Nat} {x : Chan} (hown : ownPart x = ownPart (chanOf c t))
    (hresets : ResetsDone (chanOf c t) → ResetsDone x) : OwnKept s (setChan c x t) := by
  refine h.trans ⟨⟨rfl, rfl, rfl, rfl, fun _ => rfl, fun _ _ => id, id⟩, fun k => ?_, fun k hk => ?_⟩
  · by_cases hkc : k = c
    · subst hkc; rw [chanOf_setChan_same, hown]
    · rw [chanOf_setChan_other x t hkc]
  · by_cases hkc : k = c
    · subst hkc; rw [chanOf_setChan_same]; exact hresets hk
    · rwa [chanOf_setChan_other x t hkc]

protected theorem foldl {β : Type} {g : State → β → State} (h : OwnKept s t) (l : List β)
    (hg : ∀ t b, OwnKept s t → OwnKept s (g t b)) : OwnKept s (l.foldl g t) := by
  induction l generalizing t with
  | nil => exact h
  | cons b r ih => exact ih (hg t b h)

/-! ### Headers -/

protected theorem bumpBy (h : OwnKept s t) {p : Page} {i n : Nat} : OwnKept s (bumpBy p i n t) := by
  unfold bumpBy
  split
  · exact h
  · exact h.hdr rfl fun _ => id

protected theorem bump (h : OwnKept s t) {p : Page} {i : Nat} : OwnKept s (bump p i t) := h.bumpBy

protected theorem raiseEvt (h : OwnKept s t) {p : Page} {i : Nat} : OwnKept s (raiseEvt p i t) :=
  h.hdr rfl fun j hj => by rw [BitVec.getLsbD_or, hj, Bool.true_or]

protected theorem raiseErr (h : OwnKept s t) {p : Page} {code info : Nat} : OwnKept s (raiseErr p code info t) := by
  simp only [raiseErr]
  split
  · exact h.hdr rfl fun _ => id
  · split <;> exact h.hdr rfl fun _ => id

protected theorem hwBit (h : OwnKept s t) {p : Page} {off i : Nat} : OwnKept s (hwBit p off i t) := h.hdr rfl fun _ => id

protected theorem markCount (h : OwnKept s t) {p : Page} {i : Nat} : OwnKept s (markCount p i t) := h.hdr rfl fun _ => id

/-! ### Reads of protected words (17 R393, R394) -/

protected theorem setBkp0 (h : OwnKept s t) {i : Nat} : OwnKept s (setBkp0 i t) := h.setBkp.hwBit

protected theorem bumpCeTotal (h : OwnKept s t) : OwnKept s (bumpCeTotal t) := h.setBkp.markCount

protected theorem captureSpare (h : OwnKept s t) {cls idx why : Nat} : OwnKept s (captureSpare cls idx why t).1 := by
  unfold captureSpare
  split
  · exact h
  · split
    · exact h.mem.bump
    · exact h.setBkp0

protected theorem logError (h : OwnKept s t) {e : LogEnt} : OwnKept s (logError e t) := by
  unfold logError
  split
  · exact h
  · split
    · split
      · exact h.captureSpare
      · exact h
    · split
      · exact h.bump
      · exact h.mem

protected theorem correctable (h : OwnKept s t) {cls idx byte_ bit_ : Nat} :
    OwnKept s (correctable cls idx byte_ bit_ t) := h.bump.raiseEvt.bumpCeTotal.logError

protected theorem failed (h : OwnKept s t) {u : Upset} : OwnKept s (failed u t) :=
  h.bump.raiseEvt.setBkp0.logError.raiseErr

protected theorem findUpset (h : OwnKept s t) {u : Upset} : OwnKept s (findUpset t u) := by
  unfold findUpset
  split
  · exact h.correctable.mem
  · split
    · exact h
    · exact h.failed

protected theorem readWord (h : OwnKept s t) {cls idx : Nat} : OwnKept s (readWord cls idx t) :=
  h.foldl _ fun _ _ h => h.findUpset

/-! ### The queues, the load and the transfers of a die -/

protected theorem recheck (h : OwnKept s t) {d : Nat} : OwnKept s (recheck d t) := by
  simp only [recheck]
  split
  · exact h.sch
  · split
    · exact h.sch
    · exact h

protected theorem enqueue (h : OwnKept s t) {d : Nat} {it : QItem} : OwnKept s (enqueue d it t) := h.sch.recheck

protected theorem dropXfers (h : OwnKept s t) {i d : Nat} : OwnKept s (dropXfers i d t) := h.bumpBy.sch.sch

protected theorem dropLoad (h : OwnKept s t) {d : Nat} {k : LoadKind} : OwnKept s (dropLoad d k t) :=
  h.setGroup.setGroup

protected theorem clearLoad (h : OwnKept s t) {d : Nat} : OwnKept s (clearLoad d t) := h.setGroup.setGroup

protected theorem freeDie (h : OwnKept s t) {d : Nat} : OwnKept s (freeDie d t) := h.sch.dropLoad

protected theorem dropFromDie (h : OwnKept s t) {i d : Nat} : OwnKept s (dropFromDie i d t) := by
  unfold dropFromDie
  extract_lets x had counted held unqueued noXfers noRun noHeld noDataIn noAbandoned
  have hcounted : OwnKept s counted := by
    simp only [counted]
    split
    · exact h.bump
    · exact h
  have hunqueued : OwnKept s unqueued := hcounted.sch
  have hxfers : OwnKept s noXfers := hunqueued.dropXfers
  have hrun : OwnKept s noRun := by
    simp only [noRun]
    split
    · split
      · split
        · exact hxfers.freeDie
        · exact hxfers.sch
      · exact hxfers
    · exact hxfers
  have hheld : OwnKept s noHeld := by
    simp only [noHeld]
    split
    · split
      · exact hrun.sch
      · exact hrun
    · exact hrun
  have hdata : OwnKept s noDataIn := by
    simp only [noDataIn]
    split
    · split
      · split
        · exact hheld.sch
        · exact hheld.sch.dropLoad
      · exact hheld
    · exact hheld
  have habandoned : OwnKept s noAbandoned := by
    simp only [noAbandoned]
    split
    · split
      · exact hdata.sch
      · exact hdata
    · exact hdata
  exact habandoned.recheck

protected theorem dropFromSched (h : OwnKept s t) {i : Nat} : OwnKept s (dropFromSched i t) :=
  h.foldl _ fun _ _ h => h.dropFromDie

/-! ### The work of an id -/

protected theorem touchElement (h : OwnKept s t) {a : Nat} : OwnKept s (touchElement a t) := by
  simp only [touchElement]
  split
  · split
    · exact h.lvl
    · exact h
  · exact h

protected theorem setWinByte (h : OwnKept s t) {a : Nat} {b : Byte} : OwnKept s (setWinByte a b t) := h.apart

protected theorem putUser (h : OwnKept s t) {pl : Nat × Nat} {v : Int} : OwnKept s (putUser pl v t) :=
  h.setWinByte.touchElement

protected theorem addUser (h : OwnKept s t) {pl : Nat × Nat} {delta : Int} : OwnKept s (addUser pl delta t) := by
  have hread : OwnKept s (readPlace pl t) := h.readWord
  simp only [addUser]
  split
  · exact hread.putUser
  · exact hread.lvl.putUser

protected theorem calLast (h : OwnKept s t) {source band zone d frozen changed : Nat} :
    OwnKept s (calLast source band zone d frozen changed t) := h.lvl

protected theorem applyValley (h : OwnKept s t) {id page : Nat} : OwnKept s (applyValley id page t) := by
  simp only [applyValley]
  split
  · exact h
  · split
    · exact h.lvl.bumpBy
    · split
      · exact (h.lvl.bumpBy.foldl _ fun _ _ h => h.addUser).bump.calLast
      · exact h.lvl.bumpBy

protected theorem withdrawn (h : OwnKept s t) {q : WrReq} : OwnKept s (withdrawn t q) := by
  unfold withdrawn
  split
  · exact h.dpt.ops
  · exact h

protected theorem withdrawWrites (h : OwnKept s t) {i : Nat} : OwnKept s (withdrawWrites i t) :=
  h.foldl _ fun _ _ h => h.fab.foldl _ fun _ _ h => h.withdrawn

protected theorem dropSoft (h : OwnKept s t) {id : Nat} : OwnKept s (dropSoft id t) :=
  h.bumpBy.ecc.foldl _ fun _ _ h => h.ecc

protected theorem dropCorrect (h : OwnKept s t) {id : Nat} : OwnKept s (dropCorrect id t) :=
  h.foldl _ fun _ _ h => h.ecc

protected theorem dropStaging (h : OwnKept s t) {id : Nat} : OwnKept s (dropStaging id t) := h.dpt.dpt.dpt.dpt

protected theorem armNext (h : OwnKept s t) {a : Nat} : OwnKept s (armNext a t) := by
  unfold armNext
  split
  · exact h
  · split
    · exact h.dsp
    · exact h

protected theorem dropFromDisk (h : OwnKept s t) {i : Nat} : OwnKept s (dropFromDisk i t) := h.dsp.dsp.armNext.armNext

protected theorem abortJobs (h : OwnKept s t) {p : Job → Bool} : OwnKept s (abortJobs p t) :=
  h.eng.foldl _ fun _ _ h => h.eng

protected theorem dropWork (h : OwnKept s t) {id : Nat} : OwnKept s (dropWork id t) := by
  unfold dropWork
  extract_lets judged withdrawn noSoft noCorrect staged forgotten
  have hstaged : OwnKept s staged := h.applyValley.dropFromSched.withdrawWrites.dropSoft.dropCorrect.dropStaging
  exact hstaged.lvl.dropFromDisk.abortJobs

end OwnKept
end Sys2Proof.Machine
end

section
/-!
The Graver's jobs and the commitments leave ownership and the peer link alone (09 R207, 14, 01 R19).
-/

namespace Sys2Proof.Machine

namespace OwnKept

variable {s t : State}

/-! ### The fabric ports -/

protected theorem fabRead (h : OwnKept s t) {p : Nat} {q : RdReq} : OwnKept s (fabRead p q t) := h.fab.fab

protected theorem fabWrite (h : OwnKept s t) {p : Nat} {q : WrReq} : OwnKept s (fabWrite p q t) := h.fab.fab

protected theorem fabWrites (h : OwnKept s t) {p addr : Nat} {bytes : List Byte} {kind : Nat} {why : WriteFor} :
    OwnKept s (fabWrites p addr bytes kind why t) := h.foldl _ fun _ _ h => h.fabWrite

protected theorem countErase (h : OwnKept s t) {d plane block : Nat} {by_ : Option Nat} :
    OwnKept s (countErase d plane block by_ t) := by
  simp only [countErase]
  split
  · exact h
  · exact h.fabRead

/-! ### Jobs begin -/

protected theorem encodeInto (h : OwnKept s t) {id d plane block page idx : Nat} {slc : Bool} {pos : Nat}
    {user : List Byte} : OwnKept s (encodeInto id d plane block page idx slc pos user t) := by
  simp only [encodeInto]
  split
  · exact h.bump.mem.dpt.bump
  · exact h.mem.dpt.bump

protected theorem stageJob (h : OwnKept s t) {id : Nat} : OwnKept s (stageJob id t) := by
  unfold stageJob
  extract_lets e a d g user _ held marked
  have hheld : OwnKept s held := h.dpt
  have hmarked : OwnKept s marked := .ops (.dpt hheld.bump)
  split
  · exact hmarked.foldl _ fun _ _ h => h.encodeInto
  · exact h.ops

protected theorem startJob (h : OwnKept s t) {why : JobFor} {kind : DieOpKind} {d plane block page : Nat} {slc : Bool}
    {last lrow maxrung : Nat} : OwnKept s (startJob why kind d plane block page slc last lrow maxrung t) := by
  unfold startJob
  extract_lets id key _ _ named row queued
  have hnamed : OwnKept s named := h.apart
  have hqueued : OwnKept s queued := .enqueue hnamed.ops
  split
  · exact hqueued.stageJob
  · exact hqueued

protected theorem dropJob (h : OwnKept s t) {id : Nat} : OwnKept s (dropJob id t) := by
  unfold dropJob
  extract_lets _ followed _ _
  have hfollowed : OwnKept s followed := h.map
  exact .ops hfollowed.apart

/-! ### Threads and loads -/

protected theorem noteClose (h : OwnKept s t) {e : Nat} {k aborted : Bool} : OwnKept s (noteClose e k aborted t) := by
  simp only [noteClose]
  split
  · exact h
  · split
    · exact h
    · exact h.note.bump.bump

protected theorem holdThr (h : OwnKept s t) {e : Nat} {k : Bool} : OwnKept s (holdThr e k t) := h.noteClose.eng

protected theorem emptyPatches (h : OwnKept s t) {n : Nat} : OwnKept s (emptyPatches n t) := by
  unfold emptyPatches
  extract_lets _ _ burins _ _
  have hburins : OwnKept s burins := by
    simp only [burins]
    split
    · exact h.apart
    · exact h
  split
  · exact hburins.apart
  · exact hburins

protected theorem loadReject (h : OwnKept s t) {code : Nat} : OwnKept s (loadReject code t) := by
  unfold loadReject
  extract_lets emptied _ ended
  have hemptied : OwnKept s emptied := by
    simp only [emptied]
    split
    · split
      · exact h
      · exact h.emptyPatches
    · exact h
  have hended : OwnKept s ended := hemptied.sec
  exact hended.bump.raiseEvt.raiseErr

protected theorem loadHeader (h : OwnKept s t) {b : List Byte} : OwnKept s (loadHeader b t).1 := by
  simp only [loadHeader]
  split
  · exact h
  · split
    · exact (h.sec).emptyPatches
    · exact h.loadReject

/-! ### BOOT_FETCH (09 R222) -/

/-- BOOT_FETCH leaves its phase, and the Graver's queue its jobs. -/
protected theorem secEng (h : OwnKept s t) {x : Sec} {y : Eng}
    (hboot : t.sec.boot ≠ .railWait → x.boot ≠ .railWait) : OwnKept s { t with sec := x, eng := y } :=
  (h.eng (x := y)).sec hboot

protected theorem bootDone (h : OwnKept s t) : OwnKept s (bootDone t) := by
  unfold bootDone
  extract_lets _ _ ended
  have hended : OwnKept s ended := h.secEng fun _ => by simp
  exact .holdThr hended.eng

protected theorem bootFail (h : OwnKept s t) : OwnKept s (bootFail t) := by
  unfold bootFail
  split
  · exact h
  · exact h
  · extract_lets _ _ ended
    have hended : OwnKept s ended := h.secEng fun _ => by simp
    exact .loadReject (.holdThr (.holdThr hended.sch))

protected theorem readBootPage (h : OwnKept s t) {page : Nat} : OwnKept s (readBootPage page t) := (h.sec).startJob

protected theorem bootPageRead (h : OwnKept s t) {page : Nat} {r : Option (List Byte)} :
    OwnKept s (bootPageRead page r t) := by
  unfold bootPageRead
  split
  · exact h
  · split
    · exact h.bootFail
    · extract_lets _ fetched header judged total _
      have hfetched : OwnKept s fetched := h.sec
      have hjudged : OwnKept s judged := by
        simp only [judged, header]
        split
        · exact hfetched.loadHeader
        · exact hfetched
      split
      · exact hjudged.bootDone
      · split
        · exact (hjudged.sec).bootDone
        · exact hjudged.readBootPage

/-! ### The factory level image (11 R259) -/

protected theorem clearFactory (h : OwnKept s t) {e : Nat} : OwnKept s (clearFactory e t) := h.apart

protected theorem setWinBytes (h : OwnKept s t) {a : Nat} {l : List Byte} : OwnKept s (setWinBytes a l t) := by
  induction l generalizing a t with
  | nil => exact h
  | cons b r ih => exact ih h.setWinByte

protected theorem setFactories (h : OwnKept s t) {n e : Nat} {l : List Byte} : OwnKept s (setFactories n e l t) := by
  induction n generalizing e l t with
  | zero => exact h
  | succ n ih => exact ih h.setWinBytes.touchElement

protected theorem levelFail (h : OwnKept s t) {code : Nat} : OwnKept s (levelFail code t) := by
  simp only [levelFail]
  split
  · exact h.lvl.raiseEvt.raiseErr
  · exact h.clearFactory.lvl.raiseEvt.raiseErr

protected theorem levelEnd (h : OwnKept s t) : OwnKept s (levelEnd t) := by
  simp only [levelEnd]
  split
  · exact h.clearFactory.lvl.raiseEvt
  · exact h.clearFactory.levelFail

protected theorem readLevelPage (h : OwnKept s t) {page : Nat} : OwnKept s (readLevelPage page t) := h.startJob

protected theorem levelPageRead (h : OwnKept s t) {page : Nat} {r : Option (List Byte)} :
    OwnKept s (levelPageRead page r t) := by
  unfold levelPageRead
  split
  · exact h.levelFail
  · split
    · exact h.levelFail
    · split
      · split
        · exact h.levelFail
        · exact h.lvl.readLevelPage
      · extract_lets done n placed _ kept
        have hkept : OwnKept s kept := (h.setFactories (t := t)).lvl
        split
        · exact hkept.readLevelPage
        · exact hkept.levelEnd

/-! ### Map copies (14 R344, R349) -/

protected theorem judgeCopy (h : OwnKept s t) {k : Nat} : OwnKept s (judgeCopy k t) := by
  simp only [judgeCopy]
  split
  · exact h.map
  · split <;> exact h.map

protected theorem readCopyPage (h : OwnKept s t) {k page : Nat} : OwnKept s (readCopyPage k page t) := by
  simp only [readCopyPage]
  exact h.startJob

protected theorem programCopyPage (h : OwnKept s t) {k page : Nat} : OwnKept s (programCopyPage k page t) := by
  simp only [programCopyPage]
  exact h.startJob

protected theorem copyPageRead (h : OwnKept s t) {k page : Nat} {r : Option (List Byte)} :
    OwnKept s (copyPageRead k page r t) := by
  unfold copyPageRead
  extract_lets got head len good n stored
  have hgot : OwnKept s got := h.map
  have hstored : OwnKept s stored := by
    simp only [stored]
    split
    · exact hgot.fabWrites
    · exact hgot
  split
  · exact hstored.readCopyPage
  · exact hstored.judgeCopy

protected theorem startCopy (h : OwnKept s t) : OwnKept s (startCopy t) := by
  unfold startCopy
  split
  · split
    · exact h.map.startJob
    · exact h
  · exact h

protected theorem copyEnd (h : OwnKept s t) {k : Nat} {ok : Bool} : OwnKept s (copyEnd k ok t) := by
  simp only [copyEnd]
  split
  · exact h
  · split
    · exact h.map.bump.startCopy
    · exact h.map.raiseEvt.raiseErr.startCopy

protected theorem copyErased (h : OwnKept s t) {k : Nat} {ok : Bool} : OwnKept s (copyErased k ok t) := by
  unfold copyErased
  extract_lets l counted
  have hcounted : OwnKept s counted := h.countErase
  split
  · exact hcounted
  · split
    · exact .programCopyPage hcounted.map
    · exact hcounted.copyEnd

protected theorem copyPageDone (h : OwnKept s t) {k page : Nat} {ok : Bool} : OwnKept s (copyPageDone k page ok t) := by
  simp only [copyPageDone]
  split
  · exact h
  · split
    · exact h.copyEnd
    · split
      · exact h.map.copyEnd
      · exact h.map.programCopyPage

/-! ### The journal (14 R350 to R356) -/

protected theorem jrnlAdvance (h : OwnKept s t) : OwnKept s (jrnlAdvance t) := by
  simp only [jrnlAdvance]
  split
  · exact h.map
  · split
    · exact h.map.foldl _ fun _ _ h => h.startJob
    · exact h.map

protected theorem jrnlWrite (h : OwnKept s t) {p : JPage} : OwnKept s (jrnlWrite p t) := by
  unfold jrnlWrite
  extract_lets page _ begun written _
  have hbegun : OwnKept s begun := h.map
  have hwritten : OwnKept s written := hbegun.foldl _ fun _ _ h => h.startJob
  exact .jrnlAdvance hwritten.map

protected theorem writeBatch (h : OwnKept s t) : OwnKept s (writeBatch t) := by
  unfold writeBatch
  split
  · split
    · exact h.map.jrnlWrite
    · exact h
  · exact h

protected theorem jrnlGoOn (h : OwnKept s t) : OwnKept s (jrnlGoOn t) := by
  simp only [jrnlGoOn]
  split
  · exact h.writeBatch.map
  · exact h.writeBatch

protected theorem jrnlReady (h : OwnKept s t) : OwnKept s (jrnlReady t) := h.map.jrnlGoOn

protected theorem jrnlErased (h : OwnKept s t) {i blk : Nat} : OwnKept s (jrnlErased i blk t) := by
  unfold jrnlErased
  extract_lets l counted
  have hcounted : OwnKept s counted := h.countErase
  split
  · exact hcounted
  · split
    · exact hcounted.jrnlReady
    · exact hcounted.map

protected theorem jrnlProgDone (h : OwnKept s t) {i : Nat} {ok : Bool} : OwnKept s (jrnlProgDone i ok t) := by
  unfold jrnlProgDone
  split
  · exact h
  · exact h.map

protected theorem recovRecord (h : OwnKept s t) {c hi lo : Nat} {x : Nat × Nat × Nat} :
    OwnKept s (recovRecord c hi lo x t) := by
  unfold recovRecord
  split
  · exact h
  · exact h.map

protected theorem examineNext (h : OwnKept s t) {f : Nat} : OwnKept s (examineNext f t) := by
  induction f generalizing t with
  | zero => exact h
  | succ f ih =>
    unfold examineNext
    split
    · exact h
    · split
      · exact h
      · split
        · exact h.startJob
        · exact ih h.recovRecord

protected theorem scanEnd (h : OwnKept s t) : OwnKept s (scanEnd t) := by
  unfold scanEnd
  split
  · exact h
  · exact h.map.examineNext

protected theorem scanPage (h : OwnKept s t) {peer : Bool} {i blk page : Nat} : OwnKept s (scanPage peer i blk page t) := by
  simp only [scanPage]
  exact h.startJob

protected theorem scanRead (h : OwnKept s t) {i blk page : Nat} {r : Option (List Byte)} :
    OwnKept s (scanRead i blk page r t) := by
  unfold scanRead
  split
  · exact h
  · extract_lets _ noted last
    have hnoted : OwnKept s noted := by
      simp only [noted]
      split
      · split
        · exact h.map
        · exact h
      · exact h
    split
    · exact hnoted.scanPage
    · split
      · exact hnoted.scanPage
      · split
        · exact hnoted.scanPage
        · exact hnoted.scanEnd

protected theorem examined (h : OwnKept s t) {zs : List Nat} : OwnKept s (examined zs t) := by
  unfold examined
  split
  · exact h
  · split
    · exact h
    · extract_lets c read unconfirmed counted
      have hunconfirmed : OwnKept s unconfirmed := by
        simp only [unconfirmed]
        split
        · exact h.bump.bump
        · exact h.bump
      have hcounted : OwnKept s counted := by
        simp only [counted]
        split
        · exact hunconfirmed
        · exact hunconfirmed.countErase
      exact hcounted.recovRecord.examineNext

protected theorem recovRead (h : OwnKept s t) {last : Bool} {zs : Option (List Nat)} :
    OwnKept s (recovRead last zs t) := by
  unfold recovRead
  split
  · exact h
  · split
    · exact h
    · split
      · exact h.recovRecord.examineNext
      · split
        · exact h.examined
        · exact h.map.startJob

/-! ### Jobs end -/

protected theorem jobReadEnd (h : OwnKept s t) {id : Nat} {r : Option (List Byte)} : OwnKept s (jobReadEnd id r t) := by
  unfold jobReadEnd
  split
  · exact h.dropJob.copyPageRead
  · exact h.dropJob.scanRead
  · exact h.dropJob.levelPageRead
  · exact h.dropJob.bootPageRead
  · exact h.dropJob.recovRead
  · exact h.dropJob

protected theorem jobOpEnd (h : OwnKept s t) {id : Nat} {ok : Bool} : OwnKept s (jobOpEnd id ok t) := by
  unfold jobOpEnd
  split
  · exact h.dropJob.copyErased
  · exact h.dropJob.copyPageDone
  · exact h.dropJob.jrnlProgDone
  · exact h.dropJob.jrnlErased
  · exact h.dropJob

protected theorem jobLost (h : OwnKept s t) {id : Nat} : OwnKept s (jobLost id t) := by
  unfold jobLost
  split
  · exact h.jobOpEnd
  · exact h.jobOpEnd
  · exact h.jobOpEnd
  · exact h.jobOpEnd
  · exact h.jobReadEnd

/-! ### Commitments (01 R19, 05 R125, R127) -/

protected theorem noteDestage (h : OwnKept s t) {i st : Nat} : OwnKept s (noteDestage i st t) := by
  simp only [noteDestage]
  split
  · split
    · exact h.raiseEvt.bump
    · exact h.raiseEvt
  · exact h

protected theorem noteCommit (h : OwnKept s t) {st : Nat} : OwnKept s (noteCommit st t) := by
  unfold noteCommit
  split
  · exact h.raiseEvt
  · exact h

protected theorem noteLate (h : OwnKept s t) {x : TagRow} {rank : Nat} : OwnKept s (noteLate x rank t) := by
  simp only [noteLate]
  split
  · exact h.bump.raiseEvt
  · exact h

protected theorem completeTag (h : OwnKept s t) {i : Nat} : OwnKept s (completeTag i t) := by
  simp only [completeTag]
  split
  · exact h.ops
  · exact h

protected theorem settleIntent (h : OwnKept s t) {i : Nat} {confirmed : Bool} :
    OwnKept s (settleIntent i confirmed t) := h.map.map

protected theorem leaveOps (h : OwnKept s t) {i st : Nat} : OwnKept s (leaveOps i st t) := by
  unfold leaveOps
  extract_lets x dropped settled read
  have hdropped : OwnKept s dropped := h.noteCommit.noteDestage.dropWork
  have hsettled : OwnKept s settled := by
    simp only [settled]
    split
    · exact hdropped.settleIntent
    · exact hdropped
  have hread : OwnKept s read := by
    simp only [read]
    split
    · exact hsettled.dpt.dpt
    · exact hsettled
  exact hread.completeTag

protected theorem commitTag (h : OwnKept s t) {i st rank : Nat} : OwnKept s (commitTag i st rank t) := by
  simp only [commitTag]
  split
  · split
    · exact h.ops.noteLate.ops.leaveOps
    · exact h.ops.ops.ops
  · exact h

protected theorem earlyFail (h : OwnKept s t) {st fn paddr : Nat} : OwnKept s (earlyFail st fn paddr t) := by
  unfold earlyFail
  split
  · exact h.ops
  · exact h.raiseErr

protected theorem failEarly (h : OwnKept s t) {id st : Nat} : OwnKept s (failEarly id st t) := by
  simp only [failEarly]
  split
  · exact h
  · exact h.dropWork.earlyFail.ops

protected theorem failOp (h : OwnKept s t) {id st rank : Nat} : OwnKept s (failOp id st rank t) := by
  unfold failOp
  split
  · exact h.dropWork.jobLost
  · split
    · exact h.failEarly
    · exact h.commitTag

protected theorem failOps (h : OwnKept s t) {ids : List Nat} {st rank : Nat} : OwnKept s (failOps ids st rank t) :=
  h.foldl _ fun _ _ h => h.failOp

end OwnKept

end Sys2Proof.Machine
end

section
/-!
Reads, rebuilds and what the loss of a channel ends leave ownership and the peer link alone (10 R242, 11 R270 to R277,
07 R163).
-/

namespace Sys2Proof.Machine

namespace OwnKept

variable {s t : State}

/-! ### Staging (10 R248 to R251) -/

protected theorem cutWrites (h : OwnKept s t) {id : Nat} : OwnKept s (cutWrites id t) := h.foldl _ fun _ _ h => h.fab

protected theorem poison (h : OwnKept s t) {id : Nat} : OwnKept s (poison id t) := by
  unfold poison
  extract_lets reported
  have hreported : OwnKept s reported := h.raiseEvt.raiseErr.bump
  exact .failOp (.cutWrites hreported.free)

protected theorem ueStaging (h : OwnKept s t) {i : Nat} : OwnKept s (ueStaging i t) := by
  have hcleared : OwnKept s (clearUpsets 0 i (captureSpare 0 i 0 t).1) := h.captureSpare.mem
  simp only [ueStaging]
  split
  · exact hcleared.poison
  · exact hcleared

protected theorem readStaged (h : OwnKept s t) {id lo n : Nat} : OwnKept s (readStaged id lo n t).1 := by
  unfold readStaged
  extract_lets found read
  have hread : OwnKept s read := h.foldl _ fun _ _ h => h.findUpset
  split
  · exact hread.ueStaging
  · exact hread

/-! ### Forwarding (10 R242) -/

protected theorem forwardSlot (h : OwnKept s t) {id i : Nat} {user : List Byte} :
    OwnKept s (forwardSlot id i user t) := h.dsp

protected theorem forwardRead (h : OwnKept s t) {out : Bool} {id c plane i : Nat} {user md : List Byte} :
    OwnKept s (forwardRead out id c plane i user md t).1 := by
  unfold forwardRead
  extract_lets e pos addr sent n
  have hsent : OwnKept s sent := h.fabWrites
  split
  · exact hsent.fabWrite
  · exact hsent

protected theorem forwardCopy (h : OwnKept s t) {id d page plane i g : Nat} {user : List Byte} :
    OwnKept s (forwardCopy id d page plane i g user t) := by
  unfold forwardCopy
  extract_lets e a u j q i' _ held
  have hheld : OwnKept s held := by
    simp only [held]
    split
    · exact h.dpt
    · exact h.dpt
  exact .encodeInto hheld.dpt

protected theorem forwardCw (h : OwnKept s t) {id d plane i bits : Nat} {user md : List Byte} :
    OwnKept s (forwardCw id d plane i bits user md t) := by
  unfold forwardCw
  extract_lets taken page o out sent counted
  have htaken : OwnKept s taken := .ops h.bump
  have hsent : OwnKept s sent.1 := htaken.forwardRead
  have hcounted : OwnKept s counted := hsent.ops
  split
  · exact .dpt htaken.forwardSlot
  · split
    · exact htaken.forwardCopy
    · exact hcounted.dpt

protected theorem forward (h : OwnKept s t) {id d plane i bits : Nat} {user md : List Byte} :
    OwnKept s (forward id d plane i bits user md t) := by
  simp only [forward]
  split
  · exact h.readStaged
  · exact h.readStaged.forwardCw

protected theorem serveCw (h : OwnKept s t) {id page : Nat} {w : Nat × Nat × Nat × Nat} :
    OwnKept s (serveCw id page t w) := by
  unfold serveCw
  extract_lets e d b taken sent counted
  have htaken : OwnKept s taken := .ops h.bump
  have hsent : OwnKept s sent.1 := htaken.forwardRead
  have hcounted : OwnKept s counted := hsent.ops
  split
  · exact .forwardSlot htaken.dsp
  · split
    · exact .dpt htaken.forwardCopy.bump
    · exact hcounted.dpt

/-! ### Senses and the end of a read (05 Table 5.2) -/

protected theorem queueSense (h : OwnKept s t) {goes : Bool} {id page rung attempt : Nat} :
    OwnKept s (queueSense goes id page rung attempt t) := by
  unfold queueSense
  extract_lets x d planes marked
  have hmarked : OwnKept s marked := h.ops
  exact hmarked.enqueue

protected theorem enqueueSense (h : OwnKept s t) {id page rung attempt : Nat} :
    OwnKept s (enqueueSense id page rung attempt t) := h.queueSense

protected theorem queueCopyWrite (h : OwnKept s t) {id : Nat} : OwnKept s (queueCopyWrite id t) := by
  simp only [queueCopyWrite]
  exact h.enqueue

protected theorem finishRead (h : OwnKept s t) {id : Nat} : OwnKept s (finishRead id t) := by
  simp only [finishRead]
  split
  · exact h.commitTag
  · split
    · exact h.completeTag
    · exact h

protected theorem readEnd (h : OwnKept s t) {id : Nat} : OwnKept s (readEnd id t) := by
  simp only [readEnd]
  split
  · exact h.bump.queueCopyWrite
  · split
    · exact .ops h.bump
    · exact h.bump.finishRead

protected theorem readPage (h : OwnKept s t) {f id page : Nat} : OwnKept s (readPage f id page t) := by
  induction f generalizing page t with
  | zero => exact h
  | succ f ih =>
    unfold readPage
    extract_lets staged issued
    have hissued : OwnKept s issued := h.ops.foldl _ fun _ _ h => h.serveCw
    split
    · exact .enqueueSense h.ops
    · split
      · exact .bump h.ops
      · split
        · exact hissued.enqueueSense
        · split
          · exact ih hissued.ops
          · exact hissued.readEnd

protected theorem addCal (h : OwnKept s t) {pl : Nat × Nat} {delta : Int} : OwnKept s (addCal pl delta t) := by
  unfold addCal
  extract_lets read v _
  have hread : OwnKept s read := h.readWord
  exact .putUser hread.lvl

protected theorem calEnd (h : OwnKept s t) {id : Nat} : OwnKept s (calEnd id t) := by
  unfold calEnd
  extract_lets x d page z l frozen cells allDeltas deltas chosen moved counted changed
  have hchosen : OwnKept s chosen := by
    simp only [chosen]
    split
    · exact h
    · exact h.free
  have hmoved : OwnKept s moved := hchosen.foldl _ fun _ _ h => h.addCal
  have hcounted : OwnKept s counted := by
    simp only [counted]
    split
    · exact hmoved
    · exact hmoved.bump
  exact hcounted.calLast.commitTag

protected theorem pageDone (h : OwnKept s t) {id page : Nat} : OwnKept s (pageDone id page t) := by
  unfold pageDone
  extract_lets judged o b more _ cleared
  have hjudged : OwnKept s judged := h.applyValley
  have hmore : OwnKept s more := hjudged.ops
  have hcleared : OwnKept s cleared := by
    simp only [cleared]
    split
    · exact hmore.dpt
    · exact hmore
  split
  · exact hjudged.dropWork.jobReadEnd
  · split
    · exact hcleared.readPage
    · split
      · exact hjudged.calEnd
      · exact hjudged.readEnd

/-! ### The ladder and rebuilds (11 R270 to R277) -/

protected theorem rebuilt (h : OwnKept s t) {id plane i : Nat} {user : List Byte} :
    OwnKept s (rebuilt id plane i user t) := by
  simp only [rebuilt]
  exact h.forward

protected theorem enqueueMember (h : OwnKept s t) {id block page : Nat} {slc : Bool} {rung attempt : Nat}
    {m : Nat × Nat} : OwnKept s (enqueueMember id block page slc rung attempt m t) := by
  simp only [enqueueMember]
  exact h.enqueue

protected theorem startRebuild (h : OwnKept s t) {f id : Nat} : OwnKept s (startRebuild f id t).1 := by
  induction f generalizing t with
  | zero => exact h
  | succ f ih =>
    unfold startRebuild
    extract_lets x d
    split
    · exact h
    · extract_lets tried members _ begun
      have htried : OwnKept s tried := h.dpt
      split
      · exact ih htried
      · split
        · exact ih htried.rebuilt
        · have hbegun : OwnKept s begun := htried.lvl
          exact hbegun.foldl _ fun _ _ h => h.enqueueMember

protected theorem ladderStep (h : OwnKept s t) {id page : Nat} : OwnKept s (ladderStep id page t) := by
  unfold ladderStep
  extract_lets judged x e d grp next passed marked failed
  have hjudged : OwnKept s judged := h.applyValley
  have hpassed : OwnKept s passed := by
    simp only [passed]
    split
    · exact hjudged
    · exact hjudged.bumpBy.raiseEvt
  have hmarked : OwnKept s marked := hpassed.ops
  have hfailed : OwnKept s failed := hpassed.bump
  split
  · split
    · exact hmarked.startRebuild
    · exact hpassed.enqueueSense
  · exact .bump hpassed.ops
  · split
    · exact hfailed.dropWork.jobReadEnd
    · exact .commitTag hfailed.ops

protected theorem rungOver (h : OwnKept s t) {id page : Nat} : OwnKept s (rungOver id page t) := by
  simp only [rungOver]
  split
  · split
    · exact h.pageDone
    · exact h.ladderStep
  · exact h

protected theorem readStep (h : OwnKept s t) {id : Nat} : OwnKept s (readStep id t) := by
  unfold readStep
  extract_lets x rows page need
  split
  · exact h
  · split
    · exact h.pageDone
    · split
      · split
        · exact h.enqueueSense
        · exact h
      · split
        · exact h
        · split
          · exact h.enqueueSense
          · exact h.ladderStep.rungOver

protected theorem dropMembers (h : OwnKept s t) {r : Rebuild} : OwnKept s (dropMembers r t) := by
  unfold dropMembers
  extract_lets dropped
  have hdropped : OwnKept s dropped := h.foldl _ fun _ _ h => h.dropFromDie
  exact hdropped.apart

protected theorem rebuildFail (h : OwnKept s t) {r : Rebuild} : OwnKept s (rebuildFail r t) := by
  simp only [rebuildFail]
  split
  · exact h.dropMembers.startRebuild
  · exact h.dropMembers.startRebuild.readStep

protected theorem loseMembers (h : OwnKept s t) {d : Nat} : OwnKept s (loseMembers d t) :=
  h.foldl _ fun _ _ h => by
    split
    · exact h.rebuildFail
    · exact h

/-! ### What the loss of a channel ends (07 R163, 09 R210, R225) -/

protected theorem stopDie (h : OwnKept s t) {d : Nat} : OwnKept s (stopDie d t) := by
  unfold stopDie
  extract_lets unloaded
  have hunloaded : OwnKept s unloaded := h.clearLoad
  exact .sch hunloaded.lvl

protected theorem loseRaw (h : OwnKept s t) {c : Nat} : OwnKept s (loseRaw c t) := by
  unfold loseRaw
  split
  · exact .raiseEvt (.sec h)
  · exact h

protected theorem loseQueued (h : OwnKept s t) {c : Nat} : OwnKept s (loseQueued c t) :=
  h.failOps.foldl _ fun _ _ h => h.loseMembers

protected theorem dropActLoad (h : OwnKept s t) {c : Nat} : OwnKept s (dropActLoad c t) := by
  unfold dropActLoad
  split
  · exact h.dropLoad
  · split
    · exact h.dropLoad
    · exact h
  · exact h

end OwnKept

end Sys2Proof.Machine
end

section
/-!
The steps of a takeover and of a census leave ownership and the peer link alone (08 R188, 14 R337 to R340).
-/

namespace Sys2Proof.Machine

namespace OwnKept

variable {s t : State}

/-- A channel that keeps its ownership and its step of the takeover. -/
protected theorem modChan (h : OwnKept s t) {c : Nat} {f : Chan → Chan}
    (hown : ownPart (f (chanOf c t)) = ownPart (chanOf c t) := by rfl)
    (htake : (f (chanOf c t)).take = (chanOf c t).take := by rfl) : OwnKept s (modChan c f t) :=
  h.setChan hown fun hdone v r hr => hdone v r (htake.symm.trans hr)

/-! ### Bus actions begin -/

protected theorem addLoad (h : OwnKept s t) {d : Nat} {k : LoadKind} {cost : Nat} : OwnKept s (addLoad d k cost t) := by
  unfold addLoad addLoadFrom
  split
  · exact h.setGroup.setGroup
  · exact h

protected theorem giveJobs (h : OwnKept s t) {c : Nat} {l : List Job} : OwnKept s (giveJobs c l t) := by
  unfold giveJobs
  split
  · exact h.foldl _ fun _ _ h => h.eng
  · exact h

protected theorem beginAct (h : OwnKept s t) {c : Nat} {a : BusAct} {v : Option Nat} {l : List PadCycle} :
    OwnKept s (beginAct c a v l t) := by
  unfold beginAct
  extract_lets turns sel pre counted
  have hcounted : OwnKept s counted := by
    simp only [counted]
    split
    · exact h.bump
    · exact h
  exact hcounted.modChan

protected theorem goAct (h : OwnKept s t) {c : Nat} {a : BusAct} : OwnKept s (goAct c a t) := by
  unfold goAct
  extract_lets loaded counted v
  have hloaded : OwnKept s loaded := by
    simp only [loaded]
    split
    · exact h.addLoad
    · exact h
  have hcounted : OwnKept s counted := by
    simp only [counted]
    split
    · exact hloaded.bump
    · exact hloaded
  exact hcounted.giveJobs.beginAct

/-! ### The roster (14 R334 to R338) -/

protected theorem dieLeaves (h : OwnKept s t) {d : Nat} : OwnKept s (dieLeaves d t) := by
  simp only [dieLeaves]
  split
  · exact .sch h.raiseEvt.failOps.loseMembers
  · exact h.raiseEvt.failOps.loseMembers

protected theorem rosterMove (h : OwnKept s t) {d : Nat} {st : RosterState} {cause : Nat} :
    OwnKept s (rosterMove d st cause t) := by
  simp only [rosterMove]
  split
  · exact .dieLeaves h.map
  · exact h.map

/-- A count that is taken only when the die's state changes. -/
protected theorem bumpUnless (h : OwnKept s t) {p : Page} {i : Nat} {b : Prop} [Decidable b] :
    OwnKept s (if b then t else bump p i t) := by
  split
  · exact h
  · exact h.bump

protected theorem classifyDie (h : OwnKept s t) {d : Nat} {id : Word32} {check : Bool} :
    OwnKept s (classifyDie d id check t) := by
  simp only [classifyDie]
  split
  · split
    · exact h
    · exact h.bump.raiseEvt
  · split
    · exact h.bumpUnless.rosterMove
    · split
      · exact h.bump.raiseEvt.rosterMove
      · split
        · exact h
        · split
          · exact h.bumpUnless.rosterMove
          · exact h.bumpUnless.rosterMove

/-! ### A census (14 R337 to R340) -/

protected theorem censusNote (h : OwnKept s t) {c p : Nat} {id : Word32} : OwnKept s (censusNote c p id t) := by
  unfold censusNote
  split
  · exact h
  · extract_lets d before judged noted
    have hjudged : OwnKept s judged := h.classifyDie
    have hnoted : OwnKept s noted := hjudged.map
    exact hnoted.modChan

protected theorem writeReport (h : OwnKept s t) {c i : Nat} {rows : List (Word32 × Nat × Nat)} :
    OwnKept s (writeReport c i rows t) := .fabWrites h.ops

protected theorem censusEnd (h : OwnKept s t) {c : Nat} : OwnKept s (censusEnd c t) := by
  unfold censusEnd
  split
  · exact h
  · extract_lets rows alien emptied _ shown counted ended
    have hemptied : OwnKept s emptied := h.map
    have hshown : OwnKept s shown := hemptied.map
    have hcounted : OwnKept s counted := hshown.bump.raiseEvt
    have hended : OwnKept s ended := hcounted.setChan rfl fun hdone v r hr => by
      simp only at hr
      split at hr
      · exact absurd hr (by simp)
      · exact hdone v r hr
    split
    · split
      · exact hended.writeReport
      · exact hended
    · exact hended

protected theorem censusIssued (h : OwnKept s t) {i : Option Nat} : OwnKept s (censusIssued i t) := by
  unfold censusIssued
  split
  · exact h.ops
  · exact h

protected theorem censusGo (h : OwnKept s t) {c f : Nat} : OwnKept s (censusGo c f t) := by
  induction f generalizing t with
  | zero => exact h
  | succ f ih =>
    unfold censusGo
    split
    · exact h
    · exact h.censusEnd
    · extract_lets d
      split
      · exact .map h.modChan
      · split
        · exact ih h.modChan
        · split
          · exact ih h.censusNote
          · split
            · exact h.censusIssued.goAct
            · exact h

protected theorem startCensus (h : OwnKept s t) {c : Nat} {l : List Nat} {i : Option Nat} {key : Stamp} :
    OwnKept s (startCensus c l i key t) := by
  unfold startCensus
  extract_lets _ pushed
  have hpushed : OwnKept s pushed := h.eng
  exact .modChan hpushed.map

protected theorem censusWanted (h : OwnKept s t) {c : Nat} : OwnKept s (censusWanted c t) := by
  unfold censusWanted
  extract_lets x
  split
  · exact h
  · split
    · split
      · exact h.startCensus
      · exact h
    · split
      · split
        · exact h.startCensus
        · split
          · exact .startCensus h.modChan
          · exact h
      · exact h

protected theorem censusRun (h : OwnKept s t) {c : Nat} : OwnKept s (censusRun c t) := by
  unfold censusRun
  split
  · exact h.censusWanted.censusGo
  · exact h

/-! ### The takeover (08 R188) -/

protected theorem enterStep (h : OwnKept s t) {c : Nat} {k : TakeStep} (hk : ∀ v r, k ≠ .resets (v :: r)) :
    OwnKept s (enterStep c k t) := by
  unfold enterStep
  extract_lets entered
  have hentered : OwnKept s entered := h.setChan rfl fun _ v r hr => hk v r (Option.some.inj hr)
  split
  · exact hentered.eng
  · exact hentered

protected theorem takeSkip (h : OwnKept s t) {c : Nat} : OwnKept s (takeSkip c t) := by
  unfold takeSkip
  split
  · next v r htake _ => exact h.setChan rfl fun hdone => absurd htake (hdone v r)
  · exact h.enterStep (by simp)
  · exact h.enterStep (by simp)
  · exact h.enterStep (by simp)
  · split
    · exact h
    · exact h.enterStep (by simp)
  · exact h

protected theorem takeGo (h : OwnKept s t) {c : Nat} : OwnKept s (takeGo c t) := by
  unfold takeGo
  split
  · extract_lets skipped
    have hskipped : OwnKept s skipped := h.takeSkip.takeSkip.takeSkip.takeSkip
    split
    · exact hskipped.goAct
    · exact hskipped.censusRun
  · exact h

end OwnKept

end Sys2Proof.Machine
end

section
/-!
What a change of ownership of one channel leaves of the others, and folds of such changes (08 R187, Table 8.8).
-/

namespace Sys2Proof.Machine

/-! ### One channel changes -/

/-- The ownership part of a channel is as before, and no target to reset is added. -/
structure ChanKept (x y : Chan) : Prop where
  part : ownPart y = ownPart x
  resets : ResetsDone x → ResetsDone y

namespace ChanKept

variable {x y z : Chan}

protected theorem refl (x : Chan) : ChanKept x x := ⟨rfl, id⟩

protected theorem trans (h : ChanKept x y) (h' : ChanKept y z) : ChanKept x z :=
  ⟨h'.part.trans h.part, fun hx => h'.resets (h.resets hx)⟩

theorem own (h : ChanKept x y) : y.own = x.own := (congrArg Chan.own h.part :)
theorem driven (h : ChanKept x y) : y.driven = x.driven := (congrArg Chan.driven h.part :)
theorem dirty (h : ChanKept x y) : y.dirty = x.dirty := (congrArg Chan.dirty h.part :)
theorem shared (h : ChanKept x y) : y.shared = x.shared := (congrArg Chan.shared h.part :)
theorem rel (h : ChanKept x y) : y.rel = x.rel := (congrArg Chan.rel h.part :)
theorem collRun (h : ChanKept x y) : y.collRun = x.collRun := (congrArg Chan.collRun h.part :)

end ChanKept

theorem OwnKept.kept {s t : State} (h : OwnKept s t) (k : Nat) : ChanKept (chanOf k s) (chanOf k t) :=
  ⟨h.chan k, h.resets k⟩

/-- The ownership of at most one channel has changed. -/
structure KeptBut (c : Nat) (s t : State) : Prop extends RestKept s t where
  others : ∀ k, k ≠ c → ChanKept (chanOf k s) (chanOf k t)

section

variable {c : Nat} {s t u : State}

theorem OwnKept.keptBut (h : OwnKept s t) : KeptBut c s t := ⟨h.toRestKept, fun k _ => h.kept k⟩

theorem KeptBut.trans (h : KeptBut c s t) (h' : KeptBut c t u) : KeptBut c s u :=
  ⟨h.toRestKept.trans h'.toRestKept, fun k hk => (h.others k hk).trans (h'.others k hk)⟩

theorem keptBut_setChan (x : Chan) : KeptBut c s (setChan c x s) :=
  ⟨⟨rfl, rfl, rfl, rfl, fun _ => rfl, fun _ _ => id, id⟩, fun k hk => by rw [chanOf_setChan_other x s hk]; exact .refl _⟩

theorem keptBut_setOwn (o : Own) : KeptBut c s (setOwn c o s) := keptBut_setChan _

/-- What changes of one channel at a time keep of a channel that is not among them. -/
theorem foldl_others {g : State → Nat → State} (hg : ∀ t c, KeptBut c t (g t c)) {l : List Nat} {k : Nat} (hk : k ∉ l)
    (s : State) : ChanKept (chanOf k s) (chanOf k (l.foldl g s)) := by
  induction l generalizing s with
  | nil => exact .refl _
  | cons c r ih =>
    rw [List.mem_cons, not_or] at hk
    exact ((hg s c).others k hk.1).trans (ih hk.2 _)

theorem foldl_rest {g : State → Nat → State} (hg : ∀ t c, KeptBut c t (g t c)) (l : List Nat) (s : State) :
    RestKept s (l.foldl g s) := by
  induction l generalizing s with
  | nil => exact .refl s
  | cons c r ih => exact (hg s c).toRestKept.trans (ih _)

/-- What a change of one channel establishes for it holds of every channel among those changed. -/
theorem foldl_changed {g : State → Nat → State} (hg : ∀ t c, KeptBut c t (g t c)) {Q : Chan → Prop}
    (hQ : ∀ x y, ChanKept x y → Q x → Q y) {l : List Nat} {k : Nat} (hk : k ∈ l) (hset : ∀ t, Q (chanOf k (g t k)))
    (s : State) : Q (chanOf k (l.foldl g s)) := by
  induction l generalizing s with
  | nil => exact absurd hk List.not_mem_nil
  | cons c r ih =>
    by_cases hr : k ∈ r
    · exact ih hr _
    · obtain rfl : k = c := (List.mem_cons.mp hk).resolve_right hr
      exact hQ _ _ (foldl_others hg hr _) (hset s)

end

/-! ### Channels beside headers, and setOwn -/

theorem chanOf_of_chn {s u : State} (h : u.chn = s.chn) (k : Nat) : chanOf k u = chanOf k s := by simp only [chanOf, h]

@[simp] theorem chanOf_bump (k : Nat) (p : Page) (i : Nat) (s : State) : chanOf k (bump p i s) = chanOf k s :=
  chanOf_of_chn (bump_chn p i s) k

@[simp] theorem chanOf_raiseEvt (k : Nat) (p : Page) (i : Nat) (s : State) : chanOf k (raiseEvt p i s) = chanOf k s :=
  rfl

@[simp] theorem chanOf_raiseErr (k : Nat) (p : Page) (code info : Nat) (s : State) :
    chanOf k (raiseErr p code info s) = chanOf k s := chanOf_of_chn (raiseErr_chn p code info s) k

/-- A channel whose ownership state has changed. -/
def ownSet (o : Own) (cc : Nat) (x : Chan) : Chan := { x with own := o, ownSince := cc }

@[simp] theorem ownSet_own (o : Own) (cc : Nat) (x : Chan) : (ownSet o cc x).own = o := rfl
@[simp] theorem ownSet_collRun (o : Own) (cc : Nat) (x : Chan) : (ownSet o cc x).collRun = x.collRun := rfl

@[simp] theorem chanOf_setOwn_same (c : Nat) (o : Own) (s : State) :
    chanOf c (setOwn c o s) = ownSet o s.cc (chanOf c s) := chanOf_setChan_same ..

theorem chanOf_setOwn_other {c k : Nat} (o : Own) (s : State) (h : k ≠ c) : chanOf k (setOwn c o s) = chanOf k s :=
  chanOf_setChan_other _ s h

/-! ### The channel is left (07 R163, 08 R191) -/

/-- What leaves the channel once its operations have ended. -/
def leftChan (cc : Nat) (x : Chan) : Chan :=
  { x with act := none, busyTo := 0, onFifo := false, ceWord := 0, selPend := false, retrain := [], census := none,
           strangerCheck := false, take := none, takeLost := false, rel := none, disabling := false, early := none,
           poll := none, setUp := none, volume := none, turns := [], freeAt := cc, dp := none }

theorem leaveChannel_eq (c : Nat) (s : State) :
    ∃ u, OwnKept s u ∧ leaveChannel c s = setChan c (leftChan u.cc (chanOf c u)) u := by
  unfold leaveChannel
  extract_lets failed stopped unplanned _ aborted emptied
  have hfailed : OwnKept s failed := (OwnKept.refl s).failOps
  have hstopped : OwnKept s stopped := hfailed.foldl _ fun _ _ h => h.loseMembers.stopDie
  have hunplanned : OwnKept s unplanned := .loseRaw (.sch hstopped.sch)
  have haborted : OwnKept s aborted := .abortJobs hunplanned.sch
  exact ⟨emptied, haborted.eng, rfl⟩

/-- The channel becomes FOREIGN. -/
theorem goForeign_eq (c : Nat) (dirty : Bool) (s : State) : ∃ u, OwnKept s u ∧ goForeign c dirty s
    = setChan c { leftChan u.cc (chanOf c u) with own := .foreign, ownSince := u.cc, driven := false,
                                                  dirty := (chanOf c u).dirty || dirty } u := by
  obtain ⟨u, hu, heq⟩ := leaveChannel_eq c (dropActLoad c s)
  refine ⟨u, (OwnKept.refl s).dropActLoad.trans hu, ?_⟩
  simp only [goForeign, setOwn, heq, modChan_eq, chanOf_setChan_same, setChan_setChan, setChan_cc, leftChan]

theorem keptBut_goForeign (c : Nat) (dirty : Bool) (s : State) : KeptBut c s (goForeign c dirty s) := by
  obtain ⟨u, hu, heq⟩ := goForeign_eq c dirty s
  rw [heq]
  exact hu.keptBut.trans (keptBut_setChan _)

theorem chanOf_goForeign (c : Nat) (dirty : Bool) (s : State) :
    let y := chanOf c (goForeign c dirty s)
    y.own = .foreign ∧ y.driven = false ∧ y.dirty = ((chanOf c s).dirty || dirty) ∧ y.shared = (chanOf c s).shared := by
  obtain ⟨u, hu, heq⟩ := goForeign_eq c dirty s
  intro y
  rw [show y = _ from (congrArg (chanOf c) heq).trans (chanOf_setChan_same ..)]
  exact ⟨rfl, rfl, by rw [(hu.kept c).dirty], (hu.kept c).shared⟩

/-! ### RELEASING and TAKEOVER are entered (08 R187, R188) -/

theorem enterReleasing_kept (c : Nat) (k : RelKind) (s : State) :
    OwnKept (setOwn c .releasing (modChan c (fun x => { x with rel := some k }) s)) (enterReleasing c k s) :=
  (OwnKept.refl _).loseRaw.loseQueued.abortJobs

theorem keptBut_enterReleasing (c : Nat) (k : RelKind) (s : State) : KeptBut c s (enterReleasing c k s) :=
  ((keptBut_setChan _).trans (keptBut_setOwn _)).trans (enterReleasing_kept c k s).keptBut

theorem chanOf_enterReleasing (c : Nat) (k : RelKind) (s : State) :
    let y := chanOf c (enterReleasing c k s)
    y.own = .releasing ∧ y.rel = some k ∧ y.driven = (chanOf c s).driven := by
  have hkept := (enterReleasing_kept c k s).kept c
  simp only [modChan_eq, chanOf_setOwn_same, chanOf_setChan_same, ownSet] at hkept
  exact ⟨hkept.own, hkept.rel, hkept.driven⟩

/-- A channel as it enters TAKEOVER. -/
def takenChan (lost clean : Bool) (cc : Nat) (x : Chan) : Chan :=
  { x with own := .takeover, ownSince := cc, driven := true, early := none, poll := none, setUp := none, volume := none,
           takeLost := lost, take := some (.resets (if clean then [] else maskVols x.appointed)) }

theorem enterTakeover_kept (c : Nat) (lost clean : Bool) (s : State) :
    OwnKept (setChan c (takenChan lost clean s.cc (chanOf c s)) s) (enterTakeover c lost clean s) :=
  (OwnKept.refl _).takeGo

theorem keptBut_enterTakeover (c : Nat) (lost clean : Bool) (s : State) : KeptBut c s (enterTakeover c lost clean s) :=
  (keptBut_setChan _).trans (enterTakeover_kept c lost clean s).keptBut

/-- TAKEOVER with driven pads, and after a clean release no target to reset. -/
def InTakeover (clean : Bool) (y : Chan) : Prop :=
  y.own = .takeover ∧ y.driven = true ∧ (clean = true → ResetsDone y)

theorem InTakeover.kept {clean : Bool} {x y : Chan} (hxy : ChanKept x y) (hx : InTakeover clean x) :
    InTakeover clean y := by
  obtain ⟨hown, hdriven, hresets⟩ := hx
  exact ⟨hxy.own.trans hown, hxy.driven.trans hdriven, fun hclean => hxy.resets (hresets hclean)⟩

theorem inTakeover_enterTakeover (c : Nat) (lost clean : Bool) (s : State) :
    InTakeover clean (chanOf c (enterTakeover c lost clean s)) := by
  have hkept := (enterTakeover_kept c lost clean s).kept c
  rw [chanOf_setChan_same] at hkept
  refine InTakeover.kept hkept ⟨rfl, rfl, fun hclean v r => ?_⟩
  simp [takenChan, hclean]

end Sys2Proof.Machine
end

section
/-!
Contention and the COLLISION of a channel (O50; 08 R189 to R192).
-/

namespace Sys2Proof.Machine

/-! ### Events that stand -/

/-- Event i of a page is pending. -/
def EvtStands (p : Page) (i : Nat) (s : State) : Prop := (hdrOf p s).evtPend.getLsbD i = true

theorem evtStands_raiseEvt (p : Page) {i : Nat} (s : State) (hi : i < 32) : EvtStands p i (raiseEvt p i s) := by
  rw [EvtStands, hdrOf_raiseEvt_same, BitVec.getLsbD_or, BitVec.getLsbD_ofNat, Nat.testBit_two_pow_self]
  simp [hi]

theorem EvtStands.kept {p : Page} {i : Nat} {s t : State} (h : EvtStands p i s) (hst : RestKept s t) : EvtStands p i t :=
  hst.events p i h

/-! ### A COLLISION before its next state (08 R191) -/

/-- A channel after a COLLISION, its ownership state still to be chosen. -/
def collidedChan (early : Bool) (pads : BitVec 17) (cc : Nat) (x : Chan) : Chan :=
  { leftChan cc x with driven := false, dirty := true, collRun := satTo 255 (x.collRun + 1),
                       contLast := BitVec.ofNat 32 (2 ^ 31 + fieldAt 30 (bit early) + pads.toNat) }

/-- What a COLLISION leaves of a channel whatever its next state. -/
def CollidedFrom (early : Bool) (pads : BitVec 17) (x y : Chan) : Prop :=
  y.driven = false ∧ y.act = none ∧ y.dirty = true ∧ y.collRun = min 255 (x.collRun + 1)
  ∧ y.contLast = BitVec.ofNat 32 (2 ^ 31 + fieldAt 30 (bit early) + pads.toNat)

section

variable (c : Nat) (early : Bool) (pads : BitVec 17) (s : State)

theorem collide_eq : ∃ u, OwnKept s u ∧ collide c early pads s
    = raiseEvt (chnPage c) 0 (bump (chnPage c) 1 (setChan c (collidedChan early pads u.cc (chanOf c u)) u)) := by
  obtain ⟨u, hu, heq⟩ := leaveChannel_eq c (dropActLoad c (loseQueued c s))
  refine ⟨u, (OwnKept.refl s).loseQueued.dropActLoad.trans hu, ?_⟩
  simp only [collide, heq, modChan_eq, chanOf_setChan_same, setChan_setChan, collidedChan, leftChan]

theorem keptBut_collide : KeptBut c s (collide c early pads s) := by
  obtain ⟨u, hu, heq⟩ := collide_eq c early pads s
  rw [heq]
  exact (hu.keptBut.trans (keptBut_setChan _)).trans (OwnKept.refl _).bump.raiseEvt.keptBut

theorem chanOf_collide : CollidedFrom early pads (chanOf c s) (chanOf c (collide c early pads s))
    ∧ (chanOf c (collide c early pads s)).shared = (chanOf c s).shared := by
  obtain ⟨u, hu, heq⟩ := collide_eq c early pads s
  have hchan : chanOf c (collide c early pads s) = collidedChan early pads u.cc (chanOf c u) := by
    rw [heq, chanOf_raiseEvt, chanOf_bump, chanOf_setChan_same]
  rw [hchan]
  refine ⟨⟨rfl, rfl, rfl, ?_, rfl⟩, (hu.kept c).shared⟩
  change satTo 255 ((chanOf c u).collRun + 1) = _
  rw [satTo_eq_min, (hu.kept c).collRun]

theorem collide_event : EvtStands (chnPage c) 0 (collide c early pads s) := by
  obtain ⟨u, hu, heq⟩ := collide_eq c early pads s
  rw [heq]
  exact evtStands_raiseEvt _ _ (by decide)

end

/-! ### The next state (08 R191, R192) -/

theorem pairOf_ne (c : Nat) : pairOf c ≠ c := by
  unfold pairOf
  split <;> omega

theorem CollidedFrom.ownSet {early : Bool} {pads : BitVec 17} {x y : Chan} (h : CollidedFrom early pads x y) (o : Own)
    (cc : Nat) : CollidedFrom early pads x (ownSet o cc y) := h

/-- Both channels of a pair that collides together. -/
def pairHalted (c : Nat) (s : State) : State :=
  raiseEvt (chnPage (pairOf c)) 1 (raiseEvt (chnPage c) 1 (haltChan c (haltChan (pairOf c) s)))

theorem pairHalted_rest (c : Nat) (s : State) : RestKept s (pairHalted c s) :=
  ((keptBut_setOwn (c := pairOf c) (s := s) .halted).toRestKept.trans (keptBut_setOwn (c := c) .halted).toRestKept).trans
    (OwnKept.refl _).raiseEvt.raiseEvt.toRestKept

theorem chanOf_pairHalted (c : Nat) (s : State) :
    chanOf c (pairHalted c s) = ownSet .halted s.cc (chanOf c s)
    ∧ (chanOf (pairOf c) (pairHalted c s)).own = .halted := by
  simp only [pairHalted, haltChan, chanOf_raiseEvt]
  constructor
  · rw [chanOf_setOwn_same, chanOf_setOwn_other _ _ (pairOf_ne c).symm]
    rfl
  · rw [chanOf_setOwn_other _ _ (pairOf_ne c), chanOf_setOwn_same, ownSet_own]

theorem pairHalted_events (c : Nat) (s : State) :
    EvtStands (chnPage c) 1 (pairHalted c s) ∧ EvtStands (chnPage (pairOf c)) 1 (pairHalted c s) :=
  ⟨(evtStands_raiseEvt _ _ (by decide)).kept (OwnKept.refl _).raiseEvt.toRestKept, evtStands_raiseEvt _ _ (by decide)⟩

/-- HALTED because COLL_RUN has reached COLL_LIMIT. -/
def limitHalted (c : Nat) (pads : BitVec 17) (s : State) : State :=
  raiseErr (chnPage c) 0x0100 pads.toNat (raiseEvt (chnPage c) 2 (haltChan c s))

theorem limitHalted_rest (c : Nat) (pads : BitVec 17) (s : State) : KeptBut c s (limitHalted c pads s) :=
  (keptBut_setOwn .halted).trans (OwnKept.refl _).raiseEvt.raiseErr.keptBut

theorem chanOf_limitHalted (c : Nat) (pads : BitVec 17) (s : State) :
    chanOf c (limitHalted c pads s) = ownSet .halted s.cc (chanOf c s) := by
  simp only [limitHalted, haltChan, chanOf_raiseErr, chanOf_raiseEvt, chanOf_setOwn_same]

theorem limitHalted_event (c : Nat) (pads : BitVec 17) (s : State) : EvtStands (chnPage c) 2 (limitHalted c pads s) :=
  (evtStands_raiseEvt _ _ (by decide)).kept (OwnKept.refl _).raiseErr.toRestKept

theorem regFld_of_regs {s u : State} (h : u.regs = s.regs) (p : Page) (off lo w : Nat) :
    regFld p off lo w u = regFld p off lo w s := by
  simp only [regFld, regOf, h]

theorem seniorOn_of_pins {s u : State} (h : u.pins = s.pins) (c : Nat) : seniorOn c u = seniorOn c s := by
  simp only [seniorOn, h]

/-- The state that a COLLISION which halts nothing leads to. -/
def retryState (c : Nat) (s : State) : Own :=
  if (shared c s = false ∨ seniorOn c s = true) ∧ pageActive (chnPage c) s = true ∧ (chanOf c s).disabling = false
    then .backoff else .foreign

section

variable {c : Nat} {early : Bool} {pads : BitVec 17} {s : State}

/-- The limit is judged by the registers and the count that a COLLISION leaves. -/
theorem collLimit_iff {w : State} (hrest : RestKept s w) (hrun : (chanOf c w).collRun = min 255 ((chanOf c s).collRun + 1)) :
    regFld (chnPage c) oChnContCfg 0 4 w ≤ (chanOf c w).collRun
      ↔ regFld (chnPage c) oChnContCfg 0 4 s ≤ min 255 ((chanOf c s).collRun + 1) := by
  rw [regFld_of_regs hrest.regs, hrun]

theorem collision_pair (hpair : pairHit c s = true) : collision c early pads s =
    if regFld (chnPage c) oChnContCfg 0 4 s ≤ min 255 ((chanOf c s).collRun + 1)
      then limitHalted c pads (pairHalted c (collide c early pads s)) else pairHalted c (collide c early pads s) := by
  obtain ⟨⟨-, -, -, hrun, -⟩, -⟩ := chanOf_collide c early pads s
  have hrest := (keptBut_collide c early pads s).toRestKept
  unfold collision
  generalize collide c early pads s = w at *
  have hhalted : (chanOf c (pairHalted c w)).collRun = min 255 ((chanOf c s).collRun + 1) := by
    rw [(chanOf_pairHalted c w).1, ownSet_collRun, hrun]
  simp only [hpair, if_true]
  exact if_congr (collLimit_iff (hrest.trans (pairHalted_rest c w)) hhalted) rfl rfl

theorem collision_alone (hpair : pairHit c s = false) : collision c early pads s =
    if regFld (chnPage c) oChnContCfg 0 4 s ≤ min 255 ((chanOf c s).collRun + 1)
      then limitHalted c pads (collide c early pads s) else setOwn c (retryState c s) (collide c early pads s) := by
  obtain ⟨⟨-, -, -, hrun, -⟩, hshared⟩ := chanOf_collide c early pads s
  have hrest := (keptBut_collide c early pads s).toRestKept
  unfold collision
  generalize collide c early pads s = w at *
  have hshared : shared c w = shared c s := hshared
  simp only [hpair, Bool.false_eq_true, if_false, hshared, seniorOn_of_pins hrest.pins]
  refine if_congr (collLimit_iff hrest hrun) rfl ?_
  simp only [retryState, Bool.and_eq_true, Bool.or_eq_true, Bool.not_eq_true']
  split <;> rfl

/-- What limitHalted makes of a state after a COLLISION. -/
theorem limitHalted_collided {w : State} (hfrom : CollidedFrom early pads (chanOf c s) (chanOf c w))
    (hevent : EvtStands (chnPage c) 0 w) : CollidedFrom early pads (chanOf c s) (chanOf c (limitHalted c pads w))
      ∧ EvtStands (chnPage c) 0 (limitHalted c pads w) ∧ (chanOf c (limitHalted c pads w)).own = .halted := by
  rw [chanOf_limitHalted]
  exact ⟨hfrom.ownSet _ _, hevent.kept (limitHalted_rest c pads w).toRestKept, rfl⟩

/-- 08 R191, R192: what a COLLISION leaves, by whether the pair collides together and whether the limit is reached. -/
theorem collision_collided (c : Nat) (early : Bool) (pads : BitVec 17) (s : State) :
    collided c early pads s (collision c early pads s) := by
  obtain ⟨hfrom, -⟩ := chanOf_collide c early pads s
  have hevent := collide_event c early pads s
  cases hpair : pairHit c s with
  | true =>
    rw [collision_pair hpair]
    generalize collide c early pads s = w at *
    obtain ⟨hchan, hother⟩ := chanOf_pairHalted c w
    obtain ⟨hevent1, hevent2⟩ := pairHalted_events c w
    have hpairFrom : CollidedFrom early pads (chanOf c s) (chanOf c (pairHalted c w)) := hchan ▸ hfrom.ownSet _ _
    have hevent0 := hevent.kept (pairHalted_rest c w)
    split
    case isTrue hlimit =>
      have hrest := limitHalted_rest c pads (pairHalted c w)
      obtain ⟨⟨hdriven, hact, hdirty, hrun, hlast⟩, hevent0, hown⟩ := limitHalted_collided hpairFrom hevent0
      exact ⟨hdriven, hact, hdirty, hrun, hlast, hevent0, fun _ => ⟨hown, (hrest.others _ (pairOf_ne c)).own.trans hother,
        hevent1.kept hrest.toRestKept, hevent2.kept hrest.toRestKept⟩, fun _ => ⟨hown, limitHalted_event c pads _⟩,
        fun hno => absurd hpair (by simp [hno])⟩
    case isFalse hlimit =>
      obtain ⟨hdriven, hact, hdirty, hrun, hlast⟩ := hpairFrom
      exact ⟨hdriven, hact, hdirty, hrun, hlast, hevent0, fun _ => ⟨congrArg Chan.own hchan, hother, hevent1, hevent2⟩,
        fun hlim => absurd hlim hlimit, fun hno => absurd hpair (by simp [hno])⟩
  | false =>
    rw [collision_alone hpair]
    generalize collide c early pads s = w at *
    split
    case isTrue hlimit =>
      obtain ⟨⟨hdriven, hact, hdirty, hrun, hlast⟩, hevent0, hown⟩ := limitHalted_collided hfrom hevent
      exact ⟨hdriven, hact, hdirty, hrun, hlast, hevent0, fun hyes => absurd hpair (by simp [hyes]),
        fun _ => ⟨hown, limitHalted_event c pads _⟩, fun _ hlow => absurd hlimit (Nat.not_le.mpr hlow)⟩
    case isFalse hlimit =>
      have hchan := chanOf_setOwn_same c (retryState c s) w
      have hretryFrom : CollidedFrom early pads (chanOf c s) (chanOf c (setOwn c (retryState c s) w)) :=
        hchan ▸ hfrom.ownSet _ _
      obtain ⟨hdriven, hact, hdirty, hrun, hlast⟩ := hretryFrom
      exact ⟨hdriven, hact, hdirty, hrun, hlast, hevent.kept (keptBut_setOwn _).toRestKept,
        fun hyes => absurd hpair (by simp [hyes]), fun hlim => absurd hlim hlimit, fun _ _ => congrArg Chan.own hchan⟩

end

/-! ### CONTENTION and its re-test (08 R189, R190) -/

theorem contentionIsACollision : Claims.ContentionIsACollision := by
  intro c pads s n x r
  have hexec {u : State} (h : contention n pads s = u) : exec (.contention c pads) s = .next (settle u) :=
    h ▸ rfl
  have hretest {u : State} (h : earlyRetest n pads s = u) : exec (.earlyContentionRetest c pads) s = .next (settle u) :=
    h ▸ rfl
  refine ⟨fun hoff => hexec ?_, fun hwatched hpads hblanked => hexec ?_, fun hwatched hpads hblanked => ⟨_, hexec ?_,
    collision_collided n false pads s⟩, fun hoff => hretest ?_, fun hwatched hearly hblanked hpads => hretest ?_,
    fun hwatched hearly hblanked hpads => ⟨_, hretest ?_, collision_collided n true pads r⟩⟩
  · rcases hoff with h | h <;> simp [contention, h]
  · rw [contention, hwatched, decide_eq_false hpads, hblanked]
    rfl
  · rw [contention, hwatched, decide_eq_false hpads, hblanked]
    rfl
  · rcases hoff with h | h | h
    · simp [earlyRetest, h]
    · simp [earlyRetest, show (chanOf n s).early = none from h]
    · simp [earlyRetest, h]
  · rw [earlyRetest, hwatched, hblanked, Option.isSome_iff_ne_none.mpr hearly, hpads]
    rfl
  · rw [earlyRetest, hwatched, hblanked, Option.isSome_iff_ne_none.mpr hearly]
    exact if_neg hpads

end Sys2Proof.Machine
end

section
/-!
ZQ updates, retrains and the view of a volume's training (O50; 08 R175, R177, R178, R193).
-/

namespace Sys2Proof.Machine

/-! ### The listed entries of a sparse map -/

theorem SMap.get_of_mem {α : Type} (d : Nat → α) {m : SMap α} (hkeys : (m.map (·.1)).Nodup) {e : Nat × α} (he : e ∈ m) :
    SMap.get d m e.1 = e.2 := by
  induction m with
  | nil => exact absurd he List.not_mem_nil
  | cons f r ih =>
    obtain ⟨j, v⟩ := f
    rw [List.map_cons, List.nodup_cons] at hkeys
    rcases List.mem_cons.mp he with rfl | hr
    · simp [SMap.get]
    · have hne : j ≠ e.1 := fun h => hkeys.1 (List.mem_map.mpr ⟨e, hr, h.symm⟩)
      rw [SMap.get, if_neg hne]
      exact ih hkeys.2 hr

theorem SMap.mem_of_get_ne {α : Type} (d : Nat → α) {m : SMap α} {k : Nat} (h : SMap.get d m k ≠ d k) :
    (k, SMap.get d m k) ∈ m := by
  induction m with
  | nil => exact absurd rfl h
  | cons f r ih =>
    obtain ⟨j, v⟩ := f
    rw [SMap.get] at h ⊢
    split at h
    case isTrue hjk => rw [if_pos hjk, hjk]; exact List.mem_cons_self
    case isFalse hjk => rw [if_neg hjk]; exact List.mem_cons_of_mem _ (ih h)

/-! ### One change of each of several channels -/

theorem chanOf_setChan (k c : Nat) (x : Chan) (s : State) : chanOf k (setChan c x s) = if k = c then x else chanOf k s := by
  split
  case isTrue h => rw [h, chanOf_setChan_same]
  case isFalse h => exact chanOf_setChan_other x s h

/-- A fold whose step writes F of one channel and leaves what F reads of the state. -/
theorem chanOf_foldl_each {g : State → Nat → State} {F : Nat → Chan → Chan} {R : State → Prop}
    (hg : ∀ t c, R t → R (g t c) ∧ ∀ k, chanOf k (g t c) = if k = c then F c (chanOf c t) else chanOf k t)
    {l : List Nat} (hl : l.Nodup) {s : State} (hs : R s) (k : Nat) :
    chanOf k (l.foldl g s) = if k ∈ l then F k (chanOf k s) else chanOf k s := by
  induction l generalizing s with
  | nil => simp
  | cons c r ih =>
    obtain ⟨hR, hchan⟩ := hg s c hs
    rw [List.nodup_cons] at hl
    rw [List.foldl_cons, ih hl.2 hR, hchan]
    by_cases hkc : k = c
    · subst hkc
      rw [if_neg hl.1, if_pos rfl, if_pos List.mem_cons_self]
    · simp [hkc]

/-- Changes of channels leave the rest of the state alone. -/
theorem foldl_rest_chn {g : State → Nat → State} (hg : ∀ m t c, { g t c with chn := m } = ({ t with chn := m } : State))
    (m : SMap Chan) (l : List Nat) (s : State) : { l.foldl g s with chn := m } = ({ s with chn := m } : State) := by
  induction l generalizing s with
  | nil => rfl
  | cons c r ih => exact (ih _).trans (hg m s c)

/-! ### ZQ updates (08 R175) -/

theorem zqRuns_iff (s : State) :
    zqRuns s = true ↔ corePowered s = true ∧ s.pwr.state ≠ .doze ∧ s.pwr.state ≠ .waking := by
  simp [zqRuns, and_assoc]

/-- A channel that is to take new codes in its next gap. -/
def zqAsked (x : Chan) : Chan := { x with zqPend := true }

/-- New codes are asked for. -/
def zqAsk (t : State) (c : Nat) : State := setChan c (zqAsked (chanOf c t)) t

/-- The next period of a group begins. -/
def zqRestart (g : Nat) (s : State) : State := setGroup g { groupOf g s with zqDue := s.cc + zqPeriod } s

/-- The channels of a group. -/
def groupChans (g : Nat) : List Nat := (List.range 16).map (16 * g + ·)

theorem mem_groupChans {g k : Nat} : k ∈ groupChans g ↔ k / 16 = g := by
  simp only [groupChans, List.mem_map, List.mem_range]
  constructor
  · rintro ⟨i, hi, rfl⟩
    omega
  · intro hk
    exact ⟨k % 16, by omega, by omega⟩

theorem groupChans_nodup (g : Nat) : (groupChans g).Nodup :=
  List.nodup_range.map fun a b h => by simpa using h

theorem zqUpdate_eq {g : Nat} {s : State} (hgroup : groupReleased g s = true) (hruns : zqRuns s = true)
    (hdue : (groupOf g s).zqDue ≤ s.cc) : zqUpdate g s = (groupChans g).foldl zqAsk (zqRestart g s) := by
  rw [groupChans, List.foldl_map]
  simp only [zqUpdate, hgroup, hruns, decide_eq_true hdue, Bool.and_self, if_true, modGroup_eq, modChan_eq, zqAsk,
    zqAsked, zqRestart]

theorem zqRestart_chn (g : Nat) (s : State) : (zqRestart g s).chn = s.chn := setGroup_chn ..

theorem zqAsk_rest {g : Nat} {s t : State} (hchn : t.chn = s.chn) :
    { (groupChans g).foldl zqAsk t with chn := s.chn } = t := by
  rw [← hchn]
  exact foldl_rest_chn (g := zqAsk) (fun _ _ _ => rfl) _ _ _

theorem chanOf_zqAsk {g : Nat} {s t : State} (hchn : t.chn = s.chn) (k : Nat) :
    chanOf k ((groupChans g).foldl zqAsk t) = if k / 16 = g then zqAsked (chanOf k s) else chanOf k s := by
  rw [chanOf_foldl_each (g := zqAsk) (F := fun _ => zqAsked) (R := fun _ => True)
    (fun t c _ => ⟨trivial, fun k => chanOf_setChan k c _ t⟩) (groupChans_nodup g) trivial, chanOf_of_chn hchn]
  exact if_congr mem_groupChans rfl rfl

theorem zqUpdate_due {g : Nat} {s : State} (hgroup : groupReleased g s = true) (hruns : zqRuns s = true)
    (hdue : (groupOf g s).zqDue ≤ s.cc) : { zqUpdate g s with chn := s.chn } = zqRestart g s
    ∧ ∀ k, chanOf k (zqUpdate g s) = if k / 16 = g then zqAsked (chanOf k s) else chanOf k s := by
  rw [zqUpdate_eq hgroup hruns hdue]
  exact ⟨zqAsk_rest (zqRestart_chn g s), chanOf_zqAsk (zqRestart_chn g s)⟩

/-- A channel that has taken its codes. -/
def trimmed (codes : Nat) (x : Chan) : Chan := { x with zqPend := false, codes := BitVec.ofNat 24 codes }

/-- The codes of a channel are applied. -/
def trim (t : State) (c : Nat) : State := setChan c (trimmed (regOf (chnPage c) oChnUtrim t) (chanOf c t)) t

/-- The channels whose codes are applied in this cc. -/
def trimChans (s : State) : List Nat := (s.chn.filter fun e => e.2.zqPend && gapPassed e.1 s).map (·.1)

theorem zqApply_runs {s : State} (hruns : zqRuns s = true) : zqApply s = (trimChans s).foldl trim s := by
  rw [zqApply, if_neg (by simp [hruns])]
  congr 1
  funext t c
  simp only [takeTrim, modChan_eq, chanOf_setChan_same, setChan_setChan]
  rfl

theorem mem_trimChans {s : State} (hkeys : (s.chn.map (·.1)).Nodup) {k : Nat} :
    k ∈ trimChans s ↔ (chanOf k s).zqPend = true ∧ gapPassed k s = true := by
  simp only [trimChans, List.mem_map, List.mem_filter, Bool.and_eq_true]
  constructor
  · rintro ⟨e, ⟨he, hpend, hgap⟩, rfl⟩
    exact ⟨(congrArg Chan.zqPend (SMap.get_of_mem chanDefault hkeys he)).trans hpend, hgap⟩
  · rintro ⟨hpend, hgap⟩
    have hlisted : SMap.get chanDefault s.chn k ≠ chanDefault k := fun h => by
      rw [chanOf, h] at hpend
      exact Bool.noConfusion hpend
    exact ⟨_, ⟨SMap.mem_of_get_ne chanDefault hlisted, hpend, hgap⟩, rfl⟩

theorem trimChans_nodup {s : State} (hkeys : (s.chn.map (·.1)).Nodup) : (trimChans s).Nodup :=
  hkeys.sublist (List.filter_sublist.map _)

theorem zqApply_gaps {s : State} (hruns : zqRuns s = true) (hkeys : (s.chn.map (·.1)).Nodup) :
    { zqApply s with chn := s.chn } = s
    ∧ ∀ k, chanOf k (zqApply s) = if (chanOf k s).zqPend = true ∧ gapPassed k s = true then
        trimmed (regOf (chnPage k) oChnUtrim s) (chanOf k s) else chanOf k s := by
  rw [zqApply_runs hruns]
  constructor
  · exact foldl_rest_chn (g := trim) (fun _ _ _ => rfl) _ _ _
  · intro k
    rw [chanOf_foldl_each (g := trim) (F := fun c => trimmed (regOf (chnPage c) oChnUtrim s)) (R := fun t => t.regs = s.regs)
      (fun t c ht => ⟨ht, fun k => ?_⟩) (trimChans_nodup hkeys) rfl]
    · exact if_congr (mem_trimChans hkeys) rfl rfl
    · rw [trim, chanOf_setChan, regOf, ht]
      rfl

/-! ### Retrains and TRAIN_SEL (08 R177, R178, R193) -/

theorem chnPage_toNat (c : ChnId) : chnPage c.toNat = .chn c := by
  rw [chnPage, BitVec.ofNat_toNat, BitVec.setWidth_eq]

/-- A channel that is asked to retrain every trained volume. -/
def retrainAsked (cc : Nat) (x : Chan) : Chan :=
  if x.retrain.isEmpty then { x with retrain := (List.range 8).filter fun v => x.trained.getLsbD v, retrainAt := cc }
  else x

theorem retrainAll_eq (c : Nat) (s : State) : retrainAll c s = setChan c (retrainAsked s.cc (chanOf c s)) s := by
  simp only [retrainAll, modChan_eq, bitAt, BitVec.testBit_toNat]
  rfl

theorem retrain_due {c : Nat} {s : State} (hdue : retrainDue c s = true) : retrain c s
    = setChan c { retrainAsked s.cc (chanOf c s) with retrainCount := retrainInterval c s } s := by
  simp only [retrain, hdue, if_true, retrainAll_eq, modChan_eq, chanOf_setChan_same, setChan_setChan, setChan_cc,
    retrainAsked]
  split <;> rfl

theorem trainWord_eq (t : Train) : trainWord t
    = (if t.valid then 2 ^ 31 else 0) + t.rd.toNat * 2 ^ 16 + t.wr.toNat * 2 ^ 8 + t.eye.toNat := by
  cases h : t.valid <;> simp [trainWord, fieldAt, bit, h]

theorem calibrationAndTraining : Claims.CalibrationAndTraining := by
  intro g c vol s n x u asks t zq
  have hupdate {v : State} (h : zqUpdate g.toNat s = v) : exec (.zqUpdate g) s = .next (settle v) := h ▸ rfl
  have hretrain {v : State} (h : retrain n s = v) : exec (.retrain c) s = .next (settle v) := h ▸ rfl
  refine ⟨?zq, ?idle, ?apply, fun hdue => hretrain (if_neg (by simp [hdue])), fun hdue => hretrain (retrain_due hdue),
    fun hanswers => ⟨?now, ?sel⟩⟩
  case zq =>
    rintro ⟨hgroup, hcore, hdoze, hwaking, hdue⟩
    exact ⟨_, hupdate rfl, zqUpdate_due hgroup ((zqRuns_iff s).mpr ⟨hcore, hdoze, hwaking⟩) hdue⟩
  case idle =>
    intro hnot
    refine hupdate (if_neg fun hall => hnot ?_)
    simp only [Bool.and_eq_true, decide_eq_true_eq, zqRuns_iff] at hall
    obtain ⟨⟨hgroup, hcore, hdoze, hwaking⟩, hdue⟩ := hall
    exact ⟨hgroup, hcore, hdoze, hwaking, hdue⟩
  case apply =>
    intro hcore hdoze hwaking hkeys
    obtain ⟨hrest, hchan⟩ := zqApply_gaps ((zqRuns_iff s).mpr ⟨hcore, hdoze, hwaking⟩) hkeys
    refine ⟨hrest, fun k => (hchan k).trans (if_congr ?_ rfl rfl)⟩
    simp only [gapPassed, Bool.and_eq_true, decide_eq_true_eq]
  case now =>
    change fin (csrDo (.chn c) (retrainNow n) s) = _
    rw [csrDo_answers _ hanswers, retrainNow, retrainAll_eq, chnPage_toNat]
    rfl
  case sel =>
    change fin (csrDo (.chn c) (trainSel n vol.toNat) s) = _
    rw [csrDo_answers _ hanswers, trainSel, trainWord_eq, chnPage_toNat]
    rfl

/-- Settles O50: a COLLISION from the layers collide, pairHalted and limitHalted, the calibrations channel by channel. -/
theorem contentionAndTraining : Obligations.ContentionAndTraining := ⟨contentionIsACollision, calibrationAndTraining⟩

end Sys2Proof.Machine
end

section
/-!
What a message sent off changes, alone or with the channels that it claims (08 R184, R187).
-/

namespace Sys2Proof.Machine

/-! ### Folds with one step that counts -/

/-- A fold of which only the step of one element does anything. -/
theorem foldl_only {β : Type} {g : State → β → State} {q : β} (hidle : ∀ t b, b ≠ q → g t b = t) {l : List β}
    (hl : l.Nodup) (hq : q ∈ l) (s : State) : l.foldl g s = g s q := by
  induction l generalizing s with
  | nil => exact absurd hq List.not_mem_nil
  | cons b r ih =>
    rw [List.nodup_cons] at hl
    by_cases hr : q ∈ r
    · rw [List.foldl_cons, hidle s b (fun h => hl.1 (h ▸ hr)), ih hl.2 hr]
    · obtain rfl : q = b := (List.mem_cons.mp hq).resolve_right hr
      refine List.foldlRecOn (motive := fun t => t = g s q) r g rfl fun t ht b hb => ?_
      rw [hidle t b fun h => hr (h ▸ hb), ht]

/-- What one step of a fold establishes and every step keeps. -/
theorem foldl_reaches {β : Type} {g : State → β → State} {P : State → Prop} (hkeep : ∀ t b, P t → P (g t b)) {q : β}
    (hset : ∀ t, P (g t q)) {l : List β} (hq : q ∈ l) (s : State) : P (l.foldl g s) := by
  induction l generalizing s with
  | nil => exact absurd hq List.not_mem_nil
  | cons b r ih =>
    rcases List.mem_cons.mp hq with rfl | hr
    · exact List.foldlRecOn r g (hset s) fun t ht b _ => hkeep t b ht
    · exact ih hr _

/-! ### The part of the peer link that messages sent leave alone -/

/-- LAST_RX and LOST stand; events are only added. -/
structure LinkKept (s t : State) : Prop where
  lastRx : t.peer.lastRx = s.peer.lastRx
  lost : t.peer.lost = s.peer.lost
  events : ∀ p i, EvtStands p i s → EvtStands p i t

theorem LinkKept.refl (s : State) : LinkKept s s := ⟨rfl, rfl, fun _ _ => id⟩

theorem LinkKept.trans {s t u : State} (h : LinkKept s t) (h' : LinkKept t u) : LinkKept s u :=
  ⟨h'.lastRx.trans h.lastRx, h'.lost.trans h.lost, fun p i hs => h'.events p i (h.events p i hs)⟩

theorem RestKept.link {s t : State} (h : RestKept s t) : LinkKept s t := by
  refine ⟨?_, ?_, h.events⟩ <;> rw [h.peer]

/-- Only the queues of PEER differ. -/
def SentFrom (s t : State) : Prop :=
  ∃ p : Peer, t = { s with peer := p } ∧ p.lastRx = s.peer.lastRx ∧ p.lost = s.peer.lost

theorem SentFrom.refl (s : State) : SentFrom s s := ⟨s.peer, rfl, rfl, rfl⟩

theorem SentFrom.trans {s t u : State} (h : SentFrom s t) (h' : SentFrom t u) : SentFrom s u := by
  obtain ⟨p, rfl, hp, hp'⟩ := h
  obtain ⟨q, rfl, hq, hq'⟩ := h'
  exact ⟨q, rfl, hq.trans hp, hq'.trans hp'⟩

theorem SentFrom.link {s t : State} (h : SentFrom s t) : LinkKept s t := by
  obtain ⟨p, rfl, hp, hp'⟩ := h
  exact ⟨hp, hp', fun _ _ => id⟩

theorem SentFrom.chanOf {s t : State} (h : SentFrom s t) (k : Nat) : chanOf k t = chanOf k s := by
  obtain ⟨p, rfl, -⟩ := h
  rfl

/-! ### One message (08 R184) -/

theorem sentFrom_queueMsg (m : Word64) (s : State) : SentFrom s (queueMsg m s) := by
  unfold queueMsg
  split
  · exact ⟨_, rfl, rfl, rfl⟩
  · split
    · exact .refl s
    · exact ⟨_, rfl, rfl, rfl⟩

theorem sentFrom_sendMsg (m : Word64) (s : State) : SentFrom s (sendMsg m s) := by
  unfold sendMsg
  split
  · exact .refl s
  · split
    · exact ⟨_, rfl, rfl, rfl⟩
    · exact SentFrom.trans ⟨_, rfl, rfl, rfl⟩ (sentFrom_queueMsg m _)

/-- A message that joins none and finds room goes to the end of the queue. -/
theorem sendMsg_joinsNone {s : State} (hactive : pageActive .peer s = true) (hfresh : s.peer.freshAt ≠ s.cc)
    (hroom : s.peer.txq.length < 16) (m : Word64) : sendMsg m s
    = { s with peer := { s.peer with txq := s.peer.txq ++ [m], fresh := [m], freshAt := s.cc } } := by
  have hnone : joinedMsg m s = none := if_neg hfresh
  simp only [sendMsg, hactive, hnone, if_neg hfresh, queueMsg, if_pos hroom]
  rfl

/-! ### Messages for channels with one outcome -/

theorem sentFrom_sendFor (cs : List Nat) (mk : Nat → Nat → Word64) (s : State) : SentFrom s (sendFor cs mk s) := by
  refine List.foldlRecOn (motive := SentFrom s) _ _ (.refl s) fun t ht q _ => ?_
  split
  · exact ht
  · exact ht.trans (sentFrom_sendMsg _ t)

theorem quarterMask_one (q c : Nat) : quarterMask q [c] = if c / 32 = q then 2 ^ (c % 32) else 0 := by
  by_cases h : c / 32 = q <;> simp [quarterMask, h]

theorem quarter_mem {c : Nat} (hc : c < 128) : c / 32 ∈ List.range 4 := by
  rw [List.mem_range]
  omega

/-- One channel alone has one message. -/
theorem sendFor_one {c : Nat} (hc : c < 128) (mk : Nat → Nat → Word64) (s : State) :
    sendFor [c] mk s = sendMsg (mk (c / 32) (2 ^ (c % 32))) s := by
  rw [sendFor, foldl_only (q := c / 32) (fun t q hq => ?_) List.nodup_range (quarter_mem hc)]
  · rw [quarterMask_one, if_pos rfl, if_neg (Nat.two_pow_pos _).ne']
  · rw [quarterMask_one, if_neg hq.symm, if_pos rfl]

/-! ### CLAIMs: the channels enter CLAIMING -/

theorem keptBut_claiming (t : State) (c : Nat) : KeptBut c t (setOwn c .claiming t) := keptBut_setOwn _

theorem claimQuarter_sent {force : Bool} {q : Nat} {cs : List Nat} (hcs : cs ≠ []) (s : State) :
    SentFrom (cs.foldl (fun s c => setOwn c .claiming s) s) (claimQuarter force q cs s) := by
  rw [claimQuarter, if_neg (by simpa using hcs)]
  refine SentFrom.trans ?_ (sentFrom_sendMsg _ _)
  split
  · exact .refl _
  · exact ⟨_, rfl, rfl, rfl⟩

theorem claimQuarter_nil (force : Bool) (q : Nat) (s : State) : claimQuarter force q [] s = s := rfl

section

variable (force : Bool) (q : Nat) (cs : List Nat) (s : State)

theorem claimQuarter_link : LinkKept s (claimQuarter force q cs s) := by
  by_cases hcs : cs = []
  · subst hcs
    exact .refl s
  · exact (foldl_rest keptBut_claiming cs s).link.trans (claimQuarter_sent hcs s).link

variable {cs} {k : Nat}

theorem claimQuarter_other (hk : k ∉ cs) : ChanKept (chanOf k s) (chanOf k (claimQuarter force q cs s)) := by
  by_cases hcs : cs = []
  · subst hcs
    exact .refl _
  · rw [(claimQuarter_sent hcs s).chanOf]
    exact foldl_others keptBut_claiming hk s

theorem claimQuarter_claiming (hk : k ∈ cs) : (chanOf k (claimQuarter force q cs s)).own = .claiming := by
  rw [(claimQuarter_sent (List.ne_nil_of_mem hk) s).chanOf]
  exact foldl_changed keptBut_claiming (Q := fun x => x.own = .claiming) (fun _ _ h hx => h.own.trans hx) hk
    (fun t => by rw [chanOf_setOwn_same, ownSet_own]) s

variable {force q}

theorem claimQuarter_stays (h : (chanOf k s).own = .claiming) : (chanOf k (claimQuarter force q cs s)).own = .claiming := by
  by_cases hk : k ∈ cs
  · exact claimQuarter_claiming _ _ _ hk
  · exact (claimQuarter_other _ _ _ hk).own.trans h

end

theorem claimAll_link (force : Bool) (cs : List Nat) (s : State) : LinkKept s (claimAll force cs s) :=
  List.foldlRecOn (motive := LinkKept s) _ _ (.refl s) fun t ht q _ => ht.trans (claimQuarter_link force q _ t)

theorem claimAll_other (force : Bool) {cs : List Nat} {k : Nat} (hk : k ∉ cs) (s : State) :
    ChanKept (chanOf k s) (chanOf k (claimAll force cs s)) :=
  List.foldlRecOn (motive := fun t => ChanKept (chanOf k s) (chanOf k t)) _ _ (.refl _) fun t ht q _ =>
    ht.trans (claimQuarter_other force q t fun h => hk (List.mem_of_mem_filter h))

theorem claimAll_claiming (force : Bool) {cs : List Nat} {k : Nat} (hk : k ∈ cs) (hlt : k < 128) (s : State) :
    (chanOf k (claimAll force cs s)).own = .claiming := by
  have hmem : k ∈ cs.filter fun c => decide (c / 32 = k / 32) := List.mem_filter.mpr ⟨hk, decide_eq_true rfl⟩
  exact foldl_reaches (g := fun t q => claimQuarter force q (cs.filter fun c => decide (c / 32 = q)) t)
    (P := fun t => (chanOf k t).own = .claiming) (q := k / 32) (fun t q ht => claimQuarter_stays t ht)
    (fun t => claimQuarter_claiming force _ t hmem) (quarter_mem hlt) s

theorem claimQuarter_one (force : Bool) (c : Nat) (s : State) : claimQuarter force (c / 32) [c] s
    = sendMsg (mkMsg 1 s.peer.seq (c / 32) (2 ^ (c % 32)) force false false)
        (if (joinedMsg (mkMsg 1 s.peer.seq (c / 32) (2 ^ (c % 32)) force false false) s).isSome && pageActive .peer s
          then setOwn c .claiming s
          else { setOwn c .claiming s with peer := { s.peer with seq := (s.peer.seq + 1) % 16 } }) := by
  rw [claimQuarter, if_neg (by simp), quarterMask_one, if_pos rfl]
  rfl

/-- The CLAIM of one channel alone. -/
theorem claimAll_one {c : Nat} (hc : c < 128) (force : Bool) (s : State) : claimAll force [c] s = claimsOne c force s := by
  rw [claimAll, foldl_only (q := c / 32) (fun t q hq => ?_) List.nodup_range (quarter_mem hc)]
  · simp only [List.filter_cons, decide_true, if_true, List.filter_nil, claimQuarter_one, claimsOne]
  · rw [List.filter_eq_nil_iff.mpr (by simpa using hq.symm), claimQuarter_nil]

end Sys2Proof.Machine
end

section
/-!
What BOOT_FETCH, going on, leaves of the channels and of the peer link (09 R222).
-/

namespace Sys2Proof.Machine

/-! ### Channels that are not FOREIGN go on as they are -/

/-- Where the channel is not FOREIGN its ownership state, its pads and its release stay, and no target to reset is
added. -/
def GoesOn (x y : Chan) : Prop :=
  x.own ≠ .foreign → y.own = x.own ∧ y.driven = x.driven ∧ y.rel = x.rel ∧ (ResetsDone x → ResetsDone y)

theorem GoesOn.refl (x : Chan) : GoesOn x x := fun _ => ⟨rfl, rfl, rfl, id⟩

theorem GoesOn.trans {x y z : Chan} (h : GoesOn x y) (h' : GoesOn y z) : GoesOn x z := by
  intro hx
  obtain ⟨hown, hdriven, hrel, hresets⟩ := h hx
  obtain ⟨hown', hdriven', hrel', hresets'⟩ := h' (hown ▸ hx)
  exact ⟨hown'.trans hown, hdriven'.trans hdriven, hrel'.trans hrel, fun hd => hresets' (hresets hd)⟩

theorem ChanKept.goesOn {x y : Chan} (h : ChanKept x y) : GoesOn x y := fun _ => ⟨h.own, h.driven, h.rel, h.resets⟩

theorem goesOn_of_foreign {x y : Chan} (h : x.own = .foreign) : GoesOn x y := fun hno => absurd h hno

/-- The peer link is kept, and the channels go on. -/
structure Onward (s t : State) : Prop extends LinkKept s t where
  chan : ∀ k, GoesOn (chanOf k s) (chanOf k t)

theorem Onward.refl (s : State) : Onward s s := ⟨.refl s, fun _ => .refl _⟩

theorem Onward.trans {s t u : State} (h : Onward s t) (h' : Onward t u) : Onward s u :=
  ⟨h.toLinkKept.trans h'.toLinkKept, fun k => (h.chan k).trans (h'.chan k)⟩

theorem OwnKept.onward {s t : State} (h : OwnKept s t) : Onward s t :=
  ⟨h.toRestKept.link, fun k => (h.kept k).goesOn⟩

/-! ### Steps of BOOT_FETCH -/

theorem onward_setChan {c : Nat} {x : Chan} {s : State} (h : GoesOn (chanOf c s) x) : Onward s (setChan c x s) := by
  refine ⟨⟨rfl, rfl, fun _ _ => id⟩, fun k => ?_⟩
  rw [chanOf_setChan]
  split
  case isTrue hk => exact hk ▸ h
  case isFalse => exact .refl _

/-- A FOREIGN channel is taken over. -/
theorem onward_enterTakeover {c : Nat} {s : State} (hown : (chanOf c s).own = .foreign) (lost clean : Bool) :
    Onward s (enterTakeover c lost clean s) := by
  have hkept := keptBut_enterTakeover c lost clean s
  refine ⟨hkept.toRestKept.link, fun k => ?_⟩
  by_cases hk : k = c
  · exact goesOn_of_foreign (hk ▸ hown)
  · exact (hkept.others k hk).goesOn

/-- A FOREIGN channel is claimed. -/
theorem onward_claimAll {c : Nat} {s : State} (hown : (chanOf c s).own = .foreign) (force : Bool) :
    Onward s (claimAll force [c] s) := by
  refine ⟨claimAll_link force [c] s, fun k => ?_⟩
  by_cases hk : k = c
  · exact goesOn_of_foreign (hk ▸ hown)
  · exact (claimAll_other force (by simpa using hk) s).goesOn

theorem onward_chanRise (c : Nat) (s : State) : Onward s (chanRise c s) := by
  unfold chanRise
  split
  · exact onward_setChan fun _ => ⟨rfl, rfl, rfl, id⟩
  · extract_lets u
    have hu : Onward s u := onward_setChan fun _ => ⟨rfl, rfl, rfl, id⟩
    by_cases hown : (chanOf c u).own = .foreign
    · rw [if_neg (not_not.mpr hown)]
      split
      · exact hu.trans (onward_enterTakeover hown ..)
      · split
        · exact hu.trans (onward_claimAll hown _)
        · exact hu
    · rw [if_pos hown]
      exact hu

/-- A header that keeps its events. -/
theorem onward_setHdr {p : Page} {x : Hdr} {s : State} (hevents : x.evtPend = (hdrOf p s).evtPend) :
    Onward s (setHdr p x s) := by
  refine ⟨⟨rfl, rfl, fun q i hq => ?_⟩, fun _ => .refl _⟩
  by_cases hpage : pageNum q = pageNum p
  · rw [EvtStands, hdrOf_congr _ hpage] at hq ⊢
    rwa [hdrOf_setHdr_same, hevents]
  · rwa [EvtStands, hdrOf_setHdr_other _ _ hpage]

theorem onward_sec (x : Sec) (s : State) : Onward s { s with sec := x } := ⟨⟨rfl, rfl, fun _ _ => id⟩, fun _ => .refl _⟩

theorem onward_bootChannel (s : State) : Onward s (bootChannel s) := by
  unfold bootChannel
  extract_lets _ u
  have hu : Onward s u := onward_sec _ s
  split
  · exact hu
  · refine Onward.trans ?_ (onward_chanRise 0 _)
    exact hu.trans (onward_setHdr rfl)

/-- A step but the wait for the rail changes neither ownership nor the link. -/
theorem ownKept_bootStep {s t : State} (h : OwnKept s t) (hboot : t.sec.boot ≠ .railWait) : OwnKept s (bootStep t) := by
  unfold bootStep
  extract_lets faulted
  split
  case h_1 hrail => exact absurd hrail hboot
  case h_2 =>
    split
    · exact h.bootFail
    · split
      · exact h.sec fun _ => by simp
      · exact h
  case h_3 =>
    split
    · exact h.bootFail
    · exact h
  case h_4 =>
    split
    · exact h.bootFail
    · split
      · exact (h.sec fun _ => by simp).readBootPage
      · exact h
  case h_5 => exact h

theorem onward_bootStep (s : State) : Onward s (bootStep s) := by
  by_cases hboot : s.sec.boot = .railWait
  · simp only [bootStep, hboot]
    split
    · exact onward_bootChannel s
    · split
      · exact .refl s
      · exact (OwnKept.refl s).bootFail.onward
    · exact .refl s
  · exact (ownKept_bootStep (.refl s) hboot).onward

/-- While BOOT_FETCH does not wait for the rail, its going on changes neither ownership nor the link. -/
theorem ownKept_bootAdvance {s : State} (hboot : s.sec.boot ≠ .railWait) : OwnKept s (bootAdvance s) := by
  have h1 := ownKept_bootStep (.refl s) hboot
  have h2 := ownKept_bootStep h1 (h1.boot hboot)
  exact ownKept_bootStep h2 (h2.boot hboot)

theorem onward_bootAdvance (s : State) : Onward s (bootAdvance s) :=
  ((onward_bootStep s).trans (onward_bootStep _)).trans (onward_bootStep _)

theorem InTakeover.onward {clean : Bool} {c : Nat} {s t : State} (h : Onward s t) (hs : InTakeover clean (chanOf c s)) :
    InTakeover clean (chanOf c t) := by
  obtain ⟨hown, hdriven, hresets⟩ := hs
  obtain ⟨hown', hdriven', -, hresets'⟩ := h.chan c (by rw [hown]; decide)
  exact ⟨hown'.trans hown, hdriven'.trans hdriven, fun hclean => hresets' (hresets hclean)⟩

end Sys2Proof.Machine
end

section
/-!
Ownership commands and the ends of the ownership states, RELEASE_COMPLETE (O51; 08 R187, R188, R191, Table 8.8).
-/

namespace Sys2Proof.Machine

/-! ### OWN_CMD -/

section

variable {c : Nat} {force : Bool} {s : State}

/-- The ownership states in which a CLAIM is accepted. -/
def claimsFrom (x : Chan) : Prop := x.own = .halted ∨ (x.own = .foreign ∧ x.shared = true)

theorem ownClaim_ignored (h : pageActive (chnPage c) s = false ∨ ¬claimsFrom (chanOf c s)) :
    ownClaim c force s = ownIgnored c s := by
  rcases h with hoff | hno
  · simp [ownClaim, hoff]
  · simp only [claimsFrom, not_or, not_and, Bool.not_eq_true] at hno
    obtain ⟨hhalted, hforeign⟩ := hno
    unfold ownClaim
    split
    · rfl
    · split
      case h_1 hown => rw [shared, hforeign hown]; rfl
      case h_2 hown => exact absurd hown hhalted
      case h_3 => rfl

theorem ownClaim_shared (hactive : pageActive (chnPage c) s = true) (hfrom : claimsFrom (chanOf c s))
    (hshared : (chanOf c s).shared = true) : ownClaim c force s = claimAll force [c] s := by
  rcases hfrom with hown | ⟨hown, -⟩ <;> simp [ownClaim, hactive, hown, shared, hshared]

theorem ownClaim_unshared (hactive : pageActive (chnPage c) s = true) (hfrom : claimsFrom (chanOf c s))
    (hshared : (chanOf c s).shared = false) : ownClaim c force s = enterTakeover c false false s := by
  rcases hfrom with hown | ⟨-, hyes⟩
  · simp [ownClaim, hactive, hown, shared, hshared]
  · simp [hshared] at hyes

theorem ownRelease_ignored
    (h : pageActive (chnPage c) s = false ∨ ¬((chanOf c s).own = .owned ∨ (chanOf c s).own = .halted)) :
    ownRelease c s = ownIgnored c s := by
  rcases h with hoff | hno
  · simp [ownRelease, hoff]
  · rw [not_or] at hno
    unfold ownRelease
    split
    · rfl
    · split
      case h_1 hown => exact absurd hown hno.1
      case h_2 hown => exact absurd hown hno.2
      case h_3 => rfl

theorem ownRelease_owned (hactive : pageActive (chnPage c) s = true) (hown : (chanOf c s).own = .owned) :
    ownRelease c s = enterReleasing c .command s := by
  simp [ownRelease, hactive, hown]

theorem ownRelease_halted (hactive : pageActive (chnPage c) s = true) (hown : (chanOf c s).own = .halted) :
    ownRelease c s = setOwn c .foreign (if (chanOf c s).shared then releaseAll false [c] s else s) := by
  rw [ownRelease, hactive, hown]
  rfl

end

theorem chnId_lt (c : ChnId) : c.toNat < 128 := c.isLt

theorem ownershipCommands : Claims.OwnershipCommands := by
  intro c force s hanswers n x u mask claim ignored claims releases
  have hclaim {v : State} (h : ownClaim n force u = v) : exec claim s = .next (settle (csrOk 0 v)) := by
    rw [← h, ← csrDo_answers (ownClaim n force) hanswers]
    cases force <;> rfl
  have hrelease {v : State} (h : ownRelease n u = v) :
      exec (.ownCmdRelease c) s = .next (settle (csrOk 0 v)) := by
    rw [← h, ← csrDo_answers (ownRelease n) hanswers]
    rfl
  have hpage : pageActive (chnPage n) u = pageActive (.chn c) s := by rw [chnPage_toNat]; rfl
  have hignored : ownIgnored n u = raiseErr (.chn c) 0x0104 (ownCode x.own) u := by rw [ownIgnored, chnPage_toNat]; rfl
  refine ⟨fun h => hclaim ((ownClaim_ignored (hpage ▸ h)).trans hignored),
    fun hactive hfrom hshared => hclaim ?_, fun hactive hfrom hshared => ⟨_, hclaim (ownClaim_unshared
      (hpage.trans hactive) hfrom hshared), ?_⟩,
    fun h => hrelease ((ownRelease_ignored (hpage ▸ h)).trans hignored),
    fun hactive hown => ⟨_, hrelease (ownRelease_owned (hpage.trans hactive) hown), chanOf_enterReleasing n .command u⟩,
    fun hactive hown => hrelease ((ownRelease_halted (hpage.trans hactive) hown).trans ?_)⟩
  · rw [ownClaim_shared (hpage.trans hactive) hfrom hshared, claimAll_one (chnId_lt c)]
  · obtain ⟨hown, hdriven, -⟩ := inTakeover_enterTakeover n false false u
    exact ⟨hown, hdriven⟩
  · rw [releaseAll, sendFor_one (chnId_lt c)]
    rfl

/-! ### The ends of the states -/

theorem filter_erase_of_neg {α : Type} {p : Nat × α → Bool} {k : Nat} (h : ∀ v, p (k, v) = false) (m : SMap α) :
    (SMap.erase k m).filter p = m.filter p := by
  induction m with
  | nil => rfl
  | cons e r ih =>
    obtain ⟨j, v⟩ := e
    rw [SMap.erase]
    split
    case isTrue hjk => rw [List.filter_cons, hjk, h]; exact ih
    case isFalse => rw [List.filter_cons, List.filter_cons, ih]

/-- A write of one key does not change what holds of the entries of other keys alone. -/
theorem any_put_of_neg {α : Type} [DecidableEq α] {p : Nat × α → Bool} {k : Nat} (h : ∀ v, p (k, v) = false) (d : Nat → α)
    (m : SMap α) (v : α) : (SMap.put d m k v).any p = m.any p := by
  have hfilter : (SMap.put d m k v).filter p = m.filter p := by
    rw [SMap.put]
    split
    · exact filter_erase_of_neg h m
    · rw [filter_insert_of_neg (h v), filter_erase_of_neg h]
  have hany (l : SMap α) : l.any p = true ↔ l.filter p ≠ [] := by simp
  rw [Bool.eq_iff_iff, hany, hany, hfilter]

theorem lostLeft_setChan (c : Nat) (x : Chan) (s : State) : lostLeft c (setChan c x s) = lostLeft c s :=
  any_put_of_neg (fun _ => by simp) chanDefault s.chn x

theorem lostLeft_of_chn {s u : State} (h : u.chn = s.chn) (c : Nat) : lostLeft c u = lostLeft c s := by
  rw [lostLeft, h, lostLeft]

/-- The channel at the end of its takeover. -/
def ownedChan (c : Nat) (s : State) : Chan :=
  { chanOf c s with own := .owned, ownSince := s.cc, dirty := false, takeLost := false,
                    retrainCount := retrainInterval c s }

/-- The takeover has ended, PEER_LOST apart. -/
def takenOver (c : Nat) (s : State) : State :=
  raiseEvt (chnPage c) 5 (bump (chnPage c) 6 (setChan c (ownedChan c s) s))

theorem lostLeft_takenOver (c : Nat) (s : State) : lostLeft c (takenOver c s) = lostLeft c s := by
  rw [lostLeft_of_chn (u := takenOver c s) (s := setChan c (ownedChan c s) s) (bump_chn ..), lostLeft_setChan]

theorem takeoverEnd_eq {c : Nat} {s : State}
    (hdone : (chanOf c s).own = .takeover ∧ (chanOf c s).take = none ∧ busFree c s = true) : takeoverEnd c s
    = if (chanOf c s).takeLost && !lostLeft c (takenOver c s) then raiseEvt .peer 2 (takenOver c s)
      else takenOver c s := by
  rw [takeoverEnd, if_pos hdone]
  simp only [takenOver, ownedChan, setOwn, modChan_eq, chanOf_setChan_same, setChan_setChan, setChan_cc]
  rfl

theorem ownershipStatesEnd : Claims.OwnershipStatesEnd := by
  intro c s n x out back done
  have htimeout {v : State} (h : claimTimeout n s = v) : exec (.claimTimeout c) s = .next (settle v) := h ▸ rfl
  have hback {v : State} (h : backoffEnd n s = v) : exec (.backoffEnd c) s = .next (settle v) := h ▸ rfl
  have htake {v : State} (h : takeoverEnd n s = v) : exec (.takeoverEnd c) s = .next (settle v) := h ▸ rfl
  refine ⟨fun hnot => htimeout (if_neg hnot), fun hout => htimeout (if_pos hout), fun hnot => hback (if_neg hnot),
    fun hends hshared => hback ((if_pos hends).trans ?_), fun hends hunshared => ⟨_, hback (if_pos hends), ?_⟩,
    fun hnot => htake (if_neg hnot), fun hdone => htake ((takeoverEnd_eq hdone).trans ?_)⟩
  · rw [show shared n s = true from hshared, if_pos rfl, claimAll_one (chnId_lt c)]
  · rw [show shared n s = false from hunshared, if_neg (by decide)]
    obtain ⟨hown, hdriven, -⟩ := (inTakeover_enterTakeover n false false s).onward (onward_bootAdvance _)
    exact ⟨hown, hdriven⟩
  · rw [lostLeft_takenOver, takenOver, chnPage_toNat]
    exact if_congr (by simp [x]) rfl rfl

/-! ### RELEASE_COMPLETE -/

/-- What a channel that has become FOREIGN, its pads released, leaves, with the messages sent off about it. -/
def Left (c : Nat) (dirty : Bool) (msg : List Word64) (s v : State) : Prop :=
  (chanOf c v).own = .foreign ∧ (chanOf c v).driven = false ∧ (chanOf c v).dirty = dirty
  ∧ (s.peer.txq.length < 16 → pageActive .peer s = true → s.peer.freshAt ≠ s.cc → v.peer =
      { s.peer with txq := s.peer.txq ++ msg, fresh := v.peer.fresh, freshAt := v.peer.freshAt })

section

variable (c : Nat) (s : State)

theorem left_goForeign (d : Bool) : Left c ((chanOf c s).dirty || d) [] s (goForeign c d s) := by
  obtain ⟨hown, hdriven, hdirty, -⟩ := chanOf_goForeign c d s
  refine ⟨hown, hdriven, hdirty, fun _ _ _ => ?_⟩
  rw [(keptBut_goForeign c d s).peer, List.append_nil]

theorem left_sendMsg (d : Bool) (m : Word64) : Left c ((chanOf c s).dirty || d) [m] s (sendMsg m (goForeign c d s)) := by
  obtain ⟨hown, hdriven, hdirty, -⟩ := chanOf_goForeign c d s
  have hrest := (keptBut_goForeign c d s).toRestKept
  rw [← (sentFrom_sendMsg m (goForeign c d s)).chanOf c] at hown hdriven hdirty
  refine ⟨hown, hdriven, hdirty, fun hroom hactive hfresh => ?_⟩
  rw [← hrest.peer] at hroom hfresh
  rw [← hrest.cc] at hfresh
  rw [sendMsg_joinsNone ((hrest.active .peer).trans hactive) hfresh hroom, hrest.peer]

variable {c s}

theorem releaseComplete_over (hdisabling : (chanOf c s).disabling = false) (hown : (chanOf c s).own = .releasing)
    (hready : releaseReady c s = true) : releaseComplete c s = releaseOver c s := by
  rw [releaseComplete, hdisabling, if_neg (by decide), if_pos ⟨hown, hready⟩]

theorem releaseComplete_waits (hdisabling : (chanOf c s).disabling = false)
    (hnot : (chanOf c s).own = .releasing → releaseReady c s = false) : releaseComplete c s = s := by
  rw [releaseComplete, hdisabling, if_neg (by decide), if_neg]
  rintro ⟨hown, hready⟩
  simp [hnot hown] at hready

end

/-- A RELEASE or GRANT about one channel. -/
def aboutOne (c type seq : Nat) (clean granted : Bool) : Word64 :=
  mkMsg type seq (c / 32) (2 ^ (c % 32)) false clean granted

theorem releaseAll_one {c : Nat} (hc : c < 128) (clean : Bool) (s : State) :
    releaseAll clean [c] s = sendMsg (aboutOne c 3 0 clean false) s := sendFor_one hc _ s

theorem grantAll_one {c : Nat} (hc : c < 128) (seq : Nat) (granted clean : Bool) (s : State) :
    grantAll seq granted clean [c] s = sendMsg (aboutOne c 2 seq clean granted) s := sendFor_one hc _ s

section

variable {c : Nat} {s : State} (hc : c < 128)
include hc

theorem left_command (hrel : (chanOf c s).rel = some .command) : Left c (chanOf c s).dirty
    (if (chanOf c s).shared then [aboutOne c 3 0 (!(chanOf c s).dirty) false] else []) s (releaseOver c s) := by
  obtain ⟨-, -, hdirty, hshared⟩ := chanOf_goForeign c false s
  have hsent := left_sendMsg c s false
  have hsilent := left_goForeign c s false
  rw [Bool.or_false] at hdirty hsilent
  simp only [Bool.or_false] at hsent
  simp only [releaseOver, hrel, shared, hshared, hdirty, releaseAll_one hc]
  cases (chanOf c s).shared with
  | true => simpa only [if_true] using hsent _
  | false => simpa only [Bool.false_eq_true, if_false] using hsilent

theorem left_yielded {q : Nat} (hrel : (chanOf c s).rel = some (.yielded q)) :
    Left c (chanOf c s).dirty [aboutOne c 2 q (!(chanOf c s).dirty) true] s (releaseOver c s) := by
  obtain ⟨-, -, hdirty, -⟩ := chanOf_goForeign c false s
  have hsent := left_sendMsg c s false
  simp only [Bool.or_false] at hsent hdirty
  simp only [releaseOver, hrel, hdirty, grantAll_one hc]
  exact hsent _

theorem left_forcedClaim {q : Nat} (hrel : (chanOf c s).rel = some (.forcedClaim q)) :
    Left c true [aboutOne c 2 q false true] s (releaseOver c s) := by
  have hsent := left_sendMsg c s true
  simp only [Bool.or_true] at hsent
  simp only [releaseOver, hrel, grantAll_one hc]
  exact hsent _

theorem left_forcedInfo (hrel : (chanOf c s).rel = some .forcedInfo) :
    Left c true [aboutOne c 3 0 false false] s (releaseOver c s) := by
  have hsent := left_sendMsg c s true
  simp only [Bool.or_true] at hsent
  simp only [releaseOver, hrel, releaseAll_one hc]
  exact hsent _

end

theorem releaseCompletes : Claims.ReleaseCompletes := by
  intro c s n x quiet forced leaves m
  have hc : n < 128 := chnId_lt c
  have hexec {v : State} (h : releaseComplete n s = v) : exec (.releaseComplete c) s = .next (settle v) := h ▸ rfl
  have hleft {d : Bool} {msg : List Word64} {v : State} (h : releaseComplete n s = v) (hv : Left n d msg s v) :
      leaves d msg := ⟨v, hexec h, hv⟩
  refine ⟨fun hdis harray => hexec ?_, fun hdis harray => ?_, fun hdis hown => hexec (releaseComplete_waits hdis
    fun hyes => absurd hyes hown), fun hdis hown => ?_⟩
  · rw [releaseComplete, show (chanOf n s).disabling = true from hdis, harray]
    rfl
  · have hforeign := left_goForeign n s false
    rw [Bool.or_false] at hforeign
    refine hleft ?_ hforeign
    rw [releaseComplete, show (chanOf n s).disabling = true from hdis, harray]
    rfl
  have hover (h : releaseReady n s = true) := releaseComplete_over hdis hown h
  have hwaits (h : ¬releaseReady n s = true) := hexec (releaseComplete_waits hdis fun _ => Bool.not_eq_true _ ▸ h)
  have hquiet {k : RelKind} (hrel : x.rel = some k) (hk : k = .command ∨ ∃ q, k = .yielded q) :
      releaseReady n s = true ↔ quiet := by
    rcases hk with rfl | ⟨q, rfl⟩ <;> simp [releaseReady, show (chanOf n s).rel = _ from hrel, quiet]
  have hforced {k : RelKind} (hrel : x.rel = some k) (hk : k = .forcedInfo ∨ ∃ q, k = .forcedClaim q) :
      releaseReady n s = true ↔ forced := by
    rcases hk with rfl | ⟨q, rfl⟩ <;> simp [releaseReady, show (chanOf n s).rel = _ from hrel, forced, x]
  refine ⟨fun hrel hno => hwaits (mt (hquiet hrel (.inl rfl)).mp hno),
    fun hrel hyes => hleft (hover ((hquiet hrel (.inl rfl)).mpr hyes)) (left_command hc hrel), fun q =>
    ⟨fun hrel hno => hwaits (mt (hquiet hrel (.inr ⟨q, rfl⟩)).mp hno),
    fun hrel hyes => hleft (hover ((hquiet hrel (.inr ⟨q, rfl⟩)).mpr hyes)) (left_yielded hc hrel),
    fun hrel hno => hwaits (mt (hforced hrel (.inr ⟨q, rfl⟩)).mp hno),
    fun hrel hyes => hleft (hover ((hforced hrel (.inr ⟨q, rfl⟩)).mpr hyes)) (left_forcedClaim hc hrel),
    fun hrel hno => hwaits (mt (hforced hrel (.inl rfl)).mp hno),
    fun hrel hyes => hleft (hover ((hforced hrel (.inl rfl)).mpr hyes)) (left_forcedInfo hc hrel)⟩⟩

/-- Settles O51: the commands, the ends of the states and RELEASE_COMPLETE, each from what its change of state leaves. -/
theorem channelOwnership : Obligations.ChannelOwnership := ⟨ownershipCommands, ownershipStatesEnd, releaseCompletes⟩

end Sys2Proof.Machine
end

section
/-!
Messages received: discarded frames, and a CLAIM (O53; 08 R183, R185, R187, Table 8.8).
-/

namespace Sys2Proof.Machine

/-! ### A message is heard, or not -/

/-- A good message is counted and stands in LAST_RX. -/
def heard (m : Word64) (s : State) : State := bump .peer 1 { s with peer.lastRx := m }

section

variable {type : Nat} {m : Word64} {act : State → State} {s : State}

theorem received_arrives (h : arrives type m s) : received type m act s = act (heard m s) := by
  obtain ⟨hlink, hcrc, htype⟩ := h
  rw [received, hlink, hcrc, decide_eq_true htype]
  rfl

theorem received_ignored (h : linkOn s = false ∨ crcGoodMsg m = false ∨ msgType m ≠ type) : received type m act s = s := by
  rcases h with h | h | h <;> simp [received, h]

end

theorem badMessagesDiscarded : Claims.BadMessagesDiscarded := by
  intro m stop s bad reserved
  have hexec {v : State} (h : msgError m stop s = v) : exec (.msgError m stop) s = .next (settle v) := h ▸ rfl
  have hbad : (!stop || !crcGoodMsg m) = true ↔ bad := by simp [bad]
  refine ⟨fun x hx hno => ?_, fun hoff => hexec ?_, fun hon hyes => hexec ?_, fun hon hno hres => hexec ?_,
    fun hon hno hnot => hexec ?_⟩
  · have hfin {type : Nat} {act : State → State} (h : linkOn s = false ∨ crcGoodMsg m = false ∨ msgType m ≠ type) :
        fin (received type m act s) = .next (settle s) := congrArg fin (received_ignored h)
    simp only [List.mem_cons, List.not_mem_nil, or_false] at hx
    rcases hx with rfl | rfl | rfl | rfl | rfl <;> exact hfin hno
  · rw [msgError, hoff]
    rfl
  · rw [msgError, hon, if_neg (by decide), if_pos (hbad.mpr hyes)]
  · rw [msgError, hon, if_neg (by decide), if_neg (mt hbad.mp hno), if_pos hres]
  · rw [msgError, hon, if_neg (by decide), if_neg (mt hbad.mp hno), if_neg hnot]

section

variable (m : Word64) (s : State)

@[simp] theorem chanOf_heard (k : Nat) : chanOf k (heard m s) = chanOf k s := by rw [heard, chanOf_bump]; rfl
@[simp] theorem heard_peer : (heard m s).peer = { s.peer with lastRx := m } := by rw [heard, bump_peer]
@[simp] theorem heard_cc : (heard m s).cc = s.cc := by rw [heard, bump_cc]
@[simp] theorem heard_pins : (heard m s).pins = s.pins := by rw [heard, bump_pins]
@[simp] theorem heard_regs : (heard m s).regs = s.regs := by rw [heard, bump_regs]

@[simp] theorem pageActive_heard (p : Page) : pageActive p (heard m s) = pageActive p s :=
  (OwnKept.refl { s with peer.lastRx := m }).bump.active p

@[simp] theorem shared_heard (c : Nat) : shared c (heard m s) = shared c s := by rw [shared, chanOf_heard, shared]

@[simp] theorem seniorOn_heard (c : Nat) : seniorOn c (heard m s) = seniorOn c s := seniorOn_of_pins (heard_pins m s) c

@[simp] theorem yieldBit_heard (c : Nat) : yieldBit c (heard m s) = yieldBit c s := by
  simp only [yieldBit, regOf, heard_regs]

@[simp] theorem namedChans_heard : namedChans m (heard m s) = namedChans m s := by
  simp only [namedChans, shared_heard]

variable {m s}

theorem mem_namedChans {c : Nat} : c ∈ namedChans m s
    ↔ c / 32 = msgQuarter m ∧ (msgMask m).testBit (c % 32) = true ∧ shared c s = true := by
  simp only [namedChans, List.mem_map, List.mem_filter, List.mem_range, Bool.and_eq_true, bitAt]
  constructor
  · rintro ⟨i, ⟨hi, hbit, hshared⟩, rfl⟩
    rw [show (32 * msgQuarter m + i) % 32 = i by omega]
    exact ⟨by omega, hbit, hshared⟩
  · rintro ⟨hq, hbit, hshared⟩
    have hc : 32 * msgQuarter m + c % 32 = c := by omega
    exact ⟨c % 32, ⟨Nat.mod_lt _ (by decide), hbit, by rwa [hc]⟩, hc⟩

theorem msgQuarter_lt (m : Word64) : msgQuarter m < 4 := Nat.mod_lt _ (by decide)

theorem namedChans_lt {c : Nat} (hc : c ∈ namedChans m s) : c < 128 := by
  have hq := (mem_namedChans.mp hc).1
  have hlt := msgQuarter_lt m
  omega

@[simp] theorem mem_inOwn {o : Own} {cs : List Nat} {c : Nat} : c ∈ inOwn o cs s ↔ c ∈ cs ∧ (chanOf c s).own = o := by
  simp [inOwn]

end

/-! ### A CLAIM, by the lists of channels that it meets -/

section

variable (m : Word64) (s : State)

/-- A CLAIM is obeyed by a channel that is OWNED. -/
def givesWay (c : Nat) : Bool := msgForce m || yieldBit c s

/-- The channels that a CLAIM names, by what becomes of them. -/
def junList : List Nat := (inOwn .claiming (namedChans m s) s).filter fun c => !seniorOn c s
def backList : List Nat := inOwn .backoff (namedChans m s) s
def freeList : List Nat := inOwn .foreign (namedChans m s) s ++ junList m s
def giveList : List Nat := (inOwn .owned (namedChans m s) s).filter fun c => givesWay m s c
def denyList : List Nat := (inOwn .owned (namedChans m s) s).filter fun c => !givesWay m s c
def cleanList : List Nat := (freeList m s).filter fun c => !(chanOf c s).dirty
def dirtyList : List Nat := ((freeList m s).filter fun c => (chanOf c s).dirty) ++ backList m s

/-- Channels become FOREIGN. -/
def cede (l : List Nat) (s : State) : State := l.foldl (fun s c => setOwn c .foreign s) s

/-- The answers to a CLAIM. -/
def answer (q : Nat) (clean dirty deny : List Nat) (s : State) : State :=
  grantAll q false false deny (grantAll q true false dirty (grantAll q true true clean s))

/-- OWNED channels are given up. -/
def giveUp (l : List Nat) (s : State) : State :=
  if msgForce m then
    l.foldl (fun s c => enterReleasing c (.forcedClaim (msgSeq m)) (bump .peer 6 s))
      (if l.isEmpty then s else raiseEvt .rst 1 (bump .rst 0 s))
  else l.foldl (fun s c => enterReleasing c (.yielded (msgSeq m)) s) s

/-- A CLAIM for OWNED channels wakes the block from Doze. -/
def woken : State := if (inOwn .owned (namedChans m s) s).isEmpty then s else wakeDoze s

theorem woken_eq : ∃ p : Pwr, woken m s = { s with pwr := p } := by
  unfold woken wakeDoze
  split
  · exact ⟨s.pwr, rfl⟩
  · split
    · exact ⟨_, rfl⟩
    · exact ⟨s.pwr, rfl⟩

theorem pageActive_woken (p : Page) : pageActive p (woken m s) = pageActive p s := by
  unfold woken wakeDoze
  split
  · rfl
  · split
    case isTrue hdoze => simp only [pageActive, pageAnswers, corePowered, hdoze]; rfl
    case isFalse => rfl

theorem takeClaim_eq : takeClaim m s = giveUp m (giveList m s) (answer (msgSeq m) (cleanList m s) (dirtyList m s)
    (denyList m s) (cede (junList m s ++ backList m s) (woken m s))) := by
  unfold takeClaim
  extract_lets cs q owned w give deny jun back free clean dirty
  have hw : w = woken m s := rfl
  obtain ⟨p, hp⟩ := woken_eq m s
  rw [← hw] at hp ⊢
  clear_value w
  subst hp
  rfl

/-! What each step of it leaves. -/

theorem keptBut_cede (t : State) (c : Nat) : KeptBut c t (setOwn c .foreign t) := keptBut_setOwn _

theorem cede_foreign {l : List Nat} {c : Nat} (hc : c ∈ l) : (chanOf c (cede l s)).own = .foreign :=
  foldl_changed keptBut_cede (Q := fun x => x.own = .foreign) (fun _ _ h hx => h.own.trans hx) hc
    (fun t => by rw [chanOf_setOwn_same, ownSet_own]) s

theorem sentFrom_grantAll (q : Nat) (granted clean : Bool) (cs : List Nat) (s : State) :
    SentFrom s (grantAll q granted clean cs s) := sentFrom_sendFor cs _ s

theorem sentFrom_answer (q : Nat) (clean dirty deny : List Nat) : SentFrom s (answer q clean dirty deny s) :=
  ((sentFrom_grantAll ..).trans (sentFrom_grantAll ..)).trans (sentFrom_grantAll ..)

/-- How a CLAIM makes a channel leave. -/
def givenUp : RelKind := if msgForce m then .forcedClaim (msgSeq m) else .yielded (msgSeq m)

/-- A channel is given up; a forced release counts. -/
def giveOne (t : State) (c : Nat) : State :=
  enterReleasing c (givenUp m) (if msgForce m then bump .peer 6 t else t)

theorem keptBut_giveOne (t : State) (c : Nat) : KeptBut c t (giveOne m t c) := by
  unfold giveOne
  split
  · exact (OwnKept.refl t).bump.keptBut.trans (keptBut_enterReleasing ..)
  · exact keptBut_enterReleasing ..

theorem giveUp_eq (l : List Nat) : ∃ t, OwnKept s t ∧ giveUp m l s = l.foldl (giveOne m) t := by
  cases hforce : msgForce m with
  | true =>
    have hstep : giveOne m = fun t c => enterReleasing c (.forcedClaim (msgSeq m)) (bump .peer 6 t) := by
      funext t c
      rw [giveOne, givenUp, hforce, if_pos rfl, if_pos rfl]
    refine ⟨if l.isEmpty then s else raiseEvt .rst 1 (bump .rst 0 s), ?_, ?_⟩
    · split
      · exact .refl s
      · exact (OwnKept.refl s).bump.raiseEvt
    · rw [giveUp, if_pos hforce, hstep]
  | false =>
    have hstep : giveOne m = fun t c => enterReleasing c (.yielded (msgSeq m)) t := by
      funext t c
      rw [giveOne, givenUp, hforce, if_neg (by decide), if_neg (by decide)]
    exact ⟨s, .refl s, by rw [giveUp, if_neg (by simp [hforce]), hstep]⟩

theorem giveUp_rest (l : List Nat) : RestKept s (giveUp m l s) := by
  obtain ⟨t, ht, heq⟩ := giveUp_eq m s l
  exact heq ▸ ht.toRestKept.trans (foldl_rest (keptBut_giveOne m) l t)

theorem giveUp_other {l : List Nat} {c : Nat} (hc : c ∉ l) : (chanOf c (giveUp m l s)).own = (chanOf c s).own := by
  obtain ⟨t, ht, heq⟩ := giveUp_eq m s l
  exact heq ▸ ((ht.kept c).trans (foldl_others (keptBut_giveOne m) hc t)).own

theorem giveUp_releasing {l : List Nat} {c : Nat} (hc : c ∈ l) :
    (chanOf c (giveUp m l s)).own = .releasing ∧ (chanOf c (giveUp m l s)).rel = some (givenUp m) := by
  obtain ⟨t, -, heq⟩ := giveUp_eq m s l
  refine heq ▸ foldl_changed (keptBut_giveOne m) (Q := fun x => x.own = .releasing ∧ x.rel = some (givenUp m))
    (fun _ _ h hx => ⟨h.own.trans hx.1, h.rel.trans hx.2⟩) hc (fun u => ?_) t
  obtain ⟨hown, hrel, -⟩ := chanOf_enterReleasing c (givenUp m) (if msgForce m then bump .peer 6 u else u)
  exact ⟨hown, hrel⟩

/-! What a CLAIM leaves as a whole. -/

/-- The state behind the answers to a CLAIM. -/
def claimAnswered : State :=
  answer (msgSeq m) (cleanList m s) (dirtyList m s) (denyList m s) (cede (junList m s ++ backList m s) (woken m s))

theorem takeClaim_peer : (takeClaim m s).peer = (claimAnswered m s).peer := by
  rw [takeClaim_eq]
  exact (giveUp_rest m (claimAnswered m s) (giveList m s)).peer

theorem chanOf_woken (c : Nat) : chanOf c (woken m s) = chanOf c s := by
  obtain ⟨p, hp⟩ := woken_eq m s
  rw [hp]
  rfl

theorem cede_woken_rest : RestKept (woken m s) (cede (junList m s ++ backList m s) (woken m s)) :=
  foldl_rest keptBut_cede _ _

theorem takeClaim_lastRx : (takeClaim m s).peer.lastRx = s.peer.lastRx := by
  rw [takeClaim_peer, claimAnswered, (sentFrom_answer _ _ _ _ _).link.lastRx, (cede_woken_rest m s).peer]
  obtain ⟨p, hp⟩ := woken_eq m s
  rw [hp]

variable {m s} {c : Nat}

theorem takeClaim_other (hcede : c ∉ junList m s ++ backList m s) (hgive : c ∉ giveList m s) :
    (chanOf c (takeClaim m s)).own = (chanOf c s).own := by
  rw [takeClaim_eq, giveUp_other m _ hgive, (sentFrom_answer _ _ _ _ _).chanOf, ← chanOf_woken m s]
  exact (foldl_others keptBut_cede hcede _).own

theorem takeClaim_foreign (hcede : c ∈ junList m s ++ backList m s) (hgive : c ∉ giveList m s) :
    (chanOf c (takeClaim m s)).own = .foreign := by
  rw [takeClaim_eq, giveUp_other m _ hgive, (sentFrom_answer _ _ _ _ _).chanOf]
  exact cede_foreign _ hcede

theorem takeClaim_releasing (hgive : c ∈ giveList m s) :
    (chanOf c (takeClaim m s)).own = .releasing ∧ (chanOf c (takeClaim m s)).rel = some (givenUp m) := by
  rw [takeClaim_eq]
  exact giveUp_releasing m _ hgive

/-! The lists that a named channel is in, by its ownership state. -/

theorem mem_ceded (hc : c ∈ namedChans m s) : c ∈ junList m s ++ backList m s
    ↔ ((chanOf c s).own = .claiming ∧ seniorOn c s = false) ∨ (chanOf c s).own = .backoff := by
  simp [junList, backList, hc]

theorem mem_giveList (hc : c ∈ namedChans m s) :
    c ∈ giveList m s ↔ (chanOf c s).own = .owned ∧ givesWay m s c = true := by
  simp [giveList, hc]

/-! One channel alone: the answer. -/

theorem inOwn_one (o : Own) : inOwn o [c] s = if (chanOf c s).own = o then [c] else [] := by
  by_cases h : (chanOf c s).own = o <;> simp [inOwn, h]

/-- The answer to a CLAIM that names one channel, where it gets one. -/
theorem takeClaim_answers (hlink : pageActive .peer s = true) (hroom : s.peer.txq.length < 16)
    (hfresh : s.peer.freshAt ≠ s.cc) {a : Word64} (hanswer : ∀ t, answer (msgSeq m) (cleanList m s) (dirtyList m s)
      (denyList m s) t = sendMsg a t) : (takeClaim m s).peer.txq = s.peer.txq ++ [a] := by
  have hrest := cede_woken_rest m s
  obtain ⟨p, hp⟩ := woken_eq m s
  have hpeer : (woken m s).peer = s.peer := by rw [hp]
  have hcc : (woken m s).cc = s.cc := by rw [hp]
  rw [takeClaim_peer, claimAnswered, hanswer, sendMsg_joinsNone, hrest.peer, hpeer]
  · rw [hrest.active, pageActive_woken, hlink]
  · rwa [hrest.peer, hrest.cc, hpeer, hcc]
  · rwa [hrest.peer, hpeer]

theorem grantAll_nil (q : Nat) (granted clean : Bool) (t : State) : grantAll q granted clean [] t = t := rfl

theorem answer_granted (hc : c < 128) (q : Nat) (d : Bool) (t : State) :
    answer q (if d then [] else [c]) (if d then [c] else []) [] t = sendMsg (aboutOne c 2 q (!d) true) t := by
  cases d with
  | true => rw [answer, if_pos rfl, if_pos rfl, grantAll_nil, grantAll_nil, grantAll_one hc, Bool.not_true]
  | false =>
    rw [answer, if_neg (by decide), if_neg (by decide), grantAll_nil, grantAll_nil, grantAll_one hc, Bool.not_false]

theorem answer_denied (hc : c < 128) (q : Nat) (t : State) :
    answer q [] [] [c] t = sendMsg (aboutOne c 2 q false false) t := by
  rw [answer, grantAll_nil, grantAll_nil, grantAll_one hc]

section

variable (hone : namedChans m s = [c])
include hone

theorem lists_free (hown : (chanOf c s).own = .foreign ∨ ((chanOf c s).own = .claiming ∧ seniorOn c s = false)) :
    cleanList m s = (if (chanOf c s).dirty then [] else [c]) ∧ dirtyList m s = (if (chanOf c s).dirty then [c] else [])
    ∧ denyList m s = [] := by
  rcases hown with hown | ⟨hown, hjunior⟩ <;> cases hdirty : (chanOf c s).dirty <;>
    simp [cleanList, dirtyList, denyList, freeList, junList, backList, inOwn_one, *]

theorem lists_senior (hown : (chanOf c s).own = .claiming) (hsenior : seniorOn c s = true) :
    cleanList m s = [] ∧ dirtyList m s = [] ∧ denyList m s = [] := by
  simp [cleanList, dirtyList, denyList, freeList, junList, backList, hone, inOwn_one, hown, hsenior]

theorem lists_backoff (hown : (chanOf c s).own = .backoff) :
    cleanList m s = [] ∧ dirtyList m s = [c] ∧ denyList m s = [] := by
  simp [cleanList, dirtyList, denyList, freeList, junList, backList, hone, inOwn_one, hown]

theorem lists_denied (hown : (chanOf c s).own = .owned) (hkeep : givesWay m s c = false) :
    cleanList m s = [] ∧ dirtyList m s = [] ∧ denyList m s = [c] := by
  simp [cleanList, dirtyList, denyList, freeList, junList, backList, hone, inOwn_one, hown, hkeep]

end

/-- 08 Table 8.8: what a CLAIM makes of a channel that it names, and how it is answered. -/
theorem takeClaim_named (hc : c ∈ namedChans m s) (hlink : pageActive .peer s = true) :
    let x := chanOf c s
    let v := takeClaim m s
    let y := chanOf c v
    let give := givesWay m s c
    (x.own = .foreign → y.own = .foreign)
    ∧ (x.own = .claiming → y.own = if seniorOn c s then .claiming else .foreign)
    ∧ (x.own = .backoff → y.own = .foreign)
    ∧ (x.own = .owned → give = false → y.own = .owned)
    ∧ (x.own = .owned → give = true → y.own = .releasing ∧ y.rel = some (givenUp m))
    ∧ (namedChans m s = [c] → s.peer.txq.length < 16 → s.peer.freshAt ≠ s.cc →
        let tells := fun clean granted => v.peer.txq = s.peer.txq ++ [aboutOne c 2 (msgSeq m) clean granted]
        (x.own = .foreign → tells (!x.dirty) true)
        ∧ (x.own = .claiming → seniorOn c s = false → tells (!x.dirty) true)
        ∧ (x.own = .claiming → seniorOn c s = true → v.peer.txq = s.peer.txq)
        ∧ (x.own = .backoff → tells false true)
        ∧ (x.own = .owned → give = false → tells false false)) := by
  intro x v y give
  have hlt := namedChans_lt hc
  have hkeeps (hcede : ¬((x.own = .claiming ∧ seniorOn c s = false) ∨ x.own = .backoff))
      (hgive : ¬(x.own = .owned ∧ give = true)) : y.own = x.own :=
    takeClaim_other (mt (mem_ceded hc).mp hcede) (mt (mem_giveList hc).mp hgive)
  have hleaves (hcede : (x.own = .claiming ∧ seniorOn c s = false) ∨ x.own = .backoff) (hown : x.own ≠ .owned) :
      y.own = .foreign :=
    takeClaim_foreign ((mem_ceded hc).mpr hcede) (mt (mem_giveList hc).mp fun h => hown h.1)
  refine ⟨fun hown => (hkeeps ?_ ?_).trans hown, fun hown => ?_, fun hown => hleaves (.inr hown) (by simp [hown]),
    fun hown hgive => (hkeeps ?_ ?_).trans hown,
    fun hown hgive => takeClaim_releasing ((mem_giveList hc).mpr ⟨hown, hgive⟩), fun hone hroom hfresh => ?_⟩
  · simp [hown]
  · simp [hown]
  · cases hsenior : seniorOn c s with
    | true => exact (hkeeps (by simp [hown, hsenior]) (by simp [hown])).trans hown
    | false => exact hleaves (.inl ⟨hown, hsenior⟩) (by simp [hown])
  · simp [hown]
  · simp [hgive]
  intro tells
  have hfree (hown : x.own = .foreign ∨ (x.own = .claiming ∧ seniorOn c s = false)) : tells (!x.dirty) true := by
    obtain ⟨hclean, hdirty, hdeny⟩ := lists_free hone hown
    refine takeClaim_answers hlink hroom hfresh fun t => ?_
    rw [hclean, hdirty, hdeny, answer_granted hlt]
  refine ⟨fun hown => hfree (.inl hown), fun hown hjunior => hfree (.inr ⟨hown, hjunior⟩), fun hown hsenior => ?_,
    fun hown => ?_, fun hown hkeep => ?_⟩
  · obtain ⟨hclean, hdirty, hdeny⟩ := lists_senior hone hown hsenior
    obtain ⟨p, hp⟩ := woken_eq m s
    change (takeClaim m s).peer.txq = _
    rw [takeClaim_peer, claimAnswered, hclean, hdirty, hdeny]
    change (cede _ _).peer.txq = _
    rw [(cede_woken_rest m s).peer, hp]
  · obtain ⟨hclean, hdirty, hdeny⟩ := lists_backoff hone hown
    refine takeClaim_answers hlink hroom hfresh fun t => ?_
    rw [hclean, hdirty, hdeny]
    exact answer_granted hlt _ true t
  · obtain ⟨hclean, hdirty, hdeny⟩ := lists_denied hone hown hkeep
    refine takeClaim_answers hlink hroom hfresh fun t => ?_
    rw [hclean, hdirty, hdeny, answer_denied hlt]

end

theorem linkOn_active {s : State} (h : linkOn s = true) : pageActive .peer s = true := by
  rw [linkOn, Bool.and_eq_true] at h
  exact h.1

theorem claimReceived : Claims.ClaimReceived := by
  intro m s harrives
  refine ⟨takeClaim m (heard m s), congrArg fin (received_arrives harrives), ?_, fun c hc => ?_⟩
  · rw [takeClaim_lastRx, heard_peer]
  · have hnamed : c ∈ namedChans m (heard m s) := by rwa [namedChans_heard]
    have h := takeClaim_named hnamed (by rw [pageActive_heard]; exact linkOn_active harrives.1)
    simpa only [chanOf_heard, seniorOn_heard, givesWay, yieldBit_heard, givenUp, namedChans_heard, heard_peer, heard_cc,
      aboutOne, apply_ite some] using h

end Sys2Proof.Machine
end

section
/-!
GRANT, RELEASE, HEARTBEAT_INFO and TAKEOVER_NOTICE received (O53; 08 R185 to R188, Table 8.8).
-/

namespace Sys2Proof.Machine

theorem heard_lastRx (m : Word64) (s : State) : (heard m s).peer.lastRx = m := by rw [heard_peer]

/-! ### Channels taken over, and channels ceded -/

/-- Channels enter TAKEOVER. -/
def takeAll (lost clean : Bool) (cs : List Nat) (s : State) : State :=
  cs.foldl (fun s c => enterTakeover c lost clean s) s

section

variable {lost clean : Bool} {cs : List Nat} {c : Nat} (s : State)

theorem takeAll_rest : RestKept s (takeAll lost clean cs s) :=
  foldl_rest (fun t c => keptBut_enterTakeover c lost clean t) cs s

theorem takeAll_other (hc : c ∉ cs) : ChanKept (chanOf c s) (chanOf c (takeAll lost clean cs s)) :=
  foldl_others (fun t c => keptBut_enterTakeover c lost clean t) hc s

theorem inTakeover_takeAll (hc : c ∈ cs) : InTakeover clean (chanOf c (takeAll lost clean cs s)) :=
  foldl_changed (fun t c => keptBut_enterTakeover c lost clean t) (Q := InTakeover clean) (fun _ _ h hx => hx.kept h) hc
    (fun t => inTakeover_enterTakeover c lost clean t) s

/-- Channels taken over, and what BOOT_FETCH makes of it. -/
theorem takeAll_boot_lastRx : (bootAdvance (takeAll lost clean cs s)).peer.lastRx = s.peer.lastRx := by
  rw [(onward_bootAdvance _).lastRx, (takeAll_rest s).peer]

theorem inTakeover_takeAll_boot (hc : c ∈ cs) :
    InTakeover clean (chanOf c (bootAdvance (takeAll lost clean cs s))) :=
  (inTakeover_takeAll s hc).onward (onward_bootAdvance _)

theorem cede_rest : RestKept s (cede cs s) := foldl_rest keptBut_cede cs s

end

/-! ### GRANT and RELEASE -/

section

variable {m : Word64} {s : State}

theorem takeGrant_granted (h : msgGranted m = true) :
    takeGrant m s = bootAdvance (takeAll false (msgClean m) (inOwn .claiming (namedChans m s) s) s) := if_pos h

theorem takeGrant_denied (h : msgGranted m = false) : takeGrant m s =
    if (inOwn .claiming (namedChans m s) s).isEmpty then cede (inOwn .claiming (namedChans m s) s) s
    else raiseEvt .peer 4 (cede (inOwn .claiming (namedChans m s) s) s) := if_neg (by simp [h])

theorem takeGrant_lastRx : (takeGrant m s).peer.lastRx = s.peer.lastRx := by
  cases h : msgGranted m with
  | true => rw [takeGrant_granted h, takeAll_boot_lastRx]
  | false =>
    rw [takeGrant_denied h]
    split
    · rw [(cede_rest s).peer]
    · change (cede _ s).peer.lastRx = _
      rw [(cede_rest s).peer]

theorem takeRelease_eq : takeRelease m s = bootAdvance (takeAll false (msgClean m)
    ((inOwn .foreign (namedChans m s) s).filter fun c => pageActive (chnPage c) s) s) := rfl

end

theorem grantAndReleaseReceived : Claims.GrantAndReleaseReceived := by
  intro m s taken
  refine ⟨fun harrives => ⟨takeGrant m (heard m s), congrArg fin (received_arrives harrives), ?_, fun c hc hown => ?_⟩,
    fun harrives => ⟨takeRelease m (heard m s), congrArg fin (received_arrives harrives), ?_, fun c hc hown hactive => ?_⟩⟩
  · rw [takeGrant_lastRx, heard_lastRx]
  · have hmem : c ∈ inOwn .claiming (namedChans m (heard m s)) (heard m s) := by simp [hc, hown]
    refine ⟨fun hgranted => ?_, fun hdenied => ?_⟩
    · rw [takeGrant_granted hgranted]
      exact inTakeover_takeAll_boot _ hmem
    · rw [takeGrant_denied hdenied, if_neg (by simpa using List.ne_nil_of_mem hmem)]
      exact ⟨cede_foreign _ hmem, evtStands_raiseEvt _ _ (by decide)⟩
  · rw [takeRelease_eq, takeAll_boot_lastRx, heard_lastRx]
  · rw [takeRelease_eq]
    exact inTakeover_takeAll_boot _ (by simp [hc, hown, hactive])

/-! ### HEARTBEAT_INFO -/

section

variable (m : Word64) (s : State)

/-- The channels that both own. -/
def bothOwn : List Nat :=
  inOwn .owned (namedChans m s) s ++ inOwn .releasing (namedChans m s) s ++ inOwn .takeover (namedChans m s) s

/-- The OWNED channels of both that a junior gives up. -/
def yields : List Nat := (inOwn .owned (namedChans m s) s).filter fun c => !seniorOn c s

/-- A channel is given up after a HEARTBEAT_INFO. -/
def yieldOne (t : State) (c : Nat) : State := enterReleasing c .forcedInfo (bump .peer 6 t)

/-- OWN_MISMATCH, and what it makes a junior give up. -/
def mismatched : State :=
  (yields m s).foldl yieldOne (if (bothOwn m s).isEmpty then s else raiseEvt .peer 7 s)

/-- The FOREIGN channels that neither side owns, for a senior to claim. -/
def unowned : List Nat :=
  (inOwn .foreign (((List.range 32).map (32 * msgQuarter m + ·)).filter fun c => shared c s) (mismatched m s)).filter
    fun c => !bitAt (msgMask m) (c % 32) && seniorOn c (mismatched m s) && pageActive (chnPage c) (mismatched m s)

theorem takeInfo_eq : takeInfo m s = claimAll false (unowned m s) (mismatched m s) := by
  unfold takeInfo
  extract_lets all both held t u
  have ht : t = if (bothOwn m s).isEmpty then s else raiseEvt .peer 7 s := rfl
  have hyields : (both.filter fun c => !seniorOn c t) = yields m s := by
    rw [ht]
    split <;> rfl
  have hu : u = mismatched m s := by
    change (both.filter fun c => !seniorOn c t).foldl yieldOne t = _
    rw [hyields, ht, mismatched]
  rw [hu]
  rfl

theorem keptBut_yieldOne (t : State) (c : Nat) : KeptBut c t (yieldOne t c) :=
  (OwnKept.refl t).bump.keptBut.trans (keptBut_enterReleasing ..)

theorem warned_kept : OwnKept s (if (bothOwn m s).isEmpty then s else raiseEvt .peer 7 s) := by
  split
  · exact .refl s
  · exact (OwnKept.refl s).raiseEvt

theorem mismatched_rest : RestKept s (mismatched m s) :=
  (warned_kept m s).toRestKept.trans (foldl_rest keptBut_yieldOne _ _)

variable {m s} {c : Nat}

theorem mismatched_other (hc : c ∉ yields m s) : ChanKept (chanOf c s) (chanOf c (mismatched m s)) :=
  ((warned_kept m s).kept c).trans (foldl_others keptBut_yieldOne hc _)

theorem mismatched_yields (hc : c ∈ yields m s) :
    (chanOf c (mismatched m s)).own = .releasing ∧ (chanOf c (mismatched m s)).rel = some .forcedInfo :=
  foldl_changed keptBut_yieldOne (Q := fun x => x.own = .releasing ∧ x.rel = some .forcedInfo)
    (fun _ _ h hx => ⟨h.own.trans hx.1, h.rel.trans hx.2⟩) hc
    (fun t => by
      obtain ⟨hown, hrel, -⟩ := chanOf_enterReleasing c .forcedInfo (bump .peer 6 t)
      exact ⟨hown, hrel⟩) _

theorem mismatched_event (hc : c ∈ bothOwn m s) : EvtStands .peer 7 (mismatched m s) := by
  refine EvtStands.kept ?_ (foldl_rest keptBut_yieldOne _ _)
  rw [if_neg (by simpa using List.ne_nil_of_mem hc)]
  exact evtStands_raiseEvt _ _ (by decide)

theorem mem_bothOwn : c ∈ bothOwn m s ↔ c ∈ namedChans m s
    ∧ ((chanOf c s).own = .owned ∨ (chanOf c s).own = .releasing ∨ (chanOf c s).own = .takeover) := by
  simp only [bothOwn, List.mem_append, mem_inOwn]
  tauto

theorem mem_yields : c ∈ yields m s ↔ (c ∈ namedChans m s ∧ (chanOf c s).own = .owned) ∧ seniorOn c s = false := by
  simp [yields]

theorem mem_unowned : c ∈ unowned m s ↔ c / 32 = msgQuarter m ∧ (msgMask m).testBit (c % 32) = false
    ∧ shared c s = true ∧ (chanOf c (mismatched m s)).own = .foreign ∧ seniorOn c s = true
    ∧ pageActive (chnPage c) s = true := by
  have hquarter : (∃ i < 32, 32 * msgQuarter m + i = c) ↔ c / 32 = msgQuarter m := by
    constructor
    · rintro ⟨i, hi, rfl⟩
      omega
    · intro hq
      exact ⟨c % 32, Nat.mod_lt _ (by decide), by omega⟩
  simp only [unowned, List.mem_filter, mem_inOwn, List.mem_map, List.mem_range, hquarter, bitAt, Bool.and_eq_true,
    Bool.not_eq_true', seniorOn_of_pins (mismatched_rest m s).pins, (mismatched_rest m s).active]
  tauto

/-- A channel that is not FOREIGN afterwards is not claimed. -/
theorem takeInfo_kept (h : (chanOf c (mismatched m s)).own ≠ .foreign) :
    ChanKept (chanOf c (mismatched m s)) (chanOf c (takeInfo m s)) := by
  rw [takeInfo_eq]
  refine claimAll_other false (fun hc => h ?_) _
  obtain ⟨-, -, -, hforeign, -⟩ := mem_unowned.mp hc
  exact hforeign

theorem takeInfo_event (hc : c ∈ bothOwn m s) : EvtStands .peer 7 (takeInfo m s) := by
  rw [takeInfo_eq]
  exact (claimAll_link false _ _).events _ _ (mismatched_event hc)

theorem takeInfo_lastRx : (takeInfo m s).peer.lastRx = s.peer.lastRx := by
  rw [takeInfo_eq, (claimAll_link false _ _).lastRx, (mismatched_rest m s).peer]

/-- A channel that keeps its state because nothing of a HEARTBEAT_INFO is for it. -/
theorem takeInfo_own (hyield : c ∉ yields m s) (hown : (chanOf c s).own ≠ .foreign) :
    (chanOf c (takeInfo m s)).own = (chanOf c s).own := by
  have hkept := mismatched_other hyield
  exact (takeInfo_kept (hkept.own ▸ hown)).own.trans hkept.own

theorem takeInfo_yields (hyield : c ∈ yields m s) :
    (chanOf c (takeInfo m s)).own = .releasing ∧ (chanOf c (takeInfo m s)).rel = some .forcedInfo := by
  obtain ⟨hown, hrel⟩ := mismatched_yields hyield
  have hkept := takeInfo_kept (c := c) (m := m) (s := s) (by rw [hown]; decide)
  exact ⟨hkept.own.trans hown, hkept.rel.trans hrel⟩

theorem takeInfo_claims (hq : c / 32 = msgQuarter m) (hbit : (msgMask m).testBit (c % 32) = false)
    (hshared : shared c s = true) (hown : (chanOf c s).own = .foreign) (hsenior : seniorOn c s = true)
    (hactive : pageActive (chnPage c) s = true) : (chanOf c (takeInfo m s)).own = .claiming := by
  have hyield : c ∉ yields m s := fun h => by simp [(mem_yields.mp h).1.2] at hown
  have hlt := msgQuarter_lt m
  rw [takeInfo_eq]
  exact claimAll_claiming false (mem_unowned.mpr ⟨hq, hbit, hshared, (mismatched_other hyield).own.trans hown, hsenior,
    hactive⟩) (by omega) _

end

/-! ### TAKEOVER_NOTICE -/

section

variable (m : Word64) (s : State)

/-- The channels that a TAKEOVER_NOTICE takes away. -/
def noticed : List Nat := (namedChans m s).filter fun c => noticeTakes c s

/-- Channels become FOREIGN and DIRTY. -/
def loseAll (cs : List Nat) (s : State) : State := cs.foldl (fun s c => goForeign c true s) s

/-- FOREIGN, DIRTY, with released pads. -/
def TakenAway (x : Chan) : Prop := x.own = .foreign ∧ x.dirty = true ∧ x.driven = false

theorem takeNotice_eq : takeNotice m s =
    if (noticed m s).isEmpty then loseAll (noticed m s) s else raiseEvt .peer 3 (loseAll (noticed m s) s) := rfl

theorem takeNotice_kept : OwnKept (loseAll (noticed m s) s) (takeNotice m s) := by
  rw [takeNotice_eq]
  split
  · exact .refl _
  · exact (OwnKept.refl _).raiseEvt

theorem takeNotice_lastRx : (takeNotice m s).peer.lastRx = s.peer.lastRx := by
  rw [(takeNotice_kept m s).peer, loseAll, (foldl_rest (fun t c => keptBut_goForeign c true t) _ s).peer]

variable {m s} {c : Nat}

theorem takeNotice_taken (hc : c ∈ noticed m s) : (chanOf c (takeNotice m s)).own = .foreign
    ∧ (chanOf c (takeNotice m s)).dirty = true ∧ (chanOf c (takeNotice m s)).driven = false
    ∧ EvtStands .peer 3 (takeNotice m s) := by
  have hlost : TakenAway (chanOf c (loseAll (noticed m s) s)) := by
    refine foldl_changed (fun t c => keptBut_goForeign c true t) (Q := TakenAway) (fun _ _ h hx => ?_) hc (fun t => ?_) s
    · obtain ⟨hown, hdirty, hdriven⟩ := hx
      exact ⟨h.own.trans hown, h.dirty.trans hdirty, h.driven.trans hdriven⟩
    · obtain ⟨hown, hdriven, hdirty, -⟩ := chanOf_goForeign c true t
      exact ⟨hown, hdirty.trans (Bool.or_true _), hdriven⟩
  obtain ⟨hown, hdirty, hdriven⟩ := hlost
  have hkept := (takeNotice_kept m s).kept c
  refine ⟨hkept.own.trans hown, hkept.dirty.trans hdirty, hkept.driven.trans hdriven, ?_⟩
  rw [takeNotice_eq, if_neg (by simpa using List.ne_nil_of_mem hc)]
  exact evtStands_raiseEvt _ _ (by decide)

theorem takeNotice_other (hc : c ∉ noticed m s) : (chanOf c (takeNotice m s)).own = (chanOf c s).own :=
  ((foldl_others (fun t c => keptBut_goForeign c true t) hc s).trans ((takeNotice_kept m s).kept c)).own

end

theorem noticeTakes_heard (c : Nat) (m : Word64) (s : State) : noticeTakes c (heard m s) = noticeTakes c s := by
  simp only [noticeTakes, chanOf_heard, seniorOn_heard]

theorem infoAndNoticeReceived : Claims.InfoAndNoticeReceived := by
  intro m s
  constructor
  · intro harrives
    have hnamed {c : Nat} (hc : c ∈ namedChans m s) : c ∈ namedChans m (heard m s) := by rwa [namedChans_heard]
    refine ⟨takeInfo m (heard m s), congrArg fin (received_arrives harrives), ?_, fun c hc hown => ?_,
      fun c hc hown => ?_, fun c hq hbit hshared hown hsenior hactive => ?_⟩
    · rw [takeInfo_lastRx, heard_lastRx]
    · have hboth : c ∈ bothOwn m (heard m s) := mem_bothOwn.mpr ⟨hnamed hc, by simp [hown]⟩
      refine ⟨takeInfo_event hboth, fun hsenior => ?_, fun hjunior => takeInfo_yields ?_⟩
      · rw [takeInfo_own (by simp [mem_yields, hsenior]) (by simp [hown]), chanOf_heard, hown]
      · simp [mem_yields, hc, hown, hjunior]
    · have hboth : c ∈ bothOwn m (heard m s) := mem_bothOwn.mpr ⟨hnamed hc, by simp [hown]⟩
      refine ⟨takeInfo_event hboth, ?_⟩
      rw [takeInfo_own (by rcases hown with h | h <;> simp [mem_yields, h]) (by rcases hown with h | h <;> simp [h]),
        chanOf_heard]
    · exact takeInfo_claims hq hbit (by simpa using hshared) (by simpa using hown) (by simpa using hsenior)
        (by simpa using hactive)
  · intro harrives
    refine ⟨takeNotice m (heard m s), congrArg fin (received_arrives harrives), ?_, fun c hc =>
      ⟨fun htakes => takeNotice_taken ?_, fun hown hsenior => ?_⟩⟩
    · rw [takeNotice_lastRx, heard_lastRx]
    · simp [noticed, noticeTakes_heard, hc, htakes]
    · rw [takeNotice_other (by simp [noticed, noticeTakes, hown, hsenior]), chanOf_heard, hown]

/-- Settles O53: each message by the lists of channels that it meets and what a fold over them leaves. -/
theorem messagesReceived : Obligations.MessagesReceived :=
  ⟨badMessagesDiscarded, claimReceived, grantAndReleaseReceived, infoAndNoticeReceived⟩

end Sys2Proof.Machine
end

section
/-!
Messages sent, the heartbeat, and the loss of the peer (O54; 08 R183 to R186, 02 R53).
-/

namespace Sys2Proof.Machine

/-! ### The message that goes first (08 R184) -/

/-- A message goes before another one. -/
def goesBefore (a b : Word64) : Bool := decide (msgRank a < msgRank b)

/-- The choice between the best message so far and the next. -/
def better (b y : Word64) : Word64 := if goesBefore y b then y else b

theorem foldl_better_mem (l : List Word64) (z : Word64) : l.foldl better z ∈ z :: l := by
  induction l generalizing z with
  | nil => exact List.mem_singleton_self z
  | cons y r ih =>
    rw [List.foldl_cons, better]
    split
    · exact List.mem_cons_of_mem z (ih y)
    · exact List.cons_subset_cons z (List.subset_cons_self y r) (ih z)

theorem foldl_better_stays {l : List Word64} {z : Word64} (h : ∀ y ∈ l, msgRank z ≤ msgRank y) :
    l.foldl better z = z := by
  refine List.foldlRecOn (motive := fun b => b = z) l better rfl fun b hb y hy => ?_
  rw [hb, better, goesBefore, decide_eq_false (Nat.not_lt.mpr (h y hy))]
  rfl

theorem firstBy_split {a b : List Word64} {m : Word64} (ha : ∀ x ∈ a, msgRank m < msgRank x)
    (hb : ∀ x ∈ b, msgRank m ≤ msgRank x) : firstBy goesBefore (a ++ m :: b) = some m := by
  cases a with
  | nil => exact congrArg some (foldl_better_stays hb)
  | cons x r =>
    have hbest := ha _ (foldl_better_mem r x)
    refine congrArg some ?_
    change (r ++ m :: b).foldl better x = m
    rw [List.foldl_append, List.foldl_cons, better, goesBefore, decide_eq_true hbest, if_pos rfl, foldl_better_stays hb]

theorem dropFirst_split {a b : List Word64} {m : Word64} (ha : m ∉ a) : dropFirst m (a ++ m :: b) = a ++ b := by
  induction a with
  | nil => exact if_pos rfl
  | cons x r ih =>
    rw [List.mem_cons, not_or] at ha
    rw [List.cons_append, dropFirst, if_neg (Ne.symm ha.1), ih ha.2, List.cons_append]

/-! ### MESSAGE_SEND and HEARTBEAT_INFO_SEND -/

section

variable {s : State}

theorem messageSend_idle (h : ¬(linkOn s = true ∧ s.peer.linkFree ≤ s.cc) ∨ s.peer.txq = []) : messageSend s = s := by
  unfold messageSend
  split
  · rfl
  · next m hfirst =>
    have hoff : ¬(linkOn s = true ∧ s.peer.linkFree ≤ s.cc) := h.resolve_right fun hnil => by
      rw [hnil] at hfirst
      exact absurd hfirst (by simp [firstBy])
    exact if_neg (by simpa using hoff)

theorem messageSend_sends (hlink : linkOn s = true) (hfree : s.peer.linkFree ≤ s.cc) {a b : List Word64} {m : Word64}
    (htxq : s.peer.txq = a ++ m :: b) (ha : ∀ x ∈ a, msgRank m < msgRank x) (hb : ∀ x ∈ b, msgRank m ≤ msgRank x) :
    messageSend s =
      let p : Peer := { s.peer with txq := a ++ b ++ s.peer.txWait.take 1, txWait := s.peer.txWait.tail, lastTx := m,
                                    linkFree := s.cc + 510 }
      let w := bump .peer 0 { s with peer := p }
      if msgType m = 2 ∧ msgGranted m = true then bump .peer 5 w else w := by
  have hfirst : firstBy (fun a b => decide (msgRank a < msgRank b)) s.peer.txq = some m := by
    rw [htxq]
    exact firstBy_split ha hb
  have hdrop : dropFirst m s.peer.txq = a ++ b := by
    rw [htxq]
    exact dropFirst_split fun hm => absurd (ha m hm) (Nat.lt_irrefl _)
  simp only [messageSend, hfirst, hlink, decide_eq_true hfree, Bool.and_self, if_true, hdrop]

theorem messagesSent : Claims.MessagesSent := by
  intro s ready per due
  have hsend {v : State} (h : messageSend s = v) : exec .messageSend s = .next (settle v) := h ▸ rfl
  have hinfo {v : State} (h : infoSend s = v) : exec .heartbeatInfoSend s = .next (settle v) := h ▸ rfl
  have hdue : (linkOn s && decide (per ≠ 0) && decide (s.peer.infoDue ≤ s.cc)) = true ↔ due := by
    simp only [Bool.and_eq_true, decide_eq_true_eq, and_assoc, due]
  refine ⟨fun h => hsend (messageSend_idle h), fun hready a m b htxq ha hb => ?_, fun hnot => hinfo ?_,
    fun hyes => hinfo (if_pos (hdue.mpr hyes))⟩
  · obtain ⟨hlink, hfree⟩ := hready
    exact hsend (messageSend_sends hlink hfree htxq ha hb)
  · exact if_neg (mt hdue.mp hnot)

end

/-! ### The loss of the peer (02 R53) -/

section

variable (s : State)

/-- PEER_LOST is raised and counted. -/
def lossSeen : State := raiseEvt .peer 0 (bump .peer 4 { s with peer := { s.peer with lost := true, edges := 0 } })

/-- The peer is told that its channels are taken over. -/
def noticeSent : State := sendFor (lostChans s) (fun q m => mkMsg 5 0 q m false false false) (lossSeen s)

/-- The channels in RELEASING. -/
def releasingChans : List Nat := (s.chn.filter fun e => decide (e.2.own = .releasing)).map (·.1)

/-- A release is called off. -/
def callOff (t : State) (c : Nat) : State := setOwn c .owned (modChan c (fun x => { x with rel := none }) t)

theorem peerLost_gone (hlink : linkOn s = true) (hlost : s.peer.lost = false) (hgone : hbGone s = true) : peerLost s
    = bootAdvance (takeAll true false (lostChans s) ((releasingChans s).foldl callOff (noticeSent s))) := by
  rw [peerLost, hlink, hlost, hgone]
  rfl

theorem keptBut_callOff (t : State) (c : Nat) : KeptBut c t (callOff t c) :=
  (keptBut_setChan _).trans (keptBut_setOwn _)

theorem chanOf_callOff (t : State) (c : Nat) : (chanOf c (callOff t c)).own = .owned := by
  rw [callOff, chanOf_setOwn_same, ownSet_own]

theorem noticeSent_from : SentFrom (lossSeen s) (noticeSent s) := sentFrom_sendFor _ _ _

theorem lossSeen_peer : (lossSeen s).peer = { s.peer with lost := true, edges := 0 } := by
  rw [lossSeen, raiseEvt_peer, bump_peer]

theorem lossSeen_kept : OwnKept { s with peer := { s.peer with lost := true, edges := 0 } } (lossSeen s) :=
  (OwnKept.refl _).bump.raiseEvt

/-- The channels after a loss, behind the notice. -/
def lossTaken : State := takeAll true false (lostChans s) ((releasingChans s).foldl callOff (noticeSent s))

theorem lossTaken_rest : RestKept (noticeSent s) (lossTaken s) :=
  (foldl_rest keptBut_callOff _ _).trans (takeAll_rest _)

theorem lossTaken_link : LinkKept (lossSeen s) (bootAdvance (lossTaken s)) :=
  ((noticeSent_from s).link.trans (lossTaken_rest s).link).trans (onward_bootAdvance _).toLinkKept

variable {s} {c : Nat}

theorem mem_releasingChans (h : (chanOf c s).own = .releasing) : c ∈ releasingChans s := by
  have hlisted : SMap.get chanDefault s.chn c ≠ chanDefault c := fun hdefault => by
    rw [chanOf, hdefault] at h
    exact Own.noConfusion h
  exact List.mem_map.mpr ⟨_, List.mem_filter.mpr ⟨SMap.mem_of_get_ne chanDefault hlisted, decide_eq_true h⟩, rfl⟩

theorem lossTaken_owned (h : (chanOf c s).own = .releasing) : (chanOf c (lossTaken s)).own = .owned := by
  have hother : c ∉ lostChans s := by simp [lostChans, h]
  have hcalled : (chanOf c ((releasingChans s).foldl callOff (noticeSent s))).own = .owned :=
    foldl_changed keptBut_callOff (Q := fun x => x.own = .owned) (fun _ _ hxy hx => hxy.own.trans hx)
      (mem_releasingChans h) (fun t => chanOf_callOff t c) _
  exact (takeAll_other _ hother).own.trans hcalled

theorem lostChans_lt (hc : c ∈ lostChans s) : c < 128 := by
  simp only [lostChans, List.mem_filter, List.mem_range] at hc
  exact hc.1

/-- The notice of one channel alone goes to the end of the queue. -/
theorem noticeSent_txq (hlink : pageActive .peer s = true) (hone : lostChans s = [c]) (hroom : s.peer.txq.length < 16)
    (hfresh : s.peer.freshAt ≠ s.cc) : (noticeSent s).peer.txq
    = s.peer.txq ++ [mkMsg 5 0 (c / 32) (2 ^ (c % 32)) false false false] := by
  have hc : c < 128 := lostChans_lt (hone ▸ List.mem_singleton_self c)
  have hkept := lossSeen_kept s
  have hpeer := lossSeen_peer s
  rw [noticeSent, hone, sendFor_one hc, sendMsg_joinsNone ((hkept.active .peer).trans hlink), hpeer]
  · rwa [hpeer, hkept.cc]
  · rwa [hpeer]

theorem lossTaken_boot (h : s.sec.boot ≠ .railWait) : (lossTaken s).sec.boot ≠ .railWait := by
  refine (lossTaken_rest s).boot ?_
  obtain ⟨p, hp, -⟩ := noticeSent_from s
  rw [hp]
  exact (lossSeen_kept s).boot h

end

/-! ### The heartbeat (08 R185) -/

section

variable {s : State}

/-- The edge is counted. -/
def edgeSeen (s : State) : State :=
  { s with peer := { s.peer with lastEdge := some s.cc, edges := min 8 (edgeRun s) } }

theorem hbEdge_heard (hears : corePowered s = true ∧ stepReleased 1 s = true ∧ peerStrapped s = true) :
    hbEdge s = if pageActive .peer s && s.peer.lost && decide (8 ≤ min 8 (edgeRun s)) then
      raiseEvt .peer 1 { edgeSeen s with peer.lost := false } else edgeSeen s := by
  obtain ⟨hcore, hreleased, hstrapped⟩ := hears
  simp only [hbEdge, hcore, hreleased, hstrapped, Bool.and_self, if_true, satTo_eq_min]
  rfl

theorem heartbeatAndLoss : Claims.HeartbeatAndLoss := by
  intro s beat hears n p gone
  have hbeat {v : State} (h : heartbeat s = v) : exec .heartbeat s = .next (settle v) := h ▸ rfl
  have hedge {v : State} (h : hbEdge s = v) : exec .peerHbEdge s = .next (settle v) := h ▸ rfl
  have hlost {v : State} (h : peerLost s = v) : exec .peerLost s = .next (settle v) := h ▸ rfl
  have hbeats : (corePowered s && groupReleased 0 s && decide (s.peer.hbAt + nsCc 500 ≤ s.cc)) = true ↔ beat := by
    simp only [Bool.and_eq_true, decide_eq_true_eq, and_assoc, beat]
  have hheard : (corePowered s && stepReleased 1 s && peerStrapped s) = true ↔ hears := by
    simp only [Bool.and_eq_true, and_assoc, hears]
  have hgone : (linkOn s && !s.peer.lost && hbGone s) = true ↔ gone := by
    simp only [Bool.and_eq_true, Bool.not_eq_true', and_assoc, gone]
  refine ⟨fun hno => hbeat (if_neg (mt hbeats.mp hno)), fun hyes => hbeat (if_pos (hbeats.mpr hyes)),
    fun hno => hedge (if_neg (mt hheard.mp hno)), fun hyes hnot => hedge ((hbEdge_heard hyes).trans (if_neg ?_)),
    fun hyes hactive hwas height => hedge ((hbEdge_heard hyes).trans (if_pos ?_)),
    fun hno => hlost (if_neg (mt hgone.mp hno)), fun ⟨hlink, hwas, hhb⟩ => ?_⟩
  · rintro hall
    simp only [Bool.and_eq_true, decide_eq_true_eq] at hall
    obtain ⟨⟨hactive, hwas⟩, height⟩ := hall
    rcases hnot with hoff | hback | hfew
    · simp [hoff] at hactive
    · simp [hback] at hwas
    · exact absurd height (Nat.not_le.mpr hfew)
  · simp only [hactive, hwas, Bool.true_and]
    exact decide_eq_true height.ge
  have hlinks := lossTaken_link s
  refine ⟨bootAdvance (lossTaken s), hlost (peerLost_gone s hlink hwas hhb), ?_, ?_, fun c hc => ?_, fun c hrel => ?_,
    fun c hone hroom hfresh hboot => ?_⟩
  · rw [hlinks.lost, lossSeen_peer]
  · exact hlinks.events .peer 0 (evtStands_raiseEvt _ _ (by decide))
  · obtain ⟨hown, hdriven, -⟩ := inTakeover_takeAll_boot (lost := true) (clean := false)
      ((releasingChans s).foldl callOff (noticeSent s)) hc
    exact ⟨hown, hdriven⟩
  · have howned := lossTaken_owned hrel
    obtain ⟨hown, -⟩ := (onward_bootAdvance (lossTaken s)).chan c (by rw [howned]; decide)
    exact hown.trans howned
  · rw [(ownKept_bootAdvance (lossTaken_boot hboot)).peer, (lossTaken_rest s).peer]
    exact noticeSent_txq (linkOn_active hlink) hone hroom hfresh

end

/-- Settles O54: the first of the queue by a fold, the loss by the notice, the releases called off and the takeovers. -/
theorem linkAndHeartbeat : Obligations.LinkAndHeartbeat := ⟨messagesSent, heartbeatAndLoss⟩

end Sys2Proof.Machine
end

section
/-!
The threads of the engines (09 R195): what a read of a thread finds after a write, and what leaves the threads
alone.
-/

namespace Sys2Proof.Machine

/-! ### Reads and writes of a thread -/

theorem modThr_eq (e : Nat) (k : Bool) (f : Thread → Thread) (s : State) :
    modThr e k f s = setThr e k (f (thrOf e k s)) s := rfl

@[simp] theorem thrOf_setThr_same (e : Nat) (k : Bool) (t : Thread) (s : State) : thrOf e k (setThr e k t s) = t := by
  cases k <;> simp [thrOf, setThr]

/-- The other thread of the engine stays. -/
theorem thrOf_setThr_other {k j : Bool} (e : Nat) (t : Thread) (s : State) (h : j ≠ k) :
    thrOf e j (setThr e k t s) = thrOf e j s := by
  cases k <;> cases j <;> simp [thrOf, setThr] at h ⊢

@[simp] theorem thrOf_modThr_same (e : Nat) (k : Bool) (f : Thread → Thread) (s : State) :
    thrOf e k (modThr e k f s) = f (thrOf e k s) := thrOf_setThr_same e k _ s

/-- The threads are part of the engines. -/
theorem thrOf_of_eng {s u : State} (h : u.eng = s.eng) (e : Nat) (k : Bool) : thrOf e k u = thrOf e k s := by
  simp only [thrOf, engOf, h]

@[simp] theorem thrOf_bump (e : Nat) (k : Bool) (p : Page) (i : Nat) (s : State) :
    thrOf e k (bump p i s) = thrOf e k s := thrOf_of_eng (bump_eng p i s) e k

/-! ### The thread of a channel (09 R199) -/

theorem chanBur_of_thread (e : Nat) (k : Bool) : chanBur (2 * e + bit k) = e := by
  have hbit : bit k ≤ 1 := bit_le_one k
  unfold chanBur
  omega

theorem chanThr_of_thread (e : Nat) (k : Bool) : chanThr (2 * e + bit k) = k := by
  cases k <;> simp [chanThr, bit]

theorem cmdqOf_thread (e : Nat) (k : Bool) (s : State) : cmdqOf (2 * e + bit k) s = (thrOf e k s).cmdq := by
  rw [cmdqOf, chanBur_of_thread, chanThr_of_thread]

theorem thrChan_burin {e : Nat} (k : Bool) (s : State) (he : e < 64) : thrChan e k s = some (2 * e + bit k) :=
  if_neg (Nat.ne_of_lt he)

theorem thrFifo_burin {e : Nat} (k : Bool) (s : State) (he : e < 64) : thrFifo e k s = (thrOf e k s).cmdq := by
  rw [thrFifo, thrChan_burin k s he]
  exact cmdqOf_thread e k s

/-! ### What the engines' threads and counters stand on -/

/-- The counters are part of the headers. -/
theorem cntOf_of_hdr {s u : State} (h : u.hdr = s.hdr) (p : Page) (i : Nat) : cntOf p i u = cntOf p i s := by
  simp only [cntOf, hdrOf, h]

/-- The dispatch tables are part of the engines. -/
theorem dispEntry_of_tables {s u : State} (hbur : u.eng.dispBur = s.eng.dispBur) (hgrv : u.eng.dispGrv = s.eng.dispGrv)
    (g : Bool) (i : Nat) : dispEntry g i u = dispEntry g i s := by
  simp only [dispEntry, dispPatched, hbur, hgrv]

end Sys2Proof.Machine
end

section
/-!
What the fields of a microword do (09 R197 to R202, Tables 9.2 to 9.7).
-/

namespace Sys2Proof.Machine

/-! ### BUS (09 R199) -/

/-- The action that a word queues. -/
def queuedAct (e : Nat) (k : Bool) (w : Nat) (s : State) : CmdAct :=
  { act := mAct w, arg := mArg w, dp := mDp w, cycles := wordCycles (thrOf e k s) (mAct w) (mArg w) s }

/-- A thread that has issued a bus action, in a handler or outside (09 Table 9.4, YIELDED). -/
def busIssued (t : Thread) : Thread :=
  if t.handler.isSome then { t with handlerBus := true } else { t with yielded := false }

@[simp] theorem busIssued_cmdq (t : Thread) : (busIssued t).cmdq = t.cmdq := by
  unfold busIssued
  split <;> rfl

@[simp] theorem wordSelects_eng (c v : Nat) (s : State) : (wordSelects c v s).eng = s.eng := bump_eng ..

/-- What the choice of a volume leaves of the command FIFO on the pads. -/
theorem wordSelects_chan (c v : Nat) (s : State) : (chanOf c (wordSelects c v s)).onFifo = (chanOf c s).onFifo
    ∧ (chanOf c (wordSelects c v s)).cycles = (chanOf c s).cycles := by
  simp [wordSelects]

theorem noteSelect_eng (c : Nat) (a : CmdAct) (s : State) : (noteSelect c a s).eng = s.eng := by
  simp only [noteSelect]
  split
  · split
    · exact wordSelects_eng ..
    · rfl
  · rfl
  · split
    · exact wordSelects_eng ..
    · rfl
  · rfl

/-- What an action that selects leaves of the command FIFO on the pads. -/
theorem noteSelect_chan (c : Nat) (a : CmdAct) (s : State) :
    (chanOf c (noteSelect c a s)).onFifo = (chanOf c s).onFifo
    ∧ (chanOf c (noteSelect c a s)).cycles = (chanOf c s).cycles := by
  simp only [noteSelect]
  split
  · split <;> simp [wordSelects_chan]
  · simp
  · split <;> simp [wordSelects_chan]
  · simp

theorem padsNext_eng (c : Nat) (s : State) : (padsNext c s).eng = s.eng := by
  unfold padsNext
  split
  · rfl
  · exact noteSelect_eng ..

theorem padsNext_oldest {c : Nat} {s : State} {a : CmdAct} {r : List CmdAct} (h : cmdqOf c s = a :: r) :
    (chanOf c (padsNext c s)).onFifo = true ∧ (chanOf c (padsNext c s)).cycles = a.cycles := by
  obtain ⟨hfifo, hcycles⟩ := noteSelect_chan c a (modChan c (fun x => { x with
    onFifo := true, cycles := a.cycles, dp := if a.act = 3 ∨ a.act = 4 then some a.dp else x.dp,
    turnAt := if a.act = 6 then some s.cc else x.turnAt }) s)
  simp only [padsNext, h]
  rw [hfifo, hcycles]
  simp

/-- A Burin's word with a BUS action: the action queues, on a free bus it goes to the pads. -/
theorem doBus_burin {e w : Nat} (k : Bool) (s : State) (he : e < 64) (hact : mAct w ≠ 0) :
    doBus e k w s =
      let u := modThr e k (fun t => { t with cmdq := t.cmdq ++ [queuedAct e k w s] }) s
      modThr e k busIssued (if busFree (2 * e + bit k) s then padsNext (2 * e + bit k) u else u) := by
  unfold doBus
  rw [if_neg hact]
  simp only [thrChan_burin k s he, chanBur_of_thread, chanThr_of_thread]
  rfl

theorem thrFifo_doBus {e w : Nat} {k : Bool} {s : State} (he : e < 64) (hact : mAct w ≠ 0) :
    thrFifo e k (doBus e k w s) = thrFifo e k s ++ [queuedAct e k w s] := by
  rw [thrFifo_burin _ _ he, thrFifo_burin _ _ he, doBus_burin k s he hact]
  simp only [thrOf_modThr_same, busIssued_cmdq]
  split
  · rw [thrOf_of_eng (padsNext_eng ..), thrOf_modThr_same]
  · rw [thrOf_modThr_same]

theorem chanOf_doBus_free {e w : Nat} {k : Bool} {s : State} (he : e < 64) (hact : mAct w ≠ 0)
    (hfree : busFree (2 * e + bit k) s = true) :
    (chanOf (2 * e + bit k) (doBus e k w s)).onFifo = true
    ∧ (chanOf (2 * e + bit k) (doBus e k w s)).cycles = (queuedAct e k w s).cycles := by
  have hempty : (thrOf e k s).cmdq = [] := by
    simp only [busFree, Bool.and_eq_true, cmdqOf_thread, List.isEmpty_iff] at hfree
    exact hfree.2
  rw [doBus_burin k s he hact]
  simp only [hfree, if_true]
  refine padsNext_oldest (r := []) ?_
  rw [cmdqOf_thread, thrOf_modThr_same, hempty, List.nil_append]

/-! ### TIMER (09 R200) -/

theorem thrOf_doTimer {e w : Nat} {k : Bool} {s : State} (h : mCount w ≠ 0) : thrOf e k (doTimer e k w s) =
    if mAnchor w = true ∧ (thrFifo e k s).length ≠ 0 then
      { thrOf e k s with timer := none, anchored := some (mCount w, (thrFifo e k s).length) }
    else { thrOf e k s with timer := some (s.cc + mCount w), anchored := none } := by
  rw [doTimer, if_neg h]
  exact thrOf_modThr_same ..

/-! ### IMM (09 Table 9.7) -/

/-- The mask of one of the sixteen flags. -/
theorem getLsbD_flagMask (v : Nat) {i : Nat} (hi : i < 16) : (BitVec.ofNat 16 (2 ^ v)).getLsbD i = decide (i = v) := by
  rw [BitVec.getLsbD_ofNat, Nat.testBit_two_pow]
  simp [hi, eq_comm]

theorem thrOf_doImm_load {e w : Nat} {k : Bool} {s : State} (h : mImmOp w = 1) :
    thrOf e k (doImm e k w s) = { thrOf e k s with loopCnt := BitVec.ofNat 12 (mImm w) } := by
  simp only [doImm, h, thrOf_modThr_same]

theorem thrOf_doImm_count {e w : Nat} {k : Bool} {s : State} (h : mImmOp w = 2) :
    thrOf e k (doImm e k w s) = { thrOf e k s with
      loopCnt := if (thrOf e k s).loopCnt = 0 then 0 else (thrOf e k s).loopCnt - 1 } := by
  simp only [doImm, h, thrOf_modThr_same]

theorem thrOf_doImm_set {e w : Nat} {k : Bool} {s : State} (h : mImmOp w = 3) :
    thrOf e k (doImm e k w s) = { thrOf e k s with
      flags := (thrOf e k s).flags ||| BitVec.ofNat 16 (2 ^ (mImm w % 16)) } := by
  simp only [doImm, h, thrOf_modThr_same]

theorem thrOf_doImm_clear {e w : Nat} {k : Bool} {s : State} (h : mImmOp w = 4) :
    thrOf e k (doImm e k w s) = { thrOf e k s with
      flags := (thrOf e k s).flags &&& ~~~BitVec.ofNat 16 (2 ^ (mImm w % 16)) } := by
  simp only [doImm, h, thrOf_modThr_same]

theorem thrOf_doImm_plane {e w p : Nat} {k : Bool} {s : State} (h : mImmOp w = 6)
    (hnext : nextPlane (thrOf e k s) = some p) : thrOf e k (doImm e k w s) = { thrOf e k s with planeCur := p } := by
  simp only [doImm, h, planeStep, hnext, thrOf_modThr_same]

theorem thrOf_doImm_rung {e w : Nat} {k : Bool} {s : State} (h : mImmOp w = 7)
    (htag : (curJob (thrOf e k s)).bind (·.tag) ≠ none) :
    thrOf e k (doImm e k w s) = { thrOf e k s with
      rungFits := (rungChosen (thrOf e k s) s).isSome
      rung := (rungChosen (thrOf e k s) s).getD (thrOf e k s).rung } := by
  have hnone : ((curJob (thrOf e k s)).bind (·.tag)).isNone = false := Option.isNone_eq_false_iff.mpr
    (Option.isSome_iff_ne_none.mpr htag)
  simp [doImm, h, rungAnswer, hnone]

/-! ### REPORT (09 Table 9.6) -/

theorem thrOf_doReport_ended {e w : Nat} {k : Bool} {s : State} (h : mReport w = 1 ∨ mReport w = 3) :
    thrOf e k (doReport e k w s) = { thrOf e k s with report := mReport w } := by
  have hzero : mReport w ≠ 0 := by omega
  have hfail : mReport w ≠ 2 := by omega
  simp only [doReport, hzero, hfail, if_false, thrOf_modThr_same]

/-! ### The fields together -/

/-- 09 R197, R199, R200, R202, Tables 9.2, 9.5, 9.7: the fields of a word, one by one. -/
theorem wordFieldsAct : Claims.WordFieldsAct := by
  intro e k w t s
  refine ⟨fun hodd => ?_, fun hodd hres => ?_, fun hodd hres hseq hfull => ?_, fun hodd hres hseq hempty => ?_,
    fun he hact => thrFifo_doBus he hact, fun he hact hfree => chanOf_doBus_free he hact hfree, fun hact => if_pos hact,
    fun hcount hnow => ?_, fun hcount hanchor hqueued => ?_, fun h => ?_, fun h => ?_,
    fun i hi => ⟨fun h => ?_, fun h => ?_⟩, fun h p hp => ?_, fun h htag => ?_, fun h => ?_⟩
  · simp [wordFault, hodd]
  · simp [wordFault, hodd, hres]
  · simp [wordFault, hodd, hres, hseq, hfull, seqCall]
  · simp [wordFault, hodd, hres, hseq, hempty, seqCall, seqReturn]
  · rw [thrOf_doTimer hcount, if_neg]
    rintro ⟨hanchor, hqueued⟩
    rcases hnow with hoff | hempty
    · simp [hoff] at hanchor
    · simp [hempty] at hqueued
  · rw [thrOf_doTimer hcount, if_pos ⟨hanchor, by simpa using hqueued⟩]
    exact ⟨rfl, rfl⟩
  · rw [thrOf_doImm_load h]
  · rw [thrOf_doImm_count h]
  · rw [thrOf_doImm_set h, BitVec.getLsbD_or, getLsbD_flagMask _ hi, Bool.or_comm]
  · rw [thrOf_doImm_clear h, BitVec.getLsbD_and, BitVec.getLsbD_not, getLsbD_flagMask _ hi, Bool.and_comm,
      decide_eq_true hi, Bool.true_and]
  · rw [thrOf_doImm_plane h hp]
  · rw [thrOf_doImm_rung h htag]
    exact ⟨rfl, rfl⟩
  · rw [thrOf_doReport_ended h]

end Sys2Proof.Machine
end

section
/-!
Requests at safe points, the presentation of jobs, the wait timer and the dispatch table (09 R200, R203 to R212,
R226).
-/

namespace Sys2Proof.Machine

/-! ### Handlers (09 R210 to R212) -/

/-- A thread at the entry of a kind, whose first word is due. -/
def enteredAt (g : Bool) (kind prof : Nat) (s : State) (t : Thread) : Thread :=
  { t with state := .run, pc := dispEntry g (kind * 16 + prof) s, first := true, safeDist := 0 }

theorem thrOf_enterAt (e : Nat) (k : Bool) (kind prof : Nat) (s : State) :
    thrOf e k (enterAt e k kind prof s) = enteredAt (decide (e = 64)) kind prof s (thrOf e k s) := thrOf_modThr_same ..

/-- What the dispatch entry and the thread are after a thread's change, a count and the entry of a kind. -/
theorem thrOf_entered (e : Nat) (k : Bool) (kind prof i : Nat) (t : Thread) (s : State) :
    thrOf e k (enterAt e k kind prof (bump (enginePage e) i (setThr e k t s)))
      = enteredAt (decide (e = 64)) kind prof s t := by
  have htables (g : Bool) (j : Nat) : dispEntry g j (bump (enginePage e) i (setThr e k t s)) = dispEntry g j s :=
    dispEntry_of_tables (by rw [bump_eng]; rfl) (by rw [bump_eng]; rfl) g j
  rw [thrOf_enterAt, thrOf_bump, thrOf_setThr_same, enteredAt, enteredAt, htables]

/-- A handler's entry counts as if it were counted at once. -/
theorem cntOf_entered (e : Nat) (k : Bool) (kind prof i : Nat) (t : Thread) (s : State) (p : Page) (j : Nat) :
    cntOf p j (enterAt e k kind prof (bump (enginePage e) i (setThr e k t s)))
      = cntOf p j (bump (enginePage e) i s) := by
  have hhdr : (bump (enginePage e) i (setThr e k t s)).hdr = (bump (enginePage e) i s).hdr :=
    hdr_bump_congr (enginePage e) i rfl rfl
  exact cntOf_of_hdr hhdr p j

/-- A thread that gives up what it did for the ABANDON handler. -/
def abandoning (t : Thread) : Thread :=
  { t with abortPend := false, stack := [], base := 0, handler := some 14, handlerBus := false }

/-- A thread that will return from the GUEST or SUSPEND handler to where it is. -/
def handling (h : Nat) (j : Job) (t : Thread) : Thread :=
  { t with stack := t.pc :: t.stack, base := t.stack.length + 1, handler := some h, handlerBus := false, job2 := some j,
           guestDone := if h = 15 then false else t.guestDone,
           preemptPend := if h = 15 then t.preemptPend.tail else t.preemptPend }

theorem enterAbandon_eq (e : Nat) (k : Bool) (s : State) : enterAbandon e k s =
    enterAt e k 14 (((thrOf e k s).job.map (·.profile)).getD 0)
      (bump (enginePage e) 4 (setThr e k (abandoning (thrOf e k s)) s)) := rfl

theorem enterHandler_eq (e : Nat) (k : Bool) (h : Nat) (j : Job) (s : State) : enterHandler e k h j s =
    enterAt e k h j.profile
      (bump (enginePage e) (if h = 15 then 5 else 3) (setThr e k (handling h j (thrOf e k s)) s)) := rfl

/-! ### The rank of the requests -/

section

variable {e : Nat} {k : Bool} {s : State}

theorem takeRequest_handling (h : (thrOf e k s).handler ≠ none) : takeRequest e k s = (s, false) :=
  if_pos (Option.isSome_iff_ne_none.mpr h)

theorem takeRequest_abort (hfree : (thrOf e k s).handler = none) (habort : (thrOf e k s).abortPend = true) :
    takeRequest e k s = (enterAbandon e k s, true) := by
  simp [takeRequest, hfree, habort]

theorem takeRequest_full (hfree : (thrOf e k s).handler = none) (habort : (thrOf e k s).abortPend = false)
    (hfull : 8 ≤ (thrOf e k s).stack.length) : takeRequest e k s = (s, false) := by
  simp [takeRequest, hfree, habort, hfull]

theorem takeRequest_preempt {j : Job} {l : List Job} (hfree : (thrOf e k s).handler = none)
    (habort : (thrOf e k s).abortPend = false) (hroom : (thrOf e k s).stack.length < 8)
    (hpend : (thrOf e k s).preemptPend = j :: l) : takeRequest e k s = (enterHandler e k 15 j s, true) := by
  simp [takeRequest, hfree, habort, Nat.not_le.mpr hroom, hpend]

theorem takeRequest_none (hfree : (thrOf e k s).handler = none) (habort : (thrOf e k s).abortPend = false)
    (hroom : (thrOf e k s).stack.length < 8) (hpend : (thrOf e k s).preemptPend = []) (he : e < 64)
    (hsusp : suspWanted (2 * e + bit k) s = none) : takeRequest e k s = (s, false) := by
  simp [takeRequest, hfree, habort, Nat.not_le.mpr hroom, hpend, he, hsusp]

theorem takeRequest_suspend {d : Nat} (hfree : (thrOf e k s).handler = none) (habort : (thrOf e k s).abortPend = false)
    (hroom : (thrOf e k s).stack.length < 8) (hpend : (thrOf e k s).preemptPend = []) (he : e < 64)
    (hsusp : suspWanted (2 * e + bit k) s = some d) : takeRequest e k s =
      (enterHandler e k 5 (plainJob 5 d none ⟨0, 0⟩ s) (setDie d { dieOf d s with suspTaken := true } s), true) := by
  simp [takeRequest, hfree, habort, Nat.not_le.mpr hroom, hpend, he, hsusp]

end

/-- 09 R210 to R212: which request a safe point takes, and what taking it does. -/
theorem requestsRanked : Claims.RequestsRanked := by
  intro e k s t r entry
  refine ⟨takeRequest_handling, fun hfree habort => ?_, takeRequest_full, fun hfree habort hroom j l hpend => ?_,
    fun hfree habort hroom hpend he =>
      ⟨takeRequest_none hfree habort hroom hpend he, fun d hsusp => ?_⟩⟩
  · have hr : r = (enterAbandon e k s, true) := takeRequest_abort hfree habort
    have hthr : thrOf e k r.1 = enteredAt (decide (e = 64)) 14 ((t.job.map (·.profile)).getD 0) s (abandoning t) := by
      rw [hr, enterAbandon_eq]
      exact thrOf_entered ..
    have hcount : cntOf (enginePage e) 4 r.1 = cntOf (enginePage e) 4 (bump (enginePage e) 4 s) := by
      rw [hr, enterAbandon_eq]
      exact cntOf_entered ..
    simp only [entry, hthr]
    exact ⟨congrArg Prod.snd hr, rfl, rfl, rfl, rfl, rfl, hcount⟩
  · have hr : r = (enterHandler e k 15 j s, true) := takeRequest_preempt hfree habort hroom hpend
    have hthr : thrOf e k r.1 = enteredAt (decide (e = 64)) 15 j.profile s (handling 15 j t) := by
      rw [hr, enterHandler_eq]
      exact thrOf_entered ..
    have hcount : cntOf (enginePage e) 5 r.1 = cntOf (enginePage e) 5 (bump (enginePage e) 5 s) := by
      rw [hr, enterHandler_eq]
      exact cntOf_entered ..
    have htail : t.preemptPend.tail = l := by rw [hpend, List.tail_cons]
    simp only [entry, hthr]
    exact ⟨congrArg Prod.snd hr, rfl, rfl, rfl, htail, rfl, rfl, hcount⟩
  · let u := setDie d { dieOf d s with suspTaken := true } s
    let j := plainJob 5 d none ⟨0, 0⟩ s
    have hr : r = (enterHandler e k 5 j u, true) := takeRequest_suspend hfree habort hroom hpend he hsusp
    have hthr : thrOf e k r.1 = enteredAt (decide (e = 64)) 5 j.profile s (handling 5 j t) := by
      rw [hr, enterHandler_eq]
      exact thrOf_entered ..
    have hdie : dieOf d r.1 = { dieOf d s with suspTaken := true } := by
      have hsch : (enterHandler e k 5 j u).sch = u.sch := bump_sch ..
      rw [hr, dieOf_of_sch hsch]
      exact dieOf_setDie_same ..
    have hcount : cntOf (enginePage e) 3 r.1 = cntOf (enginePage e) 3 (bump (enginePage e) 3 s) := by
      have hhdr : (bump (enginePage e) 3 u).hdr = (bump (enginePage e) 3 s).hdr :=
        hdr_bump_congr (enginePage e) 3 rfl rfl
      rw [hr, enterHandler_eq]
      exact (cntOf_entered ..).trans (cntOf_of_hdr hhdr ..)
    simp only [entry, hthr, hdie]
    exact ⟨congrArg Prod.snd hr, rfl, rfl, rfl, rfl, rfl, trivial, hcount⟩

/-! ### JOB_PRESENT (09 R203, R206) -/

theorem eq_graver_of_num {e : Engine} (h : e.num = 64) : e = .graver := by
  cases e with
  | bur b => exact absurd h (Nat.ne_of_lt b.isLt)
  | graver => rfl

theorem gravNext_eq (l : List GravJob) (s : State) : gravNext l s =
    if bootRuns s then l.find? fun q => decide (q.job.kind = 8)
    else (l.find? fun q => decide (q.job.kind = 6 ∨ q.job.kind = 7)).orElse
      fun _ => l.find? fun q => decide (q.job.kind ≠ 8) := by
  unfold gravNext
  split
  · rfl
  · cases l.find? fun q => decide (q.job.kind = 6 ∨ q.job.kind = 7) <;> rfl

/-- A thread to which JOB_PRESENT may present a job. -/
def takesJob (e : Nat) (k : Bool) (s : State) : Prop :=
  (thrOf e k s).offered = none ∧ alive (thrOf e k s) = true ∧ pageAnswers (enginePage e) s = true

theorem takesJob_iff (e : Nat) (k : Bool) (s : State) : takesJob e k s ↔ ¬((thrOf e k s).offered.isSome = true
    ∨ alive (thrOf e k s) = false ∨ pageAnswers (enginePage e) s = false) := by
  simp [takesJob]

section

variable {e : Nat} {k : Bool} {s : State}

theorem jobPresent_idle (h : ¬takesJob e k s) : jobPresent e k s = s :=
  if_pos (not_not.mp (mt (takesJob_iff e k s).mpr h))

theorem jobPresent_burin_none (h : takesJob e k s) (he : e ≠ 64) (hwait : (thrOf e k s).waiting = []) :
    jobPresent e k s = s := by
  refine (if_neg ((takesJob_iff e k s).mp h)).trans ((if_neg he).trans ?_)
  simp only [hwait]

theorem jobPresent_burin_oldest {j : Job} {r : List Job} (h : takesJob e k s) (he : e ≠ 64)
    (hwait : (thrOf e k s).waiting = j :: r) :
    jobPresent e k s = setThr e k { thrOf e k s with waiting := r, offered := some j } s := by
  refine (if_neg ((takesJob_iff e k s).mp h)).trans ((if_neg he).trans ?_)
  simp only [hwait, modThr_eq]

theorem jobPresent_graver_none (h : takesJob 64 k s)
    (hnone : (thrOf 64 k s).state ≠ .idle ∨ gravNext s.eng.grvQueue s = none) : jobPresent 64 k s = s := by
  have hfind : (if (thrOf 64 k s).state = .idle then gravNext s.eng.grvQueue s else none) = none := by
    split
    · exact hnone.resolve_left (not_not.mpr ‹_›)
    · rfl
  refine (if_neg ((takesJob_iff 64 k s).mp h)).trans ((if_pos rfl).trans ?_)
  simp only [hfind]

theorem jobPresent_graver_next {q : GravJob} (h : takesJob 64 k s) (hidle : (thrOf 64 k s).state = .idle)
    (hq : gravNext s.eng.grvQueue s = some q) : jobPresent 64 k s =
      setThr 64 k { thrOf 64 k s with offered := some q.job }
        { s with eng := { s.eng with grvQueue := s.eng.grvQueue.erase q } } := by
  refine (if_neg ((takesJob_iff 64 k s).mp h)).trans ((if_pos rfl).trans ?_)
  simp only [if_pos hidle, hq]
  rfl

/-! ### WAIT_TIMER_EXPIRY (09 R200) -/

theorem timerExpiry_ended {u : Nat} (h : (thrOf e k s).timer = some u) (hcome : u ≤ s.cc) :
    timerExpiry e k s = setThr e k { thrOf e k s with timer := none } s := by
  simp [timerExpiry, h, hcome, modThr_eq]

theorem timerExpiry_counting (h : ∀ u, (thrOf e k s).timer = some u → s.cc < u) : timerExpiry e k s = s := by
  refine if_neg ?_
  cases htimer : (thrOf e k s).timer with
  | none => simp
  | some u => simpa using h u htimer

end

/-! ### DISP_SEL (09 R204, R226) -/

/-- The word that DISP_VAL shows of a dispatch entry. -/
def shownEntryWord (g : Bool) (i : Nat) (s : State) : Nat :=
  fieldAt 31 (bit (dispPatched g i s).isSome) + (dispEntry g i s).toNat

theorem shownEntryWord_fields (g : Bool) (i : Nat) (s : State) :
    shownEntryWord g i s < 2 ^ 64 ∧ fieldOf (shownEntryWord g i s) 0 12 = (dispEntry g i s).toNat
    ∧ fieldOf (shownEntryWord g i s) 31 1 = bit (dispPatched g i s).isSome := by
  have hset : bit (dispPatched g i s).isSome ≤ 1 := bit_le_one _
  have hentry : (dispEntry g i s).toNat < 2 ^ 12 := (dispEntry g i s).isLt
  simp only [shownEntryWord, fieldOf, fieldAt]
  omega

theorem regOf_dispSel (e i : Nat) (s : State) : regOf (enginePage e) oBurDispSel (dispSel e i s) = i % 2 ^ 64
    ∧ regOf (enginePage e) oBurDispVal (dispSel e i s) = shownEntryWord (decide (e = 64)) i s := by
  constructor
  · exact (regOf_setReg_other _ _ (by simp [pageAddr, oBurDispSel, oBurDispVal])).trans (regOf_setReg_same ..)
  · exact (regOf_setReg_same ..).trans (Nat.mod_eq_of_lt (shownEntryWord_fields ..).1)

/-- 09 R203, R206, R200, R204, R226: JOB_PRESENT, WAIT_TIMER_EXPIRY and DISP_SEL. -/
theorem jobsTimersAndDispatchTable : Claims.JobsTimersAndDispatchTable := by
  intro e k s n t takes
  have hpresent : exec (.jobPresent e k) s = .next (settle (jobPresent n k s)) := rfl
  have hexpiry : exec (.waitTimerExpiry e k) s = .next (settle (timerExpiry n k s)) := rfl
  refine ⟨fun h => ?_, fun h hn hwait => ?_, fun h hn j r hwait => ?_, fun h hn hnone => ?_, fun h hn hidle q hq => ?_,
    fun l => gravNext_eq l s, fun u hu hcome => ?_, fun u hu hcome => ?_, fun hnone => ?_, fun i hp => ?_⟩
  · rw [hpresent, jobPresent_idle h]
  · rw [hpresent, jobPresent_burin_none h hn hwait]
  · rw [hpresent, jobPresent_burin_oldest h hn hwait]
  · obtain rfl := eq_graver_of_num hn
    rw [hpresent]
    exact congrArg fin (jobPresent_graver_none h hnone)
  · obtain rfl := eq_graver_of_num hn
    rw [hpresent]
    exact congrArg fin (jobPresent_graver_next h hidle hq)
  · rw [hexpiry, timerExpiry_ended hu hcome]
  · rw [hexpiry, timerExpiry_counting fun v hv => by rw [Option.some.inj (hv.symm.trans hu)]; exact hcome]
  · rw [hexpiry, timerExpiry_counting fun v hv => by cases hv.symm.trans hnone]
  · intro g
    have hexec : exec (.dispSel e i) s = .next (settle (csrOk 0 (dispSel n i.toNat (dropLatches (enginePage n) s)))) :=
      congrArg fin (csrDo_answers (dispSel n i.toNat) hp)
    obtain ⟨hsel, hval⟩ := regOf_dispSel n i.toNat (dropLatches (enginePage n) s)
    obtain ⟨-, hentry, hset⟩ := shownEntryWord_fields g i.toNat (dropLatches (enginePage n) s)
    refine ⟨_, hexec, hsel.trans (Nat.mod_eq_of_lt (by omega)), ?_, ?_, rfl⟩
    · rw [regFld, hval, hentry]
      rfl
    · rw [regFld, hval, hset]
      rfl

/-- Settles O45: the fields by what each leaves of the thread, the requests by their rank, the rest case by case. -/
theorem microwordFields : Obligations.MicrowordFields := ⟨wordFieldsAct, requestsRanked, jobsTimersAndDispatchTable⟩

end Sys2Proof.Machine
end

section
/-!
The loader (09 R217 to R222): the start of a load, its data, its ends and the limit of BOOT_FETCH.
-/

namespace Sys2Proof.Machine

/-! ### SEC beside the headers -/

/-- Another state of SEC. -/
def withSec (x : Sec) (s : State) : State := { s with sec := x }

/-- Counting changes the headers alone. -/
theorem bump_eq_hdr (p : Page) (i : Nat) (s : State) : bump p i s = { s with hdr := (bump p i s).hdr } :=
  congrArg (fun t : State => { t with hdr := (bump p i s).hdr })
    (bump_keeps (fun t => { t with hdr := [] }) (fun _ _ _ => rfl) p i s)

/-- Counting does not read what SEC holds. -/
theorem bump_withSec (p : Page) (i : Nat) (x : Sec) (s : State) : bump p i (withSec x s) = withSec x (bump p i s) := by
  have hhdr : (bump p i (withSec x s)).hdr = (bump p i s).hdr := hdr_bump_congr p i rfl rfl
  rw [bump_eq_hdr p i (withSec x s), hhdr, bump_eq_hdr p i s]
  rfl

theorem secClosed_open {s : State} (hlock : (hdrOf .sec s).locked = false) (hon : (hdrOf .sec s).enable = true) :
    secClosed s = false := by
  simp [secClosed, hlock, hon]

theorem secClosed_shut {s : State} (h : (hdrOf .sec s).locked = true ∨ (hdrOf .sec s).enable = false) :
    secClosed s = true := by
  rcases h with h | h <;> simp [secClosed, h]

/-! ### LOAD_START (09 R217, R221) -/

/-- The requests of a transfer change the ports alone. -/
theorem fabReads_eq (p addr len kind : Nat) (mk : Nat → ReadFor) (s : State) :
    fabReads p addr len kind mk s = { s with fab := (fabReads p addr len kind mk s).fab } :=
  congrArg (fun t : State => { t with fab := (fabReads p addr len kind mk s).fab })
    (fabReads_keeps (fun t => { t with fab := [] }) (fun _ _ _ => rfl) p addr len kind mk s)

/-- Bytes of a load that runs are requested; nothing of them has come. -/
theorem loadFetch_running {l : Load} {s : State} (off len : Nat) (h : s.sec.load = some l) : loadFetch off len s =
    let a := regOf .sec oSecLoadAddr s + off
    fabReads 0 a len 2 (fun i => .load (off + i))
      (withSec { s.sec with load := some { l with waiting := l.waiting + writeCount a len, got := [] } } s) := by
  simp only [loadFetch, h]
  rfl

theorem loadStart_begins {s : State} (hopen : secClosed s = false) (hnone : s.sec.load = none) : loadStart s =
    let a := regOf .sec oSecLoadAddr s
    fabReads 0 a 128 2 (fun i => .load i)
      (withSec { s.sec with load := some { waiting := writeCount a 128 } } (bump .sec 0 s)) := by
  have hregs : regOf .sec oSecLoadAddr (bump .sec 0 s) = regOf .sec oSecLoadAddr s := by simp only [regOf, bump_regs]
  have hstart : loadStart s = loadFetch 0 128 (bump .sec 0 (withSec { s.sec with load := some {} } s)) := by
    simp [loadStart, hopen, hnone, withSec]
  rw [hstart, bump_withSec, loadFetch_running 0 128 (l := {}) rfl, ← hregs]
  simp only [Nat.zero_add]
  rfl

theorem loadStart_busy {s : State} (hopen : secClosed s = false) (hload : s.sec.load ≠ none) :
    loadStart s = raiseErr .sec 0x0104 0 s := by
  simp [loadStart, hopen, Option.isSome_iff_ne_none.mpr hload]

/-- 09 R217, R221: LOAD_START begins a load or is refused. -/
theorem loadStartReadsHeader : Claims.LoadStartReadsHeader := by
  intro s hp u a
  have hexec : exec .loadStart s = .next (settle (csrOk 0 (loadStart u))) := congrArg fin (csrDo_answers loadStart hp)
  refine ⟨fun hlock hon hnone => ?_, fun hlock hon hload => ?_, fun hshut => ?_⟩
  · rw [hexec, loadStart_begins (secClosed_open (s := u) hlock hon) hnone]
    rfl
  · rw [hexec, loadStart_busy (secClosed_open (s := u) hlock hon) hload]
  · rw [hexec, loadStart, if_pos (secClosed_shut (s := u) hshut)]
    rfl

/-! ### The patch regions (09 R217) -/

/-- SEC once the patches of the classes of TARGETS are emptied: their LOADED goes. -/
def patchesGone (n : Nat) (x : Sec) : Sec :=
  { x with loadedBur := x.loadedBur && !bitAt n 0, loadedGrv := x.loadedGrv && !bitAt n 1 }

/-- The emptying of patch regions changes the engines' stores and LOADED; the stores do not depend on SEC. -/
theorem emptyPatches_withSec (n : Nat) (x : Sec) (s : State) :
    emptyPatches n (withSec x s) = withSec (patchesGone n x) { s with eng := (emptyPatches n s).eng } := by
  unfold emptyPatches patchesGone
  cases bitAt n 0 <;> cases bitAt n 1 <;> simp [withSec]

theorem emptyPatches_eq (n : Nat) (s : State) :
    emptyPatches n s = withSec (patchesGone n s.sec) { s with eng := (emptyPatches n s).eng } :=
  emptyPatches_withSec n s.sec s

/-- Emptied stores are those of the engines alone, whatever else the states hold. -/
theorem emptyPatches_eng {s u : State} (n : Nat) (h : u.eng = s.eng) :
    (emptyPatches n u).eng = (emptyPatches n s).eng := by
  unfold emptyPatches
  cases bitAt n 0 <;> cases bitAt n 1 <;> simp [h]

/-! ### Ends of a load -/

/-- What a load ends with that fails with a code. -/
def loadFailed (code : Nat) (x : Sec) (s : State) : State :=
  raiseErr .sec 0x0100 code (raiseEvt .sec 1 (bump .sec 2 (withSec { x with load := none, result := code } s)))

theorem loadReject_none {s : State} (code : Nat) (h : s.sec.load = none) :
    loadReject code s = loadFailed code s.sec s := by
  simp only [loadReject, h]
  rfl

theorem loadReject_later {s : State} {l : Load} (code : Nat) (h : s.sec.load = some l) (hphase : l.phase ≠ .header) :
    loadReject code s = loadFailed code (emptyPatches l.targets s).sec (emptyPatches l.targets s) := by
  simp only [loadReject, h, if_neg hphase]
  rfl

/-! ### LOAD_DATA (09 R217) -/

/-- A load once one of its requests has been answered. -/
def loadAnswered (off : Nat) (bytes : List Byte) (ok : Bool) (l : Load) : Load :=
  if ok then { l with waiting := l.waiting - 1, got := SMap.put (fun _ => []) l.got off bytes }
  else { l with waiting := l.waiting - 1, result := 3 }

/-- The load that runs is taken apart in this proof, and in that of loadArrived_header, for simp not to rewrite the
fields that the model writes back. -/
theorem loadData_returned {p : PortId} {tkt : BitVec 9} {beats : List (BitVec 512)} {stat : BitVec 2} {s : State}
    {q : RdReq} {l : Load} {off : Nat} (hq : readAt p tkt s = some q) (hfor : q.purpose = .load off)
    (hload : s.sec.load = some l) (hboot : l.boot = false)
    (hbeats : stat = 0 → beats.length = beatsFor q.addr q.len) :
    loadData p tkt beats stat s =
      let x := loadAnswered off (readBytes q beats) (statOk stat) l
      let v := withSec { s.sec with load := some x } (readOver p tkt s)
      if l.waiting - 1 = 0 then loadArrived x v else v := by
  have hsec : (readOver p tkt s).sec = s.sec := rfl
  have hgood : (statOk stat && !beatsMatch q beats) = false := by
    cases hstat : statOk stat with
    | false => rfl
    | true => simp [beatsMatch, hbeats ((statOk_iff stat).mp hstat)]
  obtain ⟨phase, bytes, waiting, result, targets, boot⟩ := l
  obtain rfl : boot = false := hboot
  unfold loadData
  simp only [hq, hfor, hgood, hsec, hload, Bool.false_eq_true, if_false]
  cases statOk stat <;> rfl

theorem loadArrived_failed {l : Load} (s : State) (h : l.result ≠ 1) : loadArrived l s = loadReject l.result s :=
  if_pos h

theorem loadArrived_body {l : Load} (s : State) (h : l.result = 1) (hphase : l.phase = .body) :
    loadArrived l s = { s with sec := { s.sec with load := some { l with phase := .verify } } } := by
  simp [loadArrived, h, hphase]

/-- A load with the header as its first bytes, whose body is requested. -/
def headerKept (h : List Byte) (s : State) : State :=
  withSec { s.sec with load := s.sec.load.map fun l => { l with got := [(0, h)] } } s

theorem loadArrived_header {l : Load} {s : State} {r : State × Bool} (h : l.result = 1) (hphase : l.phase = .header)
    (hr : loadHeader (loadImage l) s = r) : loadArrived l s =
      if r.2 then headerKept (loadImage l) (loadFetch 128 (bodyLen (loadImage l) + 80) r.1) else r.1 := by
  obtain ⟨phase, got, waiting, result, targets, boot⟩ := l
  obtain rfl : result = 1 := h
  obtain rfl : phase = .header := hphase
  subst hr
  rfl

theorem loadHeader_refused {l : Load} {s : State} {h : List Byte} (hload : s.sec.load = some l)
    (hcheck : headerCheck h l.boot s ≠ 0) : loadHeader h s = (loadReject (headerCheck h l.boot s) s, false) := by
  simp only [loadHeader, hload, if_neg hcheck]

/-- A load whose header has passed. -/
def headerPassed (h : List Byte) (l : Load) : Load := { l with phase := .body, targets := hdrNat h 12 4 }

/-- Where the header passes, the patch regions are emptied. -/
theorem loadHeader_passed {l : Load} {s : State} {h : List Byte} (hload : s.sec.load = some l)
    (hcheck : headerCheck h l.boot s = 0) : loadHeader h s =
      (withSec (patchesGone (hdrNat h 12 4) { s.sec with load := some (headerPassed h l) })
        { s with eng := (emptyPatches (hdrNat h 12 4) s).eng }, true) := by
  rw [← emptyPatches_withSec]
  simp only [loadHeader, hload, hcheck, if_true]
  rfl

/-- The last of a header that passes is followed by the requests of the body. -/
theorem loadArrived_passed {l : Load} {s : State} (h : l.result = 1) (hphase : l.phase = .header)
    (hload : s.sec.load = some l) (hcheck : headerCheck (loadImage l) l.boot s = 0) :
    let i := loadImage l
    let t := hdrNat i 12 4
    let a := regOf .sec oSecLoadAddr s + 128
    ∃ y, loadArrived l s = withSec
      (patchesGone t { s.sec with load := some { l with phase := .body, targets := t, got := [(0, i)],
                                                        waiting := l.waiting + writeCount a (bodyLen i + 80) } })
      { s with fab := y, eng := (emptyPatches t s).eng } := by
  intro i t a
  rw [loadArrived_header h hphase (loadHeader_passed hload hcheck), if_pos rfl, loadFetch_running 128 _ rfl,
    fabReads_eq]
  exact ⟨_, rfl⟩

/-- 09 R217: LOAD_DATA fills the image, and its last part ends a phase of the load. -/
theorem loadDataFillsImage : Claims.LoadDataFillsImage := by
  intro p tkt beats stat s q l off hq hfor hload hboot put got
  have hexec : exec (.loadData p tkt beats stat) s = .next (settle (loadData p tkt beats stat s)) := rfl
  have hdata (hbeats : stat = 0 → beats.length = beatsFor q.addr q.len) :=
    loadData_returned (stat := stat) hq hfor hload hboot hbeats
  have hok (h : stat = 0) : statOk stat = true := (statOk_iff stat).mpr h
  have hbad (h : stat ≠ 0) : statOk stat = false := Bool.eq_false_iff.mpr (mt (statOk_iff stat).mp h)
  refine ⟨fun hstat hbeats hmore => ?_, fun hstat hbeats hlast hphase hresult => ?_, fun hstat hmore => ?_,
    fun hstat hlast => ?_, fun hstat hbeats hlast hphase hresult => ?_⟩
  · have hopen : ¬l.waiting - 1 = 0 := by omega
    simp only [hexec, hdata fun _ => hbeats, hok hstat, if_neg hopen]
    rfl
  · have hover : l.waiting - 1 = 0 := by omega
    let x : Load := { l with waiting := 0, got := got }
    simp only [hexec, hdata fun _ => hbeats, hok hstat, loadAnswered, hover, if_true]
    exact congrArg fin (loadArrived_body (l := x) (put x) hresult hphase)
  · have hopen : ¬l.waiting - 1 = 0 := by omega
    simp only [hexec, hdata fun h => absurd h hstat, hbad hstat, if_neg hopen]
    rfl
  · have hover : l.waiting - 1 = 0 := by omega
    let x : Load := { l with waiting := 0, result := 3 }
    have hresult : x.result ≠ 1 := by simp only [x]; decide
    simp only [hexec, hdata fun h => absurd h hstat, hbad hstat, loadAnswered, hover, Bool.false_eq_true, if_false]
    exact congrArg fin (loadArrived_failed (put x) hresult)
  · intro i w
    have hover : l.waiting - 1 = 0 := by omega
    let x : Load := { l with waiting := 0, got := got }
    have hcmd : exec (.loadData p tkt beats stat) s = .next (settle (loadArrived x w)) := by
      simp only [hexec, hdata fun _ => hbeats, hok hstat, loadAnswered, hover, if_true]
      rfl
    have hi : headerCheck i false w = headerCheck (loadImage x) x.boot w := by simp only [x, hboot, i, got]
    obtain ⟨z, hport⟩ := readOver_eq p tkt s
    have hw : w = withSec { s.sec with load := some x } { s with fab := z } := by
      simp only [w, put, hport]
      rfl
    clear_value w
    subst hw
    rw [hcmd, hi]
    refine ⟨fun hcheck => ?_, fun hcheck => ?_⟩
    · rw [loadArrived_header (l := x) hresult hphase (loadHeader_refused (l := x) rfl hcheck)]
      rfl
    · obtain ⟨y, hpassed⟩ := loadArrived_passed (l := x) hresult hphase rfl hcheck
      rw [hpassed]
      refine ⟨_, rfl, ?_, ?_, rfl⟩
      · simp only [x, hresult, hboot, Nat.zero_add]
        rfl
      · exact emptyPatches_eng _ rfl

/-! ### LOAD_VERIFY_END (09 R218) -/

/-- The records of an image change the engines' stores and the memory of their words. -/
theorem putItems_eq (entry grv : Bool) : ∀ (items : List Nat) (a : Nat) (s : State),
    ∃ x y, putItems entry grv a items s = { s with eng := x, mem := y } := by
  intro items
  induction items with
  | nil => exact fun _ s => ⟨s.eng, s.mem, rfl⟩
  | cons v r ih =>
    intro a s
    have hone : ∃ x y, (if entry then putEntry grv a v s else putWord grv a v s) = { s with eng := x, mem := y } := by
      unfold putEntry putWord
      cases entry <;> cases grv <;> exact ⟨_, _, rfl⟩
    obtain ⟨x, y, hone⟩ := hone
    obtain ⟨x', y', hrest⟩ := ih (a + 1) { s with eng := x, mem := y }
    exact ⟨x', y', by rw [putItems, hone, hrest]⟩

theorem putRecords_eq (l : List ImgRec) (s : State) : ∃ x y, putRecords l s = { s with eng := x, mem := y } := by
  unfold putRecords
  induction l generalizing s with
  | nil => exact ⟨s.eng, s.mem, rfl⟩
  | cons r l ih =>
    obtain ⟨x, y, hone⟩ := putItems_eq (decide (2 < r.type)) (recGrv r.type) r.items r.start s
    obtain ⟨x', y', hrest⟩ := ih { s with eng := x, mem := y }
    exact ⟨x', y', by rw [List.foldl_cons, hone, hrest]⟩

theorem loadVerifyEnd_checked {s : State} {l : Load} (hload : s.sec.load = some l) (hphase : l.phase = .verify) :
    loadVerifyEnd s = let c := bodyCheck (loadImage l)
      if c = 1 then loadAccept l s else loadReject c s := by
  simp [loadVerifyEnd, hload, hphase]

/-- An image that passes every check has been taken. -/
def imageTaken (l : Load) (s : State) : State :=
  { s with
    sec := { s.sec with load := none, result := 1, svn := hdrNat (loadImage l) 16 4,
                        loadedBur := s.sec.loadedBur || bitAt l.targets 0,
                        loadedGrv := s.sec.loadedGrv || bitAt l.targets 1 }
    eng := { s.eng with released := true } }

theorem loadAccept_eq (l : Load) (s : State) : ∃ x y, loadAccept l s = startEngines (raiseEvt .sec 0 (bump .sec 1
    (imageTaken l (withSec (patchesGone l.targets s.sec) { s with eng := x, mem := y })))) := by
  obtain ⟨x, y, hput⟩ := putRecords_eq (imgContents (loadImage l)) (emptyPatches l.targets s)
  have hrecords : putRecords (imgContents (loadImage l)) (emptyPatches l.targets s)
      = withSec (patchesGone l.targets s.sec) { s with eng := x, mem := y } := by
    rw [hput, emptyPatches_eq]
    rfl
  exact ⟨x, y, by rw [← hrecords]; rfl⟩

/-- 09 R217, R218: what the checks of a complete image decide. -/
theorem loadVerifyEndAcceptsOrRejects : Claims.LoadVerifyEndAcceptsOrRejects := by
  intro s l hload hphase img
  have hexec : exec .loadVerifyEnd s = .next (settle (loadVerifyEnd s)) := rfl
  refine ⟨fun hgood => ?_, fun c hc hbad => ?_⟩
  · have haccept : loadVerifyEnd s = loadAccept l s := (loadVerifyEnd_checked hload hphase).trans (if_pos hgood)
    obtain ⟨x, y, htaken⟩ := loadAccept_eq l s
    have hloaded (was now : Bool) : (was && !now || now) = (was || now) := by cases was <;> cases now <;> rfl
    rw [hexec, haccept, htaken]
    refine ⟨_, _, rfl, rfl, ?_, rfl, rfl⟩
    simp only [imageTaken, withSec, patchesGone, hloaded]
    rfl
  · subst hc
    have hreject : loadVerifyEnd s = loadReject (bodyCheck img) s :=
      (loadVerifyEnd_checked hload hphase).trans (if_neg hbad)
    have hlater : l.phase ≠ .header := by rw [hphase]; decide
    rw [hexec, hreject, loadReject_later _ hload hlater, emptyPatches_eq]
    rfl

/-! ### BOOT_FETCH_TIMEOUT (09 R222) -/

/-- The end of an open packet changes the note FIFOs and the counters that count it. -/
theorem noteClose_keeps {α : Type} (f : State → α) (hh : ∀ p h s, f (setHdr p h s) = f s)
    (hnote : ∀ x s, f { s with note := x } = f s) (e : Nat) (k aborted : Bool) (s : State) :
    f (noteClose e k aborted s) = f s := by
  simp only [noteClose]
  split
  · rfl
  · split
    · rfl
    · exact (bump_keeps f hh ..).trans ((bump_keeps f hh ..).trans (hnote _ s))

theorem holdThr_keeps {α : Type} (f : State → α) (hh : ∀ p h s, f (setHdr p h s) = f s)
    (hnote : ∀ x s, f { s with note := x } = f s) {e : Nat} {k : Bool} (hthr : ∀ t s, f (setThr e k t s) = f s)
    (s : State) : f (holdThr e k s) = f s :=
  (hthr _ _).trans (noteClose_keeps f hh hnote e k true s)

theorem holdThr_held (e : Nat) (k : Bool) (s : State) : (thrOf e k (holdThr e k s)).state = .held := by
  rw [holdThr, thrOf_modThr_same]

theorem holdThr_other {k j : Bool} (e : Nat) (s : State) (h : j ≠ k) : thrOf e j (holdThr e k s) = thrOf e j s :=
  holdThr_keeps (thrOf e j) (fun _ _ _ => rfl) (fun _ _ => rfl) (fun t s => thrOf_setThr_other e t s h) s

/-- The boot fetch is over: its job and its reads go. -/
def bootDropped (s : State) : State :=
  modDie 0 (fun x => { x with queue := x.queue.filter fun it => !bootRead it.id s })
    (withSec { s.sec with boot := .failed }
      { s with eng := { s.eng with grvQueue := s.eng.grvQueue.filter fun q => !decide (q.job.kind = 8) } })

theorem bootFail_waiting {s : State} (hboot : s.sec.boot = .channelWait ∨ s.sec.boot = .bringUp) :
    bootFail s = loadReject 0x0B (holdThr 64 true (holdThr 64 false (bootDropped s))) := by
  rcases hboot with h | h <;> simp only [bootFail, h] <;> rfl

/-- 09 R222: the limit of BOOT_FETCH. -/
theorem bootFetchTimeoutFails : Claims.BootFetchTimeoutFails := by
  intro s hboot hload hlate
  let w := holdThr 64 true (holdThr 64 false (bootDropped s))
  have hkeeps {α : Type} (f : State → α) (hh : ∀ p h s, f (setHdr p h s) = f s)
      (hnote : ∀ x s, f { s with note := x } = f s) (hthr : ∀ k t s, f (setThr 64 k t s) = f s) :
      f w = f (bootDropped s) :=
    (holdThr_keeps f hh hnote (hthr true) _).trans (holdThr_keeps f hh hnote (hthr false) _)
  have hsec : w.sec = { s.sec with boot := .failed } :=
    hkeeps State.sec (fun _ _ _ => rfl) (fun _ _ => rfl) (fun _ _ _ => rfl)
  have hexec : exec .bootFetchTimeout s = .next (settle (loadReject 0x0B w)) :=
    congrArg fin ((if_pos ⟨hboot, hlate⟩).trans (bootFail_waiting hboot))
  rw [hexec, loadReject_none _ (by rw [hsec]; exact hload), loadFailed]
  have hqueue : w.eng.grvQueue = s.eng.grvQueue.filter fun q => !decide (q.job.kind = 8) :=
    hkeeps (fun t => t.eng.grvQueue) (fun _ _ _ => rfl) (fun _ _ => rfl) (fun _ _ _ => rfl)
  have hrest : (w.rif, w.ops, w.chn, w.pwr, w.map, w.win) = (s.rif, s.ops, s.chn, s.pwr, s.map, s.win) :=
    hkeeps (fun t => (t.rif, t.ops, t.chn, t.pwr, t.map, t.win)) (fun _ _ _ => rfl) (fun _ _ => rfl) (fun _ _ _ => rfl)
  have hfirst : (thrOf 64 false w).state = .held := by
    rw [holdThr_other 64 _ Bool.false_ne_true]
    exact holdThr_held ..
  have hsecond : (thrOf 64 true w).state = .held := holdThr_held ..
  simp only [Prod.mk.injEq] at hrest
  exact ⟨_, rfl, by rw [hsec]; rfl, hfirst, hsecond, hqueue, hrest⟩

/-- Settles O12: each course of a load by the lemma of its function. -/
theorem imageLoads : Obligations.ImageLoads :=
  ⟨loadStartReadsHeader, loadDataFillsImage, loadVerifyEndAcceptsOrRejects, bootFetchTimeoutFails⟩

end Sys2Proof.Machine
end

section
/-!
The rollback fuses and the raw-command gate of SEC (09 R220 to R225).
-/

namespace Sys2Proof.Machine

/-! ### Rollback fuses (09 R220) -/

theorem rollAccepts_iff (n : Nat) (s : State) : rollAccepts n s = true ↔
    (s.sec.loadedBur = true ∨ s.sec.loadedGrv = true) ∧ n ≤ s.sec.svn ∧ rollCount s < n ∧ s.sec.burnTo = none := by
  simp [rollAccepts, and_assoc]

theorem rollAdv_open {n : Nat} {s : State} (h : secClosed s = false) : rollAdv n s =
    if rollAccepts n s then withSec { s.sec with burnTo := some n } s else raiseErr .sec 0x0103 n s := by
  simp only [rollAdv, h, Bool.false_eq_true, if_false]
  rfl

theorem fuseBurn_burns {n : Nat} {s : State} (hburn : s.sec.burnTo = some n) (hpower : corePowered s = true) :
    fuseBurn s =
      if n ≤ rollCount s + 1 then
        raiseEvt .sec 3 (withSec { s.sec with burned := s.sec.burned + 1, burnTo := none } s)
      else withSec { s.sec with burned := s.sec.burned + 1 } s := by
  simp only [fuseBurn, hburn, hpower, if_true]
  rfl

/-- 09 R220, R221: ROLL_ADV and the fuses it blows. -/
theorem rollbackFusesBurn : Claims.RollbackFusesBurn := by
  intro n s
  refine ⟨fun hp => ?_, fun hburn hpower => ⟨fun hmore => ?_, fun hlast => ?_⟩⟩
  · intro u
    have hexec : exec (.rollAdv n) s = .next (settle (csrOk 0 (rollAdv n.toNat u))) :=
      congrArg fin (csrDo_answers (rollAdv n.toNat) hp)
    refine ⟨fun hlock hon hloaded hsvn hfuses hfree => ?_, fun hlock hon hrefused => ?_, fun hshut => ?_⟩
    · have haccepts : rollAccepts n.toNat u = true := (rollAccepts_iff _ u).mpr ⟨hloaded, hsvn, hfuses, hfree⟩
      rw [hexec, rollAdv_open (secClosed_open (s := u) hlock hon), if_pos haccepts]
      rfl
    · have hrefuses : ¬rollAccepts n.toNat u = true := by
        rw [rollAccepts_iff]
        rintro ⟨hloaded, hsvn, hfuses, hfree⟩
        rcases hrefused with ⟨hbur, hgrv⟩ | hover | hbelow | hburns
        · rcases hloaded with h | h
          · exact Bool.false_ne_true (hbur.symm.trans h)
          · exact Bool.false_ne_true (hgrv.symm.trans h)
        · exact Nat.not_lt.mpr hsvn hover
        · exact Nat.not_lt.mpr hbelow hfuses
        · exact hburns hfree
      rw [hexec, rollAdv_open (secClosed_open (s := u) hlock hon), if_neg hrefuses]
    · rw [hexec, rollAdv, if_pos (secClosed_shut (s := u) hshut)]
      rfl
  · have hexec : exec .fuseBurn s = .next (settle (fuseBurn s)) := rfl
    rw [hexec, fuseBurn_burns hburn hpower, if_neg (Nat.not_le.mpr hmore)]
    rfl
  · have hexec : exec .fuseBurn s = .next (settle (fuseBurn s)) := rfl
    rw [hexec, fuseBurn_burns hburn hpower, if_pos hlast]
    rfl

/-! ### UNLOCK (09 R223) -/

/-- SEC with a closed gate. -/
def gateClosed (x : Sec) : Sec := { x with open_ := false, wrCmd := false, wrAddr := false, wrData := false }

section

variable {key : Nat} {s : State}

theorem unlock_while_open (h : s.sec.open_ = true) : unlock key s =
    if key = 0x5C17 then withSec { gateClosed s.sec with unlockAt := some s.cc } s
    else raiseErr .sec 0x0101 key (bump .sec 4 (withSec { gateClosed s.sec with unlockAt := none } s)) := by
  simp only [unlock, h, if_true]
  rfl

theorem unlock_first (h : s.sec.open_ = false) (hnone : s.sec.unlockAt = none) : unlock key s =
    if key = 0x5C17 then withSec { s.sec with unlockAt := some s.cc } s else unlockFail key s := by
  simp only [unlock, h, hnone, Bool.false_eq_true, if_false]
  rfl

theorem unlock_second {t : Nat} (h : s.sec.open_ = false) (hsome : s.sec.unlockAt = some t) : unlock key s =
    if key = 0xA3E8 ∧ s.cc ≤ t + 64 then withSec { s.sec with unlockAt := none, open_ := true } s
    else unlockFail key s := by
  simp only [unlock, h, hsome, Bool.false_eq_true, if_false]
  rfl

end

/-- 09 R223: every write of UNLOCK. -/
theorem unlockSequence : Claims.UnlockSequence := by
  intro key s hp hlock hon u c
  have hopen : secClosed u = false := secClosed_open hlock hon
  have hexec : exec (.unlock key) s = .next (settle (csrOk 0 (unlock key.toNat u))) := by
    have hwrite : unlockWrite key.toNat u = unlock key.toNat u := by
      simp only [unlockWrite, hopen, Bool.false_eq_true, if_false]
    rw [← hwrite]
    exact congrArg fin (csrDo_answers (unlockWrite key.toNat) hp)
  have hkey (n : Nat) (hn : n < 2 ^ 16) : key.toNat = n ↔ key = BitVec.ofNat 16 n := by
    rw [← BitVec.toNat_inj, BitVec.toNat_ofNat, Nat.mod_eq_of_lt hn]
  have hfirst := hkey 0x5C17 (by decide)
  have hsecond := hkey 0xA3E8 (by decide)
  rw [hexec]
  refine ⟨fun hgate hnone h => ?_, fun t hgate hsome h hsoon => ?_, fun hgate hnone h => ?_, fun t hgate hsome h => ?_,
    fun hgate h => ?_, fun hgate h => ?_⟩
  · rw [unlock_first (s := u) hgate hnone, if_pos (hfirst.mpr h)]
    rfl
  · rw [unlock_second (s := u) hgate hsome, if_pos ⟨hsecond.mpr h, hsoon⟩]
    rfl
  · rw [unlock_first (s := u) hgate hnone, if_neg (mt hfirst.mp h)]
    rfl
  · have hfails : ¬(key.toNat = 0xA3E8 ∧ u.cc ≤ t + 64) := by
      rintro ⟨hright, hsoon⟩
      rcases h with hwrong | hlate
      · exact hwrong (hsecond.mp hright)
      · exact Nat.not_lt.mpr hsoon hlate
    rw [unlock_second (s := u) hgate hsome, if_neg hfails]
    rfl
  · rw [unlock_while_open (s := u) hgate, if_pos (hfirst.mpr h)]
    rfl
  · rw [unlock_while_open (s := u) hgate, if_neg (mt hfirst.mp h)]
    rfl

/-! ### Raw commands (09 R223 to R225) -/

/-- The raw registers that have been written since the gate opened, once one more is. -/
def rawMarked (r : RawReg) (x : Sec) : Sec :=
  { x with wrCmd := x.wrCmd || decide (r = .cmd), wrAddr := x.wrAddr || decide (r = .addr),
           wrData := x.wrData || decide (r = .data) }

theorem rawWrite_shut {r : RawReg} {v : Nat} {s : State} (h : s.sec.open_ = false) :
    rawWrite r v s = raiseErr .sec 0x0102 (rawOffset r) s := by
  simp [rawWrite, h]

theorem rawWrite_open {r : RawReg} {v : Nat} {s : State} (h : s.sec.open_ = true) : rawWrite r v s =
    let x := rawMarked r s.sec
    let u := withSec x (setReg .sec (rawOffset r) v s)
    if x.wrCmd = true ∧ x.wrAddr = true ∧ x.wrData = true then rawGo u else u := by
  cases r <;> simp [rawWrite, h, rawMarked, withSec]

/-- The raw command's job is in the Graver's queue. -/
def rawQueued (s : State) : State :=
  pushGraver s.eng.grvNext { plainJob 9 (rawDie s) none (noneKey s) s with profile := 0 } s

/-- SEC while a raw command runs. -/
def rawRunning (cc : Nat) (x : Sec) : Sec :=
  { x with rawBusy := true, rawResult := 0, rawStatus := 0, rawSince := 0, rawOut := false, rawAt := cc, rawNext := cc }

theorem rawGo_refused {s : State} (h : rawCheck (closeGate s) ≠ 0) :
    rawGo s = rawEnd (rawCheck (closeGate s)) (closeGate s) := if_pos h

theorem rawGo_starts {s : State} (h : rawCheck (closeGate s) = 0) : rawGo s =
    withSec (rawRunning s.cc (gateClosed s.sec)) (bump .sec 3 (rawQueued (closeGate s))) := by
  have hstarts : rawGo s =
      let v := bump .sec 3 (rawQueued (closeGate s))
      withSec (rawRunning v.cc v.sec) v := if_neg (not_not.mpr h)
  rw [hstarts]
  simp only [bump_cc, bump_sec]
  rfl

theorem rawTimeout_out {s : State} (h : s.sec.rawBusy = true ∧ s.sec.rawSince ≠ 0 ∧ s.sec.rawOut = false
    ∧ s.sec.rawSince + 20000 * Config.ccPerUs ≤ s.cc) : rawTimeout s = rawEnd 6 s := if_pos h

theorem rawTimeout_waits {s : State} (h : ¬(s.sec.rawBusy = true ∧ s.sec.rawSince ≠ 0 ∧ s.sec.rawOut = false
    ∧ s.sec.rawSince + 20000 * Config.ccPerUs ≤ s.cc)) : rawTimeout s = s := if_neg h

/-- 09 R223, R224, R225: RAW_START and the limit of its polls. -/
theorem rawCommandStartAndTimeout : Claims.RawCommandStartAndTimeout := by
  intro reg data s
  refine ⟨fun hp => ?_, fun hout => ?_, fun hwaits => ?_⟩
  · intro u w b
    let v := data.toNat &&& rawMask reg
    have hexec : exec (.rawStart reg data) s = .next (settle (csrOk 0 (rawWrite reg v u))) :=
      congrArg fin (csrDo_answers (rawWrite reg v) hp)
    rw [hexec]
    refine ⟨fun hshut => ?_, fun hopen hmore => ?_, fun hopen hcmd haddr hdata => ?_⟩
    · rw [rawWrite_shut (s := u) hshut]
    · rw [rawWrite_open (s := u) hopen]
      exact congrArg (fun t => fin (csrOk 0 t)) (if_neg hmore)
    · intro g
      have hgo : rawWrite reg v u = rawGo (withSec (rawMarked reg s.sec) w) :=
        (rawWrite_open (s := u) hopen).trans (if_pos ⟨hcmd, haddr, hdata⟩)
      have hgate : closeGate (withSec (rawMarked reg s.sec) w) = g := rfl
      rw [hgo]
      refine ⟨fun hgood => ?_, fun hbad => ?_⟩
      · have hhdr : (bump .sec 3 (rawQueued g)).hdr = (bump .sec 3 w).hdr := hdr_bump_congr .sec 3 rfl rfl
        rw [rawGo_starts (by rw [hgate]; exact hgood), hgate, bump_eq_hdr .sec 3 (rawQueued g), hhdr]
        refine ⟨_, rfl, ⟨_, rfl, rfl, rfl, rfl⟩, rfl, ?_⟩
        rw [bump_eq_hdr .sec 3 w]
        rfl
      · rw [rawGo_refused (by rw [hgate]; exact hbad), hgate]
        rfl
  · have hexec : exec .rawWaitTimeout s = .next (settle (rawTimeout s)) := rfl
    rw [hexec, rawTimeout_out hout]
    rfl
  · have hexec : exec .rawWaitTimeout s = .next (settle (rawTimeout s)) := rfl
    rw [hexec, rawTimeout_waits hwaits]

/-- Settles O13: each command by the lemma of its function, case by case. -/
theorem secureCommands : Obligations.SecureCommands :=
  ⟨rollbackFusesBurn, unlockSequence, rawCommandStartAndTimeout⟩

end Sys2Proof.Machine
end

section
/-!
The LDPC encoder and the codewords that it makes (O46, O47; 10 R229 to R232, R235 to R237).
-/

namespace Sys2Proof.Machine

/-! ### Sums of row terms (10 R236) -/

/-- The sum of the information terms of the first n rows. -/
def lamSum (codeB : Bool) (info : List Block) (n : Nat) : Block :=
  (List.range n).foldl (fun a r => a ^^^ lam codeB info r) 0

theorem lamSum_zero (codeB : Bool) (info : List Block) : lamSum codeB info 0 = 0 := rfl

theorem lamSum_succ (codeB : Bool) (info : List Block) (n : Nat) :
    lamSum codeB info (n + 1) = lamSum codeB info n ^^^ lam codeB info n := by
  rw [lamSum, lamSum, List.range_succ, List.foldl_concat]

/-- p[0] is the sum of all rows. -/
theorem parity0_eq (codeB : Bool) (info : List Block) : parity0 codeB info = lamSum codeB info (codeRows codeB) := rfl

/-- p[i + 1] is row i's sum plus p[i], and row m / 2 adds p[0]. -/
theorem parityAt_succ (codeB : Bool) (info : List Block) {i : Nat} (hi : 0 < i) : parityAt codeB info (i + 1) =
    lam codeB info i ^^^ parityAt codeB info i ^^^ (if i = codeRows codeB / 2 then parity0 codeB info else 0) := by
  obtain ⟨k, rfl⟩ : ∃ k, i = k + 1 := ⟨i - 1, by omega⟩
  simp only [parityAt]
  split <;> simp

/-- Unrolled: p[i + 1] sums rows 0 to i, the shifted p[0] of row 0 and, past row m / 2, the p[0] of that row. -/
theorem parityAt_eq_sum (codeB : Bool) (info : List Block) (i : Nat) : parityAt codeB info (i + 1) =
    lamSum codeB info (i + 1) ^^^ rot (parity0 codeB info) 1
      ^^^ (if codeRows codeB / 2 ≤ i then parity0 codeB info else 0) := by
  induction i with
  | zero =>
    have hmid : ¬codeRows codeB / 2 ≤ 0 := by cases codeB <;> decide
    rw [if_neg hmid, lamSum_succ, lamSum_zero, parityAt]
    simp
  | succ i ih =>
    rw [parityAt_succ codeB info (Nat.succ_pos i), ih, lamSum_succ codeB info (i + 1)]
    rcases Nat.lt_trichotomy (i + 1) (codeRows codeB / 2) with h | h | h
    · rw [if_neg (by omega), if_neg (by omega), if_neg (by omega)]
      simp only [BitVec.ofNat_eq_ofNat, BitVec.xor_zero]
      ac_rfl
    · rw [if_neg (by omega), if_pos h, if_pos (by omega)]
      simp only [BitVec.ofNat_eq_ofNat, BitVec.xor_zero]
      ac_rfl
    · rw [if_pos (by omega), if_neg (by omega), if_pos (by omega)]
      simp only [BitVec.ofNat_eq_ofNat, BitVec.xor_zero]
      ac_rfl

/-- The last parity block: the p[0] of row m / 2 cancels the sum of the rows but for the last one. -/
theorem parityAt_last (codeB : Bool) (info : List Block) :
    parityAt codeB info (codeRows codeB - 1) = lam codeB info (codeRows codeB - 1) ^^^ rot (parity0 codeB info) 1 := by
  obtain ⟨k, hk, hmid⟩ : ∃ k, codeRows codeB = k + 2 ∧ codeRows codeB / 2 ≤ k := by
    cases codeB
    · exact ⟨14, rfl, by decide⟩
    · exact ⟨18, rfl, by decide⟩
  have hall : parity0 codeB info = lamSum codeB info (k + 1) ^^^ lam codeB info (k + 1) := by
    rw [parity0_eq, hk, lamSum_succ]
  have hlast : codeRows codeB - 1 = k + 1 := by omega
  rw [hlast, parityAt_eq_sum, if_pos hmid]
  generalize rot (parity0 codeB info) 1 = shifted
  rw [hall]
  calc lamSum codeB info (k + 1) ^^^ shifted ^^^ (lamSum codeB info (k + 1) ^^^ lam codeB info (k + 1))
      = (lamSum codeB info (k + 1) ^^^ lamSum codeB info (k + 1)) ^^^ (lam codeB info (k + 1) ^^^ shifted) := by ac_rfl
    _ = lam codeB info (k + 1) ^^^ shifted := by rw [BitVec.xor_self, BitVec.zero_xor]

/-! ### Every check bit is 0 (10 R235) -/

theorem length_parityBlocks (codeB : Bool) (info : List Block) :
    (parityBlocks codeB info).length = codeRows codeB := by simp [parityBlocks]

theorem pBlock_parityBlocks (codeB : Bool) (info : List Block) {q : Nat} (h : q < codeRows codeB) :
    pBlock (parityBlocks codeB info) q = parityAt codeB info q := by
  simp [pBlock, parityBlocks, h]

theorem checkRow_parityBlocks (codeB : Bool) (info : List Block) {r : Nat} (h : r < codeRows codeB) :
    checkRow codeB info (parityBlocks codeB info) r = 0 := by
  have hrows : 2 < codeRows codeB := by cases codeB <;> decide
  have hfirst : pBlock (parityBlocks codeB info) 0 = parity0 codeB info := pBlock_parityBlocks codeB info (by omega)
  have hblock := pBlock_parityBlocks codeB info h
  simp only [checkRow, hfirst, hblock]
  rcases Nat.eq_zero_or_pos r with rfl | hpos
  · rw [if_pos (by omega), pBlock_parityBlocks codeB info (by omega), if_neg (by omega), if_pos (.inl rfl),
      if_neg (by omega), parityAt]
    simp
  · by_cases hlast : r + 1 = codeRows codeB
    · obtain rfl : r = codeRows codeB - 1 := by omega
      rw [if_neg (by omega), if_pos (by omega), if_pos (.inr hlast), if_neg (by omega), parityAt_last]
      simp
    · rw [if_pos (by omega), pBlock_parityBlocks codeB info (by omega), if_pos (by omega), if_neg (by omega),
        parityAt_succ codeB info hpos]
      simp [BitVec.xor_assoc]

/-- Settles O46: row by row. -/
theorem encoderMakesValidBlocks : Obligations.EncoderMakesValidBlocks := by
  intro codeB info
  rw [blocksValid, List.all_eq_true]
  exact fun r hr => decide_eq_true (checkRow_parityBlocks codeB info (List.mem_range.mp hr))

/-! ### Blocks of an encoded codeword (10 R236, R237) -/

/-- A block's bytes. -/
def blockBytes (b : Block) : List Byte := leBytes 32 b.toNat

theorem leNat_blockBytes (b : Block) : leNat (blockBytes b) = b.toNat := by
  rw [blockBytes, leNat_leBytes]
  exact Nat.mod_eq_of_lt b.isLt

theorem length_flatMap_blockBytes (bs : List Block) : (bs.flatMap blockBytes).length = 32 * bs.length := by
  induction bs with
  | nil => rfl
  | cons b bs ih =>
    rw [List.flatMap_cons, List.length_append, ih, blockBytes, length_leBytes, List.length_cons]
    omega

/-- A block that lies within the first bytes is read from them. -/
theorem blockOf_append_left {front : List Byte} (back : List Byte) {n : Nat} (h : 32 * (n + 1) ≤ front.length) :
    blockOf (front ++ back) n = blockOf front n := by
  have hrest : 32 ≤ (front.drop (32 * n)).length := by
    rw [List.length_drop]
    omega
  rw [blockOf, blockOf, List.drop_append_of_le_length (by omega), List.take_append_of_le_length hrest]

/-- Behind k blocks of bytes, block k + n is block n of the rest. -/
theorem blockOf_append_right {front : List Byte} (back : List Byte) {k : Nat} (n : Nat) (h : front.length = 32 * k) :
    blockOf (front ++ back) (k + n) = blockOf back n := by
  rw [blockOf, blockOf, Nat.mul_add, ← h, ← List.drop_drop, List.drop_left]

theorem blockOf_flatMap_blockBytes (bs : List Block) {q : Nat} (h : q < bs.length) :
    blockOf (bs.flatMap blockBytes) q = bs[q] := by
  induction bs generalizing q with
  | nil => exact absurd h (Nat.not_lt_zero q)
  | cons b bs ih =>
    have hlen : (blockBytes b).length = 32 * 1 := length_leBytes 32 b.toNat
    rw [List.flatMap_cons]
    cases q with
    | zero =>
      rw [blockOf, Nat.mul_zero, List.drop_zero, List.take_left' hlen, leNat_blockBytes, BitVec.ofNat_toNat,
        BitVec.setWidth_eq]
      rfl
    | succ q =>
      have hnext := blockOf_append_right (bs.flatMap blockBytes) q hlen
      rw [Nat.add_comm 1 q] at hnext
      rw [hnext, ih (Nat.lt_of_succ_lt_succ h), List.getElem_cons_succ]

section

variable (codeB : Bool) {data : List Byte}

theorem encodeCw_eq (data : List Byte) :
    encodeCw codeB data = data ++ (parityBlocks codeB (infoBlocks data)).flatMap blockBytes := rfl

theorem length_encodeCw (data : List Byte) : (encodeCw codeB data).length = data.length + 32 * codeRows codeB := by
  rw [encodeCw_eq, List.length_append, length_flatMap_blockBytes, length_parityBlocks]

theorem infoBlocks_encodeCw (h : data.length = 4128) : infoBlocks (encodeCw codeB data) = infoBlocks data := by
  refine List.map_congr_left fun n hn => ?_
  have hlt : n < 129 := List.mem_range.mp hn
  exact blockOf_append_left _ (by omega)

theorem parityOf_encodeCw (h : data.length = 4128) :
    parityOf codeB (encodeCw codeB data) = parityBlocks codeB (infoBlocks data) := by
  refine List.ext_getElem (by simp [parityOf, length_parityBlocks]) fun q hq hq' => ?_
  have hblock : (parityOf codeB (encodeCw codeB data))[q] = blockOf (encodeCw codeB data) (129 + q) := by
    simp [parityOf]
  rw [hblock, encodeCw_eq, blockOf_append_right _ q h, blockOf_flatMap_blockBytes _ hq']

/-- 10 R235, R236: an encoded codeword is valid. -/
theorem syndromeZero_encodeCw (h : data.length = 4128) : syndromeZero codeB (encodeCw codeB data) = true := by
  rw [syndromeZero, infoBlocks_encodeCw codeB h, parityOf_encodeCw codeB h]
  exact encoderMakesValidBlocks codeB (infoBlocks data)

end

/-! ### The metadata of a codeword (10 R230, R232, Table 10.2) -/

theorem length_metadata (codeB slc : Bool) (echo idx stream : Nat) (ts : Stamp) (user : List Byte) :
    (metadata codeB echo slc idx ts stream user).length = 32 := by simp [metadata]

/-- Bytes k to k + n of a string whose first k bytes are set apart. -/
theorem field_append {front : List Byte} {k : Nat} (n v : Nat) (back : List Byte) (h : front.length = k) :
    leNat (((front ++ (leBytes n v ++ back)).drop k).take n) = v % 256 ^ n := by
  rw [List.drop_left' h, List.take_left' (length_leBytes n v), leNat_leBytes]

section

variable (codeB slc : Bool) (echo idx stream : Nat) (ts : Stamp) (user : List Byte)

theorem metadata_format : leNat ((metadata codeB echo slc idx ts stream user).take 1) = 1 := by
  simp only [metadata, List.append_assoc]
  exact field_append (front := []) 1 1 _ rfl

theorem metadata_codeId : leNat (((metadata codeB echo slc idx ts stream user).drop 1).take 1) = bit codeB := by
  simp only [metadata, List.append_assoc]
  refine (field_append 1 (bit codeB) _ (length_leBytes 1 1)).trans ?_
  cases codeB <;> rfl

theorem metadata_echo (h : echo < 2 ^ 40) :
    leNat (((metadata codeB echo slc idx ts stream user).drop 2).take 5) = echo := by
  have hfield := field_append (front := leBytes 1 1 ++ leBytes 1 (bit codeB)) (k := 2) 5 echo
  simp only [metadata, List.append_assoc] at hfield ⊢
  exact (hfield _ (by simp)).trans (Nat.mod_eq_of_lt h)

theorem metadata_index (h : idx < 4) :
    leNat (((metadata codeB echo slc idx ts stream user).drop 7).take 1) % 4 = idx := by
  have hfield := field_append (front := leBytes 1 1 ++ leBytes 1 (bit codeB) ++ leBytes 5 echo) (k := 7) 1
    (fieldAt 2 (bit slc) + idx % 4)
  simp only [metadata, List.append_assoc] at hfield ⊢
  rw [hfield _ (by simp), fieldAt]
  omega

theorem metadata_userCrc :
    leNat (((metadata codeB echo slc idx ts stream user).drop 16).take 4) = (crc32c user).toNat := by
  have hfield := field_append (front := leBytes 1 1 ++ leBytes 1 (bit codeB) ++ leBytes 5 echo
    ++ leBytes 1 (fieldAt 2 (bit slc) + idx % 4) ++ leBytes 2 ts.frac.toNat ++ leBytes 4 ts.frame.toNat
    ++ leBytes 2 stream) (k := 16) 4 (crc32c user).toNat
  simp only [metadata, List.append_assoc] at hfield ⊢
  exact (hfield _ (by simp)).trans (Nat.mod_eq_of_lt (crc32c user).isLt)

end

/-! ### An encoded codeword gives its data back -/

theorem cwUser_encodeCw (codeB : Bool) {user : List Byte} (md : List Byte) (h : user.length = 4096) :
    cwUser (encodeCw codeB (user ++ md)) = user := by
  rw [cwUser, encodeCw_eq, List.append_assoc, List.take_left' h]

theorem cwMeta_encodeCw (codeB : Bool) {user md : List Byte} (h : user.length = 4096) (hmd : md.length = 32) :
    cwMeta (encodeCw codeB (user ++ md)) = md := by
  rw [cwMeta, encodeCw_eq, List.append_assoc, List.drop_left' h, List.take_left' hmd]

/-- Settles O47: the code's part by the encoder's validity, the metadata field by field. -/
theorem encodedCodewordDecodes : Obligations.EncodedCodewordDecodes := by
  intro codeB slc echo idx stream ts user huser hecho hidx md cw
  have hmd : md.length = 32 := length_metadata codeB slc echo idx stream ts user
  have hdata : (user ++ md).length = 4128 := by rw [List.length_append, huser, hmd]
  have husers : cwUser cw = user := cwUser_encodeCw codeB md huser
  have hmeta : cwMeta cw = md := cwMeta_encodeCw codeB huser hmd
  refine ⟨?_, syndromeZero_encodeCw codeB hdata, husers, hmeta, ?_, ?_⟩
  · rw [length_encodeCw, hdata]
  · have hformat : leNat (md.take 1) = 1 := metadata_format ..
    have hcode : leNat ((md.drop 1).take 1) = bit codeB := metadata_codeId ..
    have hechoes : leNat ((md.drop 2).take 5) = echo := metadata_echo _ _ _ _ _ _ _ hecho
    have hindex : leNat ((md.drop 7).take 1) % 4 = idx := metadata_index _ _ _ _ _ _ _ hidx
    simp only [echoGood, metaEcho, metaIndex, hmeta, hformat, hcode, hechoes, hindex, decide_true, Bool.and_self]
  · rw [crcGood, husers, hmeta]
    exact decide_eq_true (metadata_userCrc ..)

end Sys2Proof.Machine
end

section
/-!
The randomiser and CRC-32C (O48, O59; 10 R231, R233, R234).
-/

namespace Sys2Proof.Machine

/-! ### Scrambling (10 R233, R234) -/

@[simp] theorem length_scrambleFrom (k : Word32) (l : List Byte) : (scrambleFrom k l).length = l.length := by
  induction l generalizing k with
  | nil => rfl
  | cons b l ih => rw [scrambleFrom, List.length_cons, ih, List.length_cons]

/-- A second XOR with the same key takes the first back. -/
@[simp] theorem scrambleFrom_scrambleFrom (k : Word32) (l : List Byte) : scrambleFrom k (scrambleFrom k l) = l := by
  induction l generalizing k with
  | nil => rfl
  | cons b l ih =>
    rw [scrambleFrom, scrambleFrom, ih, BitVec.xor_assoc, BitVec.xor_self]
    exact congrArg (· :: l) BitVec.xor_zero

@[simp] theorem length_scramble (seed : Word32) (cw : List Byte) : (scramble seed cw).length = cw.length := by
  rw [scramble, List.length_append, length_scrambleFrom, ← List.length_append, List.take_append_drop]

/-- Of a codeword no longer than its data nothing is parity. -/
theorem drop_scramble (seed : Word32) (cw : List Byte) : (scramble seed cw).drop 4128 = cw.drop 4128 := by
  have hlen : (scrambleFrom seed (cw.take 4128)).length = min 4128 cw.length := by simp
  rcases Nat.le_total cw.length 4128 with h | h
  · rw [List.drop_eq_nil_of_le ((length_scramble seed cw).trans_le h), List.drop_eq_nil_of_le h]
  · exact List.drop_left' (hlen.trans (min_eq_left h))

theorem take_scramble (seed : Word32) (cw : List Byte) :
    (scramble seed cw).take 4128 = scrambleFrom seed (cw.take 4128) := by
  have hlen : (scrambleFrom seed (cw.take 4128)).length = min 4128 cw.length := by simp
  rcases Nat.le_total cw.length 4128 with h | h
  · rw [List.take_of_length_le ((length_scramble seed cw).trans_le h), scramble, List.drop_eq_nil_of_le h,
      List.append_nil]
  · exact List.take_left' (hlen.trans (min_eq_left h))

theorem scramble_scramble (seed : Word32) (cw : List Byte) : scramble seed (scramble seed cw) = cw := by
  rw [scramble, take_scramble, drop_scramble, scrambleFrom_scrambleFrom, List.take_append_drop]

theorem cwSeed_ne_zero (x : Word32) (k g c : Nat) : cwSeed x k g c ≠ 0 := by
  simp only [cwSeed]
  split
  · decide
  · assumption

section

variable {d block page idx : Nat} {s : State}

theorem scrambleAt_off (cw : List Byte) (h : unscrambled d s = true) : scrambleAt d block page idx cw s = cw :=
  if_pos h

theorem scrambleAt_on (cw : List Byte) (h : unscrambled d s = false) :
    scrambleAt d block page idx cw s = scramble (cwSeed (seedConst d s) block page idx) cw := by
  rw [scrambleAt, h]
  rfl

end

/-- Settles O48: for a die that is scrambled by the laws of one pass with one seed. -/
theorem scramblingIsItsOwnInverse : Obligations.ScramblingIsItsOwnInverse := by
  intro d block page idx cw s
  have hseed : ∀ x : Word32, cwSeed x block page idx ≠ 0 := fun x => cwSeed_ne_zero x block page idx
  by_cases hoff : unscrambled d s = true
  · rw [scrambleAt_off _ hoff, scrambleAt_off _ hoff]
    exact ⟨rfl, rfl, rfl, hseed, fun _ => rfl⟩
  · rw [scrambleAt_on _ (Bool.eq_false_iff.mpr hoff), scrambleAt_on _ (Bool.eq_false_iff.mpr hoff)]
    exact ⟨scramble_scramble .., length_scramble .., drop_scramble .., hseed, fun h => absurd h hoff⟩

/-! ### CRC-32C (10 R231) -/

/-- One bit: the reflected polynomial is added where a 1 leaves. -/
theorem crcBit_eq (c : Word32) : crcBit c = (c >>> 1) ^^^ (if c.getLsbD 0 then 0x82F63B78 else 0) := by
  rw [crcBit]
  split
  · rfl
  · exact BitVec.xor_zero.symm

/-- Without its final XOR the CRC is the register after the last byte. -/
theorem not_crc32c (l : List Byte) : ~~~(crc32c l) = l.foldl crcByte 0xFFFFFFFF := by
  have hones : (0xFFFFFFFF : Word32) = BitVec.allOnes 32 := by decide
  rw [crc32c, hones, BitVec.xor_allOnes, BitVec.not_not]

theorem not_crc32c_append (l : List Byte) (b : Byte) : ~~~(crc32c (l ++ [b])) = crcByte (~~~(crc32c l)) b := by
  rw [not_crc32c, not_crc32c, List.foldl_concat]

/-- The header of a map copy: its CRC stands behind 12 bytes, and 48 bytes more stand before the entries. -/
theorem copyImage_crc (k : Nat) (gen : Word32) (l : List Word32) :
    leNat (((copyImage k gen l).drop 12).take 4)
      = (crc32c ((copyImage k gen l).take 12 ++ (copyImage k gen l).drop 64)).toNat := by
  have himage : ∀ h b : List Byte, h.length = 12 →
      let image := h ++ leBytes 4 (crc32c (h ++ b)).toNat ++ leBytes 1 k ++ leBytes 47 0 ++ b
      leNat ((image.drop 12).take 4) = (crc32c (image.take 12 ++ image.drop 64)).toNat := by
    intro h b hlen image
    have hbody : image.drop 64 = b := List.drop_left' (by simp [hlen])
    have hhead : image.take 12 = h := by simp only [image, List.append_assoc, List.take_left' hlen]
    have hcrc := field_append 4 (crc32c (h ++ b)).toNat (leBytes 1 k ++ (leBytes 47 0 ++ b)) hlen
    rw [hbody, hhead]
    simp only [image, List.append_assoc]
    exact hcrc.trans (Nat.mod_eq_of_lt (crc32c (h ++ b)).isLt)
  exact himage _ _ (by simp)

/-- Settles O59: byte by byte, and the CRC fields of both formats. -/
theorem userCrcIsStandard : Obligations.UserCrcIsStandard := by
  unfold Obligations.UserCrcIsStandard
  intro poly step
  have hstep : ∀ c, step c = crcBit c := fun c => (crcBit_eq c).symm
  refine ⟨by decide, by decide, fun l b => ?_, by decide +kernel, fun codeB slc echo idx stream ts user => ?_,
    fun k gen l => copyImage_crc k gen l⟩
  · simp only [hstep]
    exact not_crc32c_append l b
  · exact metadata_userCrc codeB slc echo idx stream ts user

end Sys2Proof.Machine
end

section
/-!
What the reports of a decode leave alone, and how the last codeword of a read is forwarded (O49; 10 R241, R242, 11 R278,
R279).
-/

namespace Sys2Proof.Machine

/-! ### Reports of a decode (10 Table 10.3, 11 R271, R278, R279) -/

section Reports

variable {α : Type} (f : State → α) (hh : ∀ p h s, f (setHdr p h s) = f s) (hc : ∀ k c s, f (setChan k c s) = f s)
  (hl : ∀ l s, f { s with lvl := l } = f s)

include hh in
theorem noteOut_keeps (soft corrected : Bool) (c : Nat) (out : CwOut) (s : State) :
    f (noteOut soft corrected c out s) = f s := by
  have hbump (i : Nat) (s : State) : f (bump .ecc i s) = f s := bump_keeps f hh .ecc i s
  have hcounted (i : Nat) : f (if soft then bump .ecc i s else if corrected then bump .ecc 1 s else s) = f s := by
    split
    · exact hbump i s
    · split
      · exact hbump 1 s
      · rfl
  cases out with
  | none => rfl
  | erased => exact hbump 3 s
  | clean =>
    simp only [noteOut]
    split <;> exact hbump _ s
  | corrected => exact hcounted 6
  | echoBad => exact (hbump 4 _).trans (hcounted 6)
  | miscorrect =>
    exact (raiseErr_keeps f hh _ _ _ _).trans ((raiseEvt_keeps f hh _ _ _).trans ((hbump 9 _).trans (hcounted 7)))
  | failed => exact hbump _ s

include hl in
theorem valleyBegun_keeps (id : Nat) (s : State) : f (valleyBegun id s) = f s := by
  unfold valleyBegun
  split
  · exact hl _ s
  · rfl

include hl in
theorem noteValley_keeps (id d plane idx bits : Nat) (w : Cw) (s : State) :
    f (noteValley id d plane idx bits w s) = f s := hl _ s

include hh hc hl

theorem suspect_keeps (c : Nat) (echo : Bool) (dq : Nat) (s : State) : f (suspect c echo dq s) = f s := by
  have hbump : f (bump .lvl 13 s) = f s := bump_keeps f hh .lvl 13 s
  unfold suspect
  extract_lets s' w th n fresh n' reset v
  have hreset : f reset = f s := by
    simp only [reset, retrainAll_eq]
    exact (hc _ _ _).trans ((hl _ _).trans hbump)
  split
  · exact (raiseEvt_keeps f hh _ _ _).trans ((hl _ _).trans hreset)
  · exact (hl _ _).trans hbump

theorem noiseTest_keeps (c : Nat) (before after : List Byte) (s : State) : f (noiseTest c before after s) = f s := by
  simp only [noiseTest]
  split
  · split
    · exact suspect_keeps f hh hc hl ..
    · rfl
  · rfl

theorem echoFound_keeps (c : Nat) (bytes : List Byte) (s : State) : f (echoFound c bytes s) = f s := by
  simp only [echoFound, modChan_eq]
  rw [hc, suspect_keeps f hh hc hl, raiseEvt_keeps f hh, bump_keeps f hh, hl]

end Reports

/-! ### The state that a read works on -/

/-- The operation table, the fabric ports, the decoders and the codewords in staging. -/
def readState (s : State) : Ops × SMap FabPort × Ecc × Dpt := (s.ops, s.fab, s.ecc, s.dpt)

theorem readState_eq_iff {s u : State} :
    readState u = readState s ↔ u.ops = s.ops ∧ u.fab = s.fab ∧ u.ecc = s.ecc ∧ u.dpt = s.dpt := by
  simp only [readState, Prod.mk.injEq]

theorem fabOf_of_fab {s u : State} (h : u.fab = s.fab) (p : Nat) : fabOf p u = fabOf p s := by simp only [fabOf, h]

theorem cwAt_of_dpt {s u : State} (h : u.dpt = s.dpt) (id d plane idx : Nat) :
    cwAt id d plane idx u = cwAt id d plane idx s := by simp only [cwAt, h]

theorem readState_readWord (cls i : Nat) (s : State) : readState (readWord cls i s) = readState s :=
  readWord_keeps readState (fun _ _ _ => rfl) (fun _ _ => rfl) (fun _ _ _ => rfl) cls i s

theorem readState_bump (p : Page) (i : Nat) (s : State) : readState (bump p i s) = readState s :=
  bump_keeps readState (fun _ _ _ => rfl) p i s

theorem readState_touchElement (a : Nat) (s : State) : readState (touchElement a s) = readState s := by
  simp only [touchElement]
  split
  · split <;> rfl
  · rfl

theorem readState_putUser (pl : Nat × Nat) (v : Int) (s : State) : readState (putUser pl v s) = readState s := by
  rw [putUser, readState_touchElement, readState_eq_iff]
  exact ⟨setWinByte_ops .., setWinByte_fab .., setWinByte_ecc .., setWinByte_dpt ..⟩

theorem readState_addUser (pl : Nat × Nat) (delta : Int) (s : State) :
    readState (addUser pl delta s) = readState s := by
  simp only [addUser]
  split <;> exact (readState_putUser ..).trans (readState_readWord ..)

theorem readState_calLast (source band zone d frozen changed : Nat) (s : State) :
    readState (calLast source band zone d frozen changed s) = readState s := by
  unfold calLast readState
  rfl

/-- 11 R271: the valley of rung 4 changes levels of the LVL unit alone. -/
theorem readState_applyValley (id page : Nat) (s : State) : readState (applyValley id page s) = readState s := by
  have hbumpBy (n : Nat) (u : State) : readState (bumpBy .lvl 11 n u) = readState u := by
    rw [readState_eq_iff]
    exact ⟨bumpBy_ops .., bumpBy_fab .., bumpBy_ecc .., bumpBy_dpt ..⟩
  unfold applyValley
  split
  · rfl
  · extract_lets x d slc frozen lvl taken counted places
    have hcounted : readState counted = readState s := hbumpBy frozen taken
    split
    · exact hcounted
    · split
      · rw [readState_calLast, readState_bump, foldl_keeps readState fun s p => readState_addUser p _ s, hcounted]
      · exact hcounted

/-! ### Codewords in staging (10 R239, R248) -/

section Staging

variable {id d plane idx : Nat} {f g : Cw → Cw}

/-- A change that leaves a codeword its id, die, plane and index is found by the next reader. -/
theorem cwAt_modCwAt (hf : ∀ c, isCwAt id d plane idx (f c) = isCwAt id d plane idx c) (s : State) :
    cwAt id d plane idx (modCwAt id d plane idx f s) = (cwAt id d plane idx s).map f := by
  have hkey : (isCwAt id d plane idx ∘ fun c => if isCwAt id d plane idx c then f c else c)
      = isCwAt id d plane idx := by
    funext c
    simp only [Function.comp]
    split
    · exact hf c
    · rfl
  simp only [cwAt, modCwAt, List.find?_map, hkey]
  cases hfound : s.dpt.cws.find? (isCwAt id d plane idx) with
  | none => rfl
  | some c => simp [List.find?_some hfound]

/-- Two changes of a codeword are one. -/
theorem modCwAt_modCwAt (hf : ∀ c, isCwAt id d plane idx (f c) = isCwAt id d plane idx c) (s : State) :
    modCwAt id d plane idx g (modCwAt id d plane idx f s) = modCwAt id d plane idx (g ∘ f) s := by
  have hboth : (fun c => if isCwAt id d plane idx c then g c else c)
      ∘ (fun c => if isCwAt id d plane idx c then f c else c)
      = fun c => if isCwAt id d plane idx c then (g ∘ f) c else c := by
    funext c
    by_cases hc : isCwAt id d plane idx c = true <;> simp [hc, hf]
  simp only [modCwAt, List.map_map, hboth]

end Staging

/-! ### The outcome of a decode is recorded (10 R241) -/

section Outcome

variable (id d plane idx : Nat) (bytes : List Byte) (out : CwOut) (bits : Nat) (s : State)

/-- What a row's MAXBITS becomes. -/
def maxbitsWith (out : CwOut) (bits old : Nat) : Nat :=
  if out = .clean ∨ out = .corrected then satTo 255 (max old bits) else old

theorem setOut_keeps {α : Type} (f : State → α) (hh : ∀ p h s, f (setHdr p h s) = f s)
    (hc : ∀ k c s, f (setChan k c s) = f s) (hd : ∀ x s, f { s with dpt := x } = f s)
    (ht : ∀ k x s, f (setTag k x s) = f s) : f (setOut id d plane idx bytes out bits s) = f s := by
  have hcounted : f (if seedOvr d s then bump .dpt 7 s else s) = f s := by
    split
    · exact bump_keeps f hh .dpt 7 s
    · rfl
  simp only [setOut, modTag_eq, showOut, modChan_eq]
  split
  · exact (ht _ _ _).trans ((hd _ _).trans ((hc _ _ _).trans hcounted))
  · exact (hd _ _).trans ((hc _ _ _).trans hcounted)

theorem setOut_dpt : (setOut id d plane idx bytes out bits s).dpt
    = (modCwAt id d plane idx (fun c => { c with bytes := bytes, out := out, bits := bits }) s).dpt := by
  have hcounted : (if seedOvr d s then bump .dpt 7 s else s).dpt = s.dpt := by
    split
    · exact bump_dpt ..
    · rfl
  simp only [setOut, modTag_eq]
  split <;> simp [modCwAt, showOut, hcounted]

theorem cwAt_setOut : cwAt id d plane idx (setOut id d plane idx bytes out bits s)
    = (cwAt id d plane idx s).map fun c => { c with bytes := bytes, out := out, bits := bits } :=
  (cwAt_of_dpt (setOut_dpt id d plane idx bytes out bits s) id d plane idx).trans
    (cwAt_modCwAt (by exact fun _ => rfl) s)

theorem tagOf_setOut : tagOf id (setOut id d plane idx bytes out bits s)
    = { tagOf id s with maxbits := maxbitsWith out bits (tagOf id s).maxbits } := by
  have hcounted : (if seedOvr d s then bump .dpt 7 s else s).ops = s.ops := by
    split
    · exact bump_ops ..
    · rfl
  have hrow (f : Cw → Cw) : tagOf id (modCwAt id d plane idx f (showOut id d plane idx out
      (if seedOvr d s then bump .dpt 7 s else s))) = tagOf id s := tagOf_of_ops hcounted id
  simp only [setOut, modTag_eq, maxbitsWith]
  split
  · rw [tagOf_setTag_same, hrow]
  · exact hrow _

end Outcome

/-! ### Requests for a codeword's bytes (10 R242, 04 R92) -/

theorem fabWrite_fab_congr {s u : State} (h : u.fab = s.fab) (p : Nat) (q : WrReq) :
    (fabWrite p q u).fab = (fabWrite p q s).fab := by
  simp only [fabWrite, drain_eq, modFab_eq, setFab_setFab, setFab_fab, fabOf, h]

theorem fabWrites_fab_congr {s u : State} (h : u.fab = s.fab) (p addr : Nat) (bytes : List Byte) (kind : Nat)
    (why : WriteFor) : (fabWrites p addr bytes kind why u).fab = (fabWrites p addr bytes kind why s).fab := by
  unfold fabWrites
  generalize fabPieces (pieceFuel bytes.length) addr bytes.length = l
  induction l generalizing s u with
  | nil => exact h
  | cons q l ih => exact ih (fabWrite_fab_congr h p _)

section Forwarding

variable {out : Bool} {id c d plane idx : Nat} {user md : List Byte} {s u : State}

/-- The requests depend on the ports and the entry alone. -/
theorem forwardRead_congr (hfab : u.fab = s.fab) (hentry : (tagOf id u).entry = (tagOf id s).entry) :
    (forwardRead out id c plane idx user md u).1.fab = (forwardRead out id c plane idx user md s).1.fab
    ∧ (forwardRead out id c plane idx user md u).2 = (forwardRead out id c plane idx user md s).2 := by
  simp only [forwardRead, hentry]
  split
  · exact ⟨fabWrite_fab_congr (fabWrites_fab_congr hfab ..) .., rfl⟩
  · exact ⟨fabWrites_fab_congr hfab .., rfl⟩

theorem forwardRead_keeps {α : Type} (f : State → α) (hf : ∀ p v s, f (setFab p v s) = f s) :
    f (forwardRead out id c plane idx user md s).1 = f s := by
  have hwrite (p : Nat) (q : WrReq) (s : State) : f (fabWrite p q s) = f s := by
    obtain ⟨_, h⟩ := fabWrite_eq p q s
    rw [h, hf]
  unfold forwardRead
  extract_lets e pos addr sent n
  have hsent : f sent = f s := fabWrites_keeps f hf ..
  split
  · exact (hwrite _ _ _).trans hsent
  · exact hsent

/-- A codeword takes at least one request. -/
theorem forwardRead_pos : (forwardRead out id c plane idx user md s).2 ≠ 0 := by
  have hpieces (addr : Nat) : writeCount addr 4096 ≠ 0 := by
    have hfuel : pieceFuel 4096 = 2 + 1 := rfl
    rw [writeCount, hfuel, fabPieces_cons 2 addr (by decide), List.length_cons]
    exact Nat.succ_ne_zero _
  simp only [forwardRead]
  split
  · exact Nat.succ_ne_zero _
  · exact hpieces _

/-- Granules that hold no flipped bit beyond correction are read without a loss (17 R393, R394). -/
theorem readState_readStaged {lo n : Nat} (h : (readStaged id lo n s).2 = false) :
    readState (readStaged id lo n s).1 = readState s := by
  simp only [readStaged] at h ⊢
  split
  · rename_i hfound
    simp [hfound] at h
  · exact foldl_keeps readState
      (findUpset_keeps readState (fun _ _ _ => rfl) (fun _ _ => rfl) (fun _ _ _ => rfl)) _ s

/-- Whether granules are poisoned is read from MEM alone. -/
theorem readStaged_of_mem {lo n : Nat} (h : u.mem = s.mem) : (readStaged id lo n u).2 = (readStaged id lo n s).2 := by
  simp only [readStaged, h]
  split <;> rfl

end Forwarding

/-! ### The last codeword of a read (10 R242) -/

section LastCodeword

variable {id d plane idx bits : Nat} {user md : List Byte} {s : State} {w : Cw}

/-- A row after its last codeword has been forwarded with n requests. -/
def forwardedRow (n : Nat) (x : TagRow) : TagRow := { x with todo := [], wrOut := x.wrOut + n }

theorem forwardCw_last (hlast : lastOfRead id plane idx s) (hw : cwAt id d plane idx s = some w) :
    let r := forwardRead (bitAt w.dp 4) id (dieChannel d) plane idx user md s
    let u := forwardCw id d plane idx bits user md s
    u.fab = r.1.fab ∧ u.ecc = s.ecc ∧ tagOf id u = forwardedRow r.2 (tagOf id s) := by
  intro r u
  obtain ⟨-, -, -, hop, htodo⟩ := hlast
  let t := notTodo id plane idx (bump .dpt (if bits = 0 then 3 else 4) s)
  have hcounted : readState (bump .dpt (if bits = 0 then 3 else 4) s) = readState s := readState_bump ..
  obtain ⟨hops, hfab, hecc, hdpt⟩ := readState_eq_iff.mp hcounted
  have htfab : t.fab = s.fab := (setTag_fab ..).trans hfab
  have htecc : t.ecc = s.ecc := (setTag_ecc ..).trans hecc
  have hrow : tagOf id t = { tagOf id s with todo := [] } := by
    simp only [t, notTodo, modTag_eq, tagOf_setTag_same, tagOf_of_ops hops, htodo]
    simp
  have hcw : cwAt id d plane idx t = some w := (cwAt_of_dpt ((setTag_dpt ..).trans hdpt) id d plane idx).trans hw
  have hstage : idOp id t ≠ opDestage ∧ idOp id t ≠ opCopy := by
    have hentry : idOp id t = eOpcode (tagOf id s).entry := by rw [idOp, hrow]
    rw [hentry]
    rcases hop with h | h <;> rw [h] <;> decide
  let sent := forwardRead (bitAt w.dp 4) id (dieChannel d) plane idx user md t
  obtain ⟨hreqs, hcount⟩ : sent.1.fab = r.1.fab ∧ sent.2 = r.2 := forwardRead_congr htfab (by rw [hrow])
  have hu : u = modCwAt id d plane idx (fun c => { c with wrOut := sent.2, gAcc := 0 })
      (modTag id (fun x => { x with wrOut := x.wrOut + sent.2 }) sent.1) := by
    have htaken : notTodo id plane idx (bump .dpt (if bits = 0 then 3 else 4) s) = t := rfl
    simp only [u, forwardCw, htaken, if_neg hstage.1, if_neg hstage.2, hcw, Option.map_some, Option.getD_some, sent]
  have hkept : tagOf id sent.1 = tagOf id t := forwardRead_keeps (tagOf id) fun _ _ _ => rfl
  have hkeptEcc : sent.1.ecc = t.ecc := forwardRead_keeps State.ecc fun _ _ _ => rfl
  have hrest (f : Cw → Cw) (x : TagRow) (v : State) : (modCwAt id d plane idx f (setTag id x v)).fab = v.fab
      ∧ (modCwAt id d plane idx f (setTag id x v)).ecc = v.ecc
      ∧ tagOf id (modCwAt id d plane idx f (setTag id x v)) = x := ⟨rfl, rfl, tagOf_setTag_same ..⟩
  rw [hu, modTag_eq]
  obtain ⟨hufab, huecc, hurow⟩ := hrest (fun c => { c with wrOut := sent.2, gAcc := 0 })
    { tagOf id sent.1 with wrOut := (tagOf id sent.1).wrOut + sent.2 } sent.1
  refine ⟨hufab.trans hreqs, huecc.trans (hkeptEcc.trans htecc), hurow.trans ?_⟩
  rw [hkept, hrow, hcount]
  rfl

/-- A read whose codewords are all on their way waits for the responses of its writes (01 Table 1.7). -/
theorem readState_readStep_sent (hjob : isJob id = false) (hfree : (tagOf id s).state ≠ .free)
    (hopen : (tagOf id s).state ≠ .committed)
    (hop : eOpcode (tagOf id s).entry = opRead ∨ eOpcode (tagOf id s).entry = opReadMp) (htodo : (tagOf id s).todo = [])
    (hsent : (tagOf id s).wrOut ≠ 0) : readState (readStep id s) = readState s := by
  let t := applyValley id (stagedPage id s) s
  have hvalley : readState t = readState s := readState_applyValley ..
  have hrow : tagOf id t = tagOf id s := tagOf_of_ops (readState_eq_iff.mp hvalley).1 id
  have hdone : readStep id s = pageDone id (stagedPage id s) s := by
    simp [readStep, hfree, hopen, htodo]
  have hne : eOpcode (tagOf id s).entry ≠ opCopy ∧ eOpcode (tagOf id s).entry ≠ opCalibrate
      ∧ eOpcode (tagOf id s).entry ≠ opDestage := by
    rcases hop with h | h <;> rw [h] <;> decide
  have hmore : morePages id (stagedPage id s) t = false := by simp [morePages, hrow, hne.1, hne.2.1]
  have hend : pageDone id (stagedPage id s) s = readEnd id t := by
    simp [pageDone, hjob, idOp, ← show t = applyValley id (stagedPage id s) s from rfl, hrow, hmore, hne.2.1]
  have hcounted (k : Nat) : tagOf id (bump .lvl k t) = tagOf id s := by
    rw [← hrow]
    exact tagOf_of_ops (bump_ops ..) id
  have hfinish (k : Nat) : finishRead id (bump .lvl k t) = bump .lvl k t := by
    simp [finishRead, hcounted, hsent, hopen]
  have hread : readEnd id t = bump .lvl (min (tagOf id s).maxRung 5) t := by
    simp only [readEnd, hrow]
    rw [if_neg hne.1, if_neg hne.2.2, hfinish]
  rw [hdone, hend, hread, readState_bump, hvalley]

/-- With sound granules the codeword is forwarded from a state with the same rows, ports and staging. -/
theorem forward_sound (hw : cwAt id d plane idx s = some w)
    (hsound : (readStaged id ((plane * 4 + idx) * 256) (w.gRead + w.gAcc) s).2 = false) :
    ∃ t, readState t = readState s
      ∧ forward id d plane idx bits user md s = forwardCw id d plane idx bits user md t := by
  refine ⟨_, readState_readStaged hsound, ?_⟩
  simp only [forward, hw, Option.map_some, Option.getD_some, hsound, Bool.false_eq_true, if_false]

theorem lastOfRead_congr {u : State} {m : Nat} (hrow : tagOf id u = { tagOf id s with maxbits := m })
    (h : lastOfRead id plane idx s) : lastOfRead id plane idx u := by
  simp only [lastOfRead, hrow] at h ⊢
  exact h

theorem forwardedLast_congr {dp m : Nat} {cw : List Byte} {u v : State} (hfab : u.fab = s.fab)
    (hrow : tagOf id u = { tagOf id s with maxbits := m }) (h : forwardedLast dp id d plane idx cw u v) :
    forwardedLast dp id d plane idx cw s v := by
  obtain ⟨hports, htodo, hstate, hout⟩ := h
  obtain ⟨hreqs, hcount⟩ := forwardRead_congr (out := bitAt dp 4) (id := id) (c := dieChannel d) (plane := plane)
    (idx := idx) (user := cwUser cw) (md := cwMeta cw) (u := u) (s := s) hfab (by rw [hrow])
  refine ⟨fun p => (hports p).trans (fabOf_of_fab hreqs p), htodo, hstate.trans (by rw [hrow]), hout.trans ?_⟩
  rw [hcount, hrow]

/-- 10 R242: a decoded last codeword of a read, with FWD and sound granules, is forwarded. -/
theorem cwJudged_forwards {c : Nat} (hlast : lastOfRead id plane idx s) (hw : cwAt id d plane idx s = some w)
    (hmember : w.member = false) (hout : w.out = .clean ∨ w.out = .corrected) (hfwd : bitAt w.dp 6 = true)
    (hsound : (readStaged id ((plane * 4 + idx) * 256) (w.gRead + w.gAcc) s).2 = false) :
    let v := cwJudged c id d plane idx s
    forwardedLast w.dp id d plane idx w.bytes s v ∧ v.ecc = s.ecc ∧ (tagOf id v).maxbits = (tagOf id s).maxbits := by
  intro v
  have ⟨hjob, hfree, hopen, hop, htodo⟩ := hlast
  obtain ⟨t, hread, hforward⟩ :=
    forward_sound (bits := w.bits) (user := cwUser w.bytes) (md := cwMeta w.bytes) hw hsound
  obtain ⟨hops, hfab, hecc, hdpt⟩ := readState_eq_iff.mp hread
  have hrow : tagOf id t = tagOf id s := tagOf_of_ops hops id
  let u := forwardCw id d plane idx w.bits (cwUser w.bytes) (cwMeta w.bytes) t
  have hcal : idOp id s ≠ opCalibrate := by
    rw [idOp]
    rcases hop with h | h <;> rw [h] <;> decide
  have hecho : w.out ≠ .echoBad := by rcases hout with h | h <;> rw [h] <;> decide
  have hera : w.out ≠ .erased := by rcases hout with h | h <;> rw [h] <;> decide
  have hv : v = readStep id u := by
    simp only [v, u, ← hforward, cwJudged, hw]
    simp [hecho, hmember, hjob, hcal, hera, hout, hfwd]
  have hlast' : lastOfRead id plane idx t := by rw [lastOfRead, hrow]; exact hlast
  obtain ⟨hports, huecc, hurow⟩ :=
    forwardCw_last (bits := w.bits) (user := cwUser w.bytes) (md := cwMeta w.bytes) hlast'
    ((cwAt_of_dpt hdpt id d plane idx).trans hw)
  obtain ⟨hreqs, hcount⟩ := forwardRead_congr (out := bitAt w.dp 4) (c := dieChannel d) (plane := plane) (idx := idx)
    (user := cwUser w.bytes) (md := cwMeta w.bytes) (u := t) (s := s) hfab (by rw [hrow])
  rw [hcount, hrow] at hurow
  have hstep : readState v = readState u := by
    rw [hv]
    refine readState_readStep_sent hjob ?_ ?_ ?_ ?_ ?_ <;>
      rw [show tagOf id u = _ from hurow]
    · exact hfree
    · exact hopen
    · exact hop
    · rfl
    · exact fun h => forwardRead_pos (Nat.eq_zero_of_add_eq_zero_left h)
  obtain ⟨hvops, hvfab, hvecc, -⟩ := readState_eq_iff.mp hstep
  have hvrow : tagOf id v = _ := (tagOf_of_ops hvops id).trans hurow
  refine ⟨⟨fun p => fabOf_of_fab (hvfab.trans (hports.trans hreqs)) p, ?_, ?_, ?_⟩,
    hvecc.trans (huecc.trans hecc), ?_⟩ <;> rw [hvrow] <;> rfl

end LastCodeword

end Sys2Proof.Machine
end

section
/-!
What follows from the outcome of a codeword (O49; 10 R239 to R243, 11 R275, Table 10.3).
-/

namespace Sys2Proof.Machine

section Judged

variable {c id d plane idx bits : Nat} {bytes : List Byte} {s : State} {w : Cw}

/-- 11 R275: a codeword with a wrong echo commits ECHO_MISMATCH. -/
theorem cwJudged_echoBad (hw : cwAt id d plane idx s = some w) (hout : w.out = .echoBad) (hmember : w.member = false)
    (hjob : isJob id = false) (hfree : (tagOf id s).state ≠ .free) (hopen : (tagOf id s).state ≠ .committed) :
    (tagOf id (cwJudged c id d plane idx s)).state = .committed
      ∧ (tagOf id (cwJudged c id d plane idx s)).status = 0x22 := by
  let u := echoFound c w.bytes s
  let t := if idOp id u = opCalibrate then bump .lvl 11 u else u
  have hrow : tagOf id t = tagOf id s := by
    have hfound : tagOf id u = tagOf id s :=
      echoFound_keeps (tagOf id) (fun _ _ _ => rfl) (fun _ _ _ => rfl) (fun _ _ => rfl) c w.bytes s
    rw [← hfound]
    simp only [t]
    split
    · exact tagOf_of_ops (bump_ops ..) id
    · rfl
  have hjudged : cwJudged c id d plane idx s = commitTag id stEcho rankOwn t := by
    simp only [cwJudged, hw, if_pos hout, hmember, hjob, Bool.false_eq_true, if_false]
    change commitEcho id t = _
    simp only [commitEcho, hrow]
    exact if_neg fun h => hopen h.1
  rw [hjudged]
  exact commitTag_status (reachedNow_of_open rankOwn (hrow ▸ hfree) (hrow ▸ hopen))

/-- 10 R240, 11 R275: a codeword found erased at rung 0 commits ERASED_PAGE. -/
theorem cwJudged_erased (hw : cwAt id d plane idx s = some w) (hout : w.out = .erased) (hrung : w.rung = 0)
    (hmember : w.member = false) (hjob : isJob id = false) (hop : idOp id s ≠ opCalibrate)
    (hfree : (tagOf id s).state ≠ .free) (hopen : (tagOf id s).state ≠ .committed) :
    (tagOf id (cwJudged c id d plane idx s)).state = .committed
      ∧ (tagOf id (cwJudged c id d plane idx s)).status = 0x21 := by
  have hjudged : cwJudged c id d plane idx s = commitErased id s := by
    simp [cwJudged, hw, hout, hrung, hmember, hjob, hop]
  have hreached : reachedNow id rankOwn s = true := reachedNow_of_open rankOwn hfree hopen
  have hrow : tagOf id (commitErased id s) = fixedRow id stErased rankOwn s := by
    rw [commitErased, if_pos hreached]
    exact tagOf_fixStatus ..
  rw [hjudged, hrow]
  exact ⟨rfl, rfl⟩

/-- 10 Table 10.3: a codeword that has failed is followed up once the others of its tag have come to an end. -/
theorem cwJudged_failed (hw : cwAt id d plane idx s = some w) (hout : w.out = .failed) (hmember : w.member = false)
    (hjob : isJob id = false) (hop : idOp id s ≠ opCalibrate) : cwJudged c id d plane idx s = readStep id s := by
  simp [cwJudged, hw, hout, hmember, hjob, hop]

/-- While a codeword on the tag's rung is still to be judged, or decoded and not forwarded, the tag waits. -/
theorem readStep_waits (htodo : (tagOf id s).todo ≠ []) (hrung : softRung (tagOf id s).rung = false)
    (hrows : ((todoRows id s).any fun c => decide (c.out = .none ∨ c.out = .clean ∨ c.out = .corrected)) = true) :
    readStep id s = s := by
  have hany : ((todoRows id s).any fun c =>
      decide (c.out = .none) || decide (c.out = .clean) || decide (c.out = .corrected)) = true := by
    simpa [or_assoc] using hrows
  simp only [readStep, htodo, hrung, hany, Bool.false_and, Bool.false_eq_true, if_false, if_true, ite_self]

/-! ### From the state in which the outcome is recorded -/

variable {s₀ : State}

/-- A decoded last codeword of a read, recorded in a state with the rows and ports of an earlier one, is forwarded. -/
theorem judged_forwards {out : CwOut} (hlast : lastOfRead id plane idx s₀) (hops : s.ops = s₀.ops)
    (hfab : s.fab = s₀.fab) (hw : cwAt id d plane idx s = some w) (hmember : w.member = false)
    (hout : out = .clean ∨ out = .corrected) (hfwd : bitAt w.dp 6 = true)
    (hsound : (readStaged id ((plane * 4 + idx) * 256) (w.gRead + w.gAcc) s).2 = false) :
    let v := cwJudged c id d plane idx (setOut id d plane idx bytes out bits s)
    forwardedLast w.dp id d plane idx bytes s₀ v ∧ v.ecc = s.ecc
      ∧ (tagOf id v).maxbits = satTo 255 (max (tagOf id s₀).maxbits bits) := by
  intro v
  let u := setOut id d plane idx bytes out bits s
  have hrow : tagOf id u = { tagOf id s₀ with maxbits := maxbitsWith out bits (tagOf id s₀).maxbits } := by
    rw [tagOf_setOut, tagOf_of_ops hops]
  have hcw : cwAt id d plane idx u = some { w with bytes := bytes, out := out, bits := bits } := by
    rw [cwAt_setOut, hw]
    rfl
  have hkept {α : Type} (f : State → α) (hh : ∀ p h s, f (setHdr p h s) = f s) (hc : ∀ k c s, f (setChan k c s) = f s)
      (hd : ∀ x s, f { s with dpt := x } = f s) (ht : ∀ k x s, f (setTag k x s) = f s) : f u = f s :=
    setOut_keeps id d plane idx bytes out bits s f hh hc hd ht
  have hufab : u.fab = s.fab :=
    hkept State.fab (fun _ _ _ => rfl) (fun _ _ _ => rfl) (fun _ _ => rfl) fun _ _ _ => rfl
  have huecc : u.ecc = s.ecc :=
    hkept State.ecc (fun _ _ _ => rfl) (fun _ _ _ => rfl) (fun _ _ => rfl) fun _ _ _ => rfl
  have humem : u.mem = s.mem :=
    hkept State.mem (fun _ _ _ => rfl) (fun _ _ _ => rfl) (fun _ _ => rfl) fun _ _ _ => rfl
  obtain ⟨hforwarded, hecc, hbits⟩ := cwJudged_forwards (c := c) (lastOfRead_congr hrow hlast) hcw hmember hout hfwd
    ((readStaged_of_mem humem).trans hsound)
  refine ⟨forwardedLast_congr (hufab.trans hfab) hrow hforwarded, hecc.trans huecc, hbits.trans ?_⟩
  rw [hrow]
  exact if_pos hout

/-- A wrong echo, recorded in a state with the rows of an earlier one. -/
theorem judged_echoBad (hops : s.ops = s₀.ops) (hw : cwAt id d plane idx s = some w) (hmember : w.member = false)
    (hjob : isJob id = false) (hfree : (tagOf id s₀).state ≠ .free) (hopen : (tagOf id s₀).state ≠ .committed) :
    let v := cwJudged c id d plane idx (setOut id d plane idx bytes .echoBad bits s)
    (tagOf id v).state = .committed ∧ (tagOf id v).status = 0x22 := by
  have hrow : tagOf id (setOut id d plane idx bytes .echoBad bits s)
      = { tagOf id s₀ with maxbits := maxbitsWith .echoBad bits (tagOf id s₀).maxbits } := by
    rw [tagOf_setOut, tagOf_of_ops hops]
  refine cwJudged_echoBad ((cwAt_setOut ..).trans (congrArg _ hw)) rfl hmember hjob ?_ ?_ <;> rw [hrow]
  · exact hfree
  · exact hopen

/-- An erased codeword at rung 0, recorded in a state with the rows of an earlier one. -/
theorem judged_erased (hops : s.ops = s₀.ops) (hw : cwAt id d plane idx s = some w) (hrung : w.rung = 0)
    (hmember : w.member = false) (hjob : isJob id = false) (hop : idOp id s₀ ≠ opCalibrate)
    (hfree : (tagOf id s₀).state ≠ .free) (hopen : (tagOf id s₀).state ≠ .committed) :
    let v := cwJudged c id d plane idx (setOut id d plane idx bytes .erased bits s)
    (tagOf id v).state = .committed ∧ (tagOf id v).status = 0x21 := by
  have hrow : tagOf id (setOut id d plane idx bytes .erased bits s)
      = { tagOf id s₀ with maxbits := maxbitsWith .erased bits (tagOf id s₀).maxbits } := by
    rw [tagOf_setOut, tagOf_of_ops hops]
  refine cwJudged_erased ((cwAt_setOut ..).trans (congrArg _ hw)) rfl hrung hmember hjob ?_ ?_ ?_
  · rw [idOp, hrow]
    exact hop
  · rw [hrow]
    exact hfree
  · rw [hrow]
    exact hopen

end Judged

end Sys2Proof.Machine
end

section
/-!
Codewords off the pads (O49; 10 R239 to R241, R253), with what the layout and the checks of a codeword read.
-/

namespace Sys2Proof.Machine

/-! ### A codeword off the pads (10 R239, R240) -/

/-! ### Flipped bits of staging and the tables of profiles (17 R391) -/

/-- The granules of staging hold no byte of a table. -/
theorem winByte_clearStaged (a id lo n : Nat) (s : State) : winByte a (clearStaged id lo n s) = winByte a s := by
  have hkept (u : Upset) : (!(decide (u.cls = 0)
        && (List.range n).any fun j => decide (Config.granuleAt id (lo + j) = u.idx))
      && (u.beyond && decide (upsetByte u = some a))) = (u.beyond && decide (upsetByte u = some a)) := by
    by_cases hcls : u.cls = 0
    · have hnone : upsetByte u = none := if_neg (by omega)
      simp [hnone]
    · simp [hcls]
  simp only [winByte, clearStaged, List.any_filter, hkept]

theorem winNat_of_winByte {s u : State} (h : ∀ a, winByte a u = winByte a s) (a n : Nat) :
    winNat a n u = winNat a n s := by
  induction n generalizing a with
  | zero => rfl
  | succ n ih => rw [winNat, winNat, h, ih]

/-- Two states with the same registers, roster, jobs, course of BOOT_FETCH and tables: all that the layout and the
checks of a codeword read. -/
structure SameFormats (s u : State) : Prop where
  regs : u.regs = s.regs
  map : u.map = s.map
  sec : u.sec = s.sec
  tables : ∀ a, winByte a u = winByte a s

namespace SameFormats

variable {s u : State}

/-- MEM and the windows decide the tables. -/
theorem of_mem (hregs : u.regs = s.regs) (hmap : u.map = s.map) (hsec : u.sec = s.sec) (hmem : u.mem = s.mem)
    (hwin : u.win = s.win) : SameFormats s u := ⟨hregs, hmap, hsec, fun a => by simp only [winByte, hmem, hwin]⟩

theorem trans {v : State} (h : SameFormats s u) (h' : SameFormats u v) : SameFormats s v :=
  ⟨h'.regs.trans h.regs, h'.map.trans h.map, h'.sec.trans h.sec, fun a => (h'.tables a).trans (h.tables a)⟩

theorem codeB (h : SameFormats s u) (d : Nat) : pfCodeB (dieProf d u) u = pfCodeB (dieProf d s) s := by
  have hprof : dieProf d u = dieProf d s := by
    unfold dieProf bootRuns rosterOf
    rw [h.map, h.sec]
  rw [hprof, pfCodeB, pfCodeB, profWord, profWord, winNat_of_winByte h.tables]

theorem granules (h : SameFormats s u) (d : Nat) : cwGran d u = cwGran d s := by rw [cwGran, cwGran, h.codeB]

theorem scrambled (h : SameFormats s u) (d block page idx : Nat) (bytes : List Byte) :
    scrambleAt d block page idx bytes u = scrambleAt d block page idx bytes s := by
  unfold scrambleAt unscrambled seedConst seedOvr regOf
  rw [h.regs]

theorem checked (h : SameFormats s u) (w : Cw) (bytes : List Byte) (ok : CwOut) :
    checkDecoded w bytes ok u = checkDecoded w bytes ok s := by
  unfold checkDecoded seedOvr regOf
  rw [h.regs, h.codeB]

theorem erased (h : SameFormats s u) (raw : List Byte) : erasedRaw raw u = erasedRaw raw s := by
  unfold erasedRaw regFld regOf
  rw [h.regs]

theorem raw (h : SameFormats s u) (id : Nat) : rawJob id u = rawJob id s := by simp only [rawJob, jobOf, h.map]

end SameFormats

theorem modCwAt_formats (id d plane idx : Nat) (f : Cw → Cw) (s : State) :
    SameFormats s (modCwAt id d plane idx f s) := .of_mem rfl rfl rfl rfl rfl

theorem clearStaged_formats (id lo n : Nat) (s : State) : SameFormats s (clearStaged id lo n s) :=
  ⟨rfl, rfl, rfl, fun a => winByte_clearStaged a id lo n s⟩

/-- The hard path for a codeword of another operation than CALIBRATE: the erased test, then syndrome and checks. -/
theorem hardCodeword_eq {c id d plane idx : Nat} {w : Cw} {raw : List Byte} {s : State} (h : idOp id s ≠ opCalibrate) :
    hardCodeword c id d plane idx w raw s =
      let clear := offPads c d idx w raw s
      let v := modCwAt id d plane idx (fun w => { w with read := clear }) s
      let out := checkDecoded w clear .clean v
      if erasedRaw raw v then
        cwJudged c id d plane idx (setOut id d plane idx clear .erased 0 (noteOut false false c .erased v))
      else if syndromeZero (pfCodeB (dieProf d v) v) clear then
        cwJudged c id d plane idx (setOut id d plane idx clear out 0 (noteOut false false c out v))
      else modStage c (fun l => l ++ [(id, d, plane, idx)])
        (modCwAt id d plane idx (fun w => { w with bytes := clear }) v) := by
  have hop (f : Cw → Cw) : ¬idOp id (modCwAt id d plane idx f s) = opCalibrate := h
  simp only [hardCodeword, if_neg (hop _)]

section Arrival

variable {n t i : Nat} {r : List Nat} {x : Xfer} {raw : List Byte} {s : State} {w : Cw}

theorem codewordReceived_idle (h : ∀ x t, (chanOf n s).act ≠ some (.transfer x, t)) : codewordReceived n raw s = s := by
  unfold codewordReceived
  split
  · rename_i hact
    exact absurd hact (h _ _)
  · rfl

/-- What is left of the data-out on the bus of channel n. -/
def busLeft (n : Nat) (x : Xfer) (t : Nat) (l : List Nat) (s : State) : State :=
  modChan n (fun w => { w with act := some (.transfer { x with cws := l }, t) }) s

theorem busLeft_formats (l : List Nat) : SameFormats s (busLeft n x t l s) := .of_mem rfl rfl rfl rfl rfl

@[simp] theorem dpOf_busLeft (l : List Nat) (w : Cw) : dpOf n w (busLeft n x t l s) = dpOf n w s := by
  simp only [dpOf, busLeft, modChan_eq, chanOf_setChan_same]

theorem codewordReceived_next (hact : (chanOf n s).act = some (.transfer x, t)) (hcws : x.cws = i :: r)
    (hkind : x.kind ≠ 1) : codewordReceived n raw s =
      if decodeDefers n x.id (n * 32 + x.die) x.plane i raw s then
        addCand n { x with len := outCc (n * 32 + x.die) x.cws.length s, ready := s.cc, stageWait := true }
          (busLeft n x t [] s)
      else codewordIn n x.id (n * 32 + x.die) x.plane i raw (busLeft n x t r s) := by
  simp only [codewordReceived, hact, hcws, if_neg hkind]
  rfl

/-- A codeword off the pads under some DP bits, its granules written anew (17 R391). -/
def arrived (n : Nat) (x : Xfer) (t i : Nat) (r : List Nat) (dp : Nat) (s : State) : State :=
  modCwAt x.id (n * 32 + x.die) x.plane i (fun w => { w with dp := dp })
    (clearStaged x.id ((x.plane * 4 + i) * 256) (cwGran (n * 32 + x.die) s) (busLeft n x t r s))

theorem arrived_formats (dp : Nat) : SameFormats s (arrived n x t i r dp s) :=
  ((busLeft_formats r).trans (clearStaged_formats ..)).trans (modCwAt_formats ..)

theorem arrived_keeps {α : Type} (f : State → α) (hc : ∀ k c s, f (setChan k c s) = f s)
    (hm : ∀ m s, f { s with mem := m } = f s) (hd : ∀ y s, f { s with dpt := y } = f s) (dp : Nat) :
    f (arrived n x t i r dp s) = f s := (hd _ _).trans ((hm _ _).trans (hc _ _ _))

theorem arrived_mem (dp : Nat) : (arrived n x t i r dp s).mem
    = (clearStaged x.id ((x.plane * 4 + i) * 256) (cwGran (n * 32 + x.die) s) s).mem := by
  have hbus : (busLeft n x t r s).mem = s.mem := setChan_mem ..
  simp only [arrived, modCwAt, clearStaged, hbus]

@[simp] theorem dpOf_arrived (dp : Nat) (w : Cw) : dpOf n w (arrived n x t i r dp s) = dpOf n w s := by
  rw [← dpOf_busLeft (n := n) (x := x) (t := t) (s := s) r w]
  rfl

/-- The same in staging as its decode finds it. -/
def landed (n : Nat) (x : Xfer) (t i : Nat) (r : List Nat) (dp : Nat) (clear : List Byte) (s : State) : State :=
  modCwAt x.id (n * 32 + x.die) x.plane i (fun w => { w with read := clear }) (arrived n x t i r dp s)

theorem landed_eq (dp : Nat) (clear : List Byte) : landed n x t i r dp clear s =
    modCwAt x.id (n * 32 + x.die) x.plane i (fun w => { w with dp := dp, read := clear })
      (clearStaged x.id ((x.plane * 4 + i) * 256) (cwGran (n * 32 + x.die) s) (busLeft n x t r s)) :=
  modCwAt_modCwAt (by exact fun _ => rfl) _

/-- The codeword in staging that waits for its correction (10 R241). -/
theorem landed_waits (dp : Nat) (clear : List Byte) :
    modCwAt x.id (n * 32 + x.die) x.plane i (fun w => { w with bytes := clear }) (landed n x t i r dp clear s)
      = modCwAt x.id (n * 32 + x.die) x.plane i (fun w => { w with dp := dp, read := clear, bytes := clear })
        (clearStaged x.id ((x.plane * 4 + i) * 256) (cwGran (n * 32 + x.die) s) (busLeft n x t r s)) := by
  rw [landed_eq]
  exact modCwAt_modCwAt (by exact fun _ => rfl) _

theorem cwAt_landed (dp : Nat) (clear : List Byte) (hw : cwAt x.id (n * 32 + x.die) x.plane i s = some w) :
    cwAt x.id (n * 32 + x.die) x.plane i (landed n x t i r dp clear s) = some { w with dp := dp, read := clear } := by
  rw [landed_eq, cwAt_modCwAt (by exact fun _ => rfl)]
  exact congrArg _ hw

theorem landed_formats (dp : Nat) (clear : List Byte) : SameFormats s (landed n x t i r dp clear s) :=
  (arrived_formats dp).trans (modCwAt_formats ..)

section Hard

variable (hact : (chanOf n s).act = some (.transfer x, t)) (hcws : x.cws = i :: r) (hkind : x.kind ≠ 1)
  (hw : cwAt x.id (n * 32 + x.die) x.plane i s = some w) (hraw : rawJob x.id s = false)
  (hboot : bootRead x.id s = false) (hacc : bitAt (dpOf n w s) 5 = false) (hhard : bitAt (dpOf n w s) 9 = true)
  (hop : idOp x.id s ≠ opCalibrate)

include hact hcws hkind hw hraw hboot hhard

/-- 10 R241, R253: where no decoder takes the codeword, the rest of the data-out waits as a candidate. -/
theorem codewordReceived_deferred
    (h : pageActive .ecc s = false ∨ (2 ≤ (stageOf n s).length ∧ erasedRaw raw s = false
      ∧ syndromeZero (pfCodeB (dieProf (n * 32 + x.die) s) s) (offPads n (n * 32 + x.die) i w raw s) = false)) :
    codewordReceived n raw s = addCand n
      { x with len := outCc (n * 32 + x.die) x.cws.length s, ready := s.cc, stageWait := true }
      (busLeft n x t [] s) := by
  have hdefers : decodeDefers n x.id (n * 32 + x.die) x.plane i raw s = true := by
    simp only [decodeDefers, hw, hraw, hboot, hhard]
    rcases h with h | ⟨hfull, hzeros, hzero⟩
    · simp [h]
    · simp [hfull, hzeros, hzero]
  rw [codewordReceived_next hact hcws hkind, if_pos hdefers]

include hacc hop in
/-- 10 R239, R240: otherwise the hard path judges it as it has landed. -/
theorem codewordReceived_judged (hon : pageActive .ecc s = true)
    (h : (stageOf n s).length < 2 ∨ erasedRaw raw s = true
      ∨ syndromeZero (pfCodeB (dieProf (n * 32 + x.die) s) s) (offPads n (n * 32 + x.die) i w raw s) = true) :
    let d := n * 32 + x.die
    let clear := offPads n d i w raw s
    let v := landed n x t i r (dpOf n w s) clear s
    let out := checkDecoded { w with dp := dpOf n w s } clear .clean s
    codewordReceived n raw s =
      if erasedRaw raw s then
        cwJudged n x.id d x.plane i (setOut x.id d x.plane i clear .erased 0 (noteOut false false n .erased v))
      else if syndromeZero (pfCodeB (dieProf d s) s) clear then
        cwJudged n x.id d x.plane i (setOut x.id d x.plane i clear out 0 (noteOut false false n out v))
      else modStage n (fun l => l ++ [(x.id, d, x.plane, i)])
        (modCwAt x.id d x.plane i (fun w => { w with bytes := clear }) v) := by
  intro d clear v out
  have htaken : decodeDefers n x.id d x.plane i raw s = false := by
    have hcw : cwAt x.id d x.plane i s = some w := hw
    simp only [decodeDefers, hcw, hraw, hboot, hhard, hon]
    rcases h with h | h | h
    · simp [Nat.not_le.mpr h]
    · simp [h]
    · simp [show syndromeZero (pfCodeB (dieProf d s) s) (offPads n d i w raw s) = true from h]
  have hin : codewordIn n x.id d x.plane i raw (busLeft n x t r s)
      = hardCodeword n x.id d x.plane i { w with dp := dpOf n w s } raw (arrived n x t i r (dpOf n w s) s) := by
    have hcw : cwAt x.id d x.plane i (busLeft n x t r s) = some w := (cwAt_of_dpt rfl ..).trans hw
    have hread : rawJob x.id (arrived n x t i r (dpOf n w s) s) = false := ((arrived_formats _).raw _).trans hraw
    have hstaged : modCwAt x.id d x.plane i (fun w' => { w' with dp := dpOf n w s }) (clearStaged x.id
        ((x.plane * 4 + i) * 256) (cwGran d s) (busLeft n x t r s)) = arrived n x t i r (dpOf n w s) s := rfl
    simp only [codewordIn, hcw, dpOf_busLeft, (busLeft_formats r).granules, hstaged, hread, hacc, hhard,
      Bool.false_eq_true, if_false, if_true]
  have hpads : offPads n d i { w with dp := dpOf n w s } raw (arrived n x t i r (dpOf n w s) s) = clear := by
    have hdp : dpOf n { w with dp := dpOf n w s } (arrived n x t i r (dpOf n w s) s) = dpOf n w s := dpOf_arrived _ _
    simp only [clear, offPads, hdp, (arrived_formats _).scrambled]
  have hops : (arrived n x t i r (dpOf n w s) s).ops = s.ops :=
    arrived_keeps State.ops (fun _ _ _ => rfl) (fun _ _ => rfl) (fun _ _ => rfl) _
  have hcal : idOp x.id (arrived n x t i r (dpOf n w s) s) ≠ opCalibrate := by
    unfold idOp
    rw [tagOf_of_ops hops]
    exact hop
  have hv : modCwAt x.id d x.plane i (fun w => { w with read := clear }) (arrived n x t i r (dpOf n w s) s) = v := rfl
  have hformats : SameFormats s v := landed_formats ..
  have hnext : codewordReceived n raw s = codewordIn n x.id d x.plane i raw (busLeft n x t r s) :=
    (codewordReceived_next hact hcws hkind).trans (if_neg (Bool.eq_false_iff.mp htaken))
  have hjudged := hnext.trans (hin.trans (hardCodeword_eq hcal))
  simp only [hpads, hv, hformats.erased, hformats.codeB, hformats.checked] at hjudged
  exact hjudged

end Hard

/-- The state after the report of an outcome, where rows, ports, staging and MEM are as the codeword has found them. -/
theorem landed_reported (dp : Nat) (clear : List Byte) (out : CwOut)
    (hw : cwAt x.id (n * 32 + x.die) x.plane i s = some w) :
    let v := noteOut false false n out (landed n x t i r dp clear s)
    v.ops = s.ops ∧ v.fab = s.fab
      ∧ v.mem = (clearStaged x.id ((x.plane * 4 + i) * 256) (cwGran (n * 32 + x.die) s) s).mem
      ∧ cwAt x.id (n * 32 + x.die) x.plane i v = some { w with dp := dp, read := clear } := by
  intro v
  have hkept {α : Type} (f : State → α) (hh : ∀ p h s, f (setHdr p h s) = f s) :
      f v = f (landed n x t i r dp clear s) := noteOut_keeps f hh ..
  have hstaged {α : Type} (f : State → α) (hd : ∀ y s, f { s with dpt := y } = f s) :
      f (landed n x t i r dp clear s) = f (arrived n x t i r dp s) := hd _ _
  refine ⟨(hkept State.ops fun _ _ _ => rfl).trans ((hstaged State.ops fun _ _ => rfl).trans ?_),
    (hkept State.fab fun _ _ _ => rfl).trans ((hstaged State.fab fun _ _ => rfl).trans ?_),
    (hkept State.mem fun _ _ _ => rfl).trans ((hstaged State.mem fun _ _ => rfl).trans (arrived_mem dp)), ?_⟩
  · exact arrived_keeps State.ops (fun _ _ _ => rfl) (fun _ _ => rfl) (fun _ _ => rfl) dp
  · exact arrived_keeps State.fab (fun _ _ _ => rfl) (fun _ _ => rfl) (fun _ _ => rfl) dp
  · exact (cwAt_of_dpt (hkept State.dpt fun _ _ _ => rfl) ..).trans (cwAt_landed dp clear hw)

end Arrival

/-- 10 R239, R240, R253: a codeword off the pads is deferred, or judged by the hard path. -/
theorem codewordJudgedOnArrival : Claims.CodewordJudgedOnArrival := by
  intro c raw s n
  have hexec {v : State} (h : codewordReceived n raw s = v) : exec (.codewordReceived c raw) s = .next (settle v) :=
    h ▸ rfl
  refine ⟨fun hidle => hexec (codewordReceived_idle hidle), ?_⟩
  intro x t i r w d dp w1 clear u later thr base zero hact hcws hkind hw hraw hboot hacc hhard hop hjob hmember
    hfree hopen
  have hdefers := codewordReceived_deferred (raw := raw) hact hcws hkind hw hraw hboot hhard
  have hjudges := codewordReceived_judged (raw := raw) hact hcws hkind hw hraw hboot hacc hhard hop
  have hnotErased (h : thr < zerosOf raw) : erasedRaw raw s = false := decide_eq_false (Nat.not_le.mpr h)
  refine ⟨fun hoff => hexec (hdefers (.inl hoff)), fun hon hzeros hzero hfull => ?_, fun hon hzeros hrung => ?_,
    fun hon hzeros hzero hroom => ?_, fun hon hzeros hzero hout => ?_,
    fun hon hzeros hzero hout hfwd hlast hsound => ?_⟩
  · exact hexec (hdefers (.inr ⟨hfull, hnotErased hzeros, hzero⟩))
  · have herased : erasedRaw raw s = true := decide_eq_true hzeros
    obtain ⟨hops, -, -, hcw⟩ := landed_reported (t := t) (r := r) dp clear .erased hw
    exact ⟨_, hexec ((hjudges hon (.inr (.inl herased))).trans (if_pos herased)),
      judged_erased hops hcw hrung hmember hjob hop hfree hopen⟩
  · have hwaits := (hjudges hon (.inl hroom)).trans
      ((if_neg (Bool.eq_false_iff.mp (hnotErased hzeros))).trans (if_neg (Bool.eq_false_iff.mp hzero)))
    rw [landed_waits] at hwaits
    exact hexec hwaits
  · have hjudged := (hjudges hon (.inr (.inr hzero))).trans
      ((if_neg (Bool.eq_false_iff.mp (hnotErased hzeros))).trans (if_pos hzero))
    obtain ⟨hops, -, -, hcw⟩ := landed_reported (t := t) (r := r) dp clear .echoBad hw
    have hbad : checkDecoded { w with dp := dpOf n w s } (offPads n (n * 32 + x.die) i w raw s) .clean s = .echoBad :=
      hout
    rw [hbad] at hjudged
    exact ⟨_, hexec hjudged, judged_echoBad hops hcw hmember hjob hfree hopen⟩
  · have hjudged := (hjudges hon (.inr (.inr hzero))).trans
      ((if_neg (Bool.eq_false_iff.mp (hnotErased hzeros))).trans (if_pos hzero))
    obtain ⟨hops, hfab, hmem, hcw⟩ := landed_reported (t := t) (r := r) dp clear .clean hw
    have hgood : checkDecoded { w with dp := dpOf n w s } (offPads n (n * 32 + x.die) i w raw s) .clean s = .clean :=
      hout
    rw [hgood] at hjudged
    exact ⟨_, hexec hjudged, (judged_forwards hlast hops hfab hcw hmember (.inl rfl) hfwd
      ((readStaged_of_mem hmem).trans hsound)).1⟩

end Sys2Proof.Machine
end

section
/-!
The ends of hard corrections and the soft pool (O49; 10 R241, R244, R245, R247, R253).
-/

namespace Sys2Proof.Machine

/-! ### HARD_CORRECTION_END (10 R241) -/

section Correction

variable {n id d plane idx : Nat} {r : List (Nat × Nat × Nat × Nat)} {flips : List Nat} {s : State} {w : Cw}

theorem correctionEnd_empty (h : stageOf n s = []) : correctionEnd n flips s = s := by
  unfold correctionEnd
  split
  · rfl
  · rename_i hstage
    exact absurd (hstage.symm.trans h) nofun

variable (hstage : stageOf n s = (id, d, plane, idx) :: r)

include hstage

/-- 10 R253: while ECC is disabled no correction ends but one of BOOT_FETCH. -/
theorem correctionEnd_off (hoff : pageActive .ecc s = false) (hboot : bootRead id s = false) :
    correctionEnd n flips s = s := by
  simp [correctionEnd, hstage, hoff, hboot]

/-- The codeword at the head of the stage leaves it, decoded or failed. -/
theorem correctionEnd_head (hon : pageActive .ecc s = true) (hw : cwAt id d plane idx s = some w) :
    let res := flipBits w.bytes flips
    let u := setStage n r s
    let out := checkDecoded w res .corrected s
    correctionEnd n flips s =
      if syndromeZero (pfCodeB (dieProf d s) s) res then
        cwJudged n id d plane idx (setOut id d plane idx res out (diffBits w.bytes res)
          (noiseTest n w.bytes res (noteOut false true n out u)))
      else cwJudged n id d plane idx (setOut id d plane idx w.bytes .failed 0 (bump .ecc 2 u)) := by
  intro res u out
  have hcw : cwAt id d plane idx u = some w := (cwAt_of_dpt rfl ..).trans hw
  have hformats : SameFormats s u := .of_mem rfl rfl rfl rfl rfl
  have hu : setStage n r s = u := rfl
  simp only [correctionEnd, hstage, hon, hu, hcw, hformats.codeB, hformats.checked, Bool.true_or, Bool.not_true,
    Bool.false_eq_true, if_false]
  rfl

end Correction

/-- What the reports of a decode leave of the state that a read works on, and of MEM. -/
theorem noiseTest_noteOut_keeps {α : Type} (f : State → α) (hh : ∀ p h s, f (setHdr p h s) = f s)
    (hc : ∀ k c s, f (setChan k c s) = f s) (hl : ∀ l s, f { s with lvl := l } = f s) (soft corrected : Bool)
    (n c : Nat) (before after : List Byte) (out : CwOut) (s : State) :
    f (noiseTest n before after (noteOut soft corrected c out s)) = f s :=
  (noiseTest_keeps f hh hc hl ..).trans (noteOut_keeps f hh ..)

/-- 10 R241, R253, Table 10.3: the ends of a correction. -/
theorem hardCorrectionEnds : Claims.HardCorrectionEnds := by
  intro c flips s n
  have hexec {v : State} (h : correctionEnd n flips s = v) : exec (.hardCorrectionEnd c flips) s = .next (settle v) :=
    h ▸ rfl
  refine ⟨fun hempty => hexec (correctionEnd_empty hempty), ?_⟩
  intro id d plane idx r w res zero u failed hstage
  refine ⟨fun hoff hboot => hexec (correctionEnd_off hstage hoff hboot), ?_⟩
  intro hw hon hmember hjob hop hfree hopen
  have hhead := correctionEnd_head (flips := flips) hstage hon hw
  have hcw (out : CwOut) : cwAt id d plane idx (noiseTest n w.bytes res (noteOut false true n out u)) = some w :=
    (noiseTest_noteOut_keeps (cwAt id d plane idx) (fun _ _ _ => rfl) (fun _ _ _ => rfl) (fun _ _ => rfl) ..).trans hw
  have hops (out : CwOut) : (noiseTest n w.bytes res (noteOut false true n out u)).ops = s.ops :=
    noiseTest_noteOut_keeps State.ops (fun _ _ _ => rfl) (fun _ _ _ => rfl) (fun _ _ => rfl) ..
  refine ⟨fun hzero hout hfwd hlast hsound => ?_, fun hzero hout => ?_, fun hzero htodo hrung hrows => ?_⟩
  · have hjudged := hhead.trans (if_pos hzero)
    have hgood : checkDecoded w (flipBits w.bytes flips) .corrected s = .corrected := hout
    rw [hgood] at hjudged
    let v := noiseTest n w.bytes res (noteOut false true n .corrected u)
    have hfab : v.fab = s.fab :=
      noiseTest_noteOut_keeps State.fab (fun _ _ _ => rfl) (fun _ _ _ => rfl) (fun _ _ => rfl) ..
    have hmem : v.mem = s.mem :=
      noiseTest_noteOut_keeps State.mem (fun _ _ _ => rfl) (fun _ _ _ => rfl) (fun _ _ => rfl) ..
    have hstages : stageOf n v = r :=
      (noiseTest_noteOut_keeps (stageOf n) (fun _ _ _ => rfl) (fun _ _ _ => rfl) (fun _ _ => rfl) ..).trans
        (stageOf_setStage_same ..)
    obtain ⟨hforwarded, hecc, hbits⟩ := judged_forwards (c := n) (bytes := res) (bits := diffBits w.bytes res) hlast
      (hops .corrected) hfab (hcw .corrected) hmember (.inr rfl) hfwd ((readStaged_of_mem hmem).trans hsound)
    refine ⟨_, hexec hjudged, hforwarded, hbits.trans (satTo_eq_min ..), Eq.trans ?_ hstages⟩
    simp only [stageOf]
    exact congrArg (fun e => SMap.get stageDefault e.correct n) hecc
  · have hjudged := hhead.trans (if_pos hzero)
    have hbad : checkDecoded w (flipBits w.bytes flips) .corrected s = .echoBad := hout
    rw [hbad] at hjudged
    exact ⟨_, hexec hjudged, judged_echoBad (hops .echoBad) (hcw .echoBad) hmember hjob hfree hopen⟩
  · have hjudged := hhead.trans (if_neg (Bool.eq_false_iff.mp hzero))
    have hrow : tagOf id failed = tagOf id s := by
      rw [tagOf_setOut, tagOf_of_ops (bump_ops ..)]
      rfl
    have hfailed : cwAt id d plane idx failed = some { w with bytes := w.bytes, out := .failed, bits := 0 } := by
      rw [cwAt_setOut, cwAt_of_dpt (bump_dpt ..)]
      exact congrArg _ hw
    have hstep : cwJudged n id d plane idx failed = failed := by
      rw [cwJudged_failed hfailed rfl hmember hjob (by rw [idOp, hrow]; exact hop)]
      exact readStep_waits (by rw [hrow]; exact htodo) (by rw [hrow]; exact hrung) hrows
    exact hexec (hjudged.trans hstep)

/-! ### The order of the soft pool (10 R245) -/

/-- The first of a list of images is the image of the first. -/
theorem firstBy_map {α β : Type} (f : β → α) (lt : α → α → Bool) (l : List β) :
    firstBy lt (l.map f) = (firstBy (fun a b => lt (f a) (f b)) l).map f := by
  cases l with
  | nil => rfl
  | cons x r =>
    have hfold (b : β) : (r.map f).foldl (fun b y => if lt y b then y else b) (f b)
        = f (r.foldl (fun b y => if lt (f y) (f b) then y else b) b) := by
      induction r generalizing b with
      | nil => rfl
      | cons y r ih =>
        rw [List.map_cons, List.foldl_cons, List.foldl_cons, ← ih]
        split <;> rfl
    exact congrArg some (hfold x)

/-- The first of a list is one of its elements, on which alone the order matters. -/
theorem firstBy_attach {α : Type} {lt : α → α → Bool} {l : List α} {m : α} (h : firstBy lt l = some m) :
    ∃ hm : m ∈ l, firstBy (fun a b : { x // x ∈ l } => lt a.1 b.1) l.attach = some ⟨m, hm⟩ := by
  rw [← List.attach_map_subtype_val l, firstBy_map, Option.map_eq_some_iff] at h
  obtain ⟨⟨m', hm⟩, hfirst, rfl⟩ := h
  exact ⟨hm, hfirst⟩

/-- Under an order that is transitive on the list, none of it comes before the first. -/
theorem firstBy_least {α : Type} {lt : α → α → Bool} {l : List α} {m : α}
    (hasymm : ∀ a b, lt a b = true → lt b a = false)
    (hnot : ∀ a ∈ l, ∀ b ∈ l, ∀ c ∈ l, lt a b = false → lt b c = false → lt a c = false) (h : firstBy lt l = some m) :
    ∀ y ∈ l, lt y m = false := by
  obtain ⟨hm, hfirst⟩ := firstBy_attach h
  have hleast := (firstBy_first (fun a b => hasymm a.1 b.1) (fun a b c => hnot a.1 a.2 b.1 b.2 c.1 c.2) hfirst).2
  exact fun y hy => hleast ⟨y, hy⟩ (List.mem_attach ..)

theorem frameLater_asymm {a b : Word32} (h : frameLater a b = true) : frameLater b a = false := by
  simp only [frameLater, Bool.and_eq_true, decide_eq_true_eq, Bool.and_eq_false_iff, decide_eq_false_iff_not] at h ⊢
  rw [BitVec.toNat_sub] at h ⊢
  omega

theorem keyLt_asymm {a b : Stamp} (h : keyLt a b = true) : keyLt b a = false := by
  by_cases hframe : a.frame = b.frame
  · have hlt : a.frac.toNat < b.frac.toNat := by simpa [keyLt, hframe] using h
    simp [keyLt, hframe, hlt.le]
  · have hlater : frameLater b.frame a.frame = true := by simpa [keyLt, hframe] using h
    simp [keyLt, Ne.symm hframe, frameLater_asymm hlater]

theorem softBefore_asymm (a b : SoftReq) (h : softBefore a b = true) : softBefore b a = false := by
  cases hkey : keyLt a.key b.key with
  | true => simp [softBefore, hkey, keyLt_asymm hkey]
  | false =>
    simp only [softBefore, hkey, Bool.false_or, Bool.not_false, Bool.true_and, Bool.and_eq_true,
      Bool.not_eq_true'] at h ⊢
    obtain ⟨hback, h⟩ := h
    simp [hback] at h ⊢
    omega

/-! ### SOFT_DECODE_START and SOFT_DECODE_END (10 R245, R247) -/

section Pool

variable {n : Nat} {flips : List Nat} {s : State} {q : SoftReq} {run : SoftRun} {w : Cw}

theorem softStart_nothing (h : softPick s = none ∨ softFree n s = false) : softStart n s = s := by
  unfold softStart
  split
  · rename_i hpick
    rcases h with h | h
    · exact absurd (hpick.symm.trans h) nofun
    · simp [h]
  · rfl

theorem softStart_takes (hpick : softPick s = some q) (hfree : softFree n s = true) : softStart n s = setSoft n
    (some { req := q, since := s.cc, input := ((cwOf q.id q.plane q.idx s).map (softInput · s)).getD [] })
    { s with ecc.queue := s.ecc.queue.filter fun r => !decide (r = q) } := by
  simp only [softStart, hpick, hfree, if_true]

theorem softPick_queued (h : softPick s = some q) : q ∈ s.ecc.queue :=
  List.mem_of_mem_filter (firstBy_attach h).1

/-- While ECC is enabled the whole queue is served in order. -/
theorem softPick_on (hon : pageActive .ecc s = true) : softPick s = firstBy softBefore s.ecc.queue := by
  simp [softPick, hon]

theorem softOver_free (h : softOf n s = none) : softOver n flips s = s := by simp only [softOver, h]

theorem softOver_dropped (h : softOf n s = some run) (hdropped : run.dropped = true) :
    softOver n flips s = setSoft n none s := by simp only [softOver, h, hdropped, if_true]

theorem softOver_off (h : softOf n s = some run) (hdropped : run.dropped = false) (hoff : pageActive .ecc s = false)
    (hboot : bootRead run.req.id s = false) : softOver n flips s = s := by simp [softOver, h, hdropped, hoff, hboot]

theorem softOver_ends (h : softOf n s = some run) (hdropped : run.dropped = false) (hon : pageActive .ecc s = true) :
    softOver n flips s = softEnd run.req flips (setSoft n none s) := by simp [softOver, h, hdropped, hon]

/-- The report of a soft decode, with what rung 4 notes of its valley (11 R271). -/
def softReported (q : SoftReq) (d : Nat) (w : Cw) (res : List Byte) (out : CwOut) (s : State) : State :=
  let s := noiseTest q.channel w.read res (noteOut true true q.channel out s)
  if w.rung ≠ 4 then s
  else if out = .corrected then noteValley q.id d q.plane q.idx (diffBits w.read res) w s
  else valleyBegun q.id s

theorem softReported_keeps {α : Type} (f : State → α) (hh : ∀ p h s, f (setHdr p h s) = f s)
    (hc : ∀ k c s, f (setChan k c s) = f s) (hl : ∀ l s, f { s with lvl := l } = f s) (d : Nat) (res : List Byte)
    (out : CwOut) : f (softReported q d w res out s) = f s := by
  have hnoted := noiseTest_noteOut_keeps f hh hc hl true true q.channel q.channel w.read res out s
  simp only [softReported]
  split
  · exact hnoted
  · split
    · exact (noteValley_keeps f hl ..).trans hnoted
    · exact (valleyBegun_keeps f hl ..).trans hnoted

/-- A decode that reaches a zero syndrome gives back its accumulator (10 R245). -/
theorem softEnd_zero {d : Nat} (hd : d = paDie (ePaddr (tagOf q.id s).entry))
    (hw : cwAt q.id d q.plane q.idx s = some w)
    (hzero : syndromeZero q.codeB (flipBits w.bytes flips) = true) :
    let res := flipBits w.bytes flips
    let out := checkDecoded w res .corrected s
    softEnd q flips s = cwJudged q.channel q.id d q.plane q.idx (setOut q.id d q.plane q.idx res out
      (diffBits w.read res)
      (softReported q d w res out (modCwAt q.id d q.plane q.idx (fun w => { w with gAcc := 0 }) s))) := by
  intro res out
  have hchecked := (modCwAt_formats q.id d q.plane q.idx (fun w => { w with gAcc := 0 }) s).checked w res .corrected
  subst hd
  simp only [softEnd, hw, hzero, if_true, hchecked, res, out]
  rfl

end Pool

/-- 10 R244, R245, R247, R253: the soft pool. -/
theorem softPoolServes : Claims.SoftPoolServes := by
  intro k flips s n
  have hstart {v : State} (h : softStart n s = v) : exec (.softDecodeStart k) s = .next (settle v) := h ▸ rfl
  have hover {v : State} (h : softOver n flips s = v) : exec (.softDecodeEnd k flips) s = .next (settle v) := h ▸ rfl
  refine ⟨fun hnothing => hstart (softStart_nothing hnothing), fun q hpick hfree => ⟨softPick_queued hpick, ?_, ?_⟩,
    fun hnone => hover (softOver_free hnone), fun run hrun => ⟨fun hdropped => hover (softOver_dropped hrun hdropped),
    fun hdropped hoff hboot => hover (softOver_off hrun hdropped hoff hboot), ?_⟩⟩
  · exact fun hon horder => firstBy_least softBefore_asymm horder (softPick_on hon ▸ hpick)
  · exact hstart (softStart_takes hpick hfree)
  · intro w q d res hdropped hon hw hmember hzero hout hfwd hlast hsound
    let u := setSoft n none s
    let a := modCwAt q.id d q.plane q.idx (fun w => { w with gAcc := 0 }) u
    let v := softReported q d w res .corrected a
    have hcw : cwAt q.id d q.plane q.idx u = some w := (cwAt_of_dpt rfl ..).trans hw
    have hformats : SameFormats s u := .of_mem rfl rfl rfl rfl rfl
    have hgood : checkDecoded w res .corrected u = .corrected := (hformats.checked ..).trans hout
    have hjudged := (softOver_ends (flips := flips) hrun hdropped hon).trans (softEnd_zero rfl hcw hzero)
    rw [hgood] at hjudged
    have hkept {α : Type} (f : State → α) (hh : ∀ p h s, f (setHdr p h s) = f s) (hc : ∀ k c s, f (setChan k c s) = f s)
        (hl : ∀ l s, f { s with lvl := l } = f s) : f v = f a := softReported_keeps f hh hc hl ..
    have hmem : v.mem = s.mem := hkept State.mem (fun _ _ _ => rfl) (fun _ _ _ => rfl) fun _ _ => rfl
    have hstaged : cwAt q.id d q.plane q.idx v = some { w with gAcc := 0 } := by
      rw [hkept (cwAt q.id d q.plane q.idx) (fun _ _ _ => rfl) (fun _ _ _ => rfl) fun _ _ => rfl,
        cwAt_modCwAt (by exact fun _ => rfl), hcw]
      rfl
    obtain ⟨hforwarded, hecc, -⟩ := judged_forwards (c := q.channel) (bytes := res) (bits := diffBits w.read res) hlast
      (hkept State.ops (fun _ _ _ => rfl) (fun _ _ _ => rfl) fun _ _ => rfl)
      (hkept State.fab (fun _ _ _ => rfl) (fun _ _ _ => rfl) fun _ _ => rfl) hstaged hmember (.inr rfl) hfwd
      ((readStaged_of_mem hmem).trans hsound)
    refine ⟨_, hover hjudged, hforwarded, Eq.trans ?_ (softOf_setSoft_same n none s)⟩
    have hran : v.ecc = u.ecc := hkept State.ecc (fun _ _ _ => rfl) (fun _ _ _ => rfl) fun _ _ => rfl
    simp only [softOf]
    exact congrArg (fun e => SMap.get softDefault e.running n) (hecc.trans hran)

/-- Settles O49: on arrival by the hard path, at the end of a correction, and in the soft pool. -/
theorem codewordsJudged : Obligations.CodewordsJudged :=
  ⟨codewordJudgedOnArrival, hardCorrectionEnds, softPoolServes⟩

end Sys2Proof.Machine
end

section
/-!
What begins with a die operation of the Graver and with an action on a bus, and what both leave alone (14 R344, 11 R259,
08 R170, 09 R203).
-/

namespace Sys2Proof.Machine

/-! ### Die operations of the Graver's jobs (11 R259) -/

section JobReads

variable {α : Type} (f : State → α) (hd : ∀ k v s, f (setDie k v s) = f s)

include hd

theorem recheck_keeps (d : Nat) (s : State) : f (recheck d s) = f s := by
  simp only [recheck]
  split
  · exact hd ..
  · split
    · exact hd ..
    · rfl

theorem enqueue_keeps (d : Nat) (it : QItem) (s : State) : f (enqueue d it s) = f s := by
  rw [enqueue, recheck_keeps f hd, modDie_eq, hd]

/-- The read of a job takes the next id and names there what it is for; its row and its die hold the rest. -/
theorem startJob_read_keeps (ht : ∀ k v s, f (setTag k v s) = f s) (why : JobFor) (d plane block page : Nat) (slc : Bool)
    (last lrow maxrung : Nat) (s : State) : f (startJob why .jobRead d plane block page slc last lrow maxrung s)
      = f { s with eng.grvNext := s.eng.grvNext + 1
                   map.jobs := SMap.put (fun _ => none) s.map.jobs s.eng.grvNext (some why) } := by
  rw [startJob, if_neg (by decide), enqueue_keeps f hd, ht]

end JobReads

@[simp] theorem readLevelPage_lvl (page : Nat) (s : State) : (readLevelPage page s).lvl = s.lvl :=
  startJob_read_keeps State.lvl (fun _ _ _ => rfl) (fun _ _ _ => rfl) ..

/-- The read of a page of the factory image is the job with the Graver's next id. -/
theorem jobOf_readLevelPage (page : Nat) (s : State) :
    jobOf s.eng.grvNext (readLevelPage page s) = some (.levelPage page) := by
  rw [readLevelPage, startJob_read_keeps (jobOf _) (fun _ _ _ => rfl) fun _ _ _ => rfl]
  simp only [jobOf, SMap.get_put_same]

/-! ### Jobs for the thread of a channel (09 R203) -/

theorem pushJob_keeps {α : Type} (f : State → α) (he : ∀ k v s, f (setEng k v s) = f s) (c : Nat) (j : Job)
    (s : State) : f (pushJob c j s) = f s := by
  rw [pushJob, modThr_eq, setThr, modEng_eq, he]

theorem giveJobs_keeps {α : Type} (f : State → α) (he : ∀ k v s, f (setEng k v s) = f s) (c : Nat) (l : List Job)
    (s : State) : f (giveJobs c l s) = f s := by
  unfold giveJobs
  split
  · exact foldl_keeps f (fun s j => pushJob_keeps f he c j s) l s
  · rfl

@[simp] theorem waiting_pushJob (c : Nat) (j : Job) (s : State) :
    (thrOf (chanBur c) (chanThr c) (pushJob c j s)).waiting = (thrOf (chanBur c) (chanThr c) s).waiting ++ [j] := by
  rw [pushJob, thrOf_modThr_same]

/-- A thread that takes jobs has them waiting in their order, behind those that wait already. -/
theorem waiting_giveJobs {c : Nat} {s : State} (l : List Job) (h : burinServes c s = true) :
    (thrOf (chanBur c) (chanThr c) (giveJobs c l s)).waiting = (thrOf (chanBur c) (chanThr c) s).waiting ++ l := by
  rw [giveJobs, if_pos h]
  clear h
  induction l generalizing s with
  | nil => simp
  | cons j r ih => rw [List.foldl_cons, ih, waiting_pushJob, List.append_assoc, List.singleton_append]

/-! ### Who drives a channel (09 R208) -/

/-- A job that waits leaves the thread in its state and its handler. -/
theorem burinDrives_pushJob (c : Nat) (j : Job) (s : State) : burinDrives c (pushJob c j s) = burinDrives c s := by
  simp only [burinDrives, burinServes, pushJob, thrOf_modThr_same, alive]

theorem burinDrives_of_eng {s u : State} (h : u.eng = s.eng) (c : Nat) : burinDrives c u = burinDrives c s := by
  simp only [burinDrives, burinServes, thrOf_of_eng h]

theorem burinServes_of_drives {c : Nat} {s : State} (h : burinDrives c s = true) : burinServes c s = true :=
  (Bool.and_eq_true_iff.mp h).1

/-- A thread that takes jobs is not HELD. -/
theorem burinHeld_of_serves {c : Nat} {s : State} (h : burinServes c s = true) : burinHeld c s = false := by
  have hstate : (thrOf (chanBur c) (chanThr c) s).state ≠ .held := fun hheld => by
    simp [burinServes, alive, hheld] at h
  cases hthr : chanThr c <;> rw [hthr] at hstate <;> simp [burinHeld, hstate]

/-- The Graver does not drive a channel that its Burin thread drives. -/
theorem gravDrives_of_drives {c : Nat} {s : State} (h : burinDrives c s = true) : gravDrives c s = false := by
  have hheld := burinHeld_of_serves (burinServes_of_drives h)
  have hguest : (thrOf (chanBur c) (chanThr c) s).handler ≠ some 15 :=
    of_decide_eq_true (Bool.and_eq_true_iff.mp h).2
  simp [gravDrives, guestLet, hheld, hguest]

theorem volJob_of_map {s u : State} (hmap : u.map = s.map) (hsec : u.sec = s.sec) (kind c v : Nat) :
    volJob kind c v u = volJob kind c v s := by
  have hroster (d : Nat) : rosterOf d u = rosterOf d s := by simp only [rosterOf, hmap]
  have hprof (d : Nat) : dieProf d u = dieProf d s := by
    unfold dieProf bootRuns
    rw [hroster, hsec]
  simp only [volJob, plainJob, volProf, hroster, hprof]

/-- The volume selects of a channel that its Burin thread drives: one where the volume is not the one selected (07
R156). -/
theorem selectJobs_of_drives {c : Nat} {s : State} (v : Nat) (h : burinDrives c s = true) :
    selectJobs c (some v) s = if (chanOf c s).volume = some v then [] else [volJob 11 c v s] := by
  simp [selectJobs, gravDrives_of_drives h]

/-! ### Actions begin -/

theorem addLoad_keeps {α : Type} (f : State → α) (hg : ∀ k v s, f (setGroup k v s) = f s) (d : Nat) (k : LoadKind)
    (cost : Nat) (s : State) : f (addLoad d k cost s) = f s := by
  unfold addLoad addLoadFrom
  split
  · rw [modGroup_eq, hg, accrue, modGroup_eq, hg]
  · rfl

/-- An action writes its channel and counts a volume select. -/
theorem beginAct_keeps {α : Type} (f : State → α) (hh : ∀ p h s, f (setHdr p h s) = f s)
    (hc : ∀ k v s, f (setChan k v s) = f s) (c : Nat) (a : BusAct) (v : Option Nat) (l : List PadCycle) (s : State) :
    f (beginAct c a v l s) = f s := by
  simp only [beginAct, modChan_eq]
  rw [hc]
  split
  · exact bump_keeps f hh ..
  · rfl

@[simp] theorem act_beginAct (c : Nat) (a : BusAct) (v : Option Nat) (l : List PadCycle) (s : State) :
    (chanOf c (beginAct c a v l s)).act = some (a, s.cc) := by
  simp only [beginAct, modChan_eq, chanOf_setChan_same]
  split <;> simp

theorem chanOf_beginAct_other {c k : Nat} (a : BusAct) (v : Option Nat) (l : List PadCycle) (s : State) (h : k ≠ c) :
    chanOf k (beginAct c a v l s) = chanOf k s := by
  simp only [beginAct, modChan_eq]
  rw [chanOf_setChan_other _ _ h]
  split
  · exact chanOf_bump ..
  · rfl

/-! ### A feature operation begins (08 R167) -/

/-- Its MISC cost counts; the job that goes with it is that of the volume select. -/
theorem goAct_feature (c d : Nat) (s : State) : let w := addLoad d .misc (costMisc d s) s
    goAct c (.feature d) s = beginAct c (.feature d) (some (dieVolume d)) (actCycles c (.feature d) w)
      (giveJobs c (selectJobs c (some (dieVolume d)) w) w) := by
  simp only [goAct, actCost, goVolume, actVolume, actJobs, List.append_nil]

theorem goAct_feature_keeps (c d : Nat) (s : State) {α : Type} (f : State → α) (hh : ∀ p h s, f (setHdr p h s) = f s)
    (hc : ∀ k v s, f (setChan k v s) = f s) (he : ∀ k v s, f (setEng k v s) = f s)
    (hg : ∀ k v s, f (setGroup k v s) = f s) : f (goAct c (.feature d) s) = f s := by
  rw [goAct_feature, beginAct_keeps f hh hc, giveJobs_keeps f he, addLoad_keeps f hg]

theorem act_goAct_feature (c d : Nat) (s : State) :
    (chanOf c (goAct c (.feature d) s)).act = some (.feature d, s.cc) := by
  rw [goAct_feature, act_beginAct, giveJobs_keeps State.cc fun _ _ _ => rfl, addLoad_keeps State.cc fun _ _ _ => rfl]

theorem chanOf_goAct_feature_other {c k : Nat} (d : Nat) (s : State) (h : k ≠ c) :
    chanOf k (goAct c (.feature d) s) = chanOf k s := by
  rw [goAct_feature, chanOf_beginAct_other _ _ _ _ h, giveJobs_keeps (chanOf k) fun _ _ _ => rfl,
    addLoad_keeps (chanOf k) fun _ _ _ => rfl]

/-- The thread that drives the channel has the job of the volume select where one precedes the command. -/
theorem waiting_goAct_feature {c : Nat} (d : Nat) {s : State} (h : burinDrives c s = true) :
    (thrOf (chanBur c) (chanThr c) (goAct c (.feature d) s)).waiting = (thrOf (chanBur c) (chanThr c) s).waiting
      ++ if (chanOf c s).volume = some (dieVolume d) then [] else [volJob 11 c (dieVolume d) s] := by
  have hload {α : Type} (f : State → α) (hg : ∀ k v s, f (setGroup k v s) = f s) :
      f (addLoad d .misc (costMisc d s) s) = f s := addLoad_keeps f hg ..
  have heng := hload State.eng fun _ _ _ => rfl
  have hdrives := (burinDrives_of_eng heng c).trans h
  rw [goAct_feature, beginAct_keeps (thrOf _ _) (fun _ _ _ => rfl) fun _ _ _ => rfl,
    waiting_giveJobs _ (burinServes_of_drives hdrives), selectJobs_of_drives _ hdrives, thrOf_of_eng heng,
    hload (chanOf c) fun _ _ _ => rfl,
    volJob_of_map (hload State.map fun _ _ _ => rfl) (hload State.sec fun _ _ _ => rfl)]

end Sys2Proof.Machine
end

section
/-!
The commands of LVL (O55; 11 R259 to R261, R280, 13 R321).
-/

namespace Sys2Proof.Machine

/-! ### The factory tables and TEMP_SEL (11 R259, R260, R280) -/

section LoadCommand

variable {block d : Nat} {s : State}

theorem levelLoad_busy (h : s.lvl.loadBusy = true) :
    levelLoad block d s = setReg .lvl oLvlLoadCtrl (block * 4096 + d) s := if_pos h

theorem levelLoad_locked (hbusy : s.lvl.loadBusy = false) (hlocked : s.lvl.locked = true) :
    levelLoad block d s = { setReg .lvl oLvlLoadCtrl (block * 4096 + d) s with lvl := { s.lvl with loadResult := 2 } } :=
  (if_neg (Bool.eq_false_iff.mp hbusy)).trans (if_pos hlocked)

theorem levelLoad_begins (hbusy : s.lvl.loadBusy = false) (hlocked : s.lvl.locked = false) :
    levelLoad block d s = readLevelPage 0 { setReg .lvl oLvlLoadCtrl (block * 4096 + d) s with
      lvl := { s.lvl with loadBusy := true, loadResult := 0, loadFrom := block * 4096 + d, loadBytes := [] } } :=
  (if_neg (Bool.eq_false_iff.mp hbusy)).trans (if_neg (Bool.eq_false_iff.mp hlocked))

end LoadCommand

/-- 11 R259, R260, R280: LEVEL_LOAD, FACTORY_LOCK_SET and TEMP_SEL. -/
theorem levelLoadAndLock : Claims.LevelLoadAndLock := by
  intro block d s hanswers u v w
  have hanswered (act : State → State) : fin (csrDo .lvl act s) = .next (settle (csrOk 0 (act u))) :=
    congrArg fin (csrDo_answers act hanswers)
  have hload {x : State} (h : levelLoad block.toNat d.toNat u = x) :
      exec (.levelLoad block d) s = .next (settle (csrOk 0 x)) := h ▸ hanswered _
  let b : State := { w with lvl := { s.lvl with loadBusy := true, loadResult := 0, loadFrom := v, loadBytes := [] } }
  exact ⟨fun hbusy => hload (levelLoad_busy hbusy), fun hbusy hlocked => hload (levelLoad_locked hbusy hlocked),
    fun hbusy hlocked => ⟨readLevelPage 0 b, hload (levelLoad_begins hbusy hlocked), readLevelPage_lvl 0 b,
      jobOf_readLevelPage 0 b⟩,
    hanswered lockFactory, hanswered (tempSel d.toNat)⟩

/-! ### Temperature samples (11 R261, 13 R321) -/

/-- A sample of a die begins: it is due, the die and its channel are free for it, and the block is not in Doze. -/
def sampleBegins (d : Nat) (s : State) : Prop :=
  tempDue d s = true ∧ dieQuiet d s = true ∧ outPending d s = false ∧ mayStart (dieChannel d) s = true
    ∧ burinDrives (dieChannel d) s = true ∧ s.pwr.state ≠ .doze ∧ busTakes (dieChannel d) (.feature d) s = true

section Sample

variable {d : Nat} {s : State}

theorem tempSample_waits (h : ¬sampleBegins d s) : tempSample d s = s :=
  if_neg (by simpa [sampleBegins, and_assoc] using h)

/-- The die works on the read of its temperature; its job waits before the command goes. -/
theorem tempSample_begins (h : sampleBegins d s) : ∃ o : DieOp, o.kind = .tempGet ∧
    tempSample d s = goAct (dieChannel d) (.feature d) (setDie d { dieOf d s with run := some o, state := .busy }
      (pushJob (dieChannel d) (plainJob 7 d none ⟨0, 0⟩ s) s)) :=
  ⟨_, rfl, if_pos (by simpa [sampleBegins, and_assoc] using h)⟩

end Sample

/-- 11 R261, 13 R321: TEMP_SAMPLE. -/
theorem temperatureSampled : Claims.TemperatureSampled := by
  intro d s n c may
  refine ⟨fun hwaits => congrArg fin (tempSample_waits hwaits), fun hbegins => ?_⟩
  obtain ⟨o, hkind, hsample⟩ := tempSample_begins hbegins
  obtain ⟨-, -, -, -, hdrives, -, -⟩ := hbegins
  let p := pushJob c (plainJob 7 n none ⟨0, 0⟩ s) s
  let u := setDie n { dieOf n s with run := some o, state := .busy } p
  have hdie (k : Nat) : dieOf k (goAct c (.feature n) u) = dieOf k u :=
    goAct_feature_keeps c n u (dieOf k) (fun _ _ _ => rfl) (fun _ _ _ => rfl) (fun _ _ _ => rfl) fun _ _ _ => rfl
  have hown : dieOf n (goAct c (.feature n) u) = { dieOf n s with run := some o, state := .busy } :=
    (hdie n).trans (dieOf_setDie_same ..)
  have hdrives_u : burinDrives c u = true := (burinDrives_pushJob c _ s).trans hdrives
  refine ⟨_, congrArg fin hsample, by rw [hown], by rw [hown]; exact congrArg some hkind, act_goAct_feature c n u,
    ?_, fun k hk => chanOf_goAct_feature_other n u hk, fun k hk => (hdie k).trans (dieOf_setDie_other _ p hk), ?_⟩
  · exact (waiting_goAct_feature n hdrives_u).trans (congrArg (· ++ _) (waiting_pushJob c _ s))
  · exact goAct_feature_keeps c n u
      (fun v => { v with chn := s.chn, sch := s.sch, eng := s.eng, pwr := s.pwr, hdr := s.hdr })
      (fun _ _ _ => rfl) (fun _ _ _ => rfl) (fun _ _ _ => rfl) fun _ _ _ => rfl

/-- Settles O55: the commands of the factory tables and of TEMP_SEL, and the samples. -/
theorem readLevelCommands : Obligations.ReadLevelCommands := ⟨levelLoadAndLock, temperatureSampled⟩

end Sys2Proof.Machine
end

section
/-!
The binary track of a sample (O60; 12 R285) and the order of a working map (O22; 14 R341, R342).
-/

namespace Sys2Proof.Machine

/-! ### The Gray code of a track (12 R285) -/

theorem testBit_double_add_bit_zero (a : Nat) (b : Bool) : (2 * a + bit b).testBit 0 = b := by
  cases b <;> simp [bit, Nat.testBit_zero]

theorem testBit_double_add_bit_succ (a k : Nat) (b : Bool) : (2 * a + bit b).testBit (k + 1) = a.testBit k := by
  have hhalf : (2 * a + bit b) / 2 = a := by cases b <;> grind [bit]
  rw [Nat.testBit_succ, hhalf]

/-- The bits of a value that is being decoded move up as further bits follow them. -/
theorem testBit_grayBits_add (g n : Nat) (last : Bool) (acc k : Nat) :
    (grayBits g n last acc).testBit (k + n) = acc.testBit k := by
  induction n generalizing last acc k with
  | zero => rfl
  | succ n ih => rw [grayBits, ← Nat.add_assoc, Nat.add_right_comm, ih, testBit_double_add_bit_succ]

/-- Each bit that is decoded is the one above it, inverted where the Gray code has a 1. -/
theorem testBit_grayBits {g n k : Nat} {last : Bool} {acc : Nat} (hlast : acc.testBit 0 = last) (hk : k < n) :
    (grayBits g n last acc).testBit k = ((grayBits g n last acc).testBit (k + 1) != g.testBit k) := by
  induction n generalizing last acc with
  | zero => exact absurd hk (Nat.not_lt_zero k)
  | succ n ih =>
    rcases Nat.lt_succ_iff_lt_or_eq.mp hk with hlt | rfl
    · exact ih (testBit_double_add_bit_zero _ _) hlt
    · have hbit := testBit_grayBits_add g k (last ^^ bitAt g k) (2 * acc + bit (last ^^ bitAt g k))
      have hnew := hbit 0
      have hold := hbit 1
      rw [Nat.zero_add, testBit_double_add_bit_zero] at hnew
      rw [testBit_double_add_bit_succ, hlast, Nat.add_comm 1 k] at hold
      rw [grayBits, hnew, hold]
      rfl

theorem testBit_posTrack_high (p : BitVec 44) (k : Nat) : (posTrack p).testBit (k + 24) = false := by
  rw [posTrack, testBit_grayBits_add, Nat.zero_testBit]

theorem testBit_posTrack (p : BitVec 44) {k : Nat} (hk : k < 24) :
    (posTrack p).testBit k = ((posTrack p).testBit (k + 1) != (posGray p).testBit k) :=
  testBit_grayBits (Nat.zero_testBit 0) hk

theorem posTrack_lt (p : BitVec 44) : posTrack p < 2 ^ 24 :=
  Nat.lt_pow_two_of_testBit _ fun i hi => by
    obtain ⟨k, rfl⟩ := Nat.exists_eq_add_of_le' hi
    exact testBit_posTrack_high p k

/-- A usable sample with the head and wedge of a sector fails its checks by the track alone. -/
theorem sampleCheck_of_usable {r : Rec} {p : BitVec 44} (husable : posUsable p = true) (hhead : posHead p = r.head)
    (hwedge : posWedge p = r.wedge) : sampleCheck r r.wedge (some p) = if posTrack p = r.track then 0 else 1 := by
  simp only [posUsable, Bool.and_eq_true, Bool.not_eq_true'] at husable
  obtain ⟨⟨hvalid, hstale⟩, hdefect⟩ := husable
  by_cases htrack : posTrack p = r.track <;> simp [sampleCheck, hvalid, hstale, hdefect, hhead, hwedge, htrack]

theorem track_of_sampleCheck {r : Rec} {wedge : Nat} {p : BitVec 44} (h : sampleCheck r wedge (some p) = 0) :
    r.track = posTrack p := by
  by_contra htrack
  have hoff : posHead p ≠ r.head ∨ posTrack p ≠ r.track ∨ posWedge p ≠ wedge := .inr (.inl (Ne.symm htrack))
  simp only [sampleCheck, if_pos hoff] at h
  split at h <;> [skip; split at h <;> [skip; split at h]] <;> cases h

theorem track_of_captureBreaks {t wedge : Nat} {p : BitVec 44} {s : State} (h : captureBreaks t wedge (some p) s = false) :
    eTrack (tagOf t s).entry = posTrack p
    ∨ ∀ i ∈ stageLeft t s, sectorOn (tagOf t s).entry (eSector (tagOf t s).entry + i) wedge s = false := by
  simp only [captureBreaks, Bool.and_eq_false_iff, Bool.or_eq_false_iff, decide_eq_false_iff_not, Decidable.not_not,
    List.any_eq_false, Bool.not_eq_true] at h
  exact h.imp (fun ⟨⟨_, htrack⟩, _⟩ => htrack.symm) id

/-- Settles O60: the bits of a decoded track, and the comparisons that use it. -/
theorem trackIsGrayDecoded : Obligations.TrackIsGrayDecoded := by
  intro p
  refine ⟨posTrack_lt p, ?_, fun k hk => testBit_posTrack p (by omega), fun r wedge h => track_of_sampleCheck h,
    fun r husable hhead hwedge => sampleCheck_of_usable husable hhead hwedge, fun e wedge h => ?_,
    fun t wedge s h => track_of_captureBreaks h⟩
  · rw [testBit_posTrack p (by decide), testBit_posTrack_high p 0, Bool.false_bne]
  · simp only [captureStarts, Bool.and_eq_true, decide_eq_true_eq] at h
    obtain ⟨-, htrack⟩ := h
    exact htrack.symm

/-! ### The working map in key order (14 R341, R342) -/

/-- The keys of a list ascend. -/
theorem keysRise_iff (l : List Word32) : keysRise l = true ↔ l.Pairwise fun a b => markKey a < markKey b := by
  rw [← List.isChain_iff_pairwise (R := fun a b : Word32 => markKey a < markKey b)]
  induction l with
  | nil => simp [keysRise]
  | cons a r ih =>
    cases r with
    | nil => simp [keysRise]
    | cons b r => simp [keysRise, ih]

/-- A mark goes before another in the working map. -/
def keyBelow (a b : Word32) : Bool := decide (markKey a < markKey b)

theorem mem_insertBy {α : Type} (lt : α → α → Bool) (x y : α) (l : List α) : y ∈ insertBy lt x l ↔ y = x ∨ y ∈ l := by
  rw [(insertBy_perm lt x l).mem_iff, List.mem_cons]

/-- A mark whose key a list does not hold takes its place in it. -/
theorem insertBy_pairwise {w : Word32} {l : List Word32} (hl : l.Pairwise fun a b => markKey a < markKey b)
    (hw : ∀ x ∈ l, markKey x ≠ markKey w) :
    (insertBy keyBelow w l).Pairwise fun a b => markKey a < markKey b := by
  induction l with
  | nil => simp [insertBy]
  | cons a r ih =>
    obtain ⟨ha, hr⟩ := List.pairwise_cons.mp hl
    rw [insertBy]
    split
    case isTrue hlt =>
      have hwa : markKey w < markKey a := of_decide_eq_true hlt
      refine List.pairwise_cons.mpr ⟨fun x hx => ?_, hl⟩
      rcases List.mem_cons.mp hx with rfl | hx
      · exact hwa
      · exact hwa.trans (ha x hx)
    case isFalse hlt =>
      have haw : markKey a < markKey w := by
        have := hw a (List.mem_cons_self ..)
        simp only [keyBelow, decide_eq_true_eq] at hlt
        omega
      refine List.pairwise_cons.mpr ⟨fun x hx => ?_, ih hr fun x hx => hw x (List.mem_cons_of_mem _ hx)⟩
      rcases (mem_insertBy _ w x r).mp hx with rfl | hx
      · exact haw
      · exact ha x hx

/-- In a list with ascending keys a look-up finds what stands under its key. -/
theorem markIn_eq_some_iff {k : Nat} {x : Word32} {l : List Word32} (hl : l.Pairwise fun a b => markKey a < markKey b) :
    markIn k l = some x ↔ x ∈ l ∧ markKey x = k := by
  refine ⟨fun h => ⟨List.mem_of_find?_eq_some h, by simpa using List.find?_some h⟩, fun ⟨hmem, hkey⟩ => ?_⟩
  induction hl with
  | nil => cases hmem
  | @cons a r ha _ ih =>
    rcases List.mem_cons.mp hmem with rfl | hmem
    · simp [markIn, hkey]
    · have hne : markKey a ≠ k := hkey ▸ (ha x hmem).ne
      simpa [markIn, hne] using ih ⟨hmem, hkey⟩ hmem

theorem pairwise_putMark {w : Word32} {l : List Word32} (hl : l.Pairwise fun a b => markKey a < markKey b) :
    (putMark w l).Pairwise fun a b => markKey a < markKey b :=
  insertBy_pairwise (hl.filter _) fun x hx => by simpa using (List.mem_filter.mp hx).2

theorem mem_putMark (w x : Word32) (l : List Word32) : x ∈ putMark w l ↔ x = w ∨ (x ∈ l ∧ markKey x ≠ markKey w) := by
  simp [putMark, mem_insertBy]

/-- Settles O22: what stands in the list decides what each look-up finds. -/
theorem putMarkKeepsOrder : Obligations.PutMarkKeepsOrder := by
  intro w l hrise
  have hl := (keysRise_iff l).mp hrise
  have hput := pairwise_putMark (w := w) hl
  refine ⟨(keysRise_iff _).mpr hput, (markIn_eq_some_iff hput).mpr ⟨(mem_putMark w w l).mpr (.inl rfl), rfl⟩,
    fun k hk => Option.ext fun x => ?_⟩
  rw [markIn_eq_some_iff hput, markIn_eq_some_iff hl, mem_putMark]
  constructor
  · rintro ⟨rfl | ⟨hx, -⟩, hkey⟩
    · exact absurd hkey.symm hk
    · exact ⟨hx, hkey⟩
  · rintro ⟨hx, hkey⟩
    exact ⟨.inr ⟨hx, hkey.trans_ne hk⟩, hkey⟩

end Sys2Proof.Machine
end

section
/-!
Interrupts, notes and the queue of commands (O1, O8 to O11; 15 R364 to R375).
-/

namespace Sys2Proof.Machine

/-! ### The queue of commands -/

/-- Settles O1: the queue's front is executed, and every command answers. -/
theorem stepExecutesFrontCommand : Obligations.StepExecutesFrontCommand := by
  intro c r s
  obtain ⟨u, hu⟩ := exec_settles c s
  exact ⟨rfl, settle u, hu⟩

/-! ### Which source a claim returns (15 R363, R364) -/

/-- For target t source a comes before source b, or is source b. -/
def goesFirst (t : Nat) (s : State) (a b : Nat) : Prop :=
  (srcFor t b s).prio < (srcFor t a s).prio ∨ ((srcFor t b s).prio = (srcFor t a s).prio ∧ a ≤ b)

theorem goesFirst_refl (t : Nat) (s : State) (a : Nat) : goesFirst t s a a := .inr ⟨rfl, Nat.le_refl a⟩

theorem goesFirst_trans {t a b c : Nat} {s : State} (hab : goesFirst t s a b) (hbc : goesFirst t s b c) :
    goesFirst t s a c := by
  unfold goesFirst at *
  omega

/-- The better of two sources is one of them and goes before both. -/
theorem betterSource_spec (t a b : Nat) (s : State) : (betterSource t a b s = a ∨ betterSource t a b s = b)
    ∧ goesFirst t s (betterSource t a b s) a ∧ goesFirst t s (betterSource t a b s) b := by
  unfold goesFirst betterSource
  split_ifs <;> refine ⟨by simp, ?_, ?_⟩ <;> omega

/-- The best source so far against the next one. -/
def pickBetter (t : Nat) (s : State) (acc : Option Nat) (id : Nat) : Option Nat :=
  match acc with
  | none => some id
  | some b => some (betterSource t b id s)

theorem foldl_pickBetter (t : Nat) (s : State) (l : List Nat) (b : Nat) :
    ∃ m ∈ b :: l, l.foldl (pickBetter t s) (some b) = some m ∧ ∀ x ∈ b :: l, goesFirst t s m x := by
  induction l generalizing b with
  | nil => exact ⟨b, List.mem_cons_self .., rfl, by simpa using goesFirst_refl t s b⟩
  | cons a r ih =>
    obtain ⟨hone, hb, ha⟩ := betterSource_spec t b a s
    obtain ⟨m, hm, hfold, hfirst⟩ := ih (betterSource t b a s)
    have hbetter := hfirst _ (List.mem_cons_self ..)
    refine ⟨m, ?_, hfold, fun x hx => ?_⟩
    · rcases List.mem_cons.mp hm with rfl | hm
      · rcases hone with h | h <;> simp [h]
      · simp [hm]
    · rcases List.mem_cons.mp hx with rfl | hx
      · exact goesFirst_trans hbetter hb
      · rcases List.mem_cons.mp hx with rfl | hx
        · exact goesFirst_trans hbetter ha
        · exact hfirst x (List.mem_cons_of_mem _ hx)

/-- The IDs among which a claim looks. -/
def claimList (t : Nat) (s : State) : List Nat :=
  (sharedCandidates s ++ privateCandidates t s ++ [1072]).filter fun id => deliverable t id s

theorem claimPick_eq (t : Nat) (s : State) : claimPick t s = (claimList t s).foldl (pickBetter t s) none := rfl

theorem claimPick_cases (t : Nat) (s : State) : (claimList t s = [] ∧ claimPick t s = none)
    ∨ ∃ m ∈ claimList t s, claimPick t s = some m ∧ ∀ x ∈ claimList t s, goesFirst t s m x := by
  rw [claimPick_eq]
  cases claimList t s with
  | nil => exact .inl ⟨rfl, rfl⟩
  | cons a r => exact .inr (foldl_pickBetter t s r a)

/-- A held edge stands in the list of the shared sources or of a target's private ones. -/
theorem candidate_of_edge {t j : Nat} {s : State} (hid : edgeId j = true) (hedge : (srcFor t j s).edge = true) :
    j ∈ sharedCandidates s ∨ j ∈ privateCandidates t s := by
  have hrange := of_decide_eq_true hid
  unfold srcFor at hedge
  split at hedge
  case isTrue hshared =>
    have hmem : (j, srcOf j s) ∈ s.irq.src := SMap.mem_of_get_ne srcReset fun heq => by
      rw [srcOf, heq, srcReset] at hedge
      split at hedge <;> cases hedge
    exact .inl (List.mem_append_right _ (List.mem_filter.mpr ⟨List.mem_map_of_mem hmem, hid⟩))
  case isFalse hpriv =>
    have hmem : (t * 64 + (j - 1024), privOf t j s) ∈ s.irq.priv := SMap.mem_of_get_ne privReset fun heq => by
      rw [privOf, heq, privReset] at hedge
      split at hedge <;> cases hedge
    refine .inr (List.mem_filterMap.mpr ⟨_, List.mem_map_of_mem hmem, ?_⟩)
    rw [if_pos (by omega), Option.some_inj]
    omega

theorem sourcePage_low : ∀ j < 256, sourcePage j ≠ none →
    (1 ≤ j ∧ j ≤ 19) ∨ (32 ≤ j ∧ j < 96) ∨ (128 ≤ j ∧ j < 256) := by decide +kernel

/-- The IDs of the pages' sources (15 Table 15.1). -/
theorem sourcePage_range {j : Nat} (h : sourcePage j ≠ none) :
    (1 ≤ j ∧ j ≤ 19) ∨ (32 ≤ j ∧ j < 96) ∨ (128 ≤ j ∧ j < 256) := by
  by_cases hj : j < 256
  · exact sourcePage_low j hj h
  · refine absurd ?_ h
    unfold sourcePage
    split
    case h_20 => rw [if_neg (by omega), if_neg (by omega)]
    all_goals omega

/-- A level source is one of the fixed IDs. -/
theorem candidate_of_level {t j : Nat} {s : State} (h : levelInput t j s = true) : j ∈ sharedCandidates s ∨ j = 1072 := by
  have hfixed {l : List Nat} (hmem : j ∈ (List.range 20).map (· + 1) ++ (List.range 64).map (· + 32)
      ++ (List.range 128).map (· + 128)) : j ∈ sharedCandidates s ∨ j = 1072 := .inl (List.mem_append_left _ hmem)
  unfold levelInput at h
  split at h
  case isTrue h20 => exact .inl (by simp [sharedCandidates, h20])
  split at h
  case isTrue h1072 => exact .inr h1072
  have hpage : sourcePage j ≠ none := fun hnone => by simp [hnone] at h
  have hin := sourcePage_range hpage
  left
  simp only [sharedCandidates, List.mem_append, List.mem_map, List.mem_range]
  refine .inl ?_
  rcases hin with hin | hin | hin
  · exact .inl (.inl ⟨j - 1, by omega, by omega⟩)
  · exact .inl (.inr ⟨j - 32, by omega, by omega⟩)
  · exact .inr ⟨j - 128, by omega, by omega⟩

/-- A claim looks among every source that is deliverable. -/
theorem mem_claimList {t j : Nat} {s : State} : j ∈ claimList t s ↔ deliverable t j s = true := by
  refine ⟨fun h => (List.mem_filter.mp h).2, fun h => List.mem_filter.mpr ⟨?_, h⟩⟩
  have hpending : srcPending t j s = true := by
    simp only [deliverable, Bool.and_eq_true] at h
    obtain ⟨⟨⟨⟨⟨hpending, -⟩, -⟩, -⟩, -⟩, -⟩ := h
    exact hpending
  simp only [srcPending, Bool.and_eq_true] at hpending
  obtain ⟨-, hinput⟩ := hpending
  simp only [List.mem_append, List.mem_singleton]
  split at hinput
  case isTrue hid => exact .inl (candidate_of_edge hid hinput)
  case isFalse => exact (candidate_of_level hinput).imp .inl id

/-- Settles O8: a claim looks among the deliverable sources, and the best of them wins the fold. -/
theorem claimPicksBestSource : Obligations.ClaimPicksBestSource := by
  refine ⟨fun t id s hpick => ?_, fun t j s hj => ?_⟩
  · rcases claimPick_cases t s with ⟨-, hnone⟩ | ⟨m, hm, hsome, hfirst⟩
    · rw [hnone] at hpick
      cases hpick
    · obtain rfl : m = id := Option.some_inj.mp (hsome.symm.trans hpick)
      exact ⟨mem_claimList.mp hm, fun j hj => hfirst j (mem_claimList.mpr hj)⟩
  · rcases claimPick_cases t s with ⟨hnil, -⟩ | ⟨m, -, hsome, -⟩
    · have hmem := mem_claimList.mpr hj
      rw [hnil] at hmem
      cases hmem
    · exact ⟨m, hsome⟩

/-! ### What a read of a note FIFO returns (15 R374) -/

theorem untilLength_prefix (l : List NoteHw) : untilLength l <+: l := by
  induction l with
  | nil => exact List.prefix_refl _
  | cons h r ih =>
    rw [untilLength]
    split
    · exact List.nil_prefix
    · exact (List.cons_prefix_cons).mpr ⟨rfl, ih⟩

theorem untilLength_no_length {l : List NoteHw} : ∀ h ∈ untilLength l, h.len = false := by
  induction l with
  | nil => exact fun _ hh => absurd hh List.not_mem_nil
  | cons h r ih =>
    rw [untilLength]
    split
    case isTrue => exact fun _ hh => absurd hh List.not_mem_nil
    case isFalse hlen =>
      intro x hx
      rcases List.mem_cons.mp hx with rfl | hx
      · simpa using hlen
      · exact ih x hx

/-- The readable halfwords of which a read takes the first packet's. -/
def noteWindow (f : NoteFifo) : List NoteHw := (f.stages.drop f.read).take (min 3 (readable f))

theorem noteTake_nil {f : NoteFifo} (h : noteWindow f = []) : noteTake f = [] := by
  unfold noteWindow at h
  rw [noteTake, h]

theorem noteTake_cons {f : NoteFifo} {h : NoteHw} {r : List NoteHw} (hw : noteWindow f = h :: r) :
    noteTake f = h :: untilLength r := by
  unfold noteWindow at hw
  rw [noteTake, hw]

theorem noteTake_prefix (f : NoteFifo) : noteTake f <+: noteWindow f := by
  cases hw : noteWindow f with
  | nil => rw [noteTake_nil hw]
  | cons h r => exact noteTake_cons hw ▸ (List.cons_prefix_cons).mpr ⟨rfl, untilLength_prefix r⟩

/-- Settles O10: a read takes a prefix of the readable halfwords, which ends before the next length. -/
theorem noteTakeKeepsPacketsApart : Obligations.NoteTakeKeepsPacketsApart := by
  intro f
  have hprefix := noteTake_prefix f
  have hlen : (noteTake f).length ≤ min 3 (readable f) := hprefix.length_le.trans (List.length_take_le ..)
  refine ⟨by omega, by omega, hprefix.trans (List.take_prefix ..), ?_, fun hreadable hread => ?_⟩
  · cases hw : noteWindow f with
    | nil => simp [noteTake_nil hw]
    | cons h r =>
      rw [noteTake_cons hw, List.drop_one, List.tail_cons]
      exact untilLength_no_length
  · cases hw : noteWindow f with
    | nil =>
      have hzero := congrArg List.length hw
      simp only [noteWindow, List.length_take, List.length_drop, List.length_nil] at hzero
      omega
    | cons h r => simp [noteTake_cons hw]

/-! ### A claim whose stack word the statement on the interrupt commands leaves out -/

/-- LOG_LOST is set, and target 0 listens to its source, ID 20. -/
def lostLogSignalled : State :=
  { State.reset with
    hdr := [(pageNum (.irqt 0), { enable := true })]
    rst := { State.reset.rst with bkp := [(0, 0x80000000)] }
    irq := { src := [(20, { targets := 1, prio := 15 })] } }

/-- A claim of target 0 finds it. -/
theorem lostLogSignalled_claimed : pageAnswers (irqtPage 0) lostLogSignalled = true
    ∧ claimPick 0 lostLogSignalled = some 20 := by decide +kernel

/-- The claim stores the word of the stack that it fills: its valid bit is set (17 R392). -/
theorem lostLogSignalled_validates : (claimRead 0 lostLogSignalled).mem.valid ≠ lostLogSignalled.mem.valid := by
  decide +kernel

/-- Refutes O9: ClaimReadEffect has a claim change nothing but IRQ, its latches, the answer and the counters. The claim
also stores the target's stack in internal memory (17 R391, R392): in lostLogSignalled no word of the stacks is valid yet,
and the one that the claim fills becomes valid. -/
theorem not_interruptCommands : ¬ Obligations.InterruptCommands := by
  intro h
  obtain ⟨hclaim, -⟩ := h
  obtain ⟨hanswers, hpick⟩ := lostLogSignalled_claimed
  obtain ⟨hfound, -⟩ := hclaim 0 lostLogSignalled hanswers
  have hsettle := Host.Outcome.next.inj (hfound 20 hpick)
  have hvalid := congrArg (fun t => t.mem.valid) hsettle
  simp only [settle_mem, csrOk_mem, bump_mem] at hvalid
  exact lostLogSignalled_validates hvalid

/-! ### Reads and commands of the note FIFOs (15 R374, R375) -/

section NoteCommand

variable {op : Nat} {f : NoteFifo → NoteFifo} {s : State}

theorem noteCommand_mode (h : autoRel s = true ∨ noteSel s = 127) : noteCommand op f s = raiseErr .note 0x0100 op s :=
  if_pos h

theorem noteCommand_engine (hauto : autoRel s = false) (hsel : noteSel s ≠ 127) :
    noteCommand op f s = setFifo (noteSel s) (f (fifoOf (noteSel s) s)) s :=
  if_neg (by simp [hauto, hsel])

end NoteCommand

theorem noteReadConsumes : Claims.NoteReadConsumes := by
  intro s hanswers u
  have hread : exec .noteRead s = .next (settle (csrOk (BitVec.ofNat 64 (noteReadValue u)) (noteConsume u))) :=
    congrArg fin (if_pos hanswers)
  have hengine : noteEngine u = noteEngine s := rfl
  refine ⟨fun e he => ?_, fun hnone => ?_⟩
  · rw [hread, noteReadValue, noteConsume, hengine, he]
    rfl
  · rw [hread, noteReadValue, noteConsume, hengine, hnone]
    rfl

theorem noteMarks : Claims.NoteMarks := by
  intro s hanswers u e f
  have hanswered (op : Nat) (act : NoteFifo → NoteFifo) :
      fin (csrDo .note (noteCommand op act) s) = .next (settle (csrOk 0 (noteCommand op act u))) :=
    congrArg fin (csrDo_answers _ hanswers)
  refine ⟨fun hauto hsel => ?_, fun hmode => ?_⟩
  · have hrun (op : Nat) (act : NoteFifo → NoteFifo) :
        fin (csrDo .note (noteCommand op act) s) = .next (settle (csrOk 0 (setFifo e (act f) u))) :=
      (hanswered op act).trans (congrArg (fun v => Host.Outcome.next (settle (csrOk 0 v)))
        (noteCommand_engine (s := u) hauto hsel))
    refine ⟨hrun 1 fifoMark, fun m hm => ?_, fun hm => ?_, hrun 3 fifoRelease⟩
    · have hback : fifoRewind f = { f with read := m } := by rw [fifoRewind, hm]; rfl
      exact hback ▸ hrun 2 fifoRewind
    · have hread : f.mark.getD f.read = f.read := by rw [hm]; rfl
      have hstays : fifoRewind f = f := by rw [fifoRewind, hread]
      exact (hrun 2 fifoRewind).trans (by rw [hstays])
  · have herror (op : Nat) (act : NoteFifo → NoteFifo) :
        fin (csrDo .note (noteCommand op act) s) = .next (settle (csrOk 0 (raiseErr .note 0x0100 op u))) :=
      (hanswered op act).trans (congrArg (fun v => Host.Outcome.next (settle (csrOk 0 v)))
        (noteCommand_mode (s := u) hmode))
    exact ⟨herror 1 fifoMark, herror 2 fifoRewind, herror 3 fifoRelease⟩

/-- Settles O11: the reads and the commands of the read point. -/
theorem noteCommands : Obligations.NoteCommands := ⟨noteReadConsumes, noteMarks⟩

end Sys2Proof.Machine
end

section
/-!
Resets are taken and merged (O14; 16 R377 to R380, R386, R389).
-/

namespace Sys2Proof.Machine

/-! ### What a reset leaves (16 Table 16.1) -/

/-- A read of a map of which the entries with some keys are left. -/
theorem get_filter_keys {α : Type} (d : Nat → α) (p : Nat × α → Bool) (q : Nat → Bool) (hp : ∀ e, p e = q e.1)
    (m : SMap α) (k : Nat) : SMap.get d (m.filter p) k = if q k then SMap.get d m k else d k := by
  induction m with
  | nil => simp [SMap.get]
  | cons e r ih =>
    obtain ⟨j, v⟩ := e
    rw [List.filter_cons, hp]
    by_cases hj : j = k
    · subst hj
      cases hq : q j <;> simp_all [SMap.get]
    · split <;> simp [SMap.get, hj, ih]

/-- The block is in reset and no flag moves. -/
theorem settle_asserted {s : State} (h : s.rst.phase = .asserted) : settle s = s :=
  settle_down (.inr (by simp [stepReleased, h]))

theorem keepsClass_iff (lvl cls : Nat) : keepsClass lvl false cls = true ↔ lvl = 2 ∧ (cls = 5 ∨ cls = 7) := by
  simp only [keepsClass, Bool.or_false, Bool.or_eq_true, Bool.and_eq_true, decide_eq_true_eq]
  exact or_and_right.symm.trans and_comm

theorem winByte_wiped (lvl a : Nat) (s : State) : SMap.get winReset (wiped lvl false s).win a
    = if lvl = 2 ∧ 0x400000 ≤ a ∧ a < 0x600000 then SMap.get winReset s.win a else winReset a := by
  by_cases hl : lvl = 2
  · have hwin : (wiped lvl false s).win = s.win.filter levelByte := if_pos hl
    rw [hwin, get_filter_keys winReset levelByte (fun k => decide (0x400000 ≤ k ∧ k < 0x600000)) fun _ => rfl]
    simp [hl]
  · have hwin : (wiped lvl false s).win = [] := if_neg hl
    rw [hwin, if_neg fun h => hl h.1, SMap.get_nil]

theorem srcBit_toNat {code : Nat} (h : code < 8) : (srcBit code).toNat = 2 ^ code := by
  rw [srcBit, BitVec.toNat_ofNat, Nat.mod_eq_of_lt (Nat.pow_lt_pow_right (by decide) h)]

/-- A reset that is taken, with what BKP[2] records of it. -/
def resetWith (record : Word32) (code lvl : Nat) (pin : Bool) (wd ue : Option Word32) (s : State) : State :=
  let s := wiped lvl false (setBkp 2 record s)
  { s with rst := withInfo wd ue { s.rst with phase := .asserted, began := s.cc, since := s.cc, pin := pin, step := 0,
                                              groups := 0, sources := srcBit code, first := code, level := lvl,
                                              wdogInfo := 0, ueInfo := 0, parReset := false } }

/-- BKP[2] as newReset writes it. -/
def takenRecord (code : Nat) (s : State) : Word32 :=
  resetRecord (fieldOf (bkpOf 2 s).toNat 24 8 + 1) (srcBit code) s.tmb.frame.toNat

theorem newReset_eq (code lvl : Nat) (pin : Bool) (wd ue : Option Word32) (s : State) :
    newReset code lvl pin false s.tmb.frame.toNat wd ue s = resetWith (takenRecord code s) code lvl pin wd ue s := rfl

theorem takenRecord_eq {code : Nat} (s : State) (hcode : code < 8) : takenRecord code s
    = BitVec.ofNat 32 (min 255 ((bkpOf 2 s).toNat / 2 ^ 24 % 2 ^ 8 + 1) * 2 ^ 24 + 2 ^ code * 2 ^ 16
      + s.tmb.frame.toNat % 2 ^ 16) := by
  rw [takenRecord, resetRecord, srcBit_toNat hcode, satTo_eq_min]
  rfl

theorem bkpOf_resetWith (record : Word32) (code lvl : Nat) (pin : Bool) (wd ue : Option Word32) (k : Nat) (s : State) :
    bkpOf k (resetWith record code lvl pin wd ue s) = if k = 2 then record else bkpOf k s :=
  SMap.get_put bkpDefault s.rst.bkp 2 k record

/-- A state with another CSR port and other values of what the fuses and the watchdog have latched. -/
def latchedAs (c : CsrPort) (w : Option Word32) (f : Byte) (par : Bool) (s : State) : State :=
  { s with csr := c, rst := { s.rst with wdogFired := w, fuses := f, parReset := par } }

/-- What resetWith leaves is what a reset that is taken leaves, with whatever BKP[2] records. -/
theorem resetTaken_of_record {record : Word32} {code : Nat} (c d : CsrPort) (w x : Option Word32) (f g : Byte)
    (par bad : Bool) (lvl : Nat) (pin : Bool) (wd ue : Option Word32) (s : State)
    (hrecord : record = BitVec.ofNat 32 (min 255 ((bkpOf 2 s).toNat / 2 ^ 24 % 2 ^ 8 + 1) * 2 ^ 24 + 2 ^ code * 2 ^ 16
      + s.tmb.frame.toNat % 2 ^ 16)) :
    resetTaken code lvl s (latchedAs d x g bad (resetWith record code lvl pin wd ue (latchedAs c w f par s))) := by
  refine ⟨rfl, rfl, rfl, rfl, rfl, rfl, rfl,
    ((bkpOf_resetWith record code lvl pin wd ue 2 s).trans (if_pos rfl)).trans hrecord,
    fun k hk => (bkpOf_resetWith record code lvl pin wd ue k s).trans (if_neg hk), ?_,
    fun a => winByte_wiped lvl a _, rfl, rfl, rfl, rfl, fun u => ?_, rfl, rfl, rfl, rfl, rfl, rfl, rfl, rfl, rfl, rfl, rfl,
    rfl, rfl, rfl, rfl, rfl, rfl, rfl, rfl, rfl, rfl, rfl⟩
  · change (if keepsClass lvl false 7 then s.rst.rmem else []) = _
    simp only [keepsClass_iff, or_true, and_true]
  · change u ∈ s.mem.upsets.filter (fun u => keepsClass lvl false u.cls) ↔ _
    rw [List.mem_filter, keepsClass_iff]

section Taken

variable {record : Word32} {code lvl : Nat} {pin : Bool} {wd ue : Option Word32} {s : State}

theorem resetWith_fields : (resetWith record code lvl pin wd ue s).rst.phase = .asserted
    ∧ (resetWith record code lvl pin wd ue s).rst.first = code ∧ (resetWith record code lvl pin wd ue s).rst.level = lvl
    ∧ (resetWith record code lvl pin wd ue s).mem.remap = s.mem.remap := ⟨rfl, rfl, rfl, rfl⟩

theorem resetWith_emptied : (resetWith record code lvl pin wd ue s).hdr = []
    ∧ (resetWith record code lvl pin wd ue s).regs = [] ∧ (resetWith record code lvl pin wd ue s).ops = {} :=
  ⟨rfl, rfl, rfl⟩

theorem resetWith_ueInfo (w : Word32) : (resetWith record code lvl pin wd (some w) s).rst.ueInfo = w := rfl

theorem latchedAs_self : latchedAs s.csr s.rst.wdogFired s.rst.fuses s.rst.parReset s = s := rfl

theorem latchedAs_resetWith : latchedAs {} s.rst.wdogFired s.rst.fuses false (resetWith record code lvl pin wd ue s)
    = resetWith record code lvl pin wd ue s := rfl

/-- The source's register write is answered after the reset. -/
theorem csrOk_resetWith : csrOk 0 (resetWith record code lvl pin wd ue (dropLatches .rst s))
    = latchedAs { rspData := 0, rspErr := false } s.rst.wdogFired s.rst.fuses false (resetWith record code lvl pin wd ue
      (latchedAs (dropLatches .rst s).csr s.rst.wdogFired s.rst.fuses s.rst.parReset s)) := rfl

/-- The watchdog's latch is cleared as its reset is taken. -/
theorem resetWith_unlatched : resetWith record code lvl pin wd ue { s with rst := { s.rst with wdogFired := none } }
    = latchedAs {} none s.rst.fuses false (resetWith record code lvl pin wd ue
      (latchedAs s.csr none s.rst.fuses s.rst.parReset s)) := rfl

/-- A bit of the fuses has changed before the reset, which remembers that. -/
theorem resetWith_parity (f : Byte) :
    ({ resetWith record code lvl pin wd ue { s with rst := { s.rst with fuses := f } } with
        rst := { (resetWith record code lvl pin wd ue { s with rst := { s.rst with fuses := f } }).rst with
          parReset := true } } : State)
    = latchedAs {} s.rst.wdogFired f true (resetWith record code lvl pin wd ue
      (latchedAs s.csr s.rst.wdogFired f s.rst.parReset s)) := rfl

variable (hrecord : record = BitVec.ofNat 32 (min 255 ((bkpOf 2 s).toNat / 2 ^ 24 % 2 ^ 8 + 1) * 2 ^ 24
  + 2 ^ code * 2 ^ 16 + s.tmb.frame.toNat % 2 ^ 16))
include hrecord

theorem resetWith_taken : resetTaken code lvl s (resetWith record code lvl pin wd ue s) := by
  rw [← latchedAs_resetWith]
  conv => arg 4; arg 5; rw [← latchedAs_self (s := s)]
  exact resetTaken_of_record _ _ _ _ _ _ _ _ lvl pin wd ue s hrecord

theorem csrOk_resetWith_taken :
    resetTaken code lvl s (csrOk 0 (resetWith record code lvl pin wd ue (dropLatches .rst s))) := by
  rw [csrOk_resetWith]
  exact resetTaken_of_record _ _ _ _ _ _ _ _ lvl pin wd ue s hrecord

theorem resetWith_unlatched_taken : resetTaken code lvl s
    (resetWith record code lvl pin wd ue { s with rst := { s.rst with wdogFired := none } }) := by
  rw [resetWith_unlatched]
  exact resetTaken_of_record _ _ _ _ _ _ _ _ lvl pin wd ue s hrecord

theorem resetWith_parity_taken (f : Byte) : resetTaken code lvl s
    { resetWith record code lvl pin wd ue { s with rst := { s.rst with fuses := f } } with
        rst := { (resetWith record code lvl pin wd ue { s with rst := { s.rst with fuses := f } }).rst with
          parReset := true } } := by
  rw [resetWith_parity]
  exact resetTaken_of_record _ _ _ _ _ _ _ _ lvl pin wd ue s hrecord

end Taken

/-- A source that fires while no reset is under way (16 R378). -/
theorem takeReset_idle {code lvl : Nat} {pin : Bool} {wd ue : Option Word32} {s : State} (h : s.rst.phase = .done) :
    takeReset code lvl pin wd ue s = resetWith (takenRecord code s) code lvl pin wd ue s := by
  rw [takeReset, if_pos (by simp [resetIdle, h]), newReset_eq]

/-- The command that takes a reset ends in the state that the reset leaves. -/
theorem fin_resetWith {record : Word32} {code lvl : Nat} {pin : Bool} {wd ue : Option Word32} {s : State} :
    fin (resetWith record code lvl pin wd ue s) = .next (resetWith record code lvl pin wd ue s) :=
  congrArg Host.Outcome.next (settle_asserted rfl)

theorem fuseLevel_eq (i : Nat) (s : State) : fuseLevel i s
    = if s.rst.fuseBad = true ∨ s.rst.fuses.toNat.testBit i = true then 3 else 2 := by
  simp only [fuseLevel, bitAt, Bool.or_eq_true]

/-! ### Power-on (16 R377) -/

theorem powerOnReset : Claims.PowerOnReset := fun _ => congrArg Host.Outcome.next (settle_asserted rfl)

/-! ### The other sources (16 R378) -/

theorem wokeNow_idle {s : State} (h : s.rst.phase = .done) : wokeNow s = false := by simp [wokeNow, resetIdle, h]

theorem sysReset_idle {s : State} (h : s.rst.phase = .done) : exec .sysReset s
    = .next (resetWith (takenRecord 1 s) 1 (if corePowered s then fuseLevel 0 s else 3) true none none s) := by
  have hreset : sysReset s = takeReset 1 (if corePowered s then fuseLevel 0 s else 3) true none none s :=
    if_neg (by simp [wokeNow_idle h])
  exact (congrArg fin (hreset.trans (takeReset_idle h))).trans fin_resetWith

theorem swReset_idle {code : Nat} {s : State} (h : s.rst.phase = .done) (hanswers : pageAnswers .rst s = true)
    (act : State → State) (hact : ∀ t, act t = takeReset code code false none none t) :
    fin (csrDo .rst act s) = .next (csrOk 0 (resetWith (takenRecord code s) code code false none none
      (dropLatches .rst s))) := by
  have hdo : csrDo .rst act s = csrOk 0 (resetWith (takenRecord code s) code code false none none
      (dropLatches .rst s)) := by
    rw [csrDo_answers _ hanswers, hact, takeReset_idle (s := dropLatches .rst s) h]
    rfl
  rw [hdo]
  exact congrArg Host.Outcome.next (settle_asserted rfl)

theorem frameWatchdog_idle {w : Word32} {s : State} (h : s.rst.phase = .done) (hw : s.rst.wdogFired = some w)
    (hpow : corePowered s = true) : exec .frameWatchdog s = .next (resetWith (takenRecord 4 s) 4 (fuseLevel 1 s) false
      (some w) none { s with rst := { s.rst with wdogFired := none } }) := by
  have hexec : exec .frameWatchdog s = fin (takeReset 4 (fuseLevel 1 s) false (some w) none
      { s with rst := { s.rst with wdogFired := none } }) := by
    change fin (match s.rst.wdogFired with
      | some w => if corePowered s then takeReset 4 (fuseLevel 1 s) false (some w) none
          { s with rst := { s.rst with wdogFired := none } } else s
      | none => s) = _
    rw [hw]
    exact congrArg fin (if_pos hpow)
  rw [hexec, takeReset_idle (s := { s with rst := { s.rst with wdogFired := none } }) h]
  exact fin_resetWith

/-- The capture of a spare leaves what a reset reads of RST. -/
theorem captureSpare_rst {α : Type} (f : Rst → α) (hb : ∀ m r, f { r with bkp := m } = f r) (cls idx why : Nat)
    (s : State) : f (captureSpare cls idx why s).1.rst = f s.rst :=
  captureSpare_keeps (fun s => f s.rst) (fun _ _ _ => rfl) (fun _ _ => rfl) (fun _ _ s => hb _ s.rst) cls idx why s

theorem memUe_idle {cls : BitVec 3} {addr : BitVec 24} {s : State} (h : s.rst.phase = .done)
    (hpow : corePowered s = true) (hlo : 1 ≤ cls.toNat) (hhi : cls.toNat ≤ 4)
    (hword : memWord cls.toNat addr.toNat = true) :
    ∃ u, u.rst.fuses = s.rst.fuses ∧ u.rst.fuseBad = s.rst.fuseBad
      ∧ u.mem.remap = (captureSpare cls.toNat addr.toNat 0 s).1.mem.remap
      ∧ exec (.memUe cls addr) s = .next (resetWith (takenRecord 5 u) 5 (fuseLevel 2 u) false none
          (some (BitVec.ofNat 32 (2 ^ 31 + cls.toNat * 2 ^ 28 + addr.toNat))) u) := by
  let r := captureSpare cls.toNat addr.toNat 0 s
  let u : State := if cls.toNat = 3 ∧ r.2 = true then { r.1 with mem := { r.1.mem with blank := addr.toNat :: r.1.mem.blank } }
    else r.1
  have hrst : u.rst = r.1.rst := by simp only [u]; split <;> rfl
  have hremap : u.mem.remap = r.1.mem.remap := by simp only [u]; split <;> rfl
  have hphase : u.rst.phase = .done := (congrArg Rst.phase hrst).trans
    ((captureSpare_rst Rst.phase (fun _ _ => rfl) ..).trans h)
  refine ⟨u, (congrArg Rst.fuses hrst).trans (captureSpare_rst Rst.fuses (fun _ _ => rfl) ..),
    (congrArg Rst.fuseBad hrst).trans (captureSpare_rst Rst.fuseBad (fun _ _ => rfl) ..), hremap, ?_⟩
  have hexec : exec (.memUe cls addr) s = fin (takeReset 5 (fuseLevel 2 u) false none
      (some (BitVec.ofNat 32 (2 ^ 31 + fieldAt 28 cls.toNat + addr.toNat))) u) :=
    congrArg fin (if_pos ⟨hpow, hlo, hhi, hword⟩)
  rw [hexec, takeReset_idle hphase, fieldAt]
  exact fin_resetWith

theorem fuseParity_idle {f : Byte} {s : State} (h : s.rst.phase = .done) (hpow : corePowered s = true)
    (hbad : s.rst.fuseBad = false) (hodd : fusesOdd f = false) :
    let u := resetWith (takenRecord 6 s) 6 3 false none none { s with rst := { s.rst with fuses := f } }
    exec (.fusePar f) s = .next { u with rst := { u.rst with parReset := true } } := by
  have hpar : fuseParity f s = (let u := takeReset 6 3 false none none { s with rst := { s.rst with fuses := f } }
      { u with rst := { u.rst with parReset := true } }) := if_pos (by simp [resetIdle, h, hpow, hbad, hodd])
  have hexec := congrArg fin hpar
  rw [takeReset_idle (s := { s with rst := { s.rst with fuses := f } }) h] at hexec
  exact hexec.trans (congrArg Host.Outcome.next (settle_asserted rfl))

theorem resetSourcesTaken : Claims.ResetSourcesTaken := by
  intro s hdone level
  have hlevel (i : Nat) : fuseLevel i s = level i := fuseLevel_eq i s
  refine ⟨fun hpow => ?_, fun hpow => ?_, fun hanswers => ?_, fun hanswers => ?_, fun w hw hpow => ?_,
    fun cls addr hpow hlo hhi hword => ?_, fun f hpow hbad hodd => ?_⟩
  · refine ⟨_, sysReset_idle hdone, ?_, rfl⟩
    rw [if_pos hpow, hlevel]
    exact resetWith_taken (takenRecord_eq s (by decide))
  · refine ⟨_, sysReset_idle hdone, ?_, rfl⟩
    rw [if_neg (by simp [hpow])]
    exact resetWith_taken (takenRecord_eq s (by decide))
  · exact ⟨_, swReset_idle hdone hanswers (swReset 0x6D3A 2) fun _ => rfl,
      csrOk_resetWith_taken (takenRecord_eq s (by decide)), rfl⟩
  · exact ⟨_, swReset_idle hdone hanswers (swReset 0x6D3A 3) fun _ => rfl,
      csrOk_resetWith_taken (takenRecord_eq s (by decide)), rfl⟩
  · refine ⟨_, frameWatchdog_idle hdone hw hpow, ?_, rfl⟩
    rw [hlevel]
    exact resetWith_unlatched_taken (takenRecord_eq s (by decide))
  · obtain ⟨u, hfuses, hbad, hremap, hexec⟩ := memUe_idle hdone hpow hlo hhi hword
    have hl : fuseLevel 2 u = level 2 := by rw [fuseLevel_eq, hfuses, hbad]
    obtain ⟨hphase, hfirst, hlevel, hmem⟩ := resetWith_fields (record := takenRecord 5 u) (code := 5)
      (lvl := fuseLevel 2 u) (pin := false) (wd := none)
      (ue := some (BitVec.ofNat 32 (2 ^ 31 + cls.toNat * 2 ^ 28 + addr.toNat))) (s := u)
    exact ⟨_, hexec, hphase, hfirst, hlevel.trans hl, resetWith_ueInfo _, hmem.trans hremap, resetWith_emptied⟩
  · exact ⟨_, fuseParity_idle hdone hpow hbad hodd,
      resetWith_parity_taken (takenRecord_eq s (by decide)) f, rfl, rfl⟩

/-! ### Sources that merge (16 R380) -/

section Merge

variable {record : Word32} {code lvl : Nat} {wd ue : Option Word32} {s : State}

/-- A reset that a further source of a pin has joined, with what BKP[2] records of it. -/
def mergedWith (record : Word32) (code lvl : Nat) (pin : Bool) (wd ue : Option Word32) (s : State) : State :=
  let l := max s.rst.level lvl
  let src := s.rst.sources ||| srcBit code
  let early := beforeD1 s
  let s := wiped l false (setBkp 2 record s)
  let r := withInfo wd ue { s.rst with sources := src, level := l,
                                       first := if s.rst.began = s.cc then min s.rst.first code else s.rst.first }
  if early then { s with rst := { r with phase := if pin then .asserted else r.phase, pin := r.pin || pin } }
  else { s with rst := { r with phase := .asserted, since := s.cc, pin := pin, step := 0, groups := 0 } }

/-- BKP[2] as mergeReset writes it. -/
def mergedRecord (code : Nat) (s : State) : Word32 :=
  resetRecord (fieldOf (bkpOf 2 s).toNat 24 8) (s.rst.sources ||| srcBit code) (bkpOf 2 s).toNat

theorem mergeReset_eq (pin : Bool) : mergeReset code lvl pin wd ue s
    = mergedWith (mergedRecord code s) code lvl pin wd ue s := by
  unfold mergeReset mergedWith mergedRecord
  rfl

/-- What a source of a pin that merges leaves, whether the assertion starts again or not. -/
theorem mergedWith_fields (hlvl : lvl = 3) : let v := mergedWith record code lvl true wd ue s
    v.rst.sources = s.rst.sources ||| srcBit code
    ∧ v.rst.first = (if s.rst.began = s.cc then min s.rst.first code else s.rst.first)
    ∧ v.rst.level = max s.rst.level lvl ∧ v.hdr = [] ∧ v.regs = [] ∧ v.win = [] ∧ v.rst.rmem = []
    ∧ v.pwr.wakeStat = 0 := by
  have hdeep : max s.rst.level lvl ≠ 2 := by omega
  have hwin : (if max s.rst.level lvl = 2 then s.win.filter levelByte else []) = [] := if_neg hdeep
  have hrmem : (if keepsClass (max s.rst.level lvl) false 7 then s.rst.rmem else []) = [] :=
    if_neg (by simp [keepsClass_iff, hdeep])
  intro v
  unfold v mergedWith
  cases beforeD1 s
  · exact ⟨rfl, rfl, rfl, rfl, rfl, hwin, hrmem, rfl⟩
  · exact ⟨rfl, rfl, rfl, rfl, rfl, hwin, hrmem, rfl⟩

theorem beforeD1_iff (h : s.rst.phase ≠ .done) :
    beforeD1 s = true ↔ s.rst.phase = .asserted ∨ s.rst.step = 0 := by
  cases hphase : s.rst.phase <;> simp_all [beforeD1]

theorem mergedWith_early (h : beforeD1 s = true) : let v := mergedWith record code lvl true wd ue s
    v.rst.phase = .asserted ∧ v.rst.pin = true ∧ v.rst.since = s.rst.since ∧ v.rst.step = s.rst.step := by
  intro v
  unfold v mergedWith
  simp only [h]
  exact ⟨rfl, Bool.or_true _, rfl, rfl⟩

theorem mergedWith_late (h : beforeD1 s = false) : let v := mergedWith record code lvl true wd ue s
    v.rst.phase = .asserted ∧ v.rst.since = s.cc ∧ v.rst.step = 0 ∧ v.rst.groups = 0 := by
  intro v
  unfold v mergedWith
  simp only [h]
  exact ⟨rfl, rfl, rfl, rfl⟩

end Merge

theorem resetSourcesMerge : Claims.ResetSourcesMerge := by
  intro s hphase hpow hfuse woke
  let z : State := { s with rst := { s.rst with sources := s.rst.sources &&& ~~~(srcBit 7), first := 1 },
                            pwr := { s.pwr with wakeStat := 0 } }
  have hidle : resetIdle s = false := by simp [resetIdle, hphase]
  have hwoke : wokeNow s = true ↔ woke := by simp [wokeNow, hidle, woke]
  have hreset : sysReset s = if wokeNow s then mergedWith (mergedRecord 1 z) 1 3 true none none z
      else mergedWith (mergedRecord 1 s) 1 3 true none none s := by
    have hthree : fuseLevel 0 s = 3 := by rw [fuseLevel_eq, if_pos (.inr hfuse)]
    have htake : takeReset 1 3 true none none s = mergeReset 1 3 true none none s := if_neg (by simp [hidle])
    rw [sysReset, if_pos hpow, hthree, htake, mergeReset_eq, mergeReset_eq]
  refine ⟨sysReset s, rfl, ?_⟩
  rw [hreset]
  by_cases hw : woke
  · rw [if_pos (hwoke.mpr hw)]
    obtain ⟨hsources, hfirst, hlevel, hhdr, hregs, hwin, hrmem, hwake⟩ :=
      mergedWith_fields (code := 1) (wd := none) (ue := none) (s := z) (lvl := 3) rfl
    refine ⟨fun hn => absurd hw hn, fun _ => ⟨hsources, ?_, hwake⟩, hlevel, hhdr, hregs, hwin, hrmem,
      fun hearly => mergedWith_early (s := z) ((beforeD1_iff (s := z) hphase).mpr hearly),
      fun hrel hstep => mergedWith_late (s := z) ?_⟩
    · rw [hfirst]
      exact ite_self _
    · exact Bool.eq_false_iff.mpr fun h => ((beforeD1_iff (s := z) hphase).mp h).elim
        (fun h => absurd (h.symm.trans hrel) (by decide)) hstep
  · rw [if_neg fun h => hw (hwoke.mp h)]
    obtain ⟨hsources, hfirst, hlevel, hhdr, hregs, hwin, hrmem, -⟩ :=
      mergedWith_fields (code := 1) (wd := none) (ue := none) (s := s) (lvl := 3) rfl
    refine ⟨fun _ => ⟨hsources, fun hcc => hfirst.trans (if_neg hcc), fun hcc => hfirst.trans (if_pos hcc)⟩,
      fun h => absurd h hw, hlevel, hhdr, hregs, hwin, hrmem,
      fun hearly => mergedWith_early ((beforeD1_iff hphase).mpr hearly), fun hrel hstep => mergedWith_late ?_⟩
    exact Bool.eq_false_iff.mpr fun h => ((beforeD1_iff hphase).mp h).elim
      (fun h => absurd (h.symm.trans hrel) (by decide)) hstep

/-- Settles O14: power-on, the sources taken, and those that merge. -/
theorem resetsTaken : Obligations.ResetsTaken := ⟨powerOnReset, resetSourcesTaken, resetSourcesMerge⟩

end Sys2Proof.Machine
end

section
/-!
The release begins and goes on domain by domain (O15; 16 R382 to R385, Table 16.3).
-/

namespace Sys2Proof.Machine

/-! ### The release begins (16 R382) -/

theorem resetRelease_over {boot clk peer : BitVec 2} {fuses : Byte} {s : State} (hphase : s.rst.phase = .asserted)
    (hover : s.rst.pin = true ∨ s.rst.since + 64 ≤ s.cc) :
    exec (.resetRelease boot clk peer fuses) s = .next (settle (beginRelease boot clk peer fuses s)) :=
  congrArg fin (if_pos (by simp [assertionOver, hphase, hover]))

/-- An error of one page leaves the header of another. -/
theorem hdrOf_raiseErr_other {p q : Page} (code info : Nat) (s : State) (h : pageNum q ≠ pageNum p) :
    hdrOf q (raiseErr p code info s) = hdrOf q s := by
  obtain ⟨_, hset⟩ := raiseErr_eq p code info s
  rw [hset, hdrOf_setHdr_other _ _ h]

theorem errCode_raiseErr_first {p : Page} {code info : Nat} {s : State} (h : (hdrOf p s).errCode = 0) :
    (hdrOf p (raiseErr p code info s)).errCode = BitVec.ofNat 16 code := by
  rw [raiseErr, if_pos (show _ = _ from h), hdrOf_setHdr_same]

theorem sampleStraps_valid {boot clk peer : BitVec 2} {s : State} (hboot : boot ≠ 3) (hpeer : peer ≠ 3) :
    sampleStraps boot clk peer s
    = { s with pins := { s.pins with strapBoot := boot, strapClk := clk, strapPeer := peer } } :=
  if_neg fun h => h.elim hboot hpeer

/-- A reserved strap value touches GLB's error latch alone. -/
theorem sampleStraps_reserved {boot clk peer : BitVec 2} {s : State} (h : boot = 3 ∨ peer = 3) :
    (sampleStraps boot clk peer s).rst = s.rst
    ∧ (sampleStraps boot clk peer s).pins = { s.pins with strapBoot := boot, strapClk := clk, strapPeer := peer }
    ∧ ((hdrOf .glb s).errCode = 0 → (hdrOf .glb (sampleStraps boot clk peer s)).errCode = 5) := by
  rw [sampleStraps, if_pos h]
  exact ⟨raiseErr_keeps State.rst (fun _ _ _ => rfl) .., raiseErr_keeps State.pins (fun _ _ _ => rfl) ..,
    fun hnone => errCode_raiseErr_first (s := { s with pins := _ }) hnone⟩

/-- The fuses are sensed: FUSE_MAP and its parity stand in RST, and GLB's error latch stays. -/
theorem senseFuses_fields (fuses : Byte) (s : State) :
    (senseFuses fuses s).rst = { s.rst with fuses := fuses, parOk := fusesOdd fuses,
                                            fuseBad := s.rst.fuseBad || (s.rst.parReset && !fusesOdd fuses) }
    ∧ (senseFuses fuses s).pins = s.pins ∧ hdrOf .glb (senseFuses fuses s) = hdrOf .glb s := by
  unfold senseFuses
  cases s.rst.parReset && !fusesOdd fuses
  · exact ⟨rfl, rfl, rfl⟩
  · exact ⟨raiseErr_keeps State.rst (fun _ _ _ => rfl) .., raiseErr_keeps State.pins (fun _ _ _ => rfl) ..,
      hdrOf_raiseErr_other _ _ _ (by decide)⟩

theorem releaseBegins : Claims.ReleaseBegins := by
  intro boot clk peer fuses s hphase hover bad r u w pins
  rw [resetRelease_over hphase hover, beginRelease]
  refine ⟨fun hpin => ?_, fun hpin hboot hpeer => ?_, fun hpin hstrap => ⟨_, rfl, ?_⟩⟩
  · rw [hpin]
    rfl
  · rw [hpin, if_pos rfl, sampleStraps_valid hboot hpeer]
    rfl
  · rw [hpin, if_pos rfl]
    obtain ⟨hfuses, hpins, hglb⟩ := senseFuses_fields fuses (sampleStraps boot clk peer
      { s with rst := { s.rst with phase := .releasing, since := s.cc, pin := false, step := 0, groups := 0 } })
    obtain ⟨hrst, hstraps, herr⟩ := sampleStraps_reserved (clk := clk) (s :=
      { s with rst := { s.rst with phase := .releasing, since := s.cc, pin := false, step := 0, groups := 0 } }) hstrap
    rw [hfuses, hpins, hglb, hrst]
    exact ⟨rfl, hstraps, herr⟩

/-! ### Domain by domain (16 Table 16.3) -/

section Domains

variable {s : State} (hphase : s.rst.phase = .releasing)
include hphase

omit hphase in
theorem domainRelease_early {n : Nat} (hoffset : nextOffset s = n) (hearly : s.cc < s.rst.since + n) :
    exec .domainRelease s = .next (settle s) :=
  congrArg fin (if_neg fun h => by omega)

theorem domainRelease_due {n : Nat} (hoffset : nextOffset s = n) (hdue : s.rst.since + n ≤ s.cc) :
    exec .domainRelease s = .next (settle (releaseNextDomain s)) :=
  congrArg fin (if_pos ⟨hphase, by omega⟩)

end Domains

theorem nextOffset_step {s : State} {k : Nat} (hstep : s.rst.step = k) (hk : k ≠ 3) :
    nextOffset s = stepOffset (k + 1) := by
  simp [nextOffset, hstep, hk]

theorem nextOffset_group {s : State} (hstep : s.rst.step = 3) (hgroup : s.rst.groups < 8) :
    nextOffset s = 976 + 4096 * s.rst.groups := if_pos ⟨hstep, hgroup⟩

theorem releaseNextDomain_step {s : State} {k : Nat} (hstep : s.rst.step = k) (h3 : k ≠ 3) (h8 : k ≠ 8) :
    releaseNextDomain s = releaseStep (k + 1) s := by
  simp [releaseNextDomain, hstep, h3, h8]

theorem releaseNextDomain_group {s : State} (hstep : s.rst.step = 3) (hgroup : s.rst.groups < 8) :
    releaseNextDomain s = if s.rst.groups = 7 then { releaseGroup s.rst.groups s with
        rst := { (releaseGroup s.rst.groups s).rst with step := 4 } } else releaseGroup s.rst.groups s :=
  if_pos ⟨hstep, hgroup⟩

/-- A fold over the numbers below n that sets one thing per number, from what every step keeps. -/
theorem foldl_range_sets {α β : Type} {keep : State → β} {read : Nat → State → α} {val : β → Nat → α}
    {g : State → Nat → State} (hkeep : ∀ t p, keep (g t p) = keep t) (hsame : ∀ t p, read p (g t p) = val (keep t) p)
    (hother : ∀ t p q, q ≠ p → read q (g t p) = read q t) {n k : Nat} (hk : k < n) (s : State) :
    read k ((List.range n).foldl g s) = val (keep s) k := by
  induction n with
  | zero => omega
  | succ n ih =>
    rw [List.range_succ, List.foldl_append, List.foldl_cons, List.foldl_nil]
    rcases Nat.lt_succ_iff_lt_or_eq.mp hk with hlt | rfl
    · rw [hother _ _ _ (by omega), ih hlt]
    · rw [hsame, foldl_keeps keep hkeep]

/-! #### D1: the fabric ports (02 R39) -/

theorem fabUp_port {p : Nat} (hp : p < 4) (s : State) :
    fabOf p (fabUp s) = { live := true, begun := s.pins.fabIdle.getLsbD p } :=
  foldl_range_sets (keep := fun s => s.pins.fabIdle) (read := fabOf)
    (val := fun idle p => { live := true, begun := idle.getLsbD p })
    (g := fun s p => setFab p { live := true, begun := s.pins.fabIdle.getLsbD p } s) (fun _ _ => rfl)
    (fun _ _ => fabOf_setFab_same ..) (fun _ _ _ h => fabOf_setFab_other _ _ h) hp s

/-- Only the fabric ports change. -/
theorem fabUp_eq (s : State) : ∃ m, fabUp s = { s with fab := m } :=
  List.foldlRecOn (motive := fun u : State => ∃ m : SMap FabPort, u = { s with fab := m }) (List.range 4) _
    ⟨s.fab, rfl⟩ fun u ⟨m, hu⟩ p _ => by
      subst hu
      exact ⟨_, rfl⟩

theorem releaseD1_alone {s : State} (hstrap : peerStrapped s = false) :
    releaseD1 s = fabUp { s with peer.watched := s.cc } := by
  have hkept : peerStrapped (fabUp { s with peer.watched := s.cc }) = false :=
    (foldl_keeps peerStrapped (fun _ _ => by rfl) ..).trans hstrap
  rw [releaseD1, hkept]
  rfl

/-! #### The PHY groups (08 R175) -/

theorem releaseGroup_rst (g : Nat) (s : State) : (releaseGroup g s).rst = { s.rst with groups := g + 1 } := by
  have hzq (due : Nat) (u : State) : (modGroup g (fun x => { x with zqDue := due }) u).rst = u.rst := rfl
  have htrims : ((List.range 16).foldl (fun s i => takeTrim (16 * g + i) s) { s with rst.groups := g + 1 }).rst
      = { s.rst with groups := g + 1 } := foldl_keeps State.rst (fun _ _ => by rfl) ..
  rw [releaseGroup, apply_ite State.rst, hzq, ite_self, htrims]

/-! #### D7: the rail states (13 R316) -/

/-- The state of a group that PWR takes from rail_en and rail_pgood. -/
def railOfPins (p : Pins) (g : Nat) : RailState :=
  if !p.railEn.getLsbD g then .off else if p.railPgood.getLsbD g then .on else .ramp

theorem adoptRails_rail {g : Nat} (hg : g < 8) (s : State) :
    (groupOf g ((List.range 8).foldl (fun s g => adoptRail g s) s)).rail = railOfPins s.pins g :=
  foldl_range_sets (keep := State.pins) (read := fun g s => (groupOf g s).rail) (val := railOfPins)
    (g := fun s g => adoptRail g s) (fun _ _ => rfl)
    (fun _ _ => congrArg Group.rail (groupOf_setGroup_same ..))
    (fun _ _ _ h => congrArg Group.rail (groupOf_setGroup_other _ _ h)) hg s

/-- D7 while pfail_warn is low: beside the rails only a wake is reported. -/
theorem releaseD7_low {s : State} (hlow : s.pins.pfailWarn = false) {α : Type} (f : State → α)
    (hh : ∀ m u, f { u with hdr := m } = f u) (hp : ∀ p u, f { u with pins := p } = f u)
    (hfree : ∀ n u, f { u with free := n } = f u) :
    f (releaseD7 s) = f ((List.range 8).foldl (fun s g => adoptRail g s) s) := by
  let u := (List.range 8).foldl (fun s g => adoptRail g s) s
  let w := if bitAt u.pwr.wakeStat.toNat 63 then raiseEvt .pwr 10 u else u
  have hw : f w = f u := by
    unfold w
    split
    · exact raiseEvt_keeps f (fun _ _ _ => hh ..) ..
    · rfl
  have hpins : w.pins = s.pins := by
    have hu : u.pins = s.pins := foldl_keeps State.pins (fun _ _ => by rfl) ..
    rw [← hu]
    unfold w
    split
    · exact raiseEvt_keeps State.pins (fun _ _ _ => rfl) ..
    · rfl
  have hhigh : pfailHigh w = false := by rw [pfailHigh, hpins, hlow, Bool.false_and]
  have hseven : releaseD7 s = { (if w.pins.pfailFell then takeFree w else w) with pins.pfailWarn := false } := by
    change (if pfailHigh w && pfCan _ then _ else ({ (if w.pins.pfailFell then takeFree w else w) with
      pins.pfailWarn := pfailHigh w } : State)) = _
    rw [hhigh, Bool.false_and, if_neg (by decide)]
  rw [hseven, hp]
  split
  · exact (hfree _ _).trans hw
  · exact hw

theorem domainsReleasedInOrder : Claims.DomainsReleasedInOrder := by
  intro s hphase at_
  refine ⟨fun p hp hstep hdue => ?_, fun p hp hstep hearly => ?_, fun hstep hgroup hearly => ?_,
    fun hstep hstrap hdue => ?_, fun hstep hgroup hdue => ?_, fun hstep hlow hdue => ?_, fun hstep hdue => ?_,
    fun hstep hdue => ?_⟩
  · have hone : nextOffset s = p.2 ∧ releaseNextDomain s = at_ (p.1 + 1) := by
      simp only [List.mem_cons, List.not_mem_nil, or_false] at hp
      rcases hp with rfl | rfl | rfl | rfl
      all_goals exact ⟨nextOffset_step hstep (by decide), releaseNextDomain_step hstep (by decide) (by decide)⟩
    rw [domainRelease_due hphase hone.1 hdue, hone.2]
  · refine domainRelease_early ?_ hearly
    simp only [List.mem_cons, List.not_mem_nil, or_false] at hp
    rcases hp with rfl | rfl | rfl | rfl | rfl | rfl | rfl | rfl
    all_goals exact nextOffset_step hstep (by decide)
  · exact domainRelease_early (nextOffset_group hstep hgroup) (by omega)
  · have hone : releaseNextDomain s = fabUp { at_ 1 with peer.watched := s.cc } :=
      (releaseNextDomain_step hstep (by decide) (by decide)).trans (releaseD1_alone (s := at_ 1) hstrap)
    refine ⟨_, domainRelease_due hphase (nextOffset_step hstep (by decide)) hdue, ?_⟩
    rw [hone]
    have hports (p : Nat) (hp : p < 4) := fabUp_port hp { at_ 1 with peer.watched := s.cc }
    obtain ⟨m, hm⟩ := fabUp_eq { at_ 1 with peer.watched := s.cc }
    rw [hm] at hports ⊢
    exact ⟨rfl, rfl, rfl, hports⟩
  · refine ⟨_, domainRelease_due hphase (nextOffset_group hstep hgroup) (by omega), ?_⟩
    rw [releaseNextDomain_group hstep hgroup]
    split
    · exact ⟨congrArg Rst.groups (releaseGroup_rst ..), rfl⟩
    · exact ⟨congrArg Rst.groups (releaseGroup_rst ..), (congrArg Rst.step (releaseGroup_rst ..)).trans hstep⟩
  · have hseven : releaseNextDomain s = releaseD7 (at_ 7) := releaseNextDomain_step hstep (by decide) (by decide)
    refine ⟨_, domainRelease_due hphase (nextOffset_step hstep (by decide)) hdue, ?_⟩
    rw [hseven]
    refine ⟨(releaseD7_low (s := at_ 7) hlow State.rst (fun _ _ => rfl) (fun _ _ => rfl) fun _ _ => rfl).trans
      (foldl_keeps State.rst (fun _ _ => by rfl) ..), fun g hg => ?_⟩
    rw [releaseD7_low (s := at_ 7) hlow (fun u => (groupOf g u).rail) (fun _ _ => rfl) (fun _ _ => rfl) fun _ _ => rfl,
      adoptRails_rail hg, railOfPins]
    simp
    rfl
  · have height : releaseNextDomain s = releaseD8 (at_ 8) := releaseNextDomain_step hstep (by decide) (by decide)
    rw [domainRelease_due hphase (nextOffset_step hstep (by decide)) hdue, height, releaseD8]
    have hpower : bitAt (at_ 8).rst.sources.toNat 0 = s.rst.sources.getLsbD 0 := rfl
    rw [hpower]
    exact ⟨fun h => by rw [if_pos h], fun h => by rw [h, if_neg (by decide)]⟩
  · have hdone : releaseNextDomain s = releaseDone s := by simp [releaseNextDomain, hstep]
    rw [domainRelease_due hphase (nextOffset_step hstep (by decide)) hdue, hdone]
    rfl

/-- Settles O15: the release begins, and goes on domain by domain. -/
theorem releaseInOrder : Obligations.ReleaseInOrder := ⟨releaseBegins, domainsReleasedInOrder⟩

end Sys2Proof.Machine
end

section
/-!
An event that does not complete as the statement on their effects has it (O58; 08 R173, 11 R277).
-/

namespace Sys2Proof.Machine

/-- Refutes O58: by its clause on DIE_TIMEOUT the one tag of a sense that times out commits DIE_QUARANTINED, in every
state. In rebuildOnSensingDie the tag is a READ whose rebuild has a member on the die that senses for it: the quarantine
ends the rebuild (11 R277) before it fails the operation, and the READ, with no codeword left, has committed OK. -/
theorem not_eventsComplete : ¬ Obligations.EventsComplete := by
  intro h
  obtain ⟨-, -, -, -, -, -, -, htimeout, -⟩ := h.1 0 rebuildOnSensingDie
  obtain ⟨htimed, hrun, hissued⟩ := rebuildOnSensingDie_timesOut
  have hopen : tagOpen 0 rebuildOnSensingDie = true := by
    rw [tagOpen, hissued]
    decide
  obtain ⟨v, hexec, -, hstatus⟩ := htimeout foreignSense 0 htimed hrun rfl (.inr (.inr rfl)) (by decide) hopen
  have hsettle : settle (dieTimeout 0 rebuildOnSensingDie) = settle v := Host.Outcome.next.inj hexec
  have htag : tagOf 0 (dieTimeout 0 rebuildOnSensingDie) = tagOf 0 v := by
    rw [← tagOf_settle 0 (dieTimeout 0 rebuildOnSensingDie), hsettle, tagOf_settle]
  have hok : stOk = 0x30 := by
    rw [← rebuildOnSensingDie_commitsOk, htag]
    exact hstatus
  exact absurd hok (by decide)

end Sys2Proof.Machine
end

section
/-!
A journal page and a map copy read back as they were written (O24; 14 R344, R350, R352).
-/

namespace Sys2Proof.Machine

/-! ### Records of one size, one after another -/

theorem length_flatMap_records {α : Type} {f : α → List Byte} {n : Nat} (h : ∀ a, (f a).length = n) (l : List α) :
    (l.flatMap f).length = n * l.length := by
  induction l with
  | nil => rfl
  | cons a r ih => rw [List.flatMap_cons, List.length_append, h, ih, List.length_cons, Nat.mul_succ, Nat.add_comm]

/-- Record i of the records of the numbers below m. -/
theorem flatMap_range_record {f : Nat → List Byte} {i m : Nat} (hi : i < m) :
    ∃ back, (List.range m).flatMap f = (List.range i).flatMap f ++ (f i ++ back) := by
  obtain ⟨k, rfl⟩ : ∃ k, m = i + (k + 1) := ⟨m - i - 1, by omega⟩
  rw [List.range_add, List.flatMap_append, List.range_succ_eq_map]
  exact ⟨_, by rw [List.map_cons, List.flatMap_cons, Nat.add_zero]⟩

/-- The words that were written, little-endian, are those read. -/
theorem wordsOf_flatMap_leBytes (l : List Word32) : wordsOf (l.flatMap fun w => leBytes 4 w.toNat) = l := by
  induction l with
  | nil => rfl
  | cons w r ih =>
    have hlen : (leBytes 4 w.toNat ++ r.flatMap fun w => leBytes 4 w.toNat).length / 4
        = (r.flatMap fun w => leBytes 4 w.toNat).length / 4 + 1 := by
      rw [List.length_append, length_leBytes]
      omega
    rw [List.flatMap_cons, wordsOf, hlen, List.range_succ_eq_map, List.map_cons, leWord_append_zero,
      BitVec.ofNat_toNat, BitVec.setWidth_eq, List.map_map]
    refine congrArg (w :: ·) (Eq.trans ?_ ih)
    exact List.map_congr_left fun n _ => leWord_append_succ ..

/-! ### A journal page (14 Table 14.6) -/

section JournalPage

variable (p : JPage) (f : Word32) (cut : Bool)

theorem length_confirmBytes (k : Nat) : (confirmBytes p k).length = 16 := by
  rw [confirmBytes]
  split <;> simp

theorem length_intentBytes (i : Nat) : (intentBytes p i).length = 8 := by
  rw [intentBytes]
  split <;> simp

theorem length_jpageBody : (jpageBody p f cut).length = 1020 := by
  simp only [jpageBody, List.length_append, length_leBytes, length_flatMap_records (length_confirmBytes p),
    length_flatMap_records (length_intentBytes p), List.length_range]

/-- A page begins with its tag, SEQ and the number of its intents. -/
theorem jpageBytes_head : ∃ back, jpageBytes p f cut = leBytes 4 (if p.lastWords then 0x4452574C else 0x544E4945)
    ++ (leBytes 4 p.seq.toNat ++ (leBytes 2 p.intents.length ++ back)) := by
  simp only [jpageBytes, jpageBody, List.append_assoc]
  exact ⟨_, rfl⟩

/-- The intents stand behind 80 bytes. -/
theorem jpageBytes_intents : ∃ front back, front.length = 80
    ∧ jpageBytes p f cut = front ++ ((List.range 64).flatMap (intentBytes p) ++ back) := by
  let front := leBytes 4 (if p.lastWords then 0x4452574C else 0x544E4945) ++ leBytes 4 p.seq.toNat
    ++ leBytes 2 p.intents.length ++ leBytes 6 0 ++ (List.range 4).flatMap (confirmBytes p)
  have hfront : front.length = 80 := by
    simp only [front, List.length_append, length_leBytes, length_flatMap_records (length_confirmBytes p),
      List.length_range]
  have hpage : ∃ back, jpageBytes p f cut = front ++ ((List.range 64).flatMap (intentBytes p) ++ back) := by
    simp only [front, jpageBytes, jpageBody, List.append_assoc]
    exact ⟨_, rfl⟩
  exact hpage.elim fun back hback => ⟨front, back, hfront, hback⟩

/-- Intent i stands behind the intents before it. -/
theorem jpageBytes_intent {i : Nat} (hi : i < 64) : ∃ front back, front.length = 80 + 8 * i
    ∧ jpageBytes p f cut = front ++ (intentBytes p i ++ back) := by
  obtain ⟨front, back, hfront, hpage⟩ := jpageBytes_intents p f cut
  obtain ⟨tail, htail⟩ := flatMap_range_record (f := intentBytes p) hi
  refine ⟨front ++ (List.range i).flatMap (intentBytes p), tail ++ back, ?_, ?_⟩
  · rw [List.length_append, hfront, length_flatMap_records (length_intentBytes p), List.length_range]
  · rw [hpage, htail]
    simp only [List.append_assoc]

theorem jpageGood_jpageBytes : jpageGood (jpageBytes p f cut) = true := by
  have htag : leNat ((jpageBytes p f cut).take 4) = if p.lastWords then 0x4452574C else 0x544E4945 := by
    obtain ⟨back, hback⟩ := jpageBytes_head p f cut
    rw [hback, List.take_left' (length_leBytes ..), leNat_leBytes]
    split <;> rfl
  have hcrc : leNat (((jpageBytes p f cut).drop 1020).take 4) = (crc32c (jpageBody p f cut)).toNat := by
    rw [jpageBytes, List.drop_left' (length_jpageBody ..), List.take_of_length_le (by simp), leNat_leBytes]
    exact Nat.mod_eq_of_lt (crc32c _).isLt
  have hbody : (jpageBytes p f cut).take 1020 = jpageBody p f cut := List.take_left' (length_jpageBody ..)
  rw [jpageGood, htag, hcrc, hbody]
  cases p.lastWords <;> simp

theorem jpageSeq_jpageBytes : jpageSeq (jpageBytes p f cut) = p.seq := by
  obtain ⟨back, hback⟩ := jpageBytes_head p f cut
  rw [jpageSeq, hback, leWord_append_succ, leWord_append_zero, BitVec.ofNat_toNat, BitVec.setWidth_eq]

theorem jpageCount_jpageBytes (hcount : p.intents.length ≤ 64) :
    jpageCount (jpageBytes p f cut) = p.intents.length := by
  obtain ⟨back, hback⟩ := jpageBytes_head p f cut
  rw [jpageCount, hback, ← List.append_assoc, field_append 2 _ _ (by simp)]
  omega

/-- The first word of an intent's record holds its die, plane mask and block. -/
theorem intentBytes_word {i : Nat} {x : Intent} (hx : p.intents[i]? = some x) (hdie : x.die < 4096)
    (hplanes : x.planes < 16) (hblock : x.block < 16384) : ∃ w back, intentBytes p i = leBytes 4 w ++ back ∧ w < 2 ^ 32
      ∧ fieldOf w 20 12 = x.die ∧ fieldOf w 16 4 = x.planes ∧ fieldOf w 0 14 = x.block := by
  have hslc : bit x.slc ≤ 1 := by cases x.slc <;> decide
  rw [intentBytes, hx]
  refine ⟨_, _, rfl, ?_⟩
  simp only [fieldAt, fieldOf, Nat.mod_eq_of_lt hdie, Nat.mod_eq_of_lt hplanes, Nat.mod_eq_of_lt hblock]
  omega

theorem pageIntents_jpageBytes (hcount : p.intents.length ≤ 64)
    (hrange : ∀ i ∈ p.intents, i.die < 4096 ∧ i.planes < 16 ∧ i.block < 16384) :
    pageIntents (jpageBytes p f cut) = p.intents.map fun i => (i.die, i.planes, i.block) := by
  rw [pageIntents, jpageCount_jpageBytes p f cut hcount]
  refine List.ext_getElem (by simp) fun i hi _ => ?_
  rw [List.length_map, List.length_range] at hi
  obtain ⟨hdie, hplanes, hblock⟩ := hrange _ (List.getElem_mem hi)
  obtain ⟨w, tail, hword, hlt, hd, hp, hb⟩ :=
    intentBytes_word p (List.getElem?_eq_getElem hi) hdie hplanes hblock
  obtain ⟨front, back, hfront, hpage⟩ := jpageBytes_intent p f cut (show i < 64 by omega)
  have hread : leNat (((jpageBytes p f cut).drop (80 + 8 * i)).take 4) = w := by
    rw [hpage, hword, List.append_assoc, field_append 4 w _ hfront]
    exact Nat.mod_eq_of_lt hlt
  simp only [List.getElem_map, List.getElem_range, hread, hd, hp, hb]

end JournalPage

theorem journalPageReadsBack : Claims.JournalPageReadsBack := fun p f cut hcount hrange =>
  ⟨jpageGood_jpageBytes p f cut, by rw [jpageBytes, List.length_append, length_jpageBody, length_leBytes],
    jpageSeq_jpageBytes p f cut, jpageCount_jpageBytes p f cut hcount, pageIntents_jpageBytes p f cut hcount hrange⟩

/-! ### A map copy (14 Table 14.4) -/

section MapCopy

variable (k : Nat) (gen : Word32) (l : List Word32)

/-- The entries of a copy stand behind 64 bytes. -/
theorem drop_copyImage : (copyImage k gen l).drop 64 = l.flatMap fun w => leBytes 4 w.toNat :=
  List.drop_left' (by simp)

theorem length_entryBytes : (l.flatMap fun w => leBytes 4 w.toNat).length = 4 * l.length :=
  length_flatMap_records (fun w => length_leBytes 4 w.toNat) l

/-- A copy begins with its tag, the generation and LENGTH. -/
theorem copyImage_head : ∃ back, copyImage k gen l = leBytes 4 0x4350414D ++ (leBytes 4 gen.toNat
    ++ (leBytes 4 (4 * l.length) ++ back)) := by
  simp only [copyImage, List.append_assoc]
  exact ⟨_, rfl⟩

/-- Behind 16 bytes stand the copy's number and 47 zero bytes. -/
theorem copyImage_number : ∃ front back, front.length = 16
    ∧ copyImage k gen l = front ++ (leBytes 1 k ++ (leBytes 47 0 ++ back)) := by
  let head := leBytes 4 0x4350414D ++ leBytes 4 gen.toNat ++ leBytes 4 (4 * l.length)
  let entries := l.flatMap fun w => leBytes 4 w.toNat
  refine ⟨head ++ leBytes 4 (crc32c (head ++ entries)).toNat, entries, ?_, ?_⟩
  · simp only [head, List.length_append, length_leBytes]
  · simp only [copyImage, head, entries, List.append_assoc]

theorem copyHeader_copyImage (hk : k < 3) (hlen : l.length ≤ 253952) :
    copyHeader k (copyImage k gen l) = some (4 * l.length) := by
  obtain ⟨rest, hhead⟩ := copyImage_head k gen l
  obtain ⟨front, back, hfront, hnumber⟩ := copyImage_number k gen l
  have htag : leNat ((copyImage k gen l).take 4) = 0x4350414D := by
    rw [hhead, List.take_left' (length_leBytes ..), leNat_leBytes]
    rfl
  have hsize : leNat (((copyImage k gen l).drop 8).take 4) = 4 * l.length := by
    rw [hhead, ← List.append_assoc, field_append 4 _ _ (by simp)]
    omega
  have hcopy : leNat (((copyImage k gen l).drop 16).take 1) = k := by
    rw [hnumber, field_append 1 _ _ hfront]
    omega
  have hzero : leNat (((copyImage k gen l).drop 17).take 47) = 0 := by
    rw [hnumber, ← List.append_assoc, field_append 47 _ _ (by simp [hfront]), Nat.zero_mod]
  rw [copyHeader]
  simp only [htag, hsize, hcopy, hzero]
  exact if_pos ⟨trivial, by omega, by omega, trivial, trivial⟩

theorem generation_copyImage : leWord (copyImage k gen l) 1 = gen := by
  obtain ⟨rest, hhead⟩ := copyImage_head k gen l
  rw [hhead, leWord_append_succ, leWord_append_zero, BitVec.ofNat_toNat, BitVec.setWidth_eq]

end MapCopy

theorem mapCopyReadsBack : Claims.MapCopyReadsBack := by
  intro k gen l hk hlen b
  have hentries : (b.drop 64).take (4 * l.length) = l.flatMap fun w => leBytes 4 w.toNat := by
    rw [drop_copyImage, List.take_of_length_le (length_entryBytes l).le]
  have hcrc : crc32c (b.take 12 ++ l.flatMap fun w => leBytes 4 w.toNat) = leWord b 3 := by
    rw [leWord, copyImage_crc, drop_copyImage, BitVec.ofNat_toNat, BitVec.setWidth_eq]
  rw [hentries]
  exact ⟨copyHeader_copyImage k gen l hk hlen, generation_copyImage k gen l, wordsOf_flatMap_leBytes l, hcrc⟩

/-- Settles O24: a journal page and a map copy, field by field. -/
theorem journalAndMapReadBack : Obligations.JournalAndMapReadBack := ⟨journalPageReadsBack, mapCopyReadsBack⟩

end Sys2Proof.Machine
end

section
/-!
A JRNL_INIT that the statement on the commands of MAP gets wrong (O19; 14 R347, 17 R393).
-/

namespace Sys2Proof.Machine

/-- MAP, LVL and GLB are enabled and the journal is placed on dies 0 and 512. Job 1 erases a block of the journal, a
valley has been found for its id, CAL_CFG applies valleys, and the word of the level that the valley moves has one bit
flipped. -/
def valleyOfEraseJob : State :=
  setReg .lvl oLvlCalCfg 0x80000000 (setReg .map (oMapJrnlLoc + 4) (512 * 2 ^ 20) (setValid 5 0
    { State.reset with
      hdr := [(pageNum .glb, { enable := true }), (pageNum .map, { enable := true }), (pageNum .lvl, { enable := true })]
      map := { State.reset.map with roster := [(0, { valid := true, state := .present }),
                                               (512, { valid := true, state := .present })],
                                    jobs := [(1, some (.jrnlErase 0 0))] }
      lvl := { State.reset.lvl with valley := [(1, some { best := some (0, 1) })] }
      mem := { State.reset.mem with
                 upsets := [{ cls := 5, idx := 0, unit := 0, beyond := false, bit_ := 0, mask := 0 }] } }))

/-- JRNL_INIT runs in it. -/
theorem valleyOfEraseJob_runs : pageActive .map valleyOfEraseJob = true ∧ mapBusy valleyOfEraseJob = false
    ∧ jrnlPlaced 0 1 valleyOfEraseJob = true ∧ pageAnswers .map valleyOfEraseJob = true := by decide +kernel

/-- The job is given up, its valley is applied, the word is read, and BKP[0] counts the flipped bit (17 R394). -/
theorem valleyOfEraseJob_countsFlip :
    bkpOf 0 (jrnlInit (dropLatches .map valleyOfEraseJob)) ≠ bkpOf 0 valleyOfEraseJob := by decide +kernel

theorem bkpOf_of_rst {k : Nat} {s u : State} (h : u.rst = s.rst) : bkpOf k u = bkpOf k s := by rw [bkpOf, h, bkpOf]

/-- What the statement says of RST at a JRNL_INIT. -/
theorem jrnlInit_rst_of_claim (hclaim : Claims.RecoverAndJournalInitRun) {s : State} (hactive : pageActive .map s = true)
    (hidle : mapBusy s = false) (hplaced : jrnlPlaced 0 1 s = true) (hanswers : pageAnswers .map s = true) :
    (jrnlInit (dropLatches .map s)).rst = s.rst := by
  obtain ⟨-, hinit⟩ := hclaim s hactive hidle
  obtain ⟨v, hexec, -, -, -, -, -, -, -, -, -, -, -, -, -, hrst⟩ := hinit hplaced
  have hdo : exec .jrnlInit s = .next (settle (csrOk 0 (jrnlInit (dropLatches .map s)))) :=
    congrArg fin (csrDo_answers jrnlInit hanswers)
  have hsame := congrArg State.rst (Host.Outcome.next.inj (hdo.symm.trans hexec))
  rw [settle_rst, settle_rst, csrOk_rst, csrOk_rst] at hsame
  exact hsame.trans hrst

/-- Refutes O19: RecoverAndJournalInitRun has JRNL_INIT leave RST as it is, in every state. JRNL_INIT gives up the jobs
that erase a block of the journal, and the work of a job ends with the valley that stands under its id (11 R271): the
words of the levels that the valley moves are read, and a flipped bit found there counts in BKP, which is RST's. In
valleyOfEraseJob that happens. No run is known to reach it, as an erase has no valley; the statement speaks of every
state. -/
theorem not_mapCommands : ¬ Obligations.MapCommands := by
  intro h
  obtain ⟨-, hjournal, -⟩ := h
  obtain ⟨hactive, hidle, hplaced, hanswers⟩ := valleyOfEraseJob_runs
  exact valleyOfEraseJob_countsFlip (bkpOf_of_rst (jrnlInit_rst_of_claim hjournal hactive hidle hplaced hanswers))

end Sys2Proof.Machine
end

section
/-!
Marks of the working map and writes of the roster (O21; 14 R336, R342).
-/

namespace Sys2Proof.Machine

/-! ### A mark's word (14 Table 14.3) -/

section MarkWord

variable {d plane kind block : Nat} (hd : d < 4096) (hplane : plane < 4) (hkind : kind < 4) (hblock : block < 16384)
include hd hplane hkind hblock

theorem markWord_toNat : (markWord d plane kind block).toNat = d * 2 ^ 20 + plane * 2 ^ 18 + kind * 2 ^ 16 + block := by
  rw [markWord, fieldAt, fieldAt, fieldAt, BitVec.toNat_ofNat, Nat.mod_eq_of_lt hd, Nat.mod_eq_of_lt hplane,
    Nat.mod_eq_of_lt hblock]
  omega

/-- The key does not depend on the kind. -/
theorem markKey_markWord : markKey (markWord d plane kind block) = blockKey d plane block := by
  have hzero := markWord_toNat hd hplane (show 0 < 4 by decide) hblock
  rw [blockKey, markKey, markKey, markWord_toNat hd hplane hkind hblock, hzero]
  simp only [fieldOf, fieldAt]
  omega

theorem markKind_markWord : markKind (markWord d plane kind block) = kind := by
  rw [markKind, fieldOf, markWord_toNat hd hplane hkind hblock]
  omega

end MarkWord

theorem pageAnswers_of_active {p : Page} {s : State} (h : pageActive p s = true) : pageAnswers p s = true := by
  rw [pageActive, Bool.and_eq_true, Bool.and_eq_true] at h
  exact h.1.1

/-! ### A mark is added (14 R342) -/

section AddMark

variable {w : Word32} {s : State}

theorem addMark_new (hold : markIn (markKey w) s.map.marks = none) (hroom : s.map.marks.length < 253952) :
    addMark w s = (placeMark true w s, true) := by
  rw [addMark, hold]
  exact if_pos hroom

theorem addMark_full (hold : markIn (markKey w) s.map.marks = none) (hfull : 253952 ≤ s.map.marks.length) :
    addMark w s = (raiseErr .map 0x0101 w.toNat s, false) := by
  rw [addMark, hold]
  exact if_neg (Nat.not_lt.mpr hfull)

theorem addMark_replaces {o : Word32} (hold : markIn (markKey w) s.map.marks = some o) (hgrown : markKind o = 2)
    (hkind : markKind w = 1) : addMark w s = (placeMark (markIn (markKey w) s.map.disputed).isSome w s, true) := by
  rw [addMark, hold]
  exact if_pos ⟨hgrown, hkind⟩

theorem addMark_there {o : Word32} (hold : markIn (markKey w) s.map.marks = some o)
    (hkind : ¬ (markKind o = 2 ∧ markKind w = 1)) : addMark w s = (s, true) := by
  rw [addMark, hold]
  exact if_neg hkind

end AddMark

section MarkCommand

variable {d plane kind block : Nat} {s : State} (hactive : pageActive .map s = true)
include hactive

/-- MARK_ADD of a mark that is taken. -/
theorem markAdd_taken {u : State} (hadd : addMark (markWord d plane kind block) s = (u, true)) :
    markAdd d plane kind block s = if kind = 2 ∧ (markIn (blockKey d plane block) s.map.marks).isNone = true
      then bump .map 5 (mapAccept u) else mapAccept u := by
  simp only [markAdd, hactive, hadd, Bool.not_true, Bool.false_eq_true, if_false, if_true]

/-- MARK_ADD with the list full. -/
theorem markAdd_refused {u : State} (hadd : addMark (markWord d plane kind block) s = (u, false)) :
    markAdd d plane kind block s = { u with map.lastResult := mapFull } := by
  simp only [markAdd, hactive, hadd, Bool.not_true, Bool.false_eq_true, if_false]

theorem markRemove_none (hold : markIn (blockKey d plane block) s.map.marks = none) :
    markRemove d plane block s = mapAccept s := by
  simp only [markRemove, hactive, hold, Bool.not_true, Bool.false_eq_true, if_false]

theorem markRemove_factory {w : Word32} (hold : markIn (blockKey d plane block) s.map.marks = some w)
    (hkind : markKind w = 1) : markRemove d plane block s = mapRefuse 0xF mapFactory s := by
  simp only [markRemove, hactive, hold, hkind, Bool.not_true, Bool.false_eq_true, if_false, if_true]

/-- The list without the mark of a key. -/
def withoutMark (k : Nat) (l : List Word32) : List Word32 := l.filter fun w => !decide (markKey w = k)

theorem markRemove_grown {w : Word32} (hold : markIn (blockKey d plane block) s.map.marks = some w)
    (hkind : markKind w ≠ 1) : markRemove d plane block s
      = mapAccept (mapChanged <| renewMarks (marksBefore (blockKey d plane block) s / 2) { s with map := { s.map with
          marks := withoutMark (blockKey d plane block) s.map.marks,
          added := withoutMark (blockKey d plane block) s.map.added,
          disputed := withoutMark (blockKey d plane block) s.map.disputed,
          addedAt := SMap.put (fun _ => 0) s.map.addedAt (blockKey d plane block) 0 } }) := by
  simp only [markRemove, hactive, hold, hkind, Bool.not_true, Bool.false_eq_true, if_false]
  rfl

end MarkCommand

theorem markCommands : Claims.MarkCommands := by
  intro d plane block s hactive u word old ok changed added key keep
  have hu : pageActive .map u = true := hactive
  have hdo (act : State → State) : fin (csrDo .map act s) = .next (settle (csrOk 0 (act u))) :=
    congrArg fin (csrDo_answers act (pageAnswers_of_active hactive))
  have hkey (kind : Nat) (hk : kind < 4) : markKey (word kind) = blockKey d.toNat plane.toNat block.toNat :=
    markKey_markWord d.isLt plane.isLt hk block.isLt
  have hkind (kind : Nat) (hk : kind < 4) : markKind (word kind) = kind :=
    markKind_markWord d.isLt plane.isLt hk block.isLt
  have hold {o : Option Word32} (kind : Nat) (hk : kind < 4) (h : old = o) :
      markIn (markKey (word kind)) u.map.marks = o := by rw [hkey kind hk]; exact h
  refine ⟨fun hnone hroom => ⟨?_, ?_⟩, fun hnone hfull => ?_, fun w hw hgrown => ⟨?_, ?_, ?_⟩,
    fun w hw hfactory => ⟨?_, ?_, ?_⟩, fun hnone => ?_⟩
  · refine (hdo (markAdd d.toNat plane.toNat 2 block.toNat)).trans ?_
    rw [markAdd_taken hu (addMark_new (hold 2 (by decide) hnone) hroom), if_pos ⟨rfl, Option.isNone_iff_eq_none.mpr hnone⟩]
    rfl
  · refine (hdo (markAdd d.toNat plane.toNat 1 block.toNat)).trans ?_
    rw [markAdd_taken hu (addMark_new (hold 1 (by decide) hnone) hroom), if_neg fun h => absurd h.1 (by decide)]
    rfl
  · refine (hdo (markAdd d.toNat plane.toNat 2 block.toNat)).trans ?_
    have hmap : (raiseErr .map 0x0101 (word 2).toNat u).map = s.map := raiseErr_keeps State.map (fun _ _ _ => rfl) ..
    rw [markAdd_refused hu (addMark_full (hold 2 (by decide) hnone) hfull), hmap]
    rfl
  · refine (hdo (markAdd d.toNat plane.toNat 2 block.toNat)).trans ?_
    rw [markAdd_taken hu (addMark_there (hold 2 (by decide) hw) fun h => absurd ((hkind 2 (by decide)).symm.trans h.2)
      (by decide)), if_neg fun h => ?_]
    · rfl
    · exact absurd (hw.symm.trans (Option.isNone_iff_eq_none.mp h.2)) (Option.some_ne_none w)
  · refine (hdo (markAdd d.toNat plane.toNat 1 block.toNat)).trans ?_
    rw [markAdd_taken hu (addMark_replaces (hold 1 (by decide) hw) hgrown (hkind 1 (by decide))),
      if_neg fun h => absurd h.1 (by decide)]
    rfl
  · refine (hdo (markRemove d.toNat plane.toNat block.toNat)).trans ?_
    rw [markRemove_grown hu hw (by rw [hgrown]; decide)]
    rfl
  · refine (hdo (markAdd d.toNat plane.toNat 2 block.toNat)).trans ?_
    rw [markAdd_taken hu (addMark_there (hold 2 (by decide) hw) fun h => absurd (hfactory.symm.trans h.1) (by decide)),
      if_neg fun h => ?_]
    · rfl
    · exact absurd (hw.symm.trans (Option.isNone_iff_eq_none.mp h.2)) (Option.some_ne_none w)
  · refine (hdo (markAdd d.toNat plane.toNat 1 block.toNat)).trans ?_
    rw [markAdd_taken hu (addMark_there (hold 1 (by decide) hw) fun h => absurd (hfactory.symm.trans h.1) (by decide)),
      if_neg fun h => absurd h.1 (by decide)]
    rfl
  · refine (hdo (markRemove d.toNat plane.toNat block.toNat)).trans ?_
    rw [markRemove_factory hu hw hfactory]
    rfl
  · refine (hdo (markRemove d.toNat plane.toNat block.toNat)).trans ?_
    rw [markRemove_none hu hnone]
    rfl

/-! ### The roster (14 R336) -/

/-- The roster's word of a die as a write of ROSTER_ENT gives it, but for its state. -/
def rosterWritten (v : Word64) (old : Roster) : Roster :=
  { old with valid := v.getLsbD 63, hold := v.getLsbD 59, profile := v.toNat / 2 ^ 52 % 16, id := v.extractLsb' 0 32 }

/-- A write keeps which die it names: VALID, PROFILE and ID stay. -/
def sameDie (v : Word64) (old : Roster) : Prop :=
  (rosterWritten v old).valid = old.valid ∧ (rosterWritten v old).profile = old.profile
  ∧ (rosterWritten v old).id = old.id

section RosterPut

variable {d : Nat} {v : Word64} {s : State}

theorem rosterPut_same (h : sameDie v (rosterOf d s)) :
    rosterPut d v s = if (rosterWritten v (rosterOf d s)).hold = true ∧ (rosterOf d s).hold = false
      ∧ (rosterOf d s).valid = true ∧ (rosterOf d s).state = .present
      then quarantine d 3 (setRoster d (rosterWritten v (rosterOf d s)) (renewRoster d s))
      else setRoster d (rosterWritten v (rosterOf d s)) (renewRoster d s) := by
  obtain ⟨hvalid, hprofile, hid⟩ := h
  refine if_neg fun hchanges => ?_
  exact (of_decide_eq_true hchanges).elim (absurd hvalid) fun h => h.elim (absurd hprofile) (absurd hid)

theorem rosterPut_other (h : ¬ sameDie v (rosterOf d s)) :
    rosterPut d v s = if dieTagged d s = true then raiseErr .map 0x0102 d s
      else rosterMove d .expected 0 (setRoster d (rosterWritten v (rosterOf d s)) (renewRoster d s)) := by
  refine if_pos (decide_eq_true ?_)
  simp only [sameDie, not_and_or] at h
  exact h

end RosterPut

theorem rosterOf_setRoster (d k : Nat) (r : Roster) (s : State) :
    rosterOf k (setRoster d r s) = if k = d then r else rosterOf k s := SMap.get_put rosterDefault s.map.roster d k r

/-- A die that is not PRESENT moves in its word of the roster alone. -/
theorem rosterMove_absent {d cause : Nat} {st : RosterState} {s : State} (h : (rosterOf d s).state ≠ .present) :
    rosterMove d st cause s = setRoster d { rosterOf d s with state := st, qcause := cause } s :=
  if_neg fun hp => h hp.1

theorem rosterWriteEffect : Claims.RosterWriteEffect := by
  intro value s hactive u d w old new same
  have hexec : exec (.rosterWrite value) s = .next (settle (csrOk 0 (rosterPut d value u))) :=
    congrArg fin (csrDo_answers (rosterWrite value) (pageAnswers_of_active hactive))
  rw [hexec]
  refine ⟨fun hsame hstay => ?_, fun hsame hhold hfree hvalid hpresent => ?_, fun hother htagged => ?_,
    fun hother htagged habsent => ⟨_, rfl, ?_⟩⟩
  · rw [rosterPut_same (s := u) hsame, if_neg]
    · rfl
    · rintro ⟨hhold, hfree, hvalid, hpresent⟩
      rcases hstay with h | h | h | h
      · exact absurd (hhold.symm.trans h) (by decide)
      · exact absurd (h.symm.trans hfree) (by decide)
      · exact absurd (hvalid.symm.trans h) (by decide)
      · exact h hpresent
  · rw [rosterPut_same (s := u) hsame, if_pos ⟨hhold, hfree, hvalid, hpresent⟩]
    rfl
  · rw [rosterPut_other (s := u) hother, if_pos (show dieTagged d u = true from htagged)]
  · have hthere : rosterOf d (setRoster d new w) = new := (rosterOf_setRoster d d new w).trans (if_pos rfl)
    have hput : rosterPut d value u
        = setRoster d { new with state := .expected, qcause := 0 } (setRoster d new w) := by
      rw [rosterPut_other (s := u) hother, if_neg (Bool.eq_false_iff.mp (show dieTagged d u = false from htagged))]
      refine (rosterMove_absent (s := setRoster d new w) (by rw [hthere]; exact habsent)).trans ?_
      rw [hthere]
    rw [hput]
    refine ⟨(rosterOf_setRoster ..).trans (if_pos rfl), fun k hk => ?_, rfl⟩
    rw [rosterOf_setRoster, if_neg hk, rosterOf_setRoster, if_neg hk]
    rfl

/-- Settles O21: the commands on marks, and the write of the roster. -/
theorem marksAndRoster : Obligations.MarksAndRoster := ⟨markCommands, rosterWriteEffect⟩

end Sys2Proof.Machine
end

section
/-!
Batches of the erase journal close, and its pages end (O23; 14 R350, R351, R353).
-/

namespace Sys2Proof.Machine

/-! ### What a page that is written leaves alone -/

section JobKeeps

variable {α : Type} (f : State → α) (hh : ∀ p h s, f (setHdr p h s) = f s) (hp : ∀ d s, f { s with dpt := d } = f s)
  (hm : ∀ m s, f { s with mem := m } = f s) (ht : ∀ k v s, f (setTag k v s) = f s)
include hh hp hm

/-- The encoding of a codeword touches DPT, its upsets and the counters. -/
theorem encodeInto_keeps (id d plane block page idx : Nat) (slc : Bool) (pos : Nat) (user : List Byte) (s : State) :
    f (encodeInto id d plane block page idx slc pos user s) = f s := by
  simp only [encodeInto]
  rw [bump_keeps f hh, modProg, hp, clearStaged, hm]
  split
  · exact bump_keeps f hh ..
  · rfl

include ht

theorem stageJob_keeps (id : Nat) (s : State) : f (stageJob id s) = f s := by
  simp only [stageJob]
  split
  · rw [foldl_keeps f (fun s i => encodeInto_keeps f hh hp hm _ _ _ _ _ _ _ _ _ s), modTag_eq, ht, notePeak, hp,
      bump_keeps f hh, hp]
  · rw [modTag_eq, ht]

variable (hd : ∀ k v s, f (setDie k v s) = f s)
  (hj : ∀ n m s, f { s with eng.grvNext := n, map.jobs := m } = f s)
include hd hj

theorem startJob_keeps (why : JobFor) (kind : DieOpKind) (d plane block page : Nat) (slc : Bool) (last lrow maxrung : Nat)
    (s : State) : f (startJob why kind d plane block page slc last lrow maxrung s) = f s := by
  simp only [startJob]
  split
  · rw [stageJob_keeps f hh hp hm ht, enqueue_keeps f hd, ht]
    exact hj ..
  · rw [enqueue_keeps f hd, ht]
    exact hj ..

variable (hq : ∀ q s, f { s with map.jseq := q } = f s)
  (hx : ∀ n b s, f { s with map.jnext := n, map.jblock := b } = f s)

omit hp hm hh ht hd hj in
include hx in
theorem jrnlAdvance_keeps (hs : ∀ why kind d plane block page slc last lrow maxrung s,
    f (startJob why kind d plane block page slc last lrow maxrung s) = f s) (s : State) : f (jrnlAdvance s) = f s := by
  have hmove : f { s with map.jnext := s.map.jnext + 1 } = f s := hx (s.map.jnext + 1) s.map.jblock s
  simp only [jrnlAdvance]
  split
  · exact hx ..
  · split
    · rw [foldl_keeps f fun s i => hs ..]
      exact hmove
    · exact hmove

include hq hx in
/-- A page that is written is the page in writing; beside it only its two programs, SEQ and the next page move. -/
theorem jrnlWrite_keeps (p : JPage) (s : State) :
    f (jrnlWrite p s) = f { s with map.jpage := some { p with res0 := none, res1 := none } } := by
  have hs := startJob_keeps f hh hp hm ht hd hj
  rw [jrnlWrite, jrnlAdvance_keeps f hx hs, hq, foldl_keeps f fun s i => hs ..]

end JobKeeps

@[simp] theorem jrnlWrite_jpage (p : JPage) (s : State) :
    (jrnlWrite p s).map.jpage = some { p with res0 := none, res1 := none } :=
  jrnlWrite_keeps (fun s => s.map.jpage) (fun _ _ _ => rfl) (fun _ _ => rfl) (fun _ _ => rfl) (fun _ _ _ => rfl)
    (fun _ _ _ => rfl) (fun _ _ _ => rfl) (fun _ _ => rfl) (fun _ _ _ => rfl) p s

@[simp] theorem jrnlWrite_pwr (p : JPage) (s : State) : (jrnlWrite p s).pwr = s.pwr :=
  jrnlWrite_keeps State.pwr (fun _ _ _ => rfl) (fun _ _ => rfl) (fun _ _ => rfl) (fun _ _ _ => rfl)
    (fun _ _ _ => rfl) (fun _ _ _ => rfl) (fun _ _ => rfl) (fun _ _ _ => rfl) p s

/-! ### When a batch is written (14 R350, R352) -/

section WriteBatch

variable {s : State}

theorem batchFull_iff : batchFull s = true ↔ s.map.jrnl = .running
    ∧ (64 ≤ s.map.forming.length ∨ (s.map.forming ≠ [] ∧ s.map.formingAt + jrnlWait s ≤ s.cc)) := by
  simp [batchFull]

theorem jrnlWrites_running (hactive : pageActive .map s = true) (hrun : s.map.jrnl = .running)
    (hnone : s.map.jpage = none) : jrnlWrites s = true := by
  simp [jrnlWrites, hactive, hrun, hnone]

theorem writeBatch_writing (h : s.map.jpage ≠ none) : writeBatch s = s := by
  have hbusy : jrnlWrites s = false := by
    rw [jrnlWrites, Option.isNone_eq_false_iff.mpr (Option.isSome_iff_ne_none.mpr h), Bool.and_false]
  rw [writeBatch]
  split
  · rw [hbusy, Bool.false_and, if_neg (by decide)]
  · rfl

theorem writeBatch_none (h : closedLeft s = []) : writeBatch s = s := by rw [writeBatch, h]

theorem writeBatch_oldest {l : List Intent} {r : List (List Intent)} (hleft : closedLeft s = l :: r)
    (hwrites : jrnlWrites s = true) (hopen : openBatches s < openMax s) :
    writeBatch s = jrnlWrite (nextPageWith l s) { s with map.closed := r } := by
  simp only [writeBatch, hleft, hwrites, hopen, decide_true, Bool.and_true, if_true]

theorem jrnlGoOn_writing (h : (writeBatch s).map.jpage ≠ none) : jrnlGoOn s = writeBatch s :=
  if_neg fun hn => h hn.2.1

theorem confirmDue_none (h : confirmSince s = none) : confirmDue s = s := by rw [confirmDue, h]

theorem confirmDue_early {t : Nat} (hsince : confirmSince s = some t) (h : s.cc < t + jrnlWait s) : confirmDue s = s := by
  rw [confirmDue, hsince]
  exact if_neg (Nat.not_le.mpr h)

theorem confirmDue_due {t : Nat} (hsince : confirmSince s = some t) (h : t + jrnlWait s ≤ s.cc) :
    confirmDue s = if (writeBatch s).map.jpage.isSome then writeBatch s else writeConfirm s := by
  rw [confirmDue, hsince]
  exact if_pos h

end WriteBatch

/-- The oldest of the pending confirmations. -/
theorem confirmSince_iff (s : State) (t : Nat) : confirmSince s = some t
    ↔ ∃ i ∈ pendingDones s, i.doneAt = t ∧ ∀ j ∈ pendingDones s, t ≤ j.doneAt := by
  have hfold (l : List Intent) (m : Nat) : (l.foldl (fun m j => min m j.doneAt) m) ≤ m
      ∧ (∀ j ∈ l, (l.foldl (fun m j => min m j.doneAt) m) ≤ j.doneAt)
      ∧ ((l.foldl (fun m j => min m j.doneAt) m) = m ∨ ∃ i ∈ l, i.doneAt = l.foldl (fun m j => min m j.doneAt) m) := by
    induction l generalizing m with
    | nil => simp
    | cons a r ih =>
      obtain ⟨hle, hall, hone⟩ := ih (min m a.doneAt)
      rw [List.foldl_cons]
      refine ⟨by omega, fun j hj => ?_, ?_⟩
      · rcases List.mem_cons.mp hj with rfl | hr
        · omega
        · exact hall j hr
      · rcases hone with h | ⟨i, hi, h⟩
        · rcases Nat.le_total m a.doneAt with hm | hm
          · exact .inl (h.trans (Nat.min_eq_left hm))
          · exact .inr ⟨a, List.mem_cons_self, (h.trans (Nat.min_eq_right hm)).symm⟩
        · exact .inr ⟨i, List.mem_cons_of_mem _ hi, h⟩
  rw [confirmSince]
  cases hp : pendingDones s with
  | nil => simp
  | cons a l =>
    obtain ⟨hle, hall, hone⟩ := hfold l a.doneAt
    have hleast : ∀ j ∈ a :: l, l.foldl (fun m j => min m j.doneAt) a.doneAt ≤ j.doneAt := fun j hj =>
      (List.mem_cons.mp hj).elim (fun h => h ▸ hle) (hall j)
    have hthere : ∃ i ∈ a :: l, i.doneAt = l.foldl (fun m j => min m j.doneAt) a.doneAt :=
      hone.elim (fun h => ⟨a, List.mem_cons_self, h.symm⟩) fun ⟨i, hi, h⟩ => ⟨i, List.mem_cons_of_mem _ hi, h⟩
    rw [Option.some_inj]
    constructor
    · rintro rfl
      exact hthere.imp fun i hi => ⟨hi.1, hi.2, hleast⟩
    · rintro ⟨i, hi, rfl, hmin⟩
      obtain ⟨j, hj, hjt⟩ := hthere
      have hij := hmin j hj
      have hji := hleast i hi
      omega

theorem journalBatchesClose : Claims.JournalBatchesClose := by
  intro s hactive hrun wait due closed
  have hfull (h : due) : exec .jrnlBatchClose s = .next (settle (jrnlGoOn closed)) := by
    exact congrArg fin (if_pos (batchFull_iff.mpr ⟨hrun, h⟩))
  have hforming (h : due) : (s.map.forming.take 64).isEmpty = false := by
    have hne : s.map.forming ≠ [] := h.elim (fun hlen hnil => by rw [hnil] at hlen; exact absurd hlen (by decide)) And.left
    cases hform : s.map.forming with
    | nil => exact absurd hform hne
    | cons a r => rfl
  have hconfirm : exec .jrnlConfirmDue s = .next (settle (confirmDue s)) := rfl
  refine ⟨fun h hpage => ?_, fun h hpage hnone hopen => ?_, fun t hsince hdue hpage hnone => ?_,
    fun t l r hsince hdue hpage hclosed hne hopen => ?_, fun t hsince hearly => ?_, fun t hsince hpage => ?_,
    fun hsince => ?_, confirmSince_iff s⟩
  · have hwrite : writeBatch closed = closed := writeBatch_writing hpage
    rw [hfull h, jrnlGoOn_writing (by rw [hwrite]; exact hpage), hwrite]
  · have hleft : closedLeft closed = [s.map.forming.take 64] := by
      simp [closedLeft, closed, hnone, hforming h]
    have hwrite : writeBatch closed = jrnlWrite (nextPageWith (s.map.forming.take 64) closed)
        { closed with map.closed := [] } := writeBatch_oldest hleft (jrnlWrites_running hactive hrun hpage) hopen
    rw [hfull h, jrnlGoOn_writing (by rw [hwrite, jrnlWrite_jpage]; exact Option.some_ne_none _), hwrite]
    rfl
  · have hleft : closedLeft s = [] := by rw [closedLeft, hnone, List.filter_nil]
    have hwrites : jrnlWrites s = true := jrnlWrites_running hactive hrun hpage
    rw [hconfirm, confirmDue_due hsince hdue, writeBatch_none hleft, hpage, if_neg (by decide), writeConfirm,
      if_pos hwrites]
  · have hleft : closedLeft s = l :: r := by
      rw [closedLeft, hclosed]
      exact List.filter_eq_self.mpr fun x hx => by simpa [List.isEmpty_iff] using hne x hx
    have hwrite := writeBatch_oldest hleft (jrnlWrites_running hactive hrun hpage) hopen
    rw [hconfirm, confirmDue_due hsince hdue, hwrite, jrnlWrite_jpage, Option.isSome_some, if_pos rfl]
  · rw [hconfirm, confirmDue_early hsince hearly]
  · rw [hconfirm]
    by_cases hdue : t + jrnlWait s ≤ s.cc
    · rw [confirmDue_due hsince hdue, writeBatch_writing hpage, if_pos (Option.isSome_iff_ne_none.mpr hpage)]
    · rw [confirmDue_early hsince (Nat.lt_of_not_le hdue)]
  · rw [hconfirm, confirmDue_none hsince]

/-! ### The page ends (14 R350, R353) -/

theorem pfAdvance_none {s : State} (h : s.pwr.step = .none) : pfAdvance s = s := by
  have hone : pfStep s = s := by rw [pfStep, h]
  rw [pfAdvance, hone, hone, hone]

theorem queueErase_keeps {α : Type} (f : State → α) (hd : ∀ k v s, f (setDie k v s) = f s) (s : State) (i : Intent) :
    f (queueErase s i) = f s := by
  rw [queueErase]
  split
  · exact enqueue_keeps f hd ..
  · rfl

/-- A page that carries no DONE bit ends no batch that has an intent to write. -/
theorem recordDones_nil {s : State} (h : ∀ b ∈ s.map.batches, b.intents.all (·.written) = false) :
    recordDones [] s = s := by
  have hcarried (q : Word32) (l : List Intent) : l.zipIdx.map (carried [] q) = l := List.zipIdx_map_fst 0 l
  have hheld : (s.map.batches.flatMap fun b => (b.intents.zipIdx.filter fun i => ([] : List (Word32 × Nat)).contains
      (b.seq, i.2) && i.1.live).map (·.1.tag)) = [] := by simp
  have hkept : s.map.batches.filter (fun b => !b.intents.all (·.written)) = s.map.batches :=
    List.filter_eq_self.mpr fun b hb => by rw [h b hb]; rfl
  rw [recordDones, hheld]
  simp only [hcarried, List.map_id', hkept, List.foldl_nil]

section PageEnds

variable {s : State} {p : JPage} (hpage : s.map.jpage = some p) (hlast : p.lastWords = false)
include hpage hlast

theorem jrnlPageDone_passed (h : pageResult p = some true) : jrnlPageDone s = jrnlGoOn (pageRecorded p s) := by
  rw [jrnlPageDone, hpage]
  simp only [hlast, h]

theorem jrnlPageDone_lost (h : pageResult p = some false) : jrnlPageDone s = pageLost p s := by
  rw [jrnlPageDone, hpage]
  simp only [hlast, h]

end PageEnds

/-- A page of which both programs have passed, that carries no DONE bit, while no batch is open. -/
theorem pageRecorded_first {s : State} {p : JPage} (hres0 : p.res0 = some true) (hres1 : p.res1 = some true)
    (hdones : p.dones = []) (hbatches : s.map.batches = []) (hsome : p.intents ≠ [])
    (hunwritten : ∀ i ∈ p.intents, i.written = false) {α : Type} (f : State → α)
    (hd : ∀ k v s, f (setDie k v s) = f s) :
    f (pageRecorded p s) = f { bumpBy .map 9 p.intents.length (bump .map 8 s) with
      map := { s.map with jpage := none, batches := [{ seq := p.seq, intents := p.intents }] } } := by
  have hmap : (bumpBy .map 9 p.intents.length (bump .map 8 s)).map = s.map :=
    (bumpBy_keeps State.map (fun _ _ _ => rfl) ..).trans (bump_keeps State.map (fun _ _ _ => rfl) ..)
  have hempty : p.intents.isEmpty = false := List.isEmpty_eq_false_iff.mpr hsome
  have hopen : p.intents.all (·.written) = false := by
    obtain ⟨i, r, hcons⟩ := List.exists_cons_of_ne_nil hsome
    rw [hcons, List.all_cons, hunwritten i (hcons ▸ List.mem_cons_self), Bool.false_and]
  rw [pageRecorded, foldl_keeps f (queueErase_keeps f hd), if_pos ⟨hres0, hres1⟩, hmap, hdones, hempty, hbatches,
    recordDones_nil]
  · rfl
  · intro b hb
    rw [List.mem_singleton.mp hb]
    exact hopen

theorem journalPageEnds : Claims.JournalPageEnds := by
  intro s p hpage hlast hstep hclosed
  have hexec {v : State} (hdone : jrnlPageDone s = v) (hv : v.pwr = s.pwr) :
      exec .jrnlPageDone s = .next (settle v) := by
    have hnone : pfAdvance v = v := pfAdvance_none (hv ▸ hstep)
    exact congrArg fin ((congrArg pfAdvance hdone).trans hnone)
  refine ⟨fun hres0 hres1 hdones hbatches hsome hunwritten => ?_, fun hres0 hres1 hfirst => ⟨fun hactive => ?_,
    fun hidle => ?_⟩, fun hres0 hres1 hsecond => ?_⟩
  · have hresult : pageResult p = some true := by rw [pageResult, hres0, hres1]; rfl
    have hrecorded := @pageRecorded_first s p hres0 hres1 hdones hbatches hsome hunwritten
    have hmap := hrecorded State.map fun _ _ _ => rfl
    have hhdr : (pageRecorded p s).hdr = (bumpBy .map 9 p.intents.length (bump .map 8 s)).hdr :=
      hrecorded State.hdr fun _ _ _ => rfl
    have hcounted {α : Type} (f : State → α) (hh : ∀ p h s, f (setHdr p h s) = f s)
        (hd : ∀ k v s, f (setDie k v s) = f s) (hm : ∀ m s, f { s with map := m } = f s) : f (pageRecorded p s) = f s :=
      (hrecorded f hd).trans ((hm ..).trans ((bumpBy_keeps f hh ..).trans (bump_keeps f hh ..)))
    have hregs := hcounted State.regs (fun _ _ _ => rfl) (fun _ _ _ => rfl) fun _ _ => rfl
    have hops := hcounted State.ops (fun _ _ _ => rfl) (fun _ _ _ => rfl) fun _ _ => rfl
    have hpwr := hcounted State.pwr (fun _ _ _ => rfl) (fun _ _ _ => rfl) fun _ _ => rfl
    have hleft : closedLeft (pageRecorded p s) = [] := by rw [closedLeft, hmap, hclosed, List.filter_nil]
    have hgo : jrnlPageDone s = jrnlGoOn (pageRecorded p s) := jrnlPageDone_passed hpage hlast hresult
    rw [jrnlGoOn, writeBatch_none hleft] at hgo
    by_cases hwaits : s.map.jfirst = true
    · rw [if_pos ⟨by rw [hmap]; exact hwaits, by rw [hmap], hleft⟩] at hgo
      refine ⟨_, hexec hgo hpwr, ?_⟩
      simp only [hmap, hwaits, if_true]
      exact ⟨trivial, trivial, trivial, trivial, hhdr, hregs, hops⟩
    · rw [if_neg fun h => hwaits (by rw [hmap] at h; exact h.1)] at hgo
      refine ⟨_, hexec hgo hpwr, ?_⟩
      rw [hmap, if_neg hwaits]
      exact ⟨rfl, rfl, rfl, Bool.eq_false_iff.mpr hwaits, hhdr, hregs, hops⟩
  all_goals
    have hresult : pageResult p = some false := by rw [pageResult, hres0, hres1]; rfl
    have hlost : jrnlPageDone s = pageLost p s := jrnlPageDone_lost hpage hlast hresult
  · rw [pageLost, if_neg (by rw [hfirst]; decide), jrnlPut, if_pos hactive] at hlost
    exact hexec hlost (jrnlWrite_pwr ..)
  · rw [pageLost, if_neg (by rw [hfirst]; decide), jrnlPut, if_neg (by rw [hidle]; decide)] at hlost
    exact hexec hlost rfl
  · rw [pageLost, if_pos hsecond, hclosed] at hlost
    simp only [List.isEmpty_iff] at hlost
    exact hexec hlost ((raiseErr_keeps State.pwr (fun _ _ _ => rfl) ..).trans
      (raiseEvt_keeps State.pwr (fun _ _ _ => rfl) ..))

/-- Settles O23: batches close, and pages end. -/
theorem journalPages : Obligations.JournalPages := ⟨journalBatchesClose, journalPageEnds⟩

end Sys2Proof.Machine
end

section
/-!
A rail command that the statement on rail groups gets wrong (O16; 13 R316).
-/

namespace Sys2Proof.Machine

/-- PWR is enabled and rail group 0 is in OFF. Its map lists group 0 twice, the second time in RAMP, which no read of the
group sees. -/
def groupListedTwice : State :=
  { State.reset with
    hdr := [(pageNum .glb, { enable := true }), (pageNum .pwr, { enable := true })]
    pwr := { State.reset.pwr with groups := [(0, {}), (0, { rail := .ramp })] } }

/-- The state meets what the statement asks of a command that waits. -/
theorem groupListedTwice_waits : pageActive .pwr groupListedTwice = true ∧ pageAnswers .pwr groupListedTwice = true
    ∧ (groupOf 0 groupListedTwice).rail = .off ∧ rampRuns groupListedTwice = true := by decide +kernel

/-- The write of the group's row drops the entry that stood in RAMP, so that the command does not wait. -/
theorem groupListedTwice_ramps :
    (groupOf 0 (bootAdvance (cmdOn 0 (dropLatches .pwr groupListedTwice)))).rail = .ramp := by decide +kernel

theorem groupListedTwice_stated : (groupOf 0 (bootAdvance (setGroup 0 { groupOf 0 groupListedTwice with onWait := true }
    (dropLatches .pwr groupListedTwice)))).rail = .off := by decide +kernel

/-- What the statement says of a rail command while another group ramps. -/
theorem railCmdOn_of_claim (hclaim : Claims.RailCommandOnRamps) {s : State} (hactive : pageActive .pwr s = true)
    (hanswers : pageAnswers .pwr s = true) (hoff : (groupOf 0 s).rail = .off) (hramp : rampRuns s = true) :
    groupOf 0 (bootAdvance (cmdOn 0 (dropLatches .pwr s)))
      = groupOf 0 (bootAdvance (setGroup 0 { groupOf 0 s with onWait := true } (dropLatches .pwr s))) := by
  obtain ⟨-, hwait⟩ := hclaim 0 s hactive (.inl hoff)
  have hdo : exec (.railCmdOn 0) s = .next (settle (csrOk 0 (bootAdvance (cmdOn 0 (dropLatches .pwr s))))) :=
    congrArg fin (csrDo_answers (fun s => bootAdvance (cmdOn 0 s)) hanswers)
  have hsame := congrArg (groupOf 0) (Host.Outcome.next.inj (hdo.symm.trans (hwait hramp hoff)))
  rwa [groupOf_settle, groupOf_settle] at hsame

/-- Refutes O16: RailCommandOnRamps has RAIL_CMD_ON wait in every state in which a group is in RAMP. Whether one is, the
model asks of the entries of the map of groups; in groupListedTwice the one entry in RAMP stands behind another of the
same group, and the command's own write of that group takes it away, so that the group ramps at once. The map is not in
its canonical form there, which every write keeps; the statement speaks of every state. -/
theorem not_railCommandsAndPins : ¬ Obligations.RailCommandsAndPins := by
  intro h
  obtain ⟨hactive, hanswers, hoff, hramp⟩ := groupListedTwice_waits
  have hsame := congrArg Group.rail (railCmdOn_of_claim h.1 hactive hanswers hoff hramp)
  rw [groupListedTwice_ramps, groupListedTwice_stated] at hsame
  exact absurd hsame (by decide)

end Sys2Proof.Machine
end

section
/-!
A replan on another port than that of a tag's records: what the statements on the disk ports get wrong (O56, O57; 12 R290,
R294, R297).
-/

namespace Sys2Proof.Machine

/-- A sector of tag 0 on port 0, not resolved. -/
def foreignRec : Rec :=
  { tag := 0, sector := 0, pos := 0, wedge := 0, order := 0, head := 0, track := 0, zone := 0, size := 4096 }

/-- Tag 0 holds an issued DESTAGE of actuator 1, whose port replans, and is still the next tag to be given out. Its one
record stands on port 0, which has no sync. -/
def replannedElsewhere : State :=
  setReg (.dsp 1) oDspConfig 0x10000
    { State.reset with
      tmb := { State.reset.tmb with state := .hold, frame := 255 }
      ops := { State.reset.ops with tags := [(0, { state := .issued, entry :=
        ⟨0, 0, [BitVec.ofNat 32 (2 ^ 31 + opDestage * 2 ^ 16), 0, 0, 0, 0, 0, 0, 0, 0, 0, 0x80000200, 1, 0, 0, 0, 0]⟩ })] }
      dsp := [(0, { recs := [foreignRec] })] }

/-- The state meets what the statement asks of a resolution without sync. -/
theorem replannedElsewhere_due : resolveDue 0 0 replannedElsewhere = [foreignRec]
    ∧ resolveDue 1 0 replannedElsewhere = [] ∧ syncValid 0 replannedElsewhere = false
    ∧ bitAt (regOf (dspPage 0) oDspConfig replannedElsewhere) 16 = false ∧ tagOpen 0 replannedElsewhere = true := by
  decide +kernel

/-- The replan takes the tag again, and its admission is refused with a status that is not the one stated. -/
theorem replannedElsewhere_refused : (tagOf 0 (destageResolve 0 replannedElsewhere)).status ≠ 0x42 := by decide +kernel

/-- Refutes O57: DestageResolved has the open tag of an entry that is resolved without sync commit STREAM_UNDERRUN, where
the port of its records does not replan. Whether the tag is replanned, the model asks of the port of the entry's actuator
(12 R297). In replannedElsewhere that is the other port; the replan is given the very tag, and its admission fails with a
status of its own. No run is known to reach it: records stand on the port of their entry, and a tag in use is not given
out. The statement speaks of every state. -/
theorem not_diskPortEvents : ¬ Obligations.DiskPortEvents := by
  intro h
  obtain ⟨hresolved, -⟩ := h
  obtain ⟨hdue, hnone, hsync, hreplans, hopen⟩ := replannedElsewhere_due
  obtain ⟨-, -, hone⟩ := hresolved 0 replannedElsewhere
  obtain ⟨-, hlost⟩ := hone 0 1 foreignRec (by decide) hdue hnone
  obtain ⟨v, hexec, -, -, hcommits⟩ := hlost hsync hreplans
  obtain ⟨-, hstatus⟩ := hcommits rfl hopen
  have hsettle : settle (destageResolve 0 replannedElsewhere) = settle v := Host.Outcome.next.inj hexec
  have htag : tagOf 0 (destageResolve 0 replannedElsewhere) = tagOf 0 v := by
    rw [← tagOf_settle 0 (destageResolve 0 replannedElsewhere), hsettle, tagOf_settle]
  exact replannedElsewhere_refused ((congrArg TagRow.status htag).trans hstatus)

/-- The same tag and record, whose frame is planned and awaits its decision with no sample. -/
def heldElsewhere : State :=
  { replannedElsewhere with
    cc := 100000
    dsp := [(0, { frames := [(7, 0)], recs := [{ foreignRec with frame := some 7 }] })] }

/-- The state meets what the statement asks of a sector that a check holds. -/
theorem heldElsewhere_held : 0 = refAct heldElsewhere ∧ (dspOf 0 heldElsewhere).frames = [(7, 0)]
    ∧ decisionOf 0 7 0 heldElsewhere = some none ∧ (dspOf 0 heldElsewhere).open_ = none
    ∧ (dspOf 0 heldElsewhere).tx = .none ∧ (dspOf 0 heldElsewhere).armed = []
    ∧ nextRec 0 heldElsewhere = some { foreignRec with frame := some 7 }
    ∧ holdCheck 0 { foreignRec with frame := some 7 } none heldElsewhere ≠ 0
    ∧ bitAt (regOf (dspPage 0) oDspConfig heldElsewhere) 16 = false ∧ tagOpen 0 heldElsewhere = true := by
  decide +kernel

theorem heldElsewhere_refused : (tagOf 0 (wedgeDecision 0 heldElsewhere)).status ≠ 0x42 := by decide +kernel

/-- Refutes O56: SectorReleasedOrHeld has the open tag of a held sector commit STREAM_UNDERRUN, where the port of its
record does not replan. As in replannedElsewhere, the entry's actuator is that of the other port, which replans the very
tag. No run is known to reach it; the statement speaks of every state. -/
theorem not_sectorsReleased : ¬ Obligations.SectorsReleased := by
  intro h
  obtain ⟨-, hreleased, -⟩ := h
  obtain ⟨href, hframes, hdecision, hopen, htx, harmed, hnext, hcheck, hreplans, htag⟩ := heldElsewhere_held
  obtain ⟨v, hexec, -, -, hheld, -⟩ := hreleased 0 heldElsewhere 7 0 [] { foreignRec with frame := some 7 } none href
    hframes hdecision hopen htx harmed hnext rfl
  obtain ⟨-, -, -, -, hcommits⟩ := hheld rfl hcheck hreplans
  obtain ⟨-, hstatus⟩ := hcommits htag
  have hsettle : settle (wedgeDecision 0 heldElsewhere) = settle v := Host.Outcome.next.inj hexec
  have hrow : tagOf 0 (wedgeDecision 0 heldElsewhere) = tagOf 0 v := by
    rw [← tagOf_settle 0 (wedgeDecision 0 heldElsewhere), hsettle, tagOf_settle]
  exact heldElsewhere_refused ((congrArg TagRow.status hrow).trans hstatus)

end Sys2Proof.Machine
end

section
/-!
What a read of a protected word and an action on a bus leave alone (O42; 17 R393, R394, 07 R155).
-/

namespace Sys2Proof.Machine

/-! ### The headers of other pages (17 R393, R394) -/

section OtherPage

variable {q : Page}

theorem hdrOf_bumpBy_other {p : Page} (i n : Nat) (s : State) (h : pageNum q ≠ pageNum p) :
    hdrOf q (bumpBy p i n s) = hdrOf q s := by
  rcases bumpBy_eq p i n s with hsame | ⟨_, hset⟩
  · rw [hsame]
  · rw [hset, hdrOf_setHdr_other _ _ h]

theorem hdrOf_raiseEvt_other {p : Page} (i : Nat) (s : State) (h : pageNum q ≠ pageNum p) :
    hdrOf q (raiseEvt p i s) = hdrOf q s := hdrOf_setHdr_other _ _ h

variable (hq : pageNum q ≠ pageNum .mem)
include hq

theorem hdrOf_setBkp0_other (i : Nat) (s : State) : hdrOf q (setBkp0 i s) = hdrOf q s := hdrOf_setHdr_other _ _ hq

theorem hdrOf_captureSpare_other (cls idx why : Nat) (s : State) :
    hdrOf q (captureSpare cls idx why s).1 = hdrOf q s := by
  rw [captureSpare]
  split
  · rfl
  · split
    · exact hdrOf_bump_other _ _ hq
    · exact hdrOf_setBkp0_other hq _ _

theorem hdrOf_logError_other (e : LogEnt) (s : State) : hdrOf q (logError e s) = hdrOf q s := by
  rw [logError]
  split
  · rfl
  · split
    · split
      · exact hdrOf_captureSpare_other hq ..
      · rfl
    · split
      · exact hdrOf_bump_other _ _ hq
      · rfl

theorem hdrOf_correctable_other (cls idx byte_ bit_ : Nat) (s : State) :
    hdrOf q (correctable cls idx byte_ bit_ s) = hdrOf q s := by
  have hcount (u : State) : hdrOf q (bumpCeTotal u) = hdrOf q u := hdrOf_setHdr_other _ _ hq
  rw [correctable, hdrOf_logError_other hq, hcount, hdrOf_raiseEvt_other _ _ hq, hdrOf_bump_other _ _ hq]

theorem hdrOf_failed_other (u : Upset) (s : State) : hdrOf q (failed u s) = hdrOf q s := by
  rw [failed, hdrOf_raiseErr_other _ _ _ hq, hdrOf_logError_other hq, hdrOf_setBkp0_other hq,
    hdrOf_raiseEvt_other _ _ hq, hdrOf_bump_other _ _ hq]

/-- A word that is read reports on MEM alone. -/
theorem hdrOf_readWord_other (cls idx : Nat) (s : State) : hdrOf q (readWord cls idx s) = hdrOf q s := by
  refine foldl_keeps (hdrOf q) (fun s u => ?_) _ s
  rw [findUpset]
  split
  · exact hdrOf_correctable_other hq ..
  · split
    · rfl
    · exact hdrOf_failed_other hq ..

end OtherPage

/-! ### What an action on a bus leaves of a start (07 R155) -/

theorem pageNum_sch_chnPage (c : Nat) : pageNum .sch ≠ pageNum (chnPage c) := by
  simp only [chnPage, pageNum]
  omega

/-- A die whose operation may have set its levels. -/
def levelsAside (x : Die) : Die := { x with run := x.run.map fun o => { o with needLevels := false } }

/-- What the statement says of a start: the die, the header of SCH, MAP and RIF. -/
def startView (n : Nat) (s : State) : Die × Hdr × MapSt × Rif := (levelsAside (dieOf n s), hdrOf .sch s, s.map, s.rif)

theorem startView_of_parts {n : Nat} {s u : State} (hsch : u.sch.dies = s.sch.dies) (hhdr : hdrOf .sch u = hdrOf .sch s)
    (hmap : u.map = s.map) (hrif : u.rif = s.rif) : startView n u = startView n s := by
  simp only [startView, dieOf, hsch, hhdr, hmap, hrif]

section StartView

variable (n : Nat)

theorem startView_bump {p : Page} (i : Nat) (s : State) (h : pageNum .sch ≠ pageNum p) :
    startView n (bump p i s) = startView n s :=
  startView_of_parts (congrArg Sch.dies (bump_keeps State.sch (fun _ _ _ => rfl) ..)) (hdrOf_bump_other _ _ h)
    (bump_keeps State.map (fun _ _ _ => rfl) ..) (bump_keeps State.rif (fun _ _ _ => rfl) ..)

theorem startView_readWord (cls idx : Nat) (s : State) : startView n (readWord cls idx s) = startView n s :=
  startView_of_parts
    (congrArg Sch.dies (readWord_keeps State.sch (fun _ _ _ => rfl) (fun _ _ => rfl) (fun _ _ _ => rfl) ..))
    (hdrOf_readWord_other (by decide) ..)
    (readWord_keeps State.map (fun _ _ _ => rfl) (fun _ _ => rfl) (fun _ _ _ => rfl) ..)
    (readWord_keeps State.rif (fun _ _ _ => rfl) (fun _ _ => rfl) (fun _ _ _ => rfl) ..)

theorem startView_addLoad (d : Nat) (k : LoadKind) (cost : Nat) (s : State) :
    startView n (addLoad d k cost s) = startView n s := addLoad_keeps (startView n) (fun _ _ _ => rfl) ..

theorem startView_beginAct (c : Nat) (a : BusAct) (v : Option Nat) (l : List PadCycle) (s : State) :
    startView n (beginAct c a v l s) = startView n s := by
  have hchan (k : Nat) (x : Chan) (u : State) : startView n (setChan k x u) = startView n u := rfl
  simp only [beginAct, modChan_eq]
  rw [hchan]
  split
  · exact startView_bump n _ _ (pageNum_sch_chnPage c)
  · rfl

theorem startView_goAct (c : Nat) (a : BusAct) (s : State) : startView n (goAct c a s) = startView n s := by
  unfold goAct
  extract_lets loaded polled v
  have hloaded : startView n loaded = startView n s := by
    simp only [loaded]
    split
    · exact startView_addLoad ..
    · rfl
  have hpolled : startView n polled = startView n loaded := by
    simp only [polled]
    split
    · exact startView_bump n _ _ (pageNum_sch_chnPage c)
    · rfl
  rw [startView_beginAct, giveJobs_keeps (startView n) fun _ _ _ => rfl, hpolled, hloaded]

theorem startView_beginResume (d : Nat) (s : State) : startView n (beginResume d s) = startView n s := by
  rw [beginResume]
  split
  · rfl
  · rw [startView_goAct, startView_addLoad]

theorem startView_goSuspend (c d : Nat) (s : State) : startView n (goSuspend c d s) = startView n s := by
  rw [goSuspend]
  split
  · exact startView_goAct ..
  · exact startView_beginResume ..

theorem startView_takeBand (d : Nat) (o : DieOp) (s : State) : startView n (takeBand d o s) = startView n s := by
  rw [takeBand]
  split
  · refine foldl_keeps (startView n) (fun u id => ?_) _ s
    split <;> rfl
  · rfl

/-- The operation of a die has its levels set. -/
theorem startView_levelsSet {d : Nat} {o : DieOp} {s u : State} (hrun : (dieOf d s).run = some o)
    (hsame : startView n u = startView n s) (hdie : dieOf d u = dieOf d s) :
    startView n (modDie d (fun x => { x with run := some { o with needLevels := false } }) u) = startView n s := by
  rw [← hsame, modDie_eq]
  refine Prod.ext ?_ rfl
  by_cases h : n = d
  · subst h
    simp only [startView, dieOf_setDie_same, levelsAside, hdie, hrun, Option.map_some]
  · simp only [startView, dieOf_setDie_other _ _ h]

theorem startView_goStart (c d : Nat) (s : State) : startView n (goStart c d s) = startView n s := by
  rw [goStart]
  split
  · rfl
  · rename_i o hrun
    have hband : dieOf d (takeBand d o s) = dieOf d s := by
      rw [takeBand]
      split
      · refine foldl_keeps (dieOf d) (fun u id => ?_) _ s
        split <;> rfl
      · rfl
    have hset := startView_levelsSet n hrun (startView_takeBand n d o s) hband
    have hread (u : State) : startView n (readLevels d o u) = startView n u :=
      foldl_keeps (startView n) (fun _ _ => startView_readWord ..) _ u
    have hlevels (v : Option SetLevels) (u : State) : startView n (setLevels d v u) = startView n u := rfl
    dsimp only
    split
    · rw [hlevels, startView_goAct]
      split
      · exact hset
      · rw [hread, hset]
    · rw [startView_goAct, hset]

/-- What takes the bus first leaves the start of an operation as it is. -/
theorem startView_shortFirst {c : Nat} {f : State → State} {s : State} (h : shortFirst c s = some f) :
    startView n (f s) = startView n s := by
  unfold shortFirst at h
  split at h
  · obtain rfl := Option.some.inj h
    exact startView_goSuspend ..
  · obtain rfl := Option.some.inj h
    exact startView_goStart ..
  · obtain rfl := Option.some.inj h
    exact startView_goAct ..
  · exact absurd h (by simp)

end StartView

end Sys2Proof.Machine
end

section
/-!
The start gate, and the starts, resumes and restarts of a die (O42; 13 R307, 07 R147 to R149, R155, R158).
-/

namespace Sys2Proof.Machine

/-! ### The gate (13 R307) -/

theorem startGateConditions : Claims.StartGateConditions := by
  intro d it s hkind hjob hactive hgranted
  have hopen : gateOpen (dieGroup d) (opCost d it.kind it.slc s) s = true ∧ s.pwr.step = .none := by
    simp only [granted, hkind, hjob, hactive, Bool.not_true, Bool.or_false, Bool.false_eq_true, if_false] at hgranted
    split at hgranted
    · exact absurd hgranted (by decide)
    · rename_i hrun
      exact ⟨(Bool.and_eq_true_iff.mp hgranted).1, by simpa [pfRunning] using hrun⟩
  obtain ⟨hgate, hstep⟩ := hopen
  simp only [gateOpen, Bool.and_eq_true, Bool.or_eq_true, decide_eq_true_eq, Bool.not_eq_true'] at hgate
  obtain ⟨⟨⟨⟨⟨hload, htotal⟩, hstagger⟩, hrail⟩, hthrottle⟩, -⟩ := hgate
  exact ⟨hload, htotal, hstagger, hrail, hthrottle, hstep⟩

/-! ### A die whose suspend is judged again (07 R157) -/

/-- Only the die's state and what its suspend request has come to may change. -/
theorem recheck_die {d : Nat} {s : State} {α : Type} (g : Die → α)
    (hg : ∀ x st e t, g { x with state := st, suspErase := e, suspTaken := t } = g x) :
    g (dieOf d (recheck d s)) = g (dieOf d s) := by
  simp only [recheck]
  split
  · rw [dieOf_setDie_same]
    exact hg ..
  · split
    · rw [dieOf_setDie_same]
      exact hg _ _ (dieOf d s).suspErase _
    · rfl

theorem recheck_other {d k : Nat} (s : State) (h : k ≠ d) : dieOf k (recheck d s) = dieOf k s := by
  simp only [recheck]
  split
  · exact dieOf_setDie_other _ _ h
  · split
    · exact dieOf_setDie_other _ _ h
    · rfl

/-- A die that neither programs, erases nor has a suspend requested stays as it is. -/
theorem recheck_calm {d : Nat} {s : State} (hprogram : (dieOf d s).state ≠ .program) (herase : (dieOf d s).state ≠ .erase)
    (hrequest : (dieOf d s).state ≠ .suspReq) : recheck d s = s := by
  simp [recheck, hprogram, herase, hrequest]

/-! ### A start that is granted (07 R147, 13 R307) -/

/-- The die once its choice has left the queue. -/
def unqueued (it : QItem) (x : Die) : Die :=
  { x with startWait := none, heldItem := none, queue := x.queue.filter fun q => !([it].contains q) }

/-- A start that merges with none, counted, presented and with its load. -/
def startPaid (d : Nat) (it : QItem) (s : State) : State :=
  let s := bump .sch 8 (bumpBy .sch 6 0 s)
  let s := if pageActive .pwr s ∧ gatedKind it.kind = true then bump .pwr 0 (noteStart (dieGroup d) s) else s
  let s := present_ d it it.planes s
  if featureKind it.kind then s else addLoad d .array (opCost d it.kind it.slc s) s

/-- The operation that a start which merges with none puts on the die. -/
def aloneOp (it : QItem) (now : Nat) : DieOp :=
  { kind := it.kind, ids := [it.id], planes := it.planes, block := it.block, page := it.page, slc := it.slc,
    rung := it.rung, attempt := it.attempt, key := it.key, inArray := false, since := now, ran := 0, pollAt := 0,
    dropped := false, needLevels := readKind it.kind }

/-- The state in which it does so. -/
def startReady (d : Nat) (it : QItem) (s : State) : State :=
  startRow it it.id (modDie d (unqueued it) (startPaid d it s))

theorem startItem_alone {d : Nat} {it : QItem} {s : State} (h : mergeSet d it s = []) : startItem d it s
    = if isProgram (aloneOp it (startReady d it s).cc)
      then startIn d (aloneOp it (startReady d it s).cc)
        (modDie d (fun x => { x with suspCount := 0, threshRaised := false }) (startReady d it s))
      else modDie d (fun x => { x with run := some (aloneOp it (startReady d it s).cc),
                                       state := startState it.kind x.state }) (startReady d it s) := by
  unfold startItem
  rw [h]
  simp only [List.foldl_cons, List.foldl_nil, List.map_cons, List.map_nil, List.length_nil, Nat.zero_or]
  rfl

section StartPaid

variable {α : Type} (f : State → α) (hg : ∀ k v s, f (setGroup k v s) = f s) (he : ∀ k v s, f (setEng k v s) = f s)
  (hq : ∀ l s, f { s with eng.grvQueue := l } = f s) (hb : ∀ s, f (bump .pwr 0 s) = f s)
include hg he hq hb

/-- Beside SCH's counters a start is paid for in PWR and presented to a thread. -/
theorem startPaid_keeps (d : Nat) (it : QItem) (s : State) :
    f (startPaid d it s) = f (bump .sch 8 (bumpBy .sch 6 0 s)) := by
  unfold startPaid
  extract_lets counted noted presented
  have hnoted : f noted = f counted := by
    simp only [noted]
    split
    · rw [hb, noteStart, modGroup_eq, hg]
    · rfl
  have hpresented : f presented = f noted := by
    simp only [presented, present_]
    split
    · exact hq ..
    · split
      · rfl
      · exact giveJobs_keeps f he ..
  split
  · exact hpresented.trans hnoted
  · exact (addLoad_keeps f hg ..).trans (hpresented.trans hnoted)

variable (hd : ∀ k v s, f (setDie k v s) = f s) (ht : ∀ k v s, f (setTag k v s) = f s)
include hd ht

theorem startReady_keeps (d : Nat) (it : QItem) (s : State) :
    f (startReady d it s) = f (bump .sch 8 (bumpBy .sch 6 0 s)) := by
  rw [startReady, startRow, modTag_eq, ht, modDie_eq, hd, startPaid_keeps f hg he hq hb]

end StartPaid

section StartReady

variable (d : Nat) (it : QItem) (s : State)

/-- What no counter, load, thread, die or row sees. -/
theorem startReady_apart {α : Type} (f : State → α) (hh : ∀ p h s, f (setHdr p h s) = f s)
    (hg : ∀ k v s, f (setGroup k v s) = f s) (he : ∀ k v s, f (setEng k v s) = f s)
    (hq : ∀ l s, f { s with eng.grvQueue := l } = f s) (hd : ∀ k v s, f (setDie k v s) = f s)
    (ht : ∀ k v s, f (setTag k v s) = f s) : f (startReady d it s) = f s := by
  rw [startReady_keeps f hg he hq (bump_keeps f hh .pwr 0) hd ht, bump_keeps f hh, bumpBy_keeps f hh]

theorem dieOf_startReady : dieOf d (startReady d it s) = unqueued it (dieOf d s) := by
  have hpaid : dieOf d (startPaid d it s) = dieOf d s := by
    rw [startPaid_keeps (dieOf d) (fun _ _ _ => rfl) (fun _ _ _ => rfl) (fun _ _ => rfl)
      (bump_keeps (dieOf d) (fun _ _ _ => rfl) .pwr 0), bump_keeps (dieOf d) fun _ _ _ => rfl,
      bumpBy_keeps (dieOf d) fun _ _ _ => rfl]
  have hrow : dieOf d (startReady d it s) = dieOf d (modDie d (unqueued it) (startPaid d it s)) := rfl
  rw [hrow, modDie_eq, dieOf_setDie_same, hpaid]

theorem hdrOf_startReady : hdrOf .sch (startReady d it s) = hdrOf .sch (bump .sch 8 (bumpBy .sch 6 0 s)) :=
  startReady_keeps (hdrOf .sch) (fun _ _ _ => rfl) (fun _ _ _ => rfl) (fun _ _ => rfl)
    (fun s => hdrOf_bump_other 0 s (by decide)) (fun _ _ _ => rfl) (fun _ _ _ => rfl) d it s

theorem startReady_map : (startReady d it s).map = s.map :=
  startReady_apart d it s State.map (fun _ _ _ => rfl) (fun _ _ _ => rfl) (fun _ _ _ => rfl) (fun _ _ => rfl)
    (fun _ _ _ => rfl) (fun _ _ _ => rfl)

theorem startReady_rif : (startReady d it s).rif = s.rif :=
  startReady_apart d it s State.rif (fun _ _ _ => rfl) (fun _ _ _ => rfl) (fun _ _ _ => rfl) (fun _ _ => rfl)
    (fun _ _ _ => rfl) (fun _ _ _ => rfl)

theorem startReady_cc : (startReady d it s).cc = s.cc :=
  startReady_apart d it s State.cc (fun _ _ _ => rfl) (fun _ _ _ => rfl) (fun _ _ _ => rfl) (fun _ _ => rfl)
    (fun _ _ _ => rfl) (fun _ _ _ => rfl)

/-- A start leaves how many pages a data-in has: a row's entry stays as it is. -/
theorem inPages_startReady (o : DieOp) : inPages d o (startReady d it s) = inPages d o s := by
  let u := modDie d (unqueued it) (startPaid d it s)
  have hentry (k : Nat) : (tagOf k (startRow it it.id u)).entry = (tagOf k u).entry := by
    rw [startRow, modTag_eq]
    by_cases h : k = it.id
    · rw [h, tagOf_setTag_same]
    · rw [tagOf_setTag_other _ _ h]
  have hrow : inPages d o (startReady d it s) = inPages d o u := by
    rw [startReady, inPages, inPages, opUnit, opUnit, hentry]
    rfl
  rw [hrow]
  exact (startPaid_keeps (inPages d o) (fun _ _ _ => rfl) (fun _ _ _ => rfl) (fun _ _ => rfl)
    (bump_keeps (inPages d o) (fun _ _ _ => rfl) .pwr 0) d it s).trans
      ((bump_keeps (inPages d o) (fun _ _ _ => rfl) ..).trans (bumpBy_keeps (inPages d o) (fun _ _ _ => rfl) ..))

theorem candsOf_startReady (c : Nat) : candsOf c (startReady d it s) = candsOf c s :=
  startReady_apart d it s (candsOf c) (fun _ _ _ => rfl) (fun _ _ _ => rfl) (fun _ _ _ => rfl) (fun _ _ => rfl)
    (fun _ _ _ => rfl) (fun _ _ _ => rfl)

end StartReady

/-- The queue without the item that starts. -/
theorem queue_unqueued (it : QItem) (x : Die) :
    (unqueued it x).queue = x.queue.filter fun q => decide (q ≠ it) :=
  List.filter_congr fun q _ => by simp

/-! ### The pages of a data-in (07 R152) -/

theorem addPage_keeps {α : Type} (f : State → α) (hc : ∀ k v s, f (setCands k v s) = f s) (d : Nat) (o : DieOp)
    (s : State) (n : Nat) : f (addPage d o s n) = f s := by
  rw [addPage]
  split
  · rfl
  · exact hc ..

theorem startIn_keeps {α : Type} (f : State → α) (hc : ∀ k v s, f (setCands k v s) = f s) (d : Nat) (o : DieOp)
    (s : State) : f (startIn d o s) = f (modDie d (fun x => { x with dataIn := some (o, 0), abandoned := none }) s) :=
  foldl_keeps f (addPage_keeps f hc d o) _ _

/-- Each page of a data-in becomes a candidate of the die's channel. -/
theorem candsOf_startIn {d id : Nat} {o : DieOp} {r : List Nat} (hids : o.ids = id :: r) (s : State) :
    ∃ ys, candsOf (dieChannel d) (startIn d o s) = candsOf (dieChannel d) s ++ ys ∧ ys.length = inPages d o s
      ∧ ∀ y ∈ ys, y.id = id ∧ y.die = d % 32 ∧ y.kind = 1 := by
  have hpages (l : List Nat) (u : State) : ∃ ys, candsOf (dieChannel d) (l.foldl (addPage d o) u)
      = candsOf (dieChannel d) u ++ ys ∧ ys.length = l.length ∧ ∀ y ∈ ys, y.id = id ∧ y.die = d % 32 ∧ y.kind = 1 := by
    induction l generalizing u with
    | nil => exact ⟨[], by simp⟩
    | cons n l ih =>
      obtain ⟨ys, hys, hlen, hall⟩ := ih (addPage d o u n)
      have hone : ∃ y, candsOf (dieChannel d) (addPage d o u n) = candsOf (dieChannel d) u ++ [y]
          ∧ y.id = id ∧ y.die = d % 32 ∧ y.kind = 1 := by
        rw [addPage, hids]
        exact ⟨_, candsOf_setCands_same .., rfl, rfl, rfl⟩
      obtain ⟨y, hy, hpage⟩ := hone
      refine ⟨y :: ys, ?_, by rw [List.length_cons, List.length_cons, hlen], fun z hz => ?_⟩
      · rw [List.foldl_cons, hys, hy, List.append_assoc, List.singleton_append]
      · exact (List.mem_cons.mp hz).elim (fun h => h ▸ hpage) (hall z)
  obtain ⟨ys, hys, hlen, hall⟩ := hpages (List.range (inPages d o s))
    (modDie d (fun x => { x with dataIn := some (o, 0), abandoned := none }) s)
  exact ⟨ys, hys, hlen.trans List.length_range, hall⟩

/-! ### START_GRANT (13 R307, R308) -/

section StartGrant

variable {d : Nat} {it : QItem} {s : State}

theorem startGrant_none (h : startChoice d s = none) : startGrant d s = unhold d s := by rw [startGrant, h]

theorem startGrant_held (h : startChoice d s = some it) (hgate : granted d it s = false) :
    startGrant d s = holdStart d it s := by
  rw [startGrant, h]
  exact if_neg (by rw [hgate]; decide)

/-- A granted start stands on the die, and what the bus takes first follows. -/
theorem startGrant_granted (h : startChoice d s = some it) (hgate : granted d it s = true) :
    let u := recheck d (startItem d it s)
    startGrant d s = u ∨ ((dieOf d u).run ≠ none
      ∧ ∃ f, shortFirst (dieChannel d) u = some f ∧ startGrant d s = f u) := by
  intro u
  have hgo : startGrant d s = match (dieOf d u).run, shortFirst (dieChannel d) u with
      | some _, some f => f u
      | _, _ => u := by
    rw [startGrant, h]
    exact if_pos hgate
  rw [hgo]
  cases hrun : (dieOf d u).run with
  | none => exact .inl rfl
  | some o =>
    cases hshort : shortFirst (dieChannel d) u with
    | none => exact .inl rfl
    | some f => exact .inr ⟨Option.some_ne_none o, f, rfl, rfl⟩

theorem startView_startGrant (h : startChoice d s = some it) (hgate : granted d it s = true) :
    startView d (startGrant d s) = startView d (recheck d (startItem d it s)) := by
  rcases startGrant_granted h hgate with hsame | ⟨-, f, hshort, hf⟩
  · rw [hsame]
  · rw [hf, startView_shortFirst d hshort]

theorem unhold_stays (h : ∀ it, ¬((dieOf d s).heldItem = some it ∧ (dieOf d s).startWait.isSome = true
    ∧ granted d it s = true)) : unhold d s = s := by
  rw [unhold]
  split
  · rename_i it hheld
    exact if_neg fun hgo => h it ⟨hheld, hgo⟩
  · rfl

theorem unhold_freed (hheld : (dieOf d s).heldItem = some it) (hwait : (dieOf d s).startWait.isSome = true)
    (hgate : granted d it s = true) :
    unhold d s = recheck d (setDie d { dieOf d s with startWait := none, heldItem := none } s) := by
  rw [unhold, hheld]
  exact if_pos ⟨hwait, hgate⟩

theorem holdStart_waiting (h : (dieOf d s).startWait ≠ none) :
    holdStart d it s = setDie d { dieOf d s with heldItem := some it } s :=
  if_pos (Option.isSome_iff_ne_none.mpr h)

/-- What a counter counts to. -/
theorem cntOf_bump (p : Page) (i : Nat) (s : State) : cntOf p i (bump p i s)
    = if frozen p s then cntOf p i s else satTo 0xFFFFFFFF (cntBase p i s + 1) := by
  rw [bump, bumpBy]
  by_cases hfrozen : frozen p s = true
  · rw [if_pos (.inl hfrozen), if_pos hfrozen]
  · rw [if_neg (fun h => h.elim hfrozen (by decide)), if_neg hfrozen, countTo, cntOf, hdrOf_setHdr_same,
      SMap.get_put_same]

theorem frozen_countTo {p : Page} (hglb : pageNum .glb ≠ pageNum p) (j v : Nat) (s : State) :
    frozen p (countTo p j v s) = frozen p s := by
  rw [frozen, countTo, hdrOf_setHdr_same, hdrOf_setHdr_other _ _ hglb, frozen]

/-- Another count of the page in the same cc leaves what a counter goes on from. -/
theorem cntBase_countTo {p : Page} {i j : Nat} (h : i ≠ j) (v : Nat) (s : State) :
    cntBase p i (countTo p j v s) = cntBase p i s := by
  have hcnt : cntOf p i (countTo p j v s) = cntOf p i s := by
    rw [cntOf, countTo, hdrOf_setHdr_same, SMap.get_put_other _ _ _ h, cntOf]
  have hsets : (nowOf p (countTo p j v s)).sets = (nowOf p s).sets := by
    have hcc : (nowOf p s).cc = s.cc := by
      rw [nowOf]
      split
      · assumption
      · rfl
    rw [nowOf, countTo, hdrOf_setHdr_same]
    split
    · rfl
    · rename_i hstale
      exact absurd hcc hstale
  rw [cntBase, baseOf, hsets, hcnt, cntBase, baseOf]

theorem cntOf_bump_bump {p : Page} (hglb : pageNum .glb ≠ pageNum p) {i j : Nat} (h : i ≠ j) (s : State) :
    cntOf p i (bump p i (bump p j s)) = cntOf p i (bump p i s) := by
  by_cases hfrozen : frozen p s = true
  · rw [show bump p j s = s from if_pos (.inl hfrozen)]
  · have hcounts : ∃ v, bump p j s = countTo p j v s := ⟨_, if_neg fun h => h.elim hfrozen (by decide)⟩
    obtain ⟨v, hv⟩ := hcounts
    rw [cntOf_bump, cntOf_bump, hv, frozen_countTo hglb, cntBase_countTo h, if_neg hfrozen, if_neg hfrozen]

/-- A start that is held from now on: PWR counts it, and the die waits. -/
theorem holdStart_first (h : (dieOf d s).startWait = none) : let v := holdStart d it s
    (∀ {α : Type} (g : Die → α), (∀ x st e t, g { x with state := st, suspErase := e, suspTaken := t } = g x) →
      g (dieOf d v) = g { dieOf d s with startWait := some s.cc, heldItem := some it })
    ∧ (∀ k, k ≠ d → dieOf k v = dieOf k s) ∧ cntOf .pwr 1 v = cntOf .pwr 1 (bump .pwr 1 s)
    ∧ { v with sch := s.sch, hdr := s.hdr } = s := by
  intro v
  let w := if onlyStagger (dieGroup d) (opCost d it.kind it.slc s) s then bump .pwr 11 s else s
  have hkeeps {α : Type} (f : State → α) (hh : ∀ p h s, f (setHdr p h s) = f s) : f (bump .pwr 1 w) = f s := by
    rw [bump_keeps f hh]
    simp only [w]
    split
    · exact bump_keeps f hh ..
    · rfl
  have hcount : cntOf .pwr 1 (bump .pwr 1 w) = cntOf .pwr 1 (bump .pwr 1 s) := by
    simp only [w]
    split
    · exact cntOf_bump_bump (by decide) (by decide) s
    · rfl
  have hcc : w.cc = s.cc := (bump_keeps State.cc (fun _ _ _ => rfl) ..).symm.trans (hkeeps State.cc fun _ _ _ => rfl)
  let u := setDie d { dieOf d s with startWait := some s.cc, heldItem := some it } (bump .pwr 1 w)
  have hhold : v = recheck d u := by
    have hwaits : v = recheck d
        (modDie d (fun x => { x with startWait := some w.cc, heldItem := some it }) (bump .pwr 1 w)) :=
      if_neg (by rw [h]; decide)
    rw [hwaits, modDie_eq, hcc, hkeeps (dieOf d) fun _ _ _ => rfl]
  let outside (v : State) : State := { v with sch := s.sch, hdr := s.hdr }
  rw [hhold]
  refine ⟨fun g hg => ?_, fun k hk => ?_, (recheck_keeps (cntOf .pwr 1) (fun _ _ _ => rfl) ..).trans hcount, ?_⟩
  · rw [recheck_die g hg, dieOf_setDie_same]
  · rw [recheck_other _ hk, dieOf_setDie_other _ _ hk, hkeeps (dieOf k) fun _ _ _ => rfl]
  · have houtside : outside (recheck d u) = outside (bump .pwr 1 w) := recheck_keeps outside (fun _ _ _ => rfl) d u
    exact houtside.trans (hkeeps outside fun _ _ _ => rfl)

/-- A start that merges with none and is no program's. -/
theorem startItem_runs (hmerge : mergeSet d it s = []) (hprogram : it.kind ≠ .program) (hjob : it.kind ≠ .jobProgram) :
    startItem d it s = setDie d { unqueued it (dieOf d s) with run := some (aloneOp it s.cc),
                                                               state := startState it.kind (dieOf d s).state }
      (startReady d it s) := by
  rw [startItem_alone hmerge, if_neg (by simp [isProgram, aloneOp, hprogram, hjob]), modDie_eq, dieOf_startReady,
    startReady_cc]
  rfl

/-- A program's data-in begins. -/
theorem startItem_program (hmerge : mergeSet d it s = []) (hprogram : it.kind = .program) :
    startItem d it s = startIn d (aloneOp it s.cc) (setDie d
      { unqueued it (dieOf d s) with suspCount := 0, threshRaised := false } (startReady d it s)) := by
  rw [startItem_alone hmerge, if_pos (by simp [isProgram, aloneOp, hprogram]), modDie_eq, dieOf_startReady,
    startReady_cc]

end StartGrant

/-- The operation of a die but for the note that its levels have still to be set. -/
theorem run_of_levelsAside {x y : Die} {o : DieOp} (h : levelsAside x = levelsAside y) (hy : y.run = some o) :
    ∃ b, x.run = some { o with needLevels := b } := by
  have hrun := congrArg Die.run h
  simp only [levelsAside, hy, Option.map_some] at hrun
  cases hx : x.run with
  | none => simp [hx] at hrun
  | some p =>
    rw [hx, Option.map_some, Option.some_inj] at hrun
    refine ⟨p.needLevels, congrArg some ?_⟩
    calc p = { { p with needLevels := false } with needLevels := p.needLevels } := rfl
      _ = { { o with needLevels := false } with needLevels := p.needLevels } := by rw [hrun]
      _ = { o with needLevels := p.needLevels } := rfl

theorem startState_read {k : DieOpKind} (hread : readKind k = true) (old : DieState) :
    startState k old = if old = .suspended then .suspended else .busy := by
  cases k with
  | sense => rfl
  | jobRead => rfl
  | _ => exact absurd hread (by decide)

section Granted

variable {d : Nat} {it : QItem} {s : State} (hchoice : startChoice d s = some it) (hgate : granted d it s = true)
  (hmerge : mergeSet d it s = [])
include hchoice hgate hmerge

/-- What a granted start leaves, where no program's data-in begins. -/
theorem startGrant_runs (hprogram : it.kind ≠ .program) (hjob : it.kind ≠ .jobProgram) :
    let v := startGrant d s
    (∃ b, (dieOf d v).run = some { aloneOp it s.cc with needLevels := b }) ∧ (dieOf d v).startWait = none
    ∧ (dieOf d v).queue = (dieOf d s).queue.filter (fun q => decide (q ≠ it))
    ∧ (readKind it.kind = true → (dieOf d v).state = startState it.kind (dieOf d s).state)
    ∧ hdrOf .sch v = hdrOf .sch (bump .sch 8 (bumpBy .sch 6 0 s)) ∧ v.map = s.map ∧ v.rif = s.rif := by
  intro v
  let y : Die := { unqueued it (dieOf d s) with run := some (aloneOp it s.cc),
                                                state := startState it.kind (dieOf d s).state }
  let u := recheck d (setDie d y (startReady d it s))
  have hview : startView d v = startView d u := by
    have hitem : recheck d (startItem d it s) = u := congrArg (recheck d) (startItem_runs hmerge hprogram hjob)
    exact (startView_startGrant hchoice hgate).trans (congrArg (startView d) hitem)
  have hkeeps {α : Type} (f : State → α) (hd : ∀ k v s, f (setDie k v s) = f s) : f u = f (startReady d it s) :=
    (recheck_keeps f hd ..).trans (hd ..)
  have hpart {α : Type} (g : Die → α) (hg : ∀ x st e t, g { x with state := st, suspErase := e, suspTaken := t } = g x) :
      g (dieOf d u) = g y := (recheck_die g hg).trans (congrArg g (dieOf_setDie_same ..))
  have hdie : levelsAside (dieOf d v) = levelsAside (dieOf d u) := congrArg Prod.fst hview
  refine ⟨run_of_levelsAside hdie (hpart Die.run fun _ _ _ _ => rfl),
    (congrArg Die.startWait hdie).trans (hpart Die.startWait fun _ _ _ _ => rfl),
    (congrArg Die.queue hdie).trans ((hpart Die.queue fun _ _ _ _ => rfl).trans (queue_unqueued ..)), fun hread => ?_,
    (congrArg (·.2.1) hview).trans ((hkeeps (hdrOf .sch) fun _ _ _ => rfl).trans (hdrOf_startReady ..)),
    (congrArg (·.2.2.1) hview).trans ((hkeeps State.map fun _ _ _ => rfl).trans (startReady_map ..)),
    (congrArg (·.2.2.2) hview).trans ((hkeeps State.rif fun _ _ _ => rfl).trans (startReady_rif ..))⟩
  have hstate : (dieOf d (setDie d y (startReady d it s))).state = startState it.kind (dieOf d s).state :=
    congrArg Die.state (dieOf_setDie_same ..)
  have hcalm : u = setDie d y (startReady d it s) := by
    have hread' := startState_read hread (dieOf d s).state
    apply recheck_calm
    all_goals
      rw [hstate, hread']
      split <;> decide
  rw [← hstate, ← hcalm]
  exact show (levelsAside (dieOf d v)).state = (levelsAside (dieOf d u)).state from congrArg Die.state hdie

/-- What a granted program leaves on an idle die: its data-in, and its pages as candidates. -/
theorem startGrant_program (hprogram : it.kind = .program) (hidle : (dieOf d s).state = .idle)
    (hrun : (dieOf d s).run = none) : let v := startGrant d s
    v = startIn d (aloneOp it s.cc) (setDie d { unqueued it (dieOf d s) with suspCount := 0, threshRaised := false }
      (startReady d it s))
    ∧ dieOf d v = { unqueued it (dieOf d s) with suspCount := 0, threshRaised := false,
                                                 dataIn := some (aloneOp it s.cc, 0), abandoned := none } := by
  have hitem := startItem_program hmerge hprogram
  have hdie : dieOf d (startItem d it s) = { unqueued it (dieOf d s) with
      suspCount := 0, threshRaised := false, dataIn := some (aloneOp it s.cc, 0), abandoned := none } := by
    rw [hitem, startIn_keeps (dieOf d) fun _ _ _ => rfl, modDie_eq, dieOf_setDie_same, dieOf_setDie_same]
  have hstate : (dieOf d (startItem d it s)).state = .idle := (congrArg Die.state hdie).trans hidle
  have hcalm : recheck d (startItem d it s) = startItem d it s := by
    apply recheck_calm
    all_goals
      rw [hstate]
      decide
  have hgrant : startGrant d s = startItem d it s := by
    rcases startGrant_granted hchoice hgate with hsame | ⟨hbusy, -⟩
    · rw [hsame, hcalm]
    · rw [hcalm, hdie] at hbusy
      exact absurd hrun hbusy
  intro v
  exact ⟨hgrant.trans hitem, (congrArg (dieOf d) hgrant).trans hdie⟩

end Granted

theorem startGrantedOrHeld : Claims.StartGrantedOrHeld := by
  intro d s n x freed
  have hexec : exec (.startGrant d) s = .next (settle (startGrant n s)) := rfl
  refine ⟨fun hnone hstays => ?_, fun hnone it hfreed => ?_, fun it hchoice => ?_⟩
  · rw [hexec, startGrant_none hnone, unhold_stays hstays]
  · rw [hexec, startGrant_none hnone, unhold_freed hfreed.1 hfreed.2.1 hfreed.2.2]
  intro o
  refine ⟨fun hgate hmerge hprogram hjob => ?_, fun hgate hmerge hprogram hidle hrun => ?_, fun hgate hwait => ?_,
    fun hgate hwait => ?_⟩
  · obtain ⟨⟨b, hrun⟩, hwait, hqueue, hstate, hsch, hmap, hrif⟩ := startGrant_runs hchoice hgate hmerge hprogram hjob
    refine ⟨_, b, hexec, hrun, hwait, hqueue, fun hread hidle => ?_, fun hread hsusp => ?_, hsch, hmap, hrif⟩
    · rw [hstate hread, startState_read hread, if_neg (by rw [hidle]; decide)]
    · rw [hstate hread, startState_read hread, if_pos hsusp]
  · have ho : aloneOp it s.cc = o := by simp only [aloneOp, hprogram, readKind, o]
    obtain ⟨hv, hdie⟩ := startGrant_program hchoice hgate hmerge hprogram hidle hrun
    let z : State := setDie n { unqueued it x with suspCount := 0, threshRaised := false } (startReady n it s)
    obtain ⟨ys, hys, hlen, hall⟩ := candsOf_startIn (d := n) (o := o) (id := it.id) (r := []) rfl z
    rw [ho] at hv hdie
    have hkeeps {α : Type} (f : State → α) (hc : ∀ k v s, f (setCands k v s) = f s)
        (hd : ∀ k v s, f (setDie k v s) = f s) : f (startGrant n s) = f (startReady n it s) := by
      rw [hv, startIn_keeps f hc, modDie_eq, hd, hd]
    have hcands : candsOf (dieChannel n) z = candsOf (dieChannel n) s := candsOf_startReady n it s _
    have hpages : inPages n o z = inPages n o s := inPages_startReady n it s o
    refine ⟨_, ys, hexec, congrArg Die.dataIn hdie, congrArg Die.abandoned hdie, (congrArg Die.run hdie).trans hrun,
      (congrArg Die.queue hdie).trans (queue_unqueued ..), ?_, hlen.trans hpages, hall,
      (hkeeps (hdrOf .sch) (fun _ _ _ => rfl) fun _ _ _ => rfl).trans (hdrOf_startReady ..),
      (hkeeps State.map (fun _ _ _ => rfl) fun _ _ _ => rfl).trans (startReady_map ..),
      (hkeeps State.rif (fun _ _ _ => rfl) fun _ _ _ => rfl).trans (startReady_rif ..)⟩
    rw [hv]
    exact hys.trans (congrArg (· ++ ys) hcands)
  · obtain ⟨hpart, hothers, hcount, hrest⟩ := holdStart_first (d := n) (it := it) hwait
    rw [hexec, startGrant_held hchoice hgate]
    exact ⟨_, rfl, hpart Die.startWait fun _ _ _ _ => rfl, hpart Die.queue fun _ _ _ _ => rfl,
      hpart Die.run fun _ _ _ _ => rfl, hcount, hothers, hrest⟩
  · rw [hexec, startGrant_held hchoice hgate, holdStart_waiting hwait]

/-! ### Resumes (07 R155, R158, 13 R305) -/

/-- A die that takes the bus first has a free bus and a thread that serves it. -/
theorem suspendFirst_serves {c e : Nat} {s : State} (h : suspendFirst c s = some e) :
    busFree c s = true ∧ burinServes c s = true := by
  obtain ⟨hmem, -⟩ := firstBy_attach h
  obtain ⟨hdie, hgo⟩ := List.mem_filter.mp hmem
  have hchan : dieChannel e = c := by
    obtain ⟨p, hp, rfl⟩ := List.mem_map.mp hdie
    exact of_decide_eq_true (List.mem_filter.mp hp).2
  obtain ⟨hwants, hdrives⟩ := Bool.and_eq_true_iff.mp hgo
  have htakes : ∃ a, busTakes c a s = true := by
    rcases Bool.or_eq_true_iff.mp hwants with hdue | hwanted
    · rw [suspendDue, hchan] at hdue
      exact ⟨_, (Bool.and_eq_true_iff.mp hdue).2⟩
    · exact ⟨_, (Bool.and_eq_true_iff.mp hwanted).2⟩
  obtain ⟨a, hbus⟩ := htakes
  exact ⟨(Bool.and_eq_true_iff.mp hbus).1, (Bool.and_eq_true_iff.mp hdrives).1⟩

/-- A resume command costs nothing of its own: the operation's cost counts. -/
theorem beginResume_eq {d : Nat} {h : DieOp} {s : State} (hheld : (dieOf d s).held = some h) : ∃ v l jobs,
    beginResume d s = beginAct (dieChannel d) (.resumeCmd d) v l (giveJobs (dieChannel d) jobs
      (addLoad d .array (opCost d h.kind h.slc s) s)) := by
  rw [beginResume, hheld]
  exact ⟨_, _, _, rfl⟩

theorem beginResume_keeps {α : Type} (f : State → α) (hh : ∀ p h s, f (setHdr p h s) = f s)
    (hc : ∀ k v s, f (setChan k v s) = f s) (he : ∀ k v s, f (setEng k v s) = f s)
    (hg : ∀ k v s, f (setGroup k v s) = f s) (d : Nat) (s : State) : f (beginResume d s) = f s := by
  cases hheld : (dieOf d s).held with
  | none => rw [beginResume, hheld]
  | some h =>
    obtain ⟨v, l, jobs, hv⟩ := beginResume_eq hheld
    rw [hv, beginAct_keeps f hh hc, giveJobs_keeps f he, addLoad_keeps f hg]

section BeginResume

variable {d : Nat} {h : DieOp} {s : State} (hheld : (dieOf d s).held = some h)
include hheld

theorem act_beginResume : (chanOf (dieChannel d) (beginResume d s)).act = some (.resumeCmd d, s.cc) := by
  obtain ⟨v, l, jobs, hv⟩ := beginResume_eq hheld
  rw [hv, act_beginAct, giveJobs_keeps State.cc fun _ _ _ => rfl, addLoad_keeps State.cc fun _ _ _ => rfl]

theorem chanOf_beginResume_other {k : Nat} (hk : k ≠ dieChannel d) : chanOf k (beginResume d s) = chanOf k s := by
  obtain ⟨v, l, jobs, hv⟩ := beginResume_eq hheld
  rw [hv, chanOf_beginAct_other _ _ _ _ hk, giveJobs_keeps (chanOf k) fun _ _ _ => rfl,
    addLoad_keeps (chanOf k) fun _ _ _ => rfl]

theorem load_beginResume (hactive : pageActive .pwr s = true) : ∃ l, (groupOf (dieGroup d) (beginResume d s)).load
    = l ++ [{ die := d, kind := .array, cost := opCost d h.kind h.slc s, from_ := s.cc }] := by
  obtain ⟨v, l, jobs, hv⟩ := beginResume_eq hheld
  rw [hv, beginAct_keeps (groupOf (dieGroup d)) (fun _ _ _ => rfl) fun _ _ _ => rfl,
    giveJobs_keeps (groupOf (dieGroup d)) fun _ _ _ => rfl, addLoad, addLoadFrom, if_pos hactive, modGroup_eq,
    groupOf_setGroup_same]
  exact ⟨_, rfl⟩

end BeginResume

theorem held_of_resumeWanted {d : Nat} {s : State} (h : resumeWanted d s = true) : ∃ o, (dieOf d s).held = some o := by
  cases hheld : (dieOf d s).held with
  | none => simp [resumeWanted, hheld] at h
  | some o => exact ⟨o, rfl⟩

/-! ### Restarts of an abandoned data-in (07 R149) -/

section Restart

variable {d : Nat} {o : DieOp} {s : State}

theorem restartIn_none (h : inAgain d s = false ∨ (dieOf d s).abandoned = none) : restartIn d s = s := by
  rw [restartIn]
  split
  · rfl
  · rename_i o habandoned
    exact if_pos (h.resolve_right (by rw [habandoned]; exact Option.some_ne_none o))

variable (habandoned : (dieOf d s).abandoned = some o) (hagain : inAgain d s = true)
include habandoned hagain

theorem restartIn_held (hgate : granted d (restartItem o s) s = false) :
    restartIn d s = holdStart d (restartItem o s) s := by
  rw [restartIn, habandoned]
  dsimp only
  rw [if_neg (by rw [hagain]; decide), if_neg (by rw [hgate]; decide)]

/-- A restart that is granted: its start is noted and its cost counted, and its data-in begins. -/
theorem restartIn_granted (hgate : granted d (restartItem o s) s = true) : ∃ u, restartIn d s = startIn d o u
    ∧ dieOf d u = { dieOf d s with startWait := none, heldItem := none }
    ∧ ∀ {α : Type} (f : State → α), (∀ p h s, f (setHdr p h s) = f s) → (∀ k v s, f (setGroup k v s) = f s) →
        (∀ k v s, f (setDie k v s) = f s) → f u = f s := by
  let noted := if pageActive .pwr s then bump .pwr 0 (noteStart (dieGroup d) s) else s
  have hnoted {α : Type} (f : State → α) (hh : ∀ p h s, f (setHdr p h s) = f s)
      (hg : ∀ k v s, f (setGroup k v s) = f s) : f noted = f s := by
    simp only [noted]
    split
    · rw [bump_keeps f hh, noteStart, modGroup_eq, hg]
    · rfl
  refine ⟨addLoad d .array (opCost d o.kind o.slc noted)
    (modDie d (fun x => { x with startWait := none, heldItem := none }) noted), ?_, ?_, fun f hh hg hd => ?_⟩
  · rw [restartIn, habandoned]
    dsimp only
    rw [if_neg (by rw [hagain]; decide), if_pos hgate]
  · rw [addLoad_keeps (dieOf d) fun _ _ _ => rfl, modDie_eq, dieOf_setDie_same,
      hnoted (dieOf d) (fun _ _ _ => rfl) fun _ _ _ => rfl]
  · rw [addLoad_keeps f hg, modDie_eq, hd, hnoted f hh hg]

end Restart

/-- A start that the gate holds waits, whether it was held before or not, and nothing outside SCH changes. -/
theorem holdStart_waits (d : Nat) (it : QItem) (s : State) : let v := holdStart d it s
    (dieOf d v).startWait.isSome = true ∧ (dieOf d v).abandoned = (dieOf d s).abandoned
    ∧ { v with sch := s.sch, hdr := s.hdr } = s := by
  intro v
  by_cases hwait : (dieOf d s).startWait = none
  · obtain ⟨hpart, -, -, hrest⟩ := holdStart_first (it := it) hwait
    exact ⟨congrArg Option.isSome (hpart Die.startWait fun _ _ _ _ => rfl), hpart Die.abandoned fun _ _ _ _ => rfl,
      hrest⟩
  · have hv : v = setDie d { dieOf d s with heldItem := some it } s := holdStart_waiting hwait
    rw [hv, dieOf_setDie_same]
    exact ⟨Option.isSome_iff_ne_none.mpr hwait, rfl, rfl⟩

theorem resumeAndRestart : Claims.ResumeAndRestart := by
  intro d s n c go
  have hresume : exec (.resume d) s = .next (settle (resumeDie n s)) := rfl
  have hrestart : exec (.dataInRestart d) s = .next (settle (restartIn n s)) := rfl
  have hgo : (resumeWanted n s && decide (suspendFirst (dieChannel n) s = some n)) = true ↔ go := by
    rw [Bool.and_eq_true, decide_eq_true_eq]
    exact Iff.rfl
  refine ⟨fun hnot => ?_, fun hyes => ?_, fun _ => suspendFirst_serves, fun hnone => ?_,
    fun o id r habandoned hids hagain => ⟨fun hgate => ?_, fun hgate => ?_⟩⟩
  · rw [hresume, resumeDie, if_neg (hgo.not.mpr hnot)]
  · obtain ⟨h, hheld⟩ := held_of_resumeWanted hyes.1
    rw [hresume, resumeDie, if_pos (hgo.mpr hyes)]
    refine ⟨_, rfl, act_beginResume hheld, fun k hk => chanOf_beginResume_other hheld hk, fun hactive h' hh' => ?_,
      beginResume_keeps (fun v : State => { v with chn := s.chn, pwr := s.pwr, hdr := s.hdr, eng := s.eng })
        (fun _ _ _ => rfl) (fun _ _ _ => rfl) (fun _ _ _ => rfl) (fun _ _ _ => rfl) n s⟩
    exact load_beginResume hh' hactive
  · rw [hrestart, restartIn_none hnone]
  · obtain ⟨u, hu, hdie, hkeeps⟩ := restartIn_granted habandoned hagain hgate
    obtain ⟨ys, hys, hlen, hall⟩ := candsOf_startIn (d := n) hids u
    have hstarted : dieOf n (startIn n o u)
        = { dieOf n s with startWait := none, heldItem := none, dataIn := some (o, 0), abandoned := none } := by
      rw [startIn_keeps (dieOf n) fun _ _ _ => rfl, modDie_eq, dieOf_setDie_same, hdie]
    have hrun : (dieOf n (startIn n o u)).run = (dieOf n s).run := by rw [hstarted]
    rw [hrestart, hu]
    refine ⟨_, ys, rfl, congrArg Die.dataIn hstarted, congrArg Die.abandoned hstarted, hrun,
      congrArg Die.startWait hstarted, ?_, ?_, fun y hy => ?_, ?_⟩
    · rw [← hkeeps (candsOf c) (fun _ _ _ => rfl) (fun _ _ _ => rfl) fun _ _ _ => rfl]
      exact hys
    · exact hlen.trans (hkeeps (inPages n o) (fun _ _ _ => rfl) (fun _ _ _ => rfl) fun _ _ _ => rfl)
    · obtain ⟨hid, -, hkind⟩ := hall y hy
      exact ⟨hid, hkind⟩
    · let outside (v : State) : State := { v with sch := s.sch, pwr := s.pwr, hdr := s.hdr }
      have hstart : outside (startIn n o u) = outside u := startIn_keeps outside (fun _ _ _ => rfl) n o u
      exact hstart.trans (hkeeps outside (fun _ _ _ => rfl) (fun _ _ _ => rfl) fun _ _ _ => rfl)
  · obtain ⟨hwait, hkept, hrest⟩ := holdStart_waits n (restartItem o s) s
    rw [hrestart, restartIn_held habandoned hagain hgate]
    exact ⟨_, rfl, hwait, hkept.trans habandoned, hrest⟩

/-- Settles O42, by the gate's conditions, the equations of a granted and of a held start, and the frames of what an
action on a bus leaves alone. -/
theorem startGate : Obligations.StartGate := ⟨startGateConditions, startGrantedOrHeld, resumeAndRestart⟩

end Sys2Proof.Machine
end
